-- ==== Sys2Proof/Word.lean ====
section
/-!
DEFINITION. The word types of the model: a register is 32 bits (00_scope.md R5), a register pair 64 bits (R7).
-/

namespace Sys2Proof

/-- A register word (R5). -/
abbrev Word := BitVec 32
/-- A 64-bit value, two adjacent registers (R7). -/
abbrev DWord := BitVec 64
/-- The smallest addressable unit of a memory. -/
abbrev Byte := BitVec 8

end Sys2Proof
end

