-- ==== Sys2Proof/Machine/Bits.lean ====
section
/-!
DEFINITION. Bit fields, two's complement (00_scope.md R4), saturation, fixed-point rounding, byte order and the
CRC-32 of 05_thrumlos_link_and_frames.md R165, used by every family.
-/

namespace Sys2Proof.Machine

/-- The low `w` bits of `n`. -/
def low (w n : Nat) : Nat := n % 2 ^ w

/-- Bits `[lo+w-1:lo]` of `n`. -/
def bits (n lo w : Nat) : Nat := n / 2 ^ lo % 2 ^ w

/-- `n` with bits `[lo+w-1:lo]` replaced by the low `w` bits of `v`. -/
def setBits (n lo w v : Nat) : Nat := n - bits n lo w * 2 ^ lo + low w v * 2 ^ lo

/-- Bit `i` of `n`. -/
def bit (n i : Nat) : Bool := n.testBit i

/-- A truth value as one bit. -/
def b2n (b : Bool) : Nat := if b then 1 else 0

/-- The signed number that the low `w` bits of `n` hold (R4). -/
def sgn (w n : Nat) : Int := if low w n < 2 ^ (w - 1) then (low w n : Int) else (low w n : Int) - 2 ^ w

/-- The `w`-bit two's complement pattern of `i`, wrapping. -/
def wrapN (w : Nat) (i : Int) : Nat := (i % 2 ^ w).toNat

/-- `i` wrapped into the signed range of `w` bits. -/
def wrapI (w : Nat) (i : Int) : Int := sgn w (wrapN w i)

/-- `i` limited to `[lo, hi]`. -/
def clampI (lo hi i : Int) : Int := if i < lo then lo else if hi < i then hi else i

/-- `i` saturated to the signed range of `w` bits. -/
def satI (w : Nat) (i : Int) : Int := clampI (-(2 ^ (w - 1))) (2 ^ (w - 1) - 1) i

/-- `n` limited to `[lo, hi]`. -/
def clampN (lo hi n : Nat) : Nat := if n < lo then lo else if hi < n then hi else n

/-- One more, saturating at `2 ^ w - 1`. -/
def satInc (w n : Nat) : Nat := if n + 1 < 2 ^ w then n + 1 else 2 ^ w - 1

/-- One more, modulo `2 ^ w`. -/
def wrapInc (w n : Nat) : Nat := (n + 1) % 2 ^ w

/-- `i / 2 ^ k` rounded towards minus infinity. -/
def sar (i : Int) (k : Nat) : Int := i / 2 ^ k

/-- `i / 2 ^ k` rounded half up. -/
def sarRound (i : Int) (k : Nat) : Int := if k = 0 then i else (i + 2 ^ (k - 1)) / 2 ^ k

/-- `n / d` rounded half away from zero; 0 when `d` is 0. -/
def divRound (n d : Int) : Int :=
  if d = 0 then 0
  else
    let s : Int := if (n < 0 ∧ 0 < d) ∨ (0 < n ∧ d < 0) then -1 else 1
    let a := n.natAbs
    let b := d.natAbs
    s * (((2 * a + b) / (2 * b) : Nat) : Int)

/-- `i / 2 ^ k` rounded to nearest, ties to the even neighbour. -/
def sarEven (i : Int) (k : Nat) : Int :=
  let q := i / 2 ^ k
  let r := i % 2 ^ k
  if 2 * r < 2 ^ k then q else if 2 ^ k < 2 * r then q + 1 else if q % 2 = 0 then q else q + 1

/-- Sign of `i`: -1, 0 or 1. -/
def signI (i : Int) : Int := if i < 0 then -1 else if 0 < i then 1 else 0

/-- Value `a` is later than `b` in modulo-`2 ^ w` order (R4). -/
def laterThan (w a b : Nat) : Bool :=
  let d := (a + 2 ^ w - b % 2 ^ w) % 2 ^ w
  d ≠ 0 && d < 2 ^ (w - 1)

/-- The low word of a pair. -/
def loWord (v : DWord) : Word := BitVec.ofNat 32 v.toNat
/-- The high word of a pair. -/
def hiWord (v : DWord) : Word := BitVec.ofNat 32 (v.toNat / 2 ^ 32)
/-- A pair from its words, low word first (R7). -/
def pairOf (l h : Word) : DWord := BitVec.ofNat 64 (h.toNat * 2 ^ 32 + l.toNat)

/-- The `n` bytes of `v`, most significant first. -/
def bytesBE : Nat → Nat → List Byte
  | 0, _ => []
  | n + 1, v => BitVec.ofNat 8 (v / 2 ^ (8 * n)) :: bytesBE n v

/-- The `n` bytes of `v`, least significant first. -/
def bytesLE : Nat → Nat → List Byte
  | 0, _ => []
  | n + 1, v => BitVec.ofNat 8 v :: bytesLE n (v / 256)

/-- The number that bytes spell, most significant first. -/
def ofBytesBE (bs : List Byte) : Nat := bs.foldl (fun a b => a * 256 + b.toNat) 0

/-- The number that bytes spell, least significant first. -/
def ofBytesLE : List Byte → Nat
  | [] => 0
  | b :: t => b.toNat + 256 * ofBytesLE t

/-- Bit reversal of the low `w` bits of `n`. -/
def revBits : Nat → Nat → Nat
  | 0, _ => 0
  | w + 1, n => n % 2 * 2 ^ w + revBits w (n / 2)

/-- `k` shifts of the reflected CRC-32 register (R165). -/
def crcShift : Nat → Nat → Nat
  | 0, c => c
  | k + 1, c => crcShift k (if c % 2 = 1 then (c / 2) ^^^ 0xEDB88320 else c / 2)

/-- CRC-32 of R165: polynomial 0x04C1_1DB7, preset and final inversion all ones, bytes least significant bit first. -/
def crc32 (bs : List Byte) : Nat :=
  (bs.foldl (fun c b => crcShift 8 (c ^^^ b.toNat)) 0xFFFFFFFF) ^^^ 0xFFFFFFFF

/-- `xs` with entry `i` replaced by `f` of it. -/
def modAt {α : Type} (f : α → α) : Nat → List α → List α
  | _, [] => []
  | 0, x :: t => f x :: t
  | i + 1, x :: t => x :: modAt f i t

/-- The largest `r ≤ hi` with `r * r ≤ n`, by bisection with `k` halvings. -/
def sqrtAux (n : Nat) : Nat → Nat → Nat
  | 0, r => r
  | k + 1, r => sqrtAux n k (if (r + 2 ^ k) * (r + 2 ^ k) ≤ n then r + 2 ^ k else r)

/-- Integer square root of `n < 2 ^ (2 * k)`, rounded down. -/
def isqrt (k n : Nat) : Nat := sqrtAux n k 0

end Sys2Proof.Machine
end

