-- ==== Sys2Proof/Machine/Sparse.lean ====
section
/-!
DEFINITION. Sparse maps in one canonical form: keys strictly rising, and no entry equal to what an unlisted key reads
as. Registers and memories are held so. Also the types of the register map (00_scope.md R10, Table 0.6).
-/

namespace Sys2Proof.Machine

variable {α : Type}

/-- The value at key `k`; an unlisted key reads as `dflt k`. -/
def sget (dflt : Nat → α) : List (Nat × α) → Nat → α
  | [], k => dflt k
  | (j, v) :: t, k => if k = j then v else sget dflt t k

/-- The map without key `k`. -/
def sdel : List (Nat × α) → Nat → List (Nat × α)
  | [], _ => []
  | (j, v) :: t, k => if k = j then sdel t k else (j, v) :: sdel t k

/-- The map with `v` at key `k`, in its place; writing what an unlisted key reads as removes the entry. -/
def sput [DecidableEq α] (dflt : Nat → α) : List (Nat × α) → Nat → α → List (Nat × α)
  | [], k, v => if v = dflt k then [] else [(k, v)]
  | (j, w) :: t, k, v =>
    if k = j then (if v = dflt k then sdel t k else (k, v) :: sdel t k)
    else if k < j then (if v = dflt k then (j, w) :: sdel t k else (k, v) :: (j, w) :: sdel t k)
    else (j, w) :: sput dflt t k v

/-- Every key of the map is above `b`, keys rise strictly, and no entry holds its default. -/
def swfFrom [DecidableEq α] (dflt : Nat → α) : Nat → List (Nat × α) → Bool
  | _, [] => true
  | b, (j, v) :: t => decide (b ≤ j) && decide (v ≠ dflt j) && swfFrom dflt (j + 1) t

/-- The canonical form of a sparse map. -/
def swf [DecidableEq α] (dflt : Nat → α) (m : List (Nat × α)) : Bool := swfFrom dflt 0 m

/-- A bit field: `w` bits from bit `lo` of the register at `addr`; a field that passes bit 31 goes on in the
register above (R7). -/
structure Fld where
  addr : Nat
  lo : Nat
  w : Nat
  deriving DecidableEq, Repr

/-- The access codes of Table 0.6, and `win` for the window registers of R506. -/
inductive Acc where
  | rw | ro | w1c | wo | rws | rwl | rwv | win
  deriving DecidableEq, Repr

/-- One field of a register: its bits, its access code on the basic and on the expert page, its default
range (R91) with signedness, and whether it is STANDSTILL_ONLY by default. -/
structure FDesc where
  lo : Nat
  w : Nat
  basic : Acc
  expert : Acc
  rng : Option (Int × Int)
  sig : Bool
  ss : Bool
  deriving DecidableEq, Repr

/-- One register of a page, or `cnt` of them `stp` apart; `wide` for a 64-bit pair. -/
structure RDesc where
  off : Nat
  cnt : Nat
  stp : Nat
  wide : Bool
  fields : List FDesc
  deriving DecidableEq, Repr

/-- A register page, `cnt` copies `stride` apart. -/
structure Page where
  base : Nat
  cnt : Nat
  stride : Nat
  regs : List RDesc
  deriving DecidableEq, Repr

end Sys2Proof.Machine
end

