-- ==== Sys2Proof/Machine/Records.lean ====
section
/-!
DEFINITION. The records of a deck as the Dealer reads them (03_deck.md R79 to R92 and the chapters Table 3.4
names), and the key slots and tokens of 02_trust.md.
-/

namespace Sys2Proof.Machine

/-- Container header of Table 3.1. -/
structure DeckHeader where
  magic : Nat
  format : Nat
  hlen : Nat
  target : Nat
  total : Nat
  secver : Nat
  flags : Nat
  serial : Nat
  slot : Nat
  sections : Nat
  reserved : Nat
  build : Nat
  nonce : Nat
  deriving DecidableEq, Repr

/-- Section table entry of Table 3.2; `tagOk` is the verdict of the AES-GCM engine on an encrypted body (R81). -/
structure SectEntry where
  type : Nat
  sflags : Nat
  offset : Nat
  length : Nat
  count : Nat
  tag : Nat
  tagOk : Bool
  deriving DecidableEq, Repr

/-- AXIS record of Table 3.6. -/
structure AxisRec where
  axis : Nat
  kind : Nat
  level : Nat
  segment : Nat
  node : Nat
  sub : Nat
  feedback : Nat
  flags : Nat
  rcPoints : Nat
  hand : Nat
  graph : Nat
  deriving DecidableEq, Repr

/-- Policy entry of Table 2.6. -/
structure PolicyEntry where
  base : Nat
  limit : Nat
  w2 : Nat
  w3 : Nat
  deriving DecidableEq, Repr

/-- Policy block of R53. -/
structure PolicyBlock where
  master : Nat
  reserved : Nat
  entries : List PolicyEntry
  deriving DecidableEq, Repr

/-- RANGE record of Table 3.8. -/
structure RangeRec where
  addr : Nat
  bit : Nat
  width : Nat
  signed : Nat
  flags : Nat
  min : Int
  max : Int
  step : Nat
  deriving DecidableEq, Repr

/-- LOCK record of Table 3.8. -/
structure LockRec where
  addr : Nat
  len : Nat
  deriving DecidableEq, Repr

/-- SLOT_FILL record of Table 3.8. -/
structure SlotFill where
  slot : Nat
  hash : BitVec 384
  flags : Nat
  deriving DecidableEq, Repr

/-- IMAGE record of Table 3.7. -/
structure ImageRec where
  addr : Nat
  words : List Word
  deriving DecidableEq, Repr

/-- TASK record of Table 3.7. -/
structure TaskRec where
  id : Nat
  entry : Nat
  wcet : Nat
  deriving DecidableEq, Repr

/-- ROUND record of Table 3.5. -/
structure RoundRec where
  rate : Nat
  phase : Nat
  deriving DecidableEq, Repr

/-- FLOW record of Table 3.5. -/
structure FlowRec where
  flow : Nat
  window : Nat
  deriving DecidableEq, Repr

/-- PORT record of Table 18.6. -/
structure PortRec where
  port : Nat
  cfg : Nat
  txlat : Nat
  rxlat : Nat
  mac : Nat
  deriving DecidableEq, Repr

/-- CLOCK record of Table 18.6. -/
structure ClockRec where
  mode : Nat
  jumpTh : Nat
  servo : Nat
  deriving DecidableEq, Repr

/-- QUEUE record of Table 18.6. -/
structure QueueRec where
  queue : Nat
  cfg : Nat
  lateTol : Nat
  deriving DecidableEq, Repr

/-- LATX record of Table 18.6. -/
structure LatxRec where
  port : Nat
  rateDiv : Nat
  udp : Nat
  mac : Nat
  key : BitVec 128
  deriving DecidableEq, Repr

/-- LARX record of Table 18.6. -/
structure LarxRec where
  port : Nat
  serial : Nat
  key : BitVec 128
  deriving DecidableEq, Repr

/-- The PLANT section (R551). -/
structure PlantSect where
  ports : List PortRec
  clocks : List ClockRec
  queues : List QueueRec
  latx : List LatxRec
  larx : List LarxRec
  deriving DecidableEq, Repr

/-- A key slot of OTP (Table 2.2, R44). -/
structure KeySlot where
  hash : BitVec 384
  flags : Nat
  deriving DecidableEq, Repr

/-- An access of a master in one fabric cycle (02_trust.md R55, R60): fabric address, bytes, direction, and whether an engine's task is
cyclic. -/
structure Access where
  m : Fin 39
  addr : Nat
  len : Nat
  write : Bool
  cyclic : Bool
  deriving DecidableEq, Repr

/-- What goes with an access into its fabric cycle: whether its engine's task is cyclic, and the accesses of other masters (R60). -/
structure Beside where
  cyclic : Bool
  others : List Access
  deriving DecidableEq, Repr

/-- One of the die-to-die copies of a transfer (R16). -/
structure D2dCopy where
  crcOk : Bool
  payload : Word
  deriving DecidableEq, Repr

/-- A slot descriptor of the boot flash (R93). -/
structure FlashDesc where
  magic : Nat
  seq : Nat
  length : Nat
  crcOk : Bool
  deriving DecidableEq, Repr

end Sys2Proof.Machine
end

