-- ==== Sys2Proof/Machine/RegMap.lean ====
section
/-!
DEFINITION. The register map: the address of every register, the fields of each, their access codes
(00_scope.md R10), the default ranges of the RWV fields (03_deck.md R91) and the reset values
the chapters give. Offsets are BAR0 offsets (17_host_interface.md R515). Each page names its rule.
-/

namespace Sys2Proof.Machine

/-! Page `dev` at 0x0: chapter 01, R40. -/

/-- Address of DEV_ID (R40). -/
def aDEV_ID : Nat := 0x0
/-- DEV_ID.ID (R40). -/
def DEV_ID : Fld := ⟨aDEV_ID, 0, 32⟩
/-- Address of DEV_STAT (R40). -/
def aDEV_STAT : Nat := 0x4
/-- DEV_STAT.WLOCK_ERR (R40). -/
def DEV_STAT_WLOCK_ERR : Fld := ⟨aDEV_STAT, 0, 1⟩
/-- DEV_STAT.RANGE_ERR (R40). -/
def DEV_STAT_RANGE_ERR : Fld := ⟨aDEV_STAT, 1, 1⟩
/-- DEV_STAT.STALE (R40). -/
def DEV_STAT_STALE : Fld := ⟨aDEV_STAT, 2, 1⟩
/-- DEV_STAT.OVERRUN (R40). -/
def DEV_STAT_OVERRUN : Fld := ⟨aDEV_STAT, 3, 1⟩
/-- DEV_STAT.D2D_ERR (R40). -/
def DEV_STAT_D2D_ERR : Fld := ⟨aDEV_STAT, 4, 1⟩
/-- DEV_STAT.SEG_START_ERR (R40). -/
def DEV_STAT_SEG_START_ERR : Fld := ⟨aDEV_STAT, 5, 1⟩
/-- Address of DEV_BOOT (R40). -/
def aDEV_BOOT : Nat := 0x8
/-- DEV_BOOT.PHASE (R40). -/
def DEV_BOOT_PHASE : Fld := ⟨aDEV_BOOT, 0, 4⟩
/-- DEV_BOOT.FAIL_STEP (R40). -/
def DEV_BOOT_FAIL_STEP : Fld := ⟨aDEV_BOOT, 4, 4⟩
/-- DEV_BOOT.ELAPSED_MS (R40). -/
def DEV_BOOT_ELAPSED_MS : Fld := ⟨aDEV_BOOT, 16, 16⟩
/-- Address of DEV_ROUND (R40). -/
def aDEV_ROUND : Nat := 0x10
/-- DEV_ROUND.ROUND (R40). -/
def DEV_ROUND : Fld := ⟨aDEV_ROUND, 0, 48⟩

/-! Page `dck` at 0x100: chapter 03, R108. -/

/-- Address of DCK_STAT (R108). -/
def aDCK_STAT : Nat := 0x100
/-- DCK_STAT.STATE (R108). -/
def DCK_STAT_STATE : Fld := ⟨aDCK_STAT, 0, 4⟩
/-- DCK_STAT.REASON (R108). -/
def DCK_STAT_REASON : Fld := ⟨aDCK_STAT, 8, 8⟩
/-- DCK_STAT.LOCK_ERR (R108). -/
def DCK_STAT_LOCK_ERR : Fld := ⟨aDCK_STAT, 16, 1⟩
/-- DCK_STAT.DEAL_WR (R108). -/
def DCK_STAT_DEAL_WR : Fld := ⟨aDCK_STAT, 17, 1⟩
/-- DCK_STAT.OTP_ERR (R108). -/
def DCK_STAT_OTP_ERR : Fld := ⟨aDCK_STAT, 18, 1⟩
/-- DCK_STAT.STORE_ERR (R108). -/
def DCK_STAT_STORE_ERR : Fld := ⟨aDCK_STAT, 19, 1⟩
/-- DCK_STAT.STATE_LOST (R108). -/
def DCK_STAT_STATE_LOST : Fld := ⟨aDCK_STAT, 20, 1⟩
/-- Address of DCK_SECT (R108). -/
def aDCK_SECT : Nat := 0x104
/-- DCK_SECT.SECT (R108). -/
def DCK_SECT_SECT : Fld := ⟨aDCK_SECT, 0, 4⟩
/-- DCK_SECT.RTYPE (R108). -/
def DCK_SECT_RTYPE : Fld := ⟨aDCK_SECT, 16, 16⟩
/-- Address of DCK_SECVER (R108). -/
def aDCK_SECVER : Nat := 0x108
/-- DCK_SECVER.SECVER (R108). -/
def DCK_SECVER : Fld := ⟨aDCK_SECVER, 0, 9⟩
/-- Address of DCK_FLASH (R108). -/
def aDCK_FLASH : Nat := 0x10c
/-- DCK_FLASH.SLOT (R108). -/
def DCK_FLASH_SLOT : Fld := ⟨aDCK_FLASH, 0, 1⟩
/-- DCK_FLASH.VALID (R108). -/
def DCK_FLASH_VALID : Fld := ⟨aDCK_FLASH, 1, 1⟩
/-- Address of DCK_SEQ (R108). -/
def aDCK_SEQ : Nat := 0x110
/-- DCK_SEQ.SEQ (R108). -/
def DCK_SEQ : Fld := ⟨aDCK_SEQ, 0, 32⟩
/-- Address of DCK_HASH (R108). -/
def aDCK_HASH (j : Nat) : Nat := 0x120 + 0x4 * j
/-- DCK_HASH.HASH (R108). -/
def DCK_HASH (j : Nat) : Fld := ⟨(aDCK_HASH j), 0, 32⟩

/-! Page `flt` at 0x200: chapter 07, R238. -/

/-- Address of AX_FLT_MAP (R238). -/
def aAX_FLT_MAP (j : Nat) : Nat := 0x200 + 0x4 * j
/-- AX_FLT_MAP.MAP (R238). -/
def AX_FLT_MAP (j : Nat) : Fld := ⟨(aAX_FLT_MAP j), 0, 32⟩

/-! Page `mb` at 0x400: chapter 17, R516. -/

/-- Address of HST_MB_CMD (R516). -/
def aHST_MB_CMD : Nat := 0x400
/-- HST_MB_CMD.CODE (R516). -/
def HST_MB_CMD_CODE : Fld := ⟨aHST_MB_CMD, 0, 8⟩
/-- HST_MB_CMD.LEN (R516). -/
def HST_MB_CMD_LEN : Fld := ⟨aHST_MB_CMD, 8, 21⟩
/-- Address of HST_MB_STAT (R516). -/
def aHST_MB_STAT : Nat := 0x404
/-- HST_MB_STAT.BUSY (R516). -/
def HST_MB_STAT_BUSY : Fld := ⟨aHST_MB_STAT, 0, 1⟩
/-- HST_MB_STAT.DONE (R516). -/
def HST_MB_STAT_DONE : Fld := ⟨aHST_MB_STAT, 1, 1⟩
/-- HST_MB_STAT.OVR (R516). -/
def HST_MB_STAT_OVR : Fld := ⟨aHST_MB_STAT, 2, 1⟩
/-- HST_MB_STAT.DROP (R516). -/
def HST_MB_STAT_DROP : Fld := ⟨aHST_MB_STAT, 3, 1⟩
/-- HST_MB_STAT.RESULT (R516). -/
def HST_MB_STAT_RESULT : Fld := ⟨aHST_MB_STAT, 8, 8⟩
/-- HST_MB_STAT.RWORDS (R516). -/
def HST_MB_STAT_RWORDS : Fld := ⟨aHST_MB_STAT, 16, 16⟩
/-- Address of HST_MB_DATA (R516). -/
def aHST_MB_DATA : Nat := 0x408
/-- HST_MB_DATA.DATA (R516). -/
def HST_MB_DATA : Fld := ⟨aHST_MB_DATA, 0, 32⟩
/-- Address of HST_MB_REPLY (R516). -/
def aHST_MB_REPLY : Nat := 0x40c
/-- HST_MB_REPLY.DATA (R516). -/
def HST_MB_REPLY : Fld := ⟨aHST_MB_REPLY, 0, 32⟩
/-- Address of HST_MB_LEFT (R516). -/
def aHST_MB_LEFT : Nat := 0x410
/-- HST_MB_LEFT.LEFT (R516). -/
def HST_MB_LEFT : Fld := ⟨aHST_MB_LEFT, 0, 21⟩

/-! Page `hst` at 0x800: chapter 17, R515. -/

/-- Address of HST_MODE (R515). -/
def aHST_MODE : Nat := 0x800
/-- HST_MODE.PORT (R515). -/
def HST_MODE_PORT : Fld := ⟨aHST_MODE, 0, 1⟩
/-- HST_MODE.SPEED (R515). -/
def HST_MODE_SPEED : Fld := ⟨aHST_MODE, 1, 2⟩
/-- HST_MODE.LINK_UP (R515). -/
def HST_MODE_LINK_UP : Fld := ⟨aHST_MODE, 3, 1⟩
/-- Address of HST_SUBWORD_CNT (R515). -/
def aHST_SUBWORD_CNT : Nat := 0x804
/-- HST_SUBWORD_CNT.CNT (R515). -/
def HST_SUBWORD_CNT : Fld := ⟨aHST_SUBWORD_CNT, 0, 32⟩
/-- Address of HST_UNMAP_CNT (R515). -/
def aHST_UNMAP_CNT : Nat := 0x808
/-- HST_UNMAP_CNT.CNT (R515). -/
def HST_UNMAP_CNT : Fld := ⟨aHST_UNMAP_CNT, 0, 32⟩
/-- Address of HST_SPI_ERR_CNT (R515). -/
def aHST_SPI_ERR_CNT : Nat := 0x80c
/-- HST_SPI_ERR_CNT.CNT (R515). -/
def HST_SPI_ERR_CNT : Fld := ⟨aHST_SPI_ERR_CNT, 0, 32⟩
/-- Address of HST_LAT_MAX (R515). -/
def aHST_LAT_MAX : Nat := 0x810
/-- HST_LAT_MAX.NS (R515). -/
def HST_LAT_MAX : Fld := ⟨aHST_LAT_MAX, 0, 32⟩
/-- Address of HST_CTL (R515). -/
def aHST_CTL : Nat := 0x814
/-- HST_CTL.CNT_CLR (R515). -/
def HST_CTL : Fld := ⟨aHST_CTL, 0, 1⟩
/-- Address of HST_FW_IEN (R515). -/
def aHST_FW_IEN : Nat := 0x818
/-- HST_FW_IEN.IEN (R515). -/
def HST_FW_IEN : Fld := ⟨aHST_FW_IEN, 0, 16⟩
/-- Address of HST_FW_IRQ (R515). -/
def aHST_FW_IRQ : Nat := 0x81c
/-- HST_FW_IRQ.IRQ (R515). -/
def HST_FW_IRQ : Fld := ⟨aHST_FW_IRQ, 0, 16⟩
/-- Address of HST_ERR_RD_CNT (R515). -/
def aHST_ERR_RD_CNT : Nat := 0x820
/-- HST_ERR_RD_CNT.CNT (R515). -/
def HST_ERR_RD_CNT : Fld := ⟨aHST_ERR_RD_CNT, 0, 32⟩
/-- Address of HST_ERR_ADDR (R515). -/
def aHST_ERR_ADDR : Nat := 0x824
/-- HST_ERR_ADDR.ADDR (R515). -/
def HST_ERR_ADDR : Fld := ⟨aHST_ERR_ADDR, 0, 24⟩

/-! Page `snp` at 0xc00: chapter 17, R529. -/

/-- Address of SNP_CTL (R529). -/
def aSNP_CTL : Nat := 0xc00
/-- SNP_CTL.REQ (R529). -/
def SNP_CTL : Fld := ⟨aSNP_CTL, 0, 1⟩
/-- Address of SNP_STAT (R529). -/
def aSNP_STAT : Nat := 0xc04
/-- SNP_STAT.PEND (R529). -/
def SNP_STAT_PEND : Fld := ⟨aSNP_STAT, 0, 1⟩
/-- SNP_STAT.BUSY (R529). -/
def SNP_STAT_BUSY : Fld := ⟨aSNP_STAT, 1, 1⟩
/-- SNP_STAT.READY (R529). -/
def SNP_STAT_READY : Fld := ⟨aSNP_STAT, 2, 1⟩
/-- SNP_STAT.IMG (R529). -/
def SNP_STAT_IMG : Fld := ⟨aSNP_STAT, 3, 1⟩
/-- Address of SNP_GEN (R529). -/
def aSNP_GEN : Nat := 0xc08
/-- SNP_GEN.GEN (R529). -/
def SNP_GEN : Fld := ⟨aSNP_GEN, 0, 32⟩
/-- Address of SNP_ROUND (R529). -/
def aSNP_ROUND : Nat := 0xc10
/-- SNP_ROUND.ROUND (R529). -/
def SNP_ROUND : Fld := ⟨aSNP_ROUND, 0, 48⟩
/-- Address of SNP_TIME (R529). -/
def aSNP_TIME : Nat := 0xc18
/-- SNP_TIME.TIME (R529). -/
def SNP_TIME : Fld := ⟨aSNP_TIME, 0, 64⟩
/-- Address of SNP_TFRAC (R529). -/
def aSNP_TFRAC : Nat := 0xc20
/-- SNP_TFRAC.FRAC (R529). -/
def SNP_TFRAC : Fld := ⟨aSNP_TFRAC, 0, 32⟩
/-- Address of SNP_ANG (R529). -/
def aSNP_ANG : Nat := 0xc28
/-- SNP_ANG.ANG (R529). -/
def SNP_ANG : Fld := ⟨aSNP_ANG, 0, 64⟩

/-! Page `irq` at 0x2000: chapter 17, R526. -/

/-- Address of IRQ_PEND (R526). -/
def aIRQ_PEND (j : Nat) : Nat := 0x2000 + 0x4 * j
/-- IRQ_PEND.PEND (R526). -/
def IRQ_PEND (j : Nat) : Fld := ⟨(aIRQ_PEND j), 0, 32⟩
/-- Address of IRQ_EN (R526). -/
def aIRQ_EN (j : Nat) : Nat := 0x2040 + 0x4 * j
/-- IRQ_EN.EN (R526). -/
def IRQ_EN (j : Nat) : Fld := ⟨(aIRQ_EN j), 0, 32⟩
/-- Address of IRQ_ROUTE (R526). -/
def aIRQ_ROUTE (j : Nat) : Nat := 0x2080 + 0x4 * j
/-- IRQ_ROUTE.ROUTE (R526). -/
def IRQ_ROUTE (j : Nat) : Fld := ⟨(aIRQ_ROUTE j), 0, 32⟩
/-- Address of IRQ_FIRST (R526). -/
def aIRQ_FIRST (j : Nat) : Nat := 0x2100 + 0x4 * j
/-- IRQ_FIRST.SRC (R526). -/
def IRQ_FIRST_SRC (j : Nat) : Fld := ⟨(aIRQ_FIRST j), 0, 8⟩
/-- IRQ_FIRST.VALID (R526). -/
def IRQ_FIRST_VALID (j : Nat) : Fld := ⟨(aIRQ_FIRST j), 31, 1⟩
/-- Address of IRQ_CFG (R526). -/
def aIRQ_CFG : Nat := 0x2110
/-- IRQ_CFG.INTX (R526). -/
def IRQ_CFG_INTX : Fld := ⟨aIRQ_CFG, 0, 4⟩
/-- IRQ_CFG.OD (R526). -/
def IRQ_CFG_OD : Fld := ⟨aIRQ_CFG, 4, 4⟩
/-- Address of IRQ_LINE (R526). -/
def aIRQ_LINE : Nat := 0x2114
/-- IRQ_LINE.LINE (R526). -/
def IRQ_LINE : Fld := ⟨aIRQ_LINE, 0, 4⟩

/-! Page `irqs` at 0x4000: chapter 17, R523. -/

/-- Address of IRQ_S_TIME_LO (R523). -/
def aIRQ_S_TIME_LO (i : Nat) : Nat := 0x4000 + 0x20 * i
/-- IRQ_S_TIME_LO.T (R523). -/
def IRQ_S_TIME_LO (i : Nat) : Fld := ⟨(aIRQ_S_TIME_LO i), 0, 32⟩
/-- Address of IRQ_S_TIME_HI (R523). -/
def aIRQ_S_TIME_HI (i : Nat) : Nat := 0x4004 + 0x20 * i
/-- IRQ_S_TIME_HI.T (R523). -/
def IRQ_S_TIME_HI (i : Nat) : Fld := ⟨(aIRQ_S_TIME_HI i), 0, 32⟩
/-- Address of IRQ_S_TFRAC (R523). -/
def aIRQ_S_TFRAC (i : Nat) : Nat := 0x4008 + 0x20 * i
/-- IRQ_S_TFRAC.F (R523). -/
def IRQ_S_TFRAC (i : Nat) : Fld := ⟨(aIRQ_S_TFRAC i), 0, 32⟩
/-- Address of IRQ_S_ANG (R523). -/
def aIRQ_S_ANG (i : Nat) : Nat := 0x400c + 0x20 * i
/-- IRQ_S_ANG.A (R523). -/
def IRQ_S_ANG (i : Nat) : Fld := ⟨(aIRQ_S_ANG i), 0, 64⟩
/-- Address of IRQ_S_ROUND (R523). -/
def aIRQ_S_ROUND (i : Nat) : Nat := 0x4014 + 0x20 * i
/-- IRQ_S_ROUND.R (R523). -/
def IRQ_S_ROUND (i : Nat) : Fld := ⟨(aIRQ_S_ROUND i), 0, 32⟩
/-- Address of IRQ_S_FLAGS (R523). -/
def aIRQ_S_FLAGS (i : Nat) : Nat := 0x4018 + 0x20 * i
/-- IRQ_S_FLAGS.CNT (R523). -/
def IRQ_S_FLAGS_CNT (i : Nat) : Fld := ⟨(aIRQ_S_FLAGS i), 0, 16⟩
/-- IRQ_S_FLAGS.PEND (R523). -/
def IRQ_S_FLAGS_PEND (i : Nat) : Fld := ⟨(aIRQ_S_FLAGS i), 16, 1⟩
/-- IRQ_S_FLAGS.ANG_VALID (R523). -/
def IRQ_S_FLAGS_ANG_VALID (i : Nat) : Fld := ⟨(aIRQ_S_FLAGS i), 17, 1⟩
/-- Address of IRQ_S_ACK (R523). -/
def aIRQ_S_ACK (i : Nat) : Nat := 0x401c + 0x20 * i
/-- IRQ_S_ACK.CNT (R523). -/
def IRQ_S_ACK (i : Nat) : Fld := ⟨(aIRQ_S_ACK i), 0, 16⟩

/-! Page `fw` at 0x10000: chapter 17, R519. -/

/-- Address of HST_FW_DATA (R519). -/
def aHST_FW_DATA (i : Nat) (j : Nat) : Nat := 0x10000 + 0x1000 * i + 0x4 * j
/-- HST_FW_DATA.DATA (R519). -/
def HST_FW_DATA (i : Nat) (j : Nat) : Fld := ⟨(aHST_FW_DATA i j), 0, 32⟩
/-- Address of HST_FW_LEVEL (R519). -/
def aHST_FW_LEVEL (i : Nat) : Nat := 0x10800 + 0x1000 * i
/-- HST_FW_LEVEL.LEVEL (R519). -/
def HST_FW_LEVEL (i : Nat) : Fld := ⟨(aHST_FW_LEVEL i), 0, 12⟩
/-- Address of HST_FW_THR (R519). -/
def aHST_FW_THR (i : Nat) : Nat := 0x10804 + 0x1000 * i
/-- HST_FW_THR.THR (R519). -/
def HST_FW_THR (i : Nat) : Fld := ⟨(aHST_FW_THR i), 0, 12⟩
/-- Address of HST_FW_STAT (R519). -/
def aHST_FW_STAT (i : Nat) : Nat := 0x10808 + 0x1000 * i
/-- HST_FW_STAT.UNDER (R519). -/
def HST_FW_STAT_UNDER (i : Nat) : Fld := ⟨(aHST_FW_STAT i), 0, 1⟩
/-- HST_FW_STAT.OVER (R519). -/
def HST_FW_STAT_OVER (i : Nat) : Fld := ⟨(aHST_FW_STAT i), 1, 1⟩
/-- HST_FW_STAT.ABOVE (R519). -/
def HST_FW_STAT_ABOVE (i : Nat) : Fld := ⟨(aHST_FW_STAT i), 2, 1⟩

/-! Page `ang` at 0x20400: chapter 04, R147. -/

/-- Address of ANG_CTL (R147). -/
def aANG_CTL : Nat := 0x20400
/-- ANG_CTL.RUN (R147). -/
def ANG_CTL_RUN : Fld := ⟨aANG_CTL, 0, 1⟩
/-- ANG_CTL.KIND (R147). -/
def ANG_CTL_KIND : Fld := ⟨aANG_CTL, 1, 3⟩
/-- ANG_CTL.INDEX (R147). -/
def ANG_CTL_INDEX : Fld := ⟨aANG_CTL, 4, 8⟩
/-- ANG_CTL.LOSS_ACT (R147). -/
def ANG_CTL_LOSS_ACT : Fld := ⟨aANG_CTL, 12, 1⟩
/-- Address of ANG_STAT (R147). -/
def aANG_STAT : Nat := 0x20404
/-- ANG_STAT.RUNNING (R147). -/
def ANG_STAT_RUNNING : Fld := ⟨aANG_STAT, 0, 1⟩
/-- ANG_STAT.LOCKED (R147). -/
def ANG_STAT_LOCKED : Fld := ⟨aANG_STAT, 1, 1⟩
/-- ANG_STAT.LOST (R147). -/
def ANG_STAT_LOST : Fld := ⟨aANG_STAT, 2, 1⟩
/-- ANG_STAT.RAMP (R147). -/
def ANG_STAT_RAMP : Fld := ⟨aANG_STAT, 3, 1⟩
/-- ANG_STAT.HANDOVER (R147). -/
def ANG_STAT_HANDOVER : Fld := ⟨aANG_STAT, 4, 1⟩
/-- ANG_STAT.UNCERT (R147). -/
def ANG_STAT_UNCERT : Fld := ⟨aANG_STAT, 5, 1⟩
/-- ANG_STAT.SRC_ERR (R147). -/
def ANG_STAT_SRC_ERR : Fld := ⟨aANG_STAT, 8, 1⟩
/-- ANG_STAT.RESYNC (R147). -/
def ANG_STAT_RESYNC : Fld := ⟨aANG_STAT, 9, 1⟩
/-- ANG_STAT.SKIP (R147). -/
def ANG_STAT_SKIP : Fld := ⟨aANG_STAT, 10, 1⟩
/-- ANG_STAT.BURST (R147). -/
def ANG_STAT_BURST : Fld := ⟨aANG_STAT, 11, 1⟩
/-- ANG_STAT.LATE (R147). -/
def ANG_STAT_LATE : Fld := ⟨aANG_STAT, 12, 1⟩
/-- ANG_STAT.SMP_DROP (R147). -/
def ANG_STAT_SMP_DROP : Fld := ⟨aANG_STAT, 13, 1⟩
/-- ANG_STAT.EDIT_ERR (R147). -/
def ANG_STAT_EDIT_ERR : Fld := ⟨aANG_STAT, 14, 1⟩
/-- ANG_STAT.CAP_OVF (R147). -/
def ANG_STAT_CAP_OVF : Fld := ⟨aANG_STAT, 15, 1⟩
/-- Address of ANG_VRATE (R147). -/
def aANG_VRATE : Nat := 0x20408
/-- ANG_VRATE.VRATE (R147). -/
def ANG_VRATE : Fld := ⟨aANG_VRATE, 0, 64⟩
/-- Address of ANG_VSLEW (R147). -/
def aANG_VSLEW : Nat := 0x20410
/-- ANG_VSLEW.VSLEW (R147). -/
def ANG_VSLEW : Fld := ⟨aANG_VSLEW, 0, 64⟩
/-- Address of ANG_TURN_NUM (R147). -/
def aANG_TURN_NUM : Nat := 0x20418
/-- ANG_TURN_NUM.NUM (R147). -/
def ANG_TURN_NUM : Fld := ⟨aANG_TURN_NUM, 0, 32⟩
/-- Address of ANG_TURN_DEN (R147). -/
def aANG_TURN_DEN : Nat := 0x2041c
/-- ANG_TURN_DEN.DEN (R147). -/
def ANG_TURN_DEN : Fld := ⟨aANG_TURN_DEN, 0, 16⟩
/-- Address of ANG_OFFSET (R147). -/
def aANG_OFFSET : Nat := 0x20420
/-- ANG_OFFSET.OFS (R147). -/
def ANG_OFFSET : Fld := ⟨aANG_OFFSET, 0, 64⟩
/-- Address of ANG_RESYNC_TH (R147). -/
def aANG_RESYNC_TH : Nat := 0x20428
/-- ANG_RESYNC_TH.TH (R147). -/
def ANG_RESYNC_TH : Fld := ⟨aANG_RESYNC_TH, 0, 32⟩
/-- Address of ANG_TUNE (R147). -/
def aANG_TUNE : Nat := 0x2042c
/-- ANG_TUNE.KW_SHIFT (R147). -/
def ANG_TUNE_KW_SHIFT : Fld := ⟨aANG_TUNE, 0, 5⟩
/-- ANG_TUNE.LOOKAHEAD (R147). -/
def ANG_TUNE_LOOKAHEAD : Fld := ⟨aANG_TUNE, 8, 4⟩
/-- Address of ANG_LOSS_TO (R147). -/
def aANG_LOSS_TO : Nat := 0x20430
/-- ANG_LOSS_TO.TO (R147). -/
def ANG_LOSS_TO : Fld := ⟨aANG_LOSS_TO, 0, 16⟩
/-- Address of ANG_RAMP (R147). -/
def aANG_RAMP : Nat := 0x20434
/-- ANG_RAMP.RAMP (R147). -/
def ANG_RAMP : Fld := ⟨aANG_RAMP, 0, 32⟩
/-- Address of ANG_ROUND (R147). -/
def aANG_ROUND : Nat := 0x20440
/-- ANG_ROUND.A (R147). -/
def ANG_ROUND : Fld := ⟨aANG_ROUND, 0, 64⟩
/-- Address of ANG_NOW (R147). -/
def aANG_NOW : Nat := 0x20448
/-- ANG_NOW.A (R147). -/
def ANG_NOW : Fld := ⟨aANG_NOW, 0, 64⟩
/-- Address of ANG_RATE (R147). -/
def aANG_RATE : Nat := 0x20450
/-- ANG_RATE.A (R147). -/
def ANG_RATE : Fld := ⟨aANG_RATE, 0, 64⟩
/-- Address of ANG_RESYNC_CNT (R147). -/
def aANG_RESYNC_CNT : Nat := 0x20458
/-- ANG_RESYNC_CNT.C (R147). -/
def ANG_RESYNC_CNT : Fld := ⟨aANG_RESYNC_CNT, 0, 32⟩
/-- Address of ANG_SKIP_CNT (R147). -/
def aANG_SKIP_CNT : Nat := 0x2045c
/-- ANG_SKIP_CNT.C (R147). -/
def ANG_SKIP_CNT : Fld := ⟨aANG_SKIP_CNT, 0, 32⟩
/-- Address of ANG_LATE_CNT (R147). -/
def aANG_LATE_CNT : Nat := 0x20460
/-- ANG_LATE_CNT.C (R147). -/
def ANG_LATE_CNT : Fld := ⟨aANG_LATE_CNT, 0, 32⟩
/-- Address of ANG_DROP_CNT (R147). -/
def aANG_DROP_CNT : Nat := 0x20464
/-- ANG_DROP_CNT.C (R147). -/
def ANG_DROP_CNT : Fld := ⟨aANG_DROP_CNT, 0, 32⟩

/-! Page `angv` at 0x203fc: chapter 04, R147. -/

/-- Address of ANG_VSTAT (R147). -/
def aANG_VSTAT : Nat := 0x203fc
/-- ANG_VSTAT.VSTAT (R147). -/
def ANG_VSTAT : Fld := ⟨aANG_VSTAT, 0, 24⟩

/-! Page `evt` at 0x20800: chapter 04, R147. -/

/-- Address of ANG_EVT_REC (R147). -/
def aANG_EVT_REC (j : Nat) : Nat := 0x20800 + 0x4 * j
/-- ANG_EVT_REC.W (R147). -/
def ANG_EVT_REC (j : Nat) : Fld := ⟨(aANG_EVT_REC j), 0, 32⟩
/-- Address of ANG_EVT_CMD (R147). -/
def aANG_EVT_CMD : Nat := 0x20810
/-- ANG_EVT_CMD.OP (R147). -/
def ANG_EVT_CMD_OP : Fld := ⟨aANG_EVT_CMD, 0, 2⟩
/-- ANG_EVT_CMD.HANDLE (R147). -/
def ANG_EVT_CMD_HANDLE : Fld := ⟨aANG_EVT_CMD, 16, 12⟩
/-- Address of ANG_EVT_RES (R147). -/
def aANG_EVT_RES : Nat := 0x20814
/-- ANG_EVT_RES.BUSY (R147). -/
def ANG_EVT_RES_BUSY : Fld := ⟨aANG_EVT_RES, 0, 1⟩
/-- ANG_EVT_RES.RESULT (R147). -/
def ANG_EVT_RES_RESULT : Fld := ⟨aANG_EVT_RES, 1, 3⟩
/-- ANG_EVT_RES.HANDLE (R147). -/
def ANG_EVT_RES_HANDLE : Fld := ⟨aANG_EVT_RES, 16, 12⟩
/-- Address of ANG_EVT_COUNT (R147). -/
def aANG_EVT_COUNT : Nat := 0x20818
/-- ANG_EVT_COUNT.N (R147). -/
def ANG_EVT_COUNT : Fld := ⟨aANG_EVT_COUNT, 0, 13⟩
/-- Address of ANG_CH_EN (R147). -/
def aANG_CH_EN (j : Nat) : Nat := 0x20820 + 0x4 * j
/-- ANG_CH_EN.EN (R147). -/
def ANG_CH_EN (j : Nat) : Fld := ⟨(aANG_CH_EN j), 0, 32⟩

/-! Page `ach` at 0x20c00: chapter 04, R136. -/

/-- Address of ANG_CH_CFG (R136). -/
def aANG_CH_CFG (i : Nat) : Nat := 0x20c00 + 0x10 * i
/-- ANG_CH_CFG.CFG (R136). -/
def ANG_CH_CFG (i : Nat) : Fld := ⟨(aANG_CH_CFG i), 0, 32⟩
/-- Address of ANG_CH_TIME (R136). -/
def aANG_CH_TIME (i : Nat) : Nat := 0x20c04 + 0x10 * i
/-- ANG_CH_TIME.TIME (R136). -/
def ANG_CH_TIME (i : Nat) : Fld := ⟨(aANG_CH_TIME i), 0, 32⟩
/-- Address of ANG_CH_HYST (R136). -/
def aANG_CH_HYST (i : Nat) : Nat := 0x20c08 + 0x10 * i
/-- ANG_CH_HYST.HYST (R136). -/
def ANG_CH_HYST (i : Nat) : Fld := ⟨(aANG_CH_HYST i), 0, 32⟩
/-- Address of ANG_CH_LAST (R136). -/
def aANG_CH_LAST (i : Nat) : Nat := 0x20c0c + 0x10 * i
/-- ANG_CH_LAST.TAG (R136). -/
def ANG_CH_LAST_TAG (i : Nat) : Fld := ⟨(aANG_CH_LAST i), 0, 16⟩
/-- ANG_CH_LAST.CNT (R136). -/
def ANG_CH_LAST_CNT (i : Nat) : Fld := ⟨(aANG_CH_LAST i), 16, 16⟩

/-! Page `acap` at 0x21000: chapter 04, R144. -/

/-- Address of ANG_CAP_POP (R144). -/
def aANG_CAP_POP (i : Nat) : Nat := 0x21000 + 0x20 * i
/-- ANG_CAP_POP.POP (R144). -/
def ANG_CAP_POP (i : Nat) : Fld := ⟨(aANG_CAP_POP i), 0, 32⟩
/-- Address of ANG_CAP_FLAGS (R144). -/
def aANG_CAP_FLAGS (i : Nat) : Nat := 0x21004 + 0x20 * i
/-- ANG_CAP_FLAGS.VALID (R144). -/
def ANG_CAP_FLAGS_VALID (i : Nat) : Fld := ⟨(aANG_CAP_FLAGS i), 0, 1⟩
/-- ANG_CAP_FLAGS.RISING (R144). -/
def ANG_CAP_FLAGS_RISING (i : Nat) : Fld := ⟨(aANG_CAP_FLAGS i), 1, 1⟩
/-- ANG_CAP_FLAGS.QUEUED (R144). -/
def ANG_CAP_FLAGS_QUEUED (i : Nat) : Fld := ⟨(aANG_CAP_FLAGS i), 2, 5⟩
/-- ANG_CAP_FLAGS.OVF (R144). -/
def ANG_CAP_FLAGS_OVF (i : Nat) : Fld := ⟨(aANG_CAP_FLAGS i), 8, 1⟩
/-- Address of ANG_CAP_ANG (R144). -/
def aANG_CAP_ANG (i : Nat) : Nat := 0x21008 + 0x20 * i
/-- ANG_CAP_ANG.A (R144). -/
def ANG_CAP_ANG (i : Nat) : Fld := ⟨(aANG_CAP_ANG i), 0, 64⟩
/-- Address of ANG_CAP_TIME (R144). -/
def aANG_CAP_TIME (i : Nat) : Nat := 0x21010 + 0x20 * i
/-- ANG_CAP_TIME.T (R144). -/
def ANG_CAP_TIME (i : Nat) : Fld := ⟨(aANG_CAP_TIME i), 0, 64⟩

/-! Page `pltb` at 0x30000: chapter 18, R552. -/

/-- Address of PLT_B_CTL (R552). -/
def aPLT_B_CTL : Nat := 0x30000
/-- PLT_B_CTL.REALIGN (R552). -/
def PLT_B_CTL : Fld := ⟨aPLT_B_CTL, 0, 1⟩
/-- Address of PLT_B_STAT (R552). -/
def aPLT_B_STAT : Nat := 0x30004
/-- PLT_B_STAT.V (R552). -/
def PLT_B_STAT : Fld := ⟨aPLT_B_STAT, 0, 32⟩
/-- Address of PLT_VSTAT (R552). -/
def aPLT_VSTAT : Nat := 0x303fc
/-- PLT_VSTAT.VSTAT (R552). -/
def PLT_VSTAT : Fld := ⟨aPLT_VSTAT, 0, 24⟩

/-! Page `plt` at 0x30400: chapter 18, R552. -/

/-- Address of PLT_CTL (R552). -/
def aPLT_CTL : Nat := 0x30400
/-- PLT_CTL.REALIGN (R552). -/
def PLT_CTL_REALIGN : Fld := ⟨aPLT_CTL, 0, 1⟩
/-- PLT_CTL.CNT_CLR (R552). -/
def PLT_CTL_CNT_CLR : Fld := ⟨aPLT_CTL, 1, 1⟩
/-- Address of PLT_STAT (R552). -/
def aPLT_STAT : Nat := 0x30404
/-- PLT_STAT.STATE (R552). -/
def PLT_STAT_STATE : Fld := ⟨aPLT_STAT, 0, 3⟩
/-- PLT_STAT.ACQ_HELD (R552). -/
def PLT_STAT_ACQ_HELD : Fld := ⟨aPLT_STAT, 3, 1⟩
/-- PLT_STAT.JUMP (R552). -/
def PLT_STAT_JUMP : Fld := ⟨aPLT_STAT, 4, 1⟩
/-- PLT_STAT.JREF (R552). -/
def PLT_STAT_JREF : Fld := ⟨aPLT_STAT, 5, 1⟩
/-- PLT_STAT.REAL_REF (R552). -/
def PLT_STAT_REAL_REF : Fld := ⟨aPLT_STAT, 6, 1⟩
/-- PLT_STAT.STEPPED (R552). -/
def PLT_STAT_STEPPED : Fld := ⟨aPLT_STAT, 7, 1⟩
/-- PLT_STAT.PARTNER (R552). -/
def PLT_STAT_PARTNER : Fld := ⟨aPLT_STAT, 8, 1⟩
/-- PLT_STAT.SLOT_WR (R552). -/
def PLT_STAT_SLOT_WR : Fld := ⟨aPLT_STAT, 9, 1⟩
/-- Address of PLT_TIME (R552). -/
def aPLT_TIME : Nat := 0x30408
/-- PLT_TIME.T (R552). -/
def PLT_TIME : Fld := ⟨aPLT_TIME, 0, 64⟩
/-- Address of PLT_TFRAC (R552). -/
def aPLT_TFRAC : Nat := 0x30410
/-- PLT_TFRAC.F (R552). -/
def PLT_TFRAC : Fld := ⟨aPLT_TFRAC, 0, 32⟩
/-- Address of PLT_RATE (R552). -/
def aPLT_RATE : Nat := 0x30414
/-- PLT_RATE.R (R552). -/
def PLT_RATE : Fld := ⟨aPLT_RATE, 0, 32⟩
/-- Address of PLT_OFS (R552). -/
def aPLT_OFS : Nat := 0x30418
/-- PLT_OFS.O (R552). -/
def PLT_OFS : Fld := ⟨aPLT_OFS, 0, 32⟩
/-- Address of PLT_JOFS (R552). -/
def aPLT_JOFS : Nat := 0x3041c
/-- PLT_JOFS.J (R552). -/
def PLT_JOFS : Fld := ⟨aPLT_JOFS, 0, 64⟩
/-- Address of PLT_MODE (R552). -/
def aPLT_MODE : Nat := 0x30424
/-- PLT_MODE.REFUSE (R552). -/
def PLT_MODE : Fld := ⟨aPLT_MODE, 0, 1⟩
/-- Address of PLT_JUMP_TH (R552). -/
def aPLT_JUMP_TH : Nat := 0x30428
/-- PLT_JUMP_TH.TH (R552). -/
def PLT_JUMP_TH : Fld := ⟨aPLT_JUMP_TH, 0, 32⟩
/-- Address of PLT_LOCK_TH (R552). -/
def aPLT_LOCK_TH : Nat := 0x3042c
/-- PLT_LOCK_TH.TH (R552). -/
def PLT_LOCK_TH : Fld := ⟨aPLT_LOCK_TH, 0, 32⟩
/-- Address of PLT_SLEW (R552). -/
def aPLT_SLEW : Nat := 0x30430
/-- PLT_SLEW.PPM (R552). -/
def PLT_SLEW : Fld := ⟨aPLT_SLEW, 0, 32⟩
/-- Address of PLT_SERVO (R552). -/
def aPLT_SERVO : Nat := 0x30434
/-- PLT_SERVO.KP_SHIFT (R552). -/
def PLT_SERVO_KP_SHIFT : Fld := ⟨aPLT_SERVO, 0, 4⟩
/-- PLT_SERVO.KI_SHIFT (R552). -/
def PLT_SERVO_KI_SHIFT : Fld := ⟨aPLT_SERVO, 8, 4⟩
/-- Address of PLT_JREF_CNT (R552). -/
def aPLT_JREF_CNT : Nat := 0x30438
/-- PLT_JREF_CNT.C (R552). -/
def PLT_JREF_CNT : Fld := ⟨aPLT_JREF_CNT, 0, 32⟩
/-- Address of PLT_HO_CNT (R552). -/
def aPLT_HO_CNT : Nat := 0x3043c
/-- PLT_HO_CNT.C (R552). -/
def PLT_HO_CNT : Fld := ⟨aPLT_HO_CNT, 0, 32⟩
/-- Address of PLT_MDIO (R552). -/
def aPLT_MDIO : Nat := 0x30440
/-- PLT_MDIO.DATA (R552). -/
def PLT_MDIO_DATA : Fld := ⟨aPLT_MDIO, 0, 16⟩
/-- PLT_MDIO.REG (R552). -/
def PLT_MDIO_REG : Fld := ⟨aPLT_MDIO, 16, 5⟩
/-- PLT_MDIO.PHYAD (R552). -/
def PLT_MDIO_PHYAD : Fld := ⟨aPLT_MDIO, 21, 5⟩
/-- PLT_MDIO.OP (R552). -/
def PLT_MDIO_OP : Fld := ⟨aPLT_MDIO, 26, 2⟩
/-- PLT_MDIO.C45 (R552). -/
def PLT_MDIO_C45 : Fld := ⟨aPLT_MDIO, 28, 1⟩
/-- PLT_MDIO.BUSY (R552). -/
def PLT_MDIO_BUSY : Fld := ⟨aPLT_MDIO, 31, 1⟩
/-- Address of PLT_LA_CTL (R552). -/
def aPLT_LA_CTL : Nat := 0x30444
/-- PLT_LA_CTL.EN (R552). -/
def PLT_LA_CTL_EN : Fld := ⟨aPLT_LA_CTL, 0, 1⟩
/-- PLT_LA_CTL.LAPORT (R552). -/
def PLT_LA_CTL_LAPORT : Fld := ⟨aPLT_LA_CTL, 1, 1⟩
/-- PLT_LA_CTL.RATE_DIV (R552). -/
def PLT_LA_CTL_RATE_DIV : Fld := ⟨aPLT_LA_CTL, 8, 8⟩
/-- Address of PLT_SLOT_BUSY (R552). -/
def aPLT_SLOT_BUSY : Nat := 0x30448
/-- PLT_SLOT_BUSY.BUSY (R552). -/
def PLT_SLOT_BUSY : Fld := ⟨aPLT_SLOT_BUSY, 0, 32⟩

/-! Page `pltp` at 0x30800: chapter 18, R552. -/

/-- Address of PLT_P_CFG (R552). -/
def aPLT_P_CFG (i : Nat) : Nat := 0x30800 + 0x400 * i
/-- PLT_P_CFG.EN (R552). -/
def PLT_P_CFG_EN (i : Nat) : Fld := ⟨(aPLT_P_CFG i), 0, 1⟩
/-- PLT_P_CFG.SPEED (R552). -/
def PLT_P_CFG_SPEED (i : Nat) : Fld := ⟨(aPLT_P_CFG i), 1, 1⟩
/-- PLT_P_CFG.AN (R552). -/
def PLT_P_CFG_AN (i : Nat) : Fld := ⟨(aPLT_P_CFG i), 2, 1⟩
/-- PLT_P_CFG.ROLE (R552). -/
def PLT_P_CFG_ROLE (i : Nat) : Fld := ⟨(aPLT_P_CFG i), 3, 2⟩
/-- PLT_P_CFG.PROFILE (R552). -/
def PLT_P_CFG_PROFILE (i : Nat) : Fld := ⟨(aPLT_P_CFG i), 5, 2⟩
/-- PLT_P_CFG.DOMAIN (R552). -/
def PLT_P_CFG_DOMAIN (i : Nat) : Fld := ⟨(aPLT_P_CFG i), 8, 8⟩
/-- PLT_P_CFG.LOGSYNC (R552). -/
def PLT_P_CFG_LOGSYNC (i : Nat) : Fld := ⟨(aPLT_P_CFG i), 16, 4⟩
/-- PLT_P_CFG.RXTO (R552). -/
def PLT_P_CFG_RXTO (i : Nat) : Fld := ⟨(aPLT_P_CFG i), 20, 4⟩
/-- PLT_P_CFG.PRIO1 (R552). -/
def PLT_P_CFG_PRIO1 (i : Nat) : Fld := ⟨(aPLT_P_CFG i), 24, 8⟩
/-- Address of PLT_P_STAT (R552). -/
def aPLT_P_STAT (i : Nat) : Nat := 0x30804 + 0x400 * i
/-- PLT_P_STAT.LINK (R552). -/
def PLT_P_STAT_LINK (i : Nat) : Fld := ⟨(aPLT_P_STAT i), 0, 1⟩
/-- PLT_P_STAT.AN_DONE (R552). -/
def PLT_P_STAT_AN_DONE (i : Nat) : Fld := ⟨(aPLT_P_STAT i), 1, 1⟩
/-- PLT_P_STAT.SYNC_OK (R552). -/
def PLT_P_STAT_SYNC_OK (i : Nat) : Fld := ⟨(aPLT_P_STAT i), 2, 1⟩
/-- Address of PLT_P_TXLAT (R552). -/
def aPLT_P_TXLAT (i : Nat) : Nat := 0x30808 + 0x400 * i
/-- PLT_P_TXLAT.L (R552). -/
def PLT_P_TXLAT (i : Nat) : Fld := ⟨(aPLT_P_TXLAT i), 0, 32⟩
/-- Address of PLT_P_RXLAT (R552). -/
def aPLT_P_RXLAT (i : Nat) : Nat := 0x3080c + 0x400 * i
/-- PLT_P_RXLAT.L (R552). -/
def PLT_P_RXLAT (i : Nat) : Fld := ⟨(aPLT_P_RXLAT i), 0, 32⟩
/-- Address of PLT_P_MAC_LO (R552). -/
def aPLT_P_MAC_LO (i : Nat) : Nat := 0x30810 + 0x400 * i
/-- PLT_P_MAC_LO.M (R552). -/
def PLT_P_MAC_LO (i : Nat) : Fld := ⟨(aPLT_P_MAC_LO i), 0, 32⟩
/-- Address of PLT_P_MAC_HI (R552). -/
def aPLT_P_MAC_HI (i : Nat) : Nat := 0x30814 + 0x400 * i
/-- PLT_P_MAC_HI.M (R552). -/
def PLT_P_MAC_HI (i : Nat) : Fld := ⟨(aPLT_P_MAC_HI i), 0, 16⟩
/-- Address of PLT_P_IPV4 (R552). -/
def aPLT_P_IPV4 (i : Nat) : Nat := 0x30818 + 0x400 * i
/-- PLT_P_IPV4.A (R552). -/
def PLT_P_IPV4 (i : Nat) : Fld := ⟨(aPLT_P_IPV4 i), 0, 32⟩
/-- Address of PLT_P_MPD (R552). -/
def aPLT_P_MPD (i : Nat) : Nat := 0x3081c + 0x400 * i
/-- PLT_P_MPD.D (R552). -/
def PLT_P_MPD (i : Nat) : Fld := ⟨(aPLT_P_MPD i), 0, 32⟩
/-- Address of PLT_P_NRR (R552). -/
def aPLT_P_NRR (i : Nat) : Nat := 0x30820 + 0x400 * i
/-- PLT_P_NRR.R (R552). -/
def PLT_P_NRR (i : Nat) : Fld := ⟨(aPLT_P_NRR i), 0, 32⟩
/-- Address of PLT_P_OFS (R552). -/
def aPLT_P_OFS (i : Nat) : Nat := 0x30824 + 0x400 * i
/-- PLT_P_OFS.O (R552). -/
def PLT_P_OFS (i : Nat) : Fld := ⟨(aPLT_P_OFS i), 0, 32⟩
/-- Address of PLT_P_RX_DROP (R552). -/
def aPLT_P_RX_DROP (i : Nat) : Nat := 0x30828 + 0x400 * i
/-- PLT_P_RX_DROP.C (R552). -/
def PLT_P_RX_DROP (i : Nat) : Fld := ⟨(aPLT_P_RX_DROP i), 0, 32⟩
/-- Address of PLT_P_LA_DROP (R552). -/
def aPLT_P_LA_DROP (i : Nat) : Nat := 0x3082c + 0x400 * i
/-- PLT_P_LA_DROP.C (R552). -/
def PLT_P_LA_DROP (i : Nat) : Fld := ⟨(aPLT_P_LA_DROP i), 0, 32⟩

/-! Page `pltq` at 0x31000: chapter 18, R552. -/

/-- Address of PLT_Q_CFG (R552). -/
def aPLT_Q_CFG (i : Nat) : Nat := 0x31000 + 0x20 * i
/-- PLT_Q_CFG.EN (R552). -/
def PLT_Q_CFG_EN (i : Nat) : Fld := ⟨(aPLT_Q_CFG i), 0, 1⟩
/-- PLT_Q_CFG.PORT (R552). -/
def PLT_Q_CFG_PORT (i : Nat) : Fld := ⟨(aPLT_Q_CFG i), 1, 1⟩
/-- PLT_Q_CFG.LATE_TOL (R552). -/
def PLT_Q_CFG_LATE_TOL (i : Nat) : Fld := ⟨(aPLT_Q_CFG i), 8, 8⟩
/-- Address of PLT_Q_PUSH (R552). -/
def aPLT_Q_PUSH (i : Nat) : Nat := 0x31004 + 0x20 * i
/-- PLT_Q_PUSH.SLOT (R552). -/
def PLT_Q_PUSH_SLOT (i : Nat) : Fld := ⟨(aPLT_Q_PUSH i), 0, 5⟩
/-- PLT_Q_PUSH.STAMP (R552). -/
def PLT_Q_PUSH_STAMP (i : Nat) : Fld := ⟨(aPLT_Q_PUSH i), 5, 1⟩
/-- PLT_Q_PUSH.OFS (R552). -/
def PLT_Q_PUSH_OFS (i : Nat) : Fld := ⟨(aPLT_Q_PUSH i), 16, 11⟩
/-- Address of PLT_Q_LT (R552). -/
def aPLT_Q_LT (i : Nat) : Nat := 0x31008 + 0x20 * i
/-- PLT_Q_LT.LT (R552). -/
def PLT_Q_LT (i : Nat) : Fld := ⟨(aPLT_Q_LT i), 0, 64⟩
/-- Address of PLT_Q_STAT (R552). -/
def aPLT_Q_STAT (i : Nat) : Nat := 0x31010 + 0x20 * i
/-- PLT_Q_STAT.N (R552). -/
def PLT_Q_STAT_N (i : Nat) : Fld := ⟨(aPLT_Q_STAT i), 0, 5⟩
/-- PLT_Q_STAT.DROPS (R552). -/
def PLT_Q_STAT_DROPS (i : Nat) : Fld := ⟨(aPLT_Q_STAT i), 16, 16⟩

/-! Page `plts` at 0x34000: chapter 18, R544. -/

/-- Address of PLT_SLOT (R544). -/
def aPLT_SLOT (i : Nat) (j : Nat) : Nat := 0x34000 + 0x600 * i + 0x4 * j
/-- PLT_SLOT.W (R544). -/
def PLT_SLOT (i : Nat) (j : Nat) : Fld := ⟨(aPLT_SLOT i j), 0, 32⟩

/-! Page `seg` at 0x40000: chapter 06, R223. -/

/-- Address of SEG_B_REQ (R223). -/
def aSEG_B_REQ (i : Nat) : Nat := 0x40000 + 0x8000 * i
/-- SEG_B_REQ.CONTRACT (R223). -/
def SEG_B_REQ_CONTRACT (i : Nat) : Fld := ⟨(aSEG_B_REQ i), 0, 3⟩
/-- SEG_B_REQ.RESTART (R223). -/
def SEG_B_REQ_RESTART (i : Nat) : Fld := ⟨(aSEG_B_REQ i), 8, 1⟩
/-- Address of SEG_B_STAT (R223). -/
def aSEG_B_STAT (i : Nat) : Nat := 0x40004 + 0x8000 * i
/-- SEG_B_STAT.ST (R223). -/
def SEG_B_STAT (i : Nat) : Fld := ⟨(aSEG_B_STAT i), 0, 27⟩
/-- Address of SEG_VSTAT (R223). -/
def aSEG_VSTAT (i : Nat) : Nat := 0x403fc + 0x8000 * i
/-- SEG_VSTAT.VSTAT (R223). -/
def SEG_VSTAT (i : Nat) : Fld := ⟨(aSEG_VSTAT i), 0, 24⟩
/-- Address of SEG_CTL (R223). -/
def aSEG_CTL (i : Nat) : Nat := 0x40400 + 0x8000 * i
/-- SEG_CTL.START (R223). -/
def SEG_CTL_START (i : Nat) : Fld := ⟨(aSEG_CTL i), 0, 1⟩
/-- SEG_CTL.STOP (R223). -/
def SEG_CTL_STOP (i : Nat) : Fld := ⟨(aSEG_CTL i), 1, 1⟩
/-- SEG_CTL.TARGET (R223). -/
def SEG_CTL_TARGET (i : Nat) : Fld := ⟨(aSEG_CTL i), 4, 3⟩
/-- SEG_CTL.SWITCH_GO (R223). -/
def SEG_CTL_SWITCH_GO (i : Nat) : Fld := ⟨(aSEG_CTL i), 7, 1⟩
/-- Address of SEG_STAT (R223). -/
def aSEG_STAT (i : Nat) : Nat := 0x40404 + 0x8000 * i
/-- SEG_STAT.STATE (R223). -/
def SEG_STAT_STATE (i : Nat) : Fld := ⟨(aSEG_STAT i), 0, 4⟩
/-- SEG_STAT.CONTRACT (R223). -/
def SEG_STAT_CONTRACT (i : Nat) : Fld := ⟨(aSEG_STAT i), 4, 3⟩
/-- SEG_STAT.NEXT (R223). -/
def SEG_STAT_NEXT (i : Nat) : Fld := ⟨(aSEG_STAT i), 7, 3⟩
/-- SEG_STAT.SPLIT (R223). -/
def SEG_STAT_SPLIT (i : Nat) : Fld := ⟨(aSEG_STAT i), 10, 1⟩
/-- SEG_STAT.OPEN (R223). -/
def SEG_STAT_OPEN (i : Nat) : Fld := ⟨(aSEG_STAT i), 11, 1⟩
/-- SEG_STAT.CLOSING (R223). -/
def SEG_STAT_CLOSING (i : Nat) : Fld := ⟨(aSEG_STAT i), 12, 1⟩
/-- SEG_STAT.PLACED (R223). -/
def SEG_STAT_PLACED (i : Nat) : Fld := ⟨(aSEG_STAT i), 13, 7⟩
/-- SEG_STAT.SESSIONS (R223). -/
def SEG_STAT_SESSIONS (i : Nat) : Fld := ⟨(aSEG_STAT i), 20, 7⟩
/-- Address of SEG_FLAGS (R223). -/
def aSEG_FLAGS (i : Nat) : Nat := 0x40408 + 0x8000 * i
/-- SEG_FLAGS.START_ERR (R223). -/
def SEG_FLAGS_START_ERR (i : Nat) : Fld := ⟨(aSEG_FLAGS i), 0, 1⟩
/-- SEG_FLAGS.FOREIGN (R223). -/
def SEG_FLAGS_FOREIGN (i : Nat) : Fld := ⟨(aSEG_FLAGS i), 1, 1⟩
/-- SEG_FLAGS.WALK_LIM (R223). -/
def SEG_FLAGS_WALK_LIM (i : Nat) : Fld := ⟨(aSEG_FLAGS i), 2, 1⟩
/-- SEG_FLAGS.ID_ERR (R223). -/
def SEG_FLAGS_ID_ERR (i : Nat) : Fld := ⟨(aSEG_FLAGS i), 3, 1⟩
/-- SEG_FLAGS.AUTH_ERR (R223). -/
def SEG_FLAGS_AUTH_ERR (i : Nat) : Fld := ⟨(aSEG_FLAGS i), 4, 1⟩
/-- SEG_FLAGS.SW_ABORT (R223). -/
def SEG_FLAGS_SW_ABORT (i : Nat) : Fld := ⟨(aSEG_FLAGS i), 5, 1⟩
/-- SEG_FLAGS.SW_IGN (R223). -/
def SEG_FLAGS_SW_IGN (i : Nat) : Fld := ⟨(aSEG_FLAGS i), 6, 1⟩
/-- SEG_FLAGS.EXTRA (R223). -/
def SEG_FLAGS_EXTRA (i : Nat) : Fld := ⟨(aSEG_FLAGS i), 7, 1⟩
/-- SEG_FLAGS.KITTY_TO (R223). -/
def SEG_FLAGS_KITTY_TO (i : Nat) : Fld := ⟨(aSEG_FLAGS i), 8, 1⟩
/-- SEG_FLAGS.EDGE (R223). -/
def SEG_FLAGS_EDGE (i : Nat) : Fld := ⟨(aSEG_FLAGS i), 9, 1⟩
/-- SEG_FLAGS.MISS (R223). -/
def SEG_FLAGS_MISS (i : Nat) : Fld := ⟨(aSEG_FLAGS i), 10, 1⟩
/-- Address of SEG_OPENER (R223). -/
def aSEG_OPENER (i : Nat) : Nat := 0x4040c + 0x8000 * i
/-- SEG_OPENER.POS (R223). -/
def SEG_OPENER_POS (i : Nat) : Fld := ⟨(aSEG_OPENER i), 0, 6⟩
/-- SEG_OPENER.VALID (R223). -/
def SEG_OPENER_VALID (i : Nat) : Fld := ⟨(aSEG_OPENER i), 31, 1⟩
/-- Address of SEG_START_RND (R223). -/
def aSEG_START_RND (i : Nat) : Nat := 0x40410 + 0x8000 * i
/-- SEG_START_RND.N (R223). -/
def SEG_START_RND (i : Nat) : Fld := ⟨(aSEG_START_RND i), 0, 9⟩
/-- Address of SEG_KITTY (R223). -/
def aSEG_KITTY (i : Nat) : Nat := 0x40414 + 0x8000 * i
/-- SEG_KITTY.GRANTED (R223). -/
def SEG_KITTY_GRANTED (i : Nat) : Fld := ⟨(aSEG_KITTY i), 0, 4⟩
/-- SEG_KITTY.GRANTS (R223). -/
def SEG_KITTY_GRANTS (i : Nat) : Fld := ⟨(aSEG_KITTY i), 16, 16⟩
/-- Address of SEG_RETURN (R223). -/
def aSEG_RETURN (i : Nat) : Nat := 0x40418 + 0x8000 * i
/-- SEG_RETURN.TRET (R223). -/
def SEG_RETURN (i : Nat) : Fld := ⟨(aSEG_RETURN i), 0, 17⟩
/-- Address of SEG_EMPTY_TOT (R223). -/
def aSEG_EMPTY_TOT (i : Nat) : Nat := 0x40420 + 0x8000 * i
/-- SEG_EMPTY_TOT.C (R223). -/
def SEG_EMPTY_TOT (i : Nat) : Fld := ⟨(aSEG_EMPTY_TOT i), 0, 32⟩
/-- Address of SEG_CLIP_TOT (R223). -/
def aSEG_CLIP_TOT (i : Nat) : Nat := 0x40424 + 0x8000 * i
/-- SEG_CLIP_TOT.C (R223). -/
def SEG_CLIP_TOT (i : Nat) : Fld := ⟨(aSEG_CLIP_TOT i), 0, 32⟩
/-- Address of SEG_CRC_TOT (R223). -/
def aSEG_CRC_TOT (i : Nat) : Nat := 0x40428 + 0x8000 * i
/-- SEG_CRC_TOT.C (R223). -/
def SEG_CRC_TOT (i : Nat) : Fld := ⟨(aSEG_CRC_TOT i), 0, 32⟩
/-- Address of SEG_FMT_TOT (R223). -/
def aSEG_FMT_TOT (i : Nat) : Nat := 0x4042c + 0x8000 * i
/-- SEG_FMT_TOT.C (R223). -/
def SEG_FMT_TOT (i : Nat) : Fld := ⟨(aSEG_FMT_TOT i), 0, 32⟩
/-- Address of SEG_TAG_TOT (R223). -/
def aSEG_TAG_TOT (i : Nat) : Nat := 0x40430 + 0x8000 * i
/-- SEG_TAG_TOT.C (R223). -/
def SEG_TAG_TOT (i : Nat) : Fld := ⟨(aSEG_TAG_TOT i), 0, 32⟩
/-- Address of SEG_EDGE_TOT (R223). -/
def aSEG_EDGE_TOT (i : Nat) : Nat := 0x40434 + 0x8000 * i
/-- SEG_EDGE_TOT.C (R223). -/
def SEG_EDGE_TOT (i : Nat) : Fld := ⟨(aSEG_EDGE_TOT i), 0, 32⟩
/-- Address of SEG_NID_LO (R223). -/
def aSEG_NID_LO (i : Nat) (j : Nat) : Nat := 0x41000 + 0x8000 * i + 0x40 * j
/-- SEG_NID_LO.ID (R223). -/
def SEG_NID_LO (i : Nat) (j : Nat) : Fld := ⟨(aSEG_NID_LO i j), 0, 32⟩
/-- Address of SEG_NID_HI (R223). -/
def aSEG_NID_HI (i : Nat) (j : Nat) : Nat := 0x41004 + 0x8000 * i + 0x40 * j
/-- SEG_NID_HI.ID (R223). -/
def SEG_NID_HI (i : Nat) (j : Nat) : Fld := ⟨(aSEG_NID_HI i j), 0, 32⟩
/-- Address of SEG_NDLY (R223). -/
def aSEG_NDLY (i : Nat) (j : Nat) : Nat := 0x41008 + 0x8000 * i + 0x40 * j
/-- SEG_NDLY.DOWN (R223). -/
def SEG_NDLY_DOWN (i : Nat) (j : Nat) : Fld := ⟨(aSEG_NDLY i j), 0, 16⟩
/-- SEG_NDLY.UP (R223). -/
def SEG_NDLY_UP (i : Nat) (j : Nat) : Fld := ⟨(aSEG_NDLY i j), 16, 16⟩
/-- Address of SEG_NLAT (R223). -/
def aSEG_NLAT (i : Nat) (j : Nat) : Nat := 0x4100c + 0x8000 * i + 0x40 * j
/-- SEG_NLAT.LD (R223). -/
def SEG_NLAT_LD (i : Nat) (j : Nat) : Fld := ⟨(aSEG_NLAT i j), 0, 16⟩
/-- SEG_NLAT.LU (R223). -/
def SEG_NLAT_LU (i : Nat) (j : Nat) : Fld := ⟨(aSEG_NLAT i j), 16, 16⟩
/-- Address of SEG_NSTAT (R223). -/
def aSEG_NSTAT (i : Nat) (j : Nat) : Nat := 0x41010 + 0x8000 * i + 0x40 * j
/-- SEG_NSTAT.STATE (R223). -/
def SEG_NSTAT_STATE (i : Nat) (j : Nat) : Fld := ⟨(aSEG_NSTAT i j), 0, 3⟩
/-- SEG_NSTAT.EDGE_FLAG (R223). -/
def SEG_NSTAT_EDGE_FLAG (i : Nat) (j : Nat) : Fld := ⟨(aSEG_NSTAT i j), 3, 1⟩
/-- SEG_NSTAT.LATE (R223). -/
def SEG_NSTAT_LATE (i : Nat) (j : Nat) : Fld := ⟨(aSEG_NSTAT i j), 4, 1⟩
/-- SEG_NSTAT.NSTAT (R223). -/
def SEG_NSTAT_NSTAT (i : Nat) (j : Nat) : Fld := ⟨(aSEG_NSTAT i j), 8, 8⟩
/-- Address of SEG_EMPTY_CNT (R223). -/
def aSEG_EMPTY_CNT (i : Nat) (j : Nat) : Nat := 0x41014 + 0x8000 * i + 0x40 * j
/-- SEG_EMPTY_CNT.C (R223). -/
def SEG_EMPTY_CNT (i : Nat) (j : Nat) : Fld := ⟨(aSEG_EMPTY_CNT i j), 0, 32⟩
/-- Address of SEG_CLIP_CNT (R223). -/
def aSEG_CLIP_CNT (i : Nat) (j : Nat) : Nat := 0x41018 + 0x8000 * i + 0x40 * j
/-- SEG_CLIP_CNT.C (R223). -/
def SEG_CLIP_CNT (i : Nat) (j : Nat) : Fld := ⟨(aSEG_CLIP_CNT i j), 0, 32⟩
/-- Address of SEG_CRC_CNT (R223). -/
def aSEG_CRC_CNT (i : Nat) (j : Nat) : Nat := 0x4101c + 0x8000 * i + 0x40 * j
/-- SEG_CRC_CNT.C (R223). -/
def SEG_CRC_CNT (i : Nat) (j : Nat) : Fld := ⟨(aSEG_CRC_CNT i j), 0, 32⟩
/-- Address of SEG_FMT_CNT (R223). -/
def aSEG_FMT_CNT (i : Nat) (j : Nat) : Nat := 0x41020 + 0x8000 * i + 0x40 * j
/-- SEG_FMT_CNT.C (R223). -/
def SEG_FMT_CNT (i : Nat) (j : Nat) : Fld := ⟨(aSEG_FMT_CNT i j), 0, 32⟩
/-- Address of SEG_TAG_CNT (R223). -/
def aSEG_TAG_CNT (i : Nat) (j : Nat) : Nat := 0x41024 + 0x8000 * i + 0x40 * j
/-- SEG_TAG_CNT.C (R223). -/
def SEG_TAG_CNT (i : Nat) (j : Nat) : Fld := ⟨(aSEG_TAG_CNT i j), 0, 32⟩
/-- Address of SEG_EDGE_CNT (R223). -/
def aSEG_EDGE_CNT (i : Nat) (j : Nat) : Nat := 0x41028 + 0x8000 * i + 0x40 * j
/-- SEG_EDGE_CNT.C (R223). -/
def SEG_EDGE_CNT (i : Nat) (j : Nat) : Fld := ⟨(aSEG_EDGE_CNT i j), 0, 32⟩
/-- Address of SEG_EDGE_OFS (R223). -/
def aSEG_EDGE_OFS (i : Nat) (j : Nat) : Nat := 0x4102c + 0x8000 * i + 0x40 * j
/-- SEG_EDGE_OFS.OFS (R223). -/
def SEG_EDGE_OFS_OFS (i : Nat) (j : Nat) : Fld := ⟨(aSEG_EDGE_OFS i j), 0, 16⟩
/-- SEG_EDGE_OFS.CONSEC (R223). -/
def SEG_EDGE_OFS_CONSEC (i : Nat) (j : Nat) : Fld := ⟨(aSEG_EDGE_OFS i j), 16, 5⟩
/-- Address of SEG_NLEAD_CNT (R223). -/
def aSEG_NLEAD_CNT (i : Nat) (j : Nat) : Nat := 0x41030 + 0x8000 * i + 0x40 * j
/-- SEG_NLEAD_CNT.C (R223). -/
def SEG_NLEAD_CNT (i : Nat) (j : Nat) : Fld := ⟨(aSEG_NLEAD_CNT i j), 0, 32⟩

/-! Page `ax` at 0xc0000: chapter 07, R253. -/

/-- Address of AX_CTL (R253). -/
def aAX_CTL (i : Nat) : Nat := 0xc0000 + 0x400 * i
/-- AX_CTL.ENABLE (R253). -/
def AX_CTL_ENABLE (i : Nat) : Fld := ⟨(aAX_CTL i), 0, 1⟩
/-- AX_CTL.AUTO (R253). -/
def AX_CTL_AUTO (i : Nat) : Fld := ⟨(aAX_CTL i), 1, 1⟩
/-- AX_CTL.FAULT_ACK (R253). -/
def AX_CTL_FAULT_ACK (i : Nat) : Fld := ⟨(aAX_CTL i), 2, 1⟩
/-- AX_CTL.INJ_EN (R253). -/
def AX_CTL_INJ_EN (i : Nat) : Fld := ⟨(aAX_CTL i), 3, 1⟩
/-- AX_CTL.RC_LEARN (R253). -/
def AX_CTL_RC_LEARN (i : Nat) : Fld := ⟨(aAX_CTL i), 4, 1⟩
/-- AX_CTL.RC_OUT (R253). -/
def AX_CTL_RC_OUT (i : Nat) : Fld := ⟨(aAX_CTL i), 5, 1⟩
/-- AX_CTL.RC_CLEAR (R253). -/
def AX_CTL_RC_CLEAR (i : Nat) : Fld := ⟨(aAX_CTL i), 6, 1⟩
/-- AX_CTL.NMODE (R253). -/
def AX_CTL_NMODE (i : Nat) : Fld := ⟨(aAX_CTL i), 8, 3⟩
/-- Address of AX_STAT (R253). -/
def aAX_STAT (i : Nat) : Nat := 0xc0004 + 0x400 * i
/-- AX_STAT.ENABLED (R253). -/
def AX_STAT_ENABLED (i : Nat) : Fld := ⟨(aAX_STAT i), 0, 1⟩
/-- AX_STAT.AUTO (R253). -/
def AX_STAT_AUTO (i : Nat) : Fld := ⟨(aAX_STAT i), 1, 1⟩
/-- AX_STAT.FAULT (R253). -/
def AX_STAT_FAULT (i : Nat) : Fld := ⟨(aAX_STAT i), 2, 1⟩
/-- AX_STAT.STANDSTILL (R253). -/
def AX_STAT_STANDSTILL (i : Nat) : Fld := ⟨(aAX_STAT i), 3, 1⟩
/-- AX_STAT.TLIM (R253). -/
def AX_STAT_TLIM (i : Nat) : Fld := ⟨(aAX_STAT i), 4, 1⟩
/-- AX_STAT.VLIM (R253). -/
def AX_STAT_VLIM (i : Nat) : Fld := ⟨(aAX_STAT i), 5, 1⟩
/-- AX_STAT.ACC_DEFERRED (R253). -/
def AX_STAT_ACC_DEFERRED (i : Nat) : Fld := ⟨(aAX_STAT i), 6, 1⟩
/-- AX_STAT.RC_LEARNING (R253). -/
def AX_STAT_RC_LEARNING (i : Nat) : Fld := ⟨(aAX_STAT i), 7, 1⟩
/-- AX_STAT.RC_SAT (R253). -/
def AX_STAT_RC_SAT (i : Nat) : Fld := ⟨(aAX_STAT i), 8, 1⟩
/-- AX_STAT.INJ_ACTIVE (R253). -/
def AX_STAT_INJ_ACTIVE (i : Nat) : Fld := ⟨(aAX_STAT i), 9, 1⟩
/-- AX_STAT.EXTRAP (R253). -/
def AX_STAT_EXTRAP (i : Nat) : Fld := ⟨(aAX_STAT i), 10, 1⟩
/-- AX_STAT.EN_REF (R253). -/
def AX_STAT_EN_REF (i : Nat) : Fld := ⟨(aAX_STAT i), 11, 1⟩
/-- AX_STAT.NODE_SAFE (R253). -/
def AX_STAT_NODE_SAFE (i : Nat) : Fld := ⟨(aAX_STAT i), 12, 1⟩
/-- AX_STAT.FCODE (R253). -/
def AX_STAT_FCODE (i : Nat) : Fld := ⟨(aAX_STAT i), 16, 8⟩
/-- Address of AX_CFG (R253). -/
def aAX_CFG (i : Nat) : Nat := 0xc0008 + 0x400 * i
/-- AX_CFG.MOD_SHORT (R253). -/
def AX_CFG_MOD_SHORT (i : Nat) : Fld := ⟨(aAX_CFG i), 0, 1⟩
/-- AX_CFG.VSRC (R253). -/
def AX_CFG_VSRC (i : Nat) : Fld := ⟨(aAX_CFG i), 1, 1⟩
/-- AX_CFG.BRAKE_AUTO (R253). -/
def AX_CFG_BRAKE_AUTO (i : Nat) : Fld := ⟨(aAX_CFG i), 2, 1⟩
/-- AX_CFG.MDIR (R253). -/
def AX_CFG_MDIR (i : Nat) : Fld := ⟨(aAX_CFG i), 8, 1⟩
/-- Address of AX_TARGET (R253). -/
def aAX_TARGET (i : Nat) : Nat := 0xc0010 + 0x400 * i
/-- AX_TARGET.V (R253). -/
def AX_TARGET (i : Nat) : Fld := ⟨(aAX_TARGET i), 0, 64⟩
/-- Address of AX_PVEL (R253). -/
def aAX_PVEL (i : Nat) : Nat := 0xc0018 + 0x400 * i
/-- AX_PVEL.V (R253). -/
def AX_PVEL (i : Nat) : Fld := ⟨(aAX_PVEL i), 0, 32⟩
/-- Address of AX_PACC (R253). -/
def aAX_PACC (i : Nat) : Nat := 0xc001c + 0x400 * i
/-- AX_PACC.V (R253). -/
def AX_PACC (i : Nat) : Fld := ⟨(aAX_PACC i), 0, 32⟩
/-- Address of AX_PDEC (R253). -/
def aAX_PDEC (i : Nat) : Nat := 0xc0020 + 0x400 * i
/-- AX_PDEC.V (R253). -/
def AX_PDEC (i : Nat) : Fld := ⟨(aAX_PDEC i), 0, 32⟩
/-- Address of AX_PJERK (R253). -/
def aAX_PJERK (i : Nat) : Nat := 0xc0024 + 0x400 * i
/-- AX_PJERK.V (R253). -/
def AX_PJERK (i : Nat) : Fld := ⟨(aAX_PJERK i), 0, 32⟩
/-- Address of AX_MCTL (R253). -/
def aAX_MCTL (i : Nat) : Nat := 0xc0028 + 0x400 * i
/-- AX_MCTL.CMODE (R253). -/
def AX_MCTL_CMODE (i : Nat) : Fld := ⟨(aAX_MCTL i), 0, 2⟩
/-- AX_MCTL.STOP (R253). -/
def AX_MCTL_STOP (i : Nat) : Fld := ⟨(aAX_MCTL i), 2, 1⟩
/-- AX_MCTL.GCANCEL (R253). -/
def AX_MCTL_GCANCEL (i : Nat) : Fld := ⟨(aAX_MCTL i), 3, 1⟩
/-- Address of AX_JVEL (R253). -/
def aAX_JVEL (i : Nat) : Nat := 0xc002c + 0x400 * i
/-- AX_JVEL.V (R253). -/
def AX_JVEL (i : Nat) : Fld := ⟨(aAX_JVEL i), 0, 32⟩
/-- Address of AX_MODULUS (R253). -/
def aAX_MODULUS (i : Nat) : Nat := 0xc0030 + 0x400 * i
/-- AX_MODULUS.V (R253). -/
def AX_MODULUS (i : Nat) : Fld := ⟨(aAX_MODULUS i), 0, 64⟩
/-- Address of AX_GRATIO (R253). -/
def aAX_GRATIO (i : Nat) : Nat := 0xc0038 + 0x400 * i
/-- AX_GRATIO.V (R253). -/
def AX_GRATIO (i : Nat) : Fld := ⟨(aAX_GRATIO i), 0, 64⟩
/-- Address of AX_GNEW (R253). -/
def aAX_GNEW (i : Nat) : Nat := 0xc0040 + 0x400 * i
/-- AX_GNEW.V (R253). -/
def AX_GNEW (i : Nat) : Fld := ⟨(aAX_GNEW i), 0, 64⟩
/-- Address of AX_GANG (R253). -/
def aAX_GANG (i : Nat) : Nat := 0xc0048 + 0x400 * i
/-- AX_GANG.V (R253). -/
def AX_GANG (i : Nat) : Fld := ⟨(aAX_GANG i), 0, 64⟩
/-- Address of AX_GBLEND (R253). -/
def aAX_GBLEND (i : Nat) : Nat := 0xc0050 + 0x400 * i
/-- AX_GBLEND.V (R253). -/
def AX_GBLEND (i : Nat) : Fld := ⟨(aAX_GBLEND i), 0, 32⟩
/-- Address of AX_GRIN (R253). -/
def aAX_GRIN (i : Nat) : Nat := 0xc0058 + 0x400 * i
/-- AX_GRIN.V (R253). -/
def AX_GRIN (i : Nat) : Fld := ⟨(aAX_GRIN i), 0, 64⟩
/-- Address of AX_MSTAT (R253). -/
def aAX_MSTAT (i : Nat) : Nat := 0xc0060 + 0x400 * i
/-- AX_MSTAT.PHASE (R253). -/
def AX_MSTAT_PHASE (i : Nat) : Fld := ⟨(aAX_MSTAT i), 0, 3⟩
/-- AX_MSTAT.MOVING (R253). -/
def AX_MSTAT_MOVING (i : Nat) : Fld := ⟨(aAX_MSTAT i), 3, 1⟩
/-- AX_MSTAT.DONE (R253). -/
def AX_MSTAT_DONE (i : Nat) : Fld := ⟨(aAX_MSTAT i), 4, 1⟩
/-- AX_MSTAT.REVERSING (R253). -/
def AX_MSTAT_REVERSING (i : Nat) : Fld := ⟨(aAX_MSTAT i), 5, 1⟩
/-- AX_MSTAT.GEARED (R253). -/
def AX_MSTAT_GEARED (i : Nat) : Fld := ⟨(aAX_MSTAT i), 6, 1⟩
/-- AX_MSTAT.BLEND (R253). -/
def AX_MSTAT_BLEND (i : Nat) : Fld := ⟨(aAX_MSTAT i), 7, 1⟩
/-- AX_MSTAT.GPEND (R253). -/
def AX_MSTAT_GPEND (i : Nat) : Fld := ⟨(aAX_MSTAT i), 8, 1⟩
/-- AX_MSTAT.ENG_ERR (R253). -/
def AX_MSTAT_ENG_ERR (i : Nat) : Fld := ⟨(aAX_MSTAT i), 9, 1⟩
/-- AX_MSTAT.PARAM_ERR (R253). -/
def AX_MSTAT_PARAM_ERR (i : Nat) : Fld := ⟨(aAX_MSTAT i), 10, 1⟩
/-- AX_MSTAT.ASTEP (R253). -/
def AX_MSTAT_ASTEP (i : Nat) : Fld := ⟨(aAX_MSTAT i), 11, 1⟩
/-- AX_MSTAT.CUR_RED (R253). -/
def AX_MSTAT_CUR_RED (i : Nat) : Fld := ⟨(aAX_MSTAT i), 12, 1⟩
/-- Address of AX_OFSPOS (R253). -/
def aAX_OFSPOS (i : Nat) : Nat := 0xc0068 + 0x400 * i
/-- AX_OFSPOS.V (R253). -/
def AX_OFSPOS (i : Nat) : Fld := ⟨(aAX_OFSPOS i), 0, 64⟩
/-- Address of AX_SRUN (R253). -/
def aAX_SRUN (i : Nat) : Nat := 0xc0080 + 0x400 * i
/-- AX_SRUN.V (R253). -/
def AX_SRUN (i : Nat) : Fld := ⟨(aAX_SRUN i), 0, 32⟩
/-- Address of AX_SHOLD (R253). -/
def aAX_SHOLD (i : Nat) : Nat := 0xc0084 + 0x400 * i
/-- AX_SHOLD.V (R253). -/
def AX_SHOLD (i : Nat) : Fld := ⟨(aAX_SHOLD i), 0, 32⟩
/-- Address of AX_SDELAY (R253). -/
def aAX_SDELAY (i : Nat) : Nat := 0xc0088 + 0x400 * i
/-- AX_SDELAY.V (R253). -/
def AX_SDELAY (i : Nat) : Fld := ⟨(aAX_SDELAY i), 0, 32⟩
/-- Address of AX_SRAMP (R253). -/
def aAX_SRAMP (i : Nat) : Nat := 0xc008c + 0x400 * i
/-- AX_SRAMP.V (R253). -/
def AX_SRAMP (i : Nat) : Fld := ⟨(aAX_SRAMP i), 0, 32⟩
/-- Address of AX_SCUR (R253). -/
def aAX_SCUR (i : Nat) : Nat := 0xc0090 + 0x400 * i
/-- AX_SCUR.V (R253). -/
def AX_SCUR (i : Nat) : Fld := ⟨(aAX_SCUR i), 0, 32⟩
/-- Address of AX_KPP (R253). -/
def aAX_KPP (i : Nat) : Nat := 0xc0100 + 0x400 * i
/-- AX_KPP.V (R253). -/
def AX_KPP (i : Nat) : Fld := ⟨(aAX_KPP i), 0, 32⟩
/-- Address of AX_KVFF (R253). -/
def aAX_KVFF (i : Nat) : Nat := 0xc0104 + 0x400 * i
/-- AX_KVFF.V (R253). -/
def AX_KVFF (i : Nat) : Fld := ⟨(aAX_KVFF i), 0, 32⟩
/-- Address of AX_VLIM (R253). -/
def aAX_VLIM (i : Nat) : Nat := 0xc0108 + 0x400 * i
/-- AX_VLIM.V (R253). -/
def AX_VLIM (i : Nat) : Fld := ⟨(aAX_VLIM i), 0, 32⟩
/-- Address of AX_KPV (R253). -/
def aAX_KPV (i : Nat) : Nat := 0xc010c + 0x400 * i
/-- AX_KPV.V (R253). -/
def AX_KPV (i : Nat) : Fld := ⟨(aAX_KPV i), 0, 32⟩
/-- Address of AX_KIV (R253). -/
def aAX_KIV (i : Nat) : Nat := 0xc0110 + 0x400 * i
/-- AX_KIV.V (R253). -/
def AX_KIV (i : Nat) : Fld := ⟨(aAX_KIV i), 0, 32⟩
/-- Address of AX_KAW (R253). -/
def aAX_KAW (i : Nat) : Nat := 0xc0114 + 0x400 * i
/-- AX_KAW.V (R253). -/
def AX_KAW (i : Nat) : Fld := ⟨(aAX_KAW i), 0, 32⟩
/-- Address of AX_ILIM (R253). -/
def aAX_ILIM (i : Nat) : Nat := 0xc0118 + 0x400 * i
/-- AX_ILIM.V (R253). -/
def AX_ILIM (i : Nat) : Fld := ⟨(aAX_ILIM i), 0, 32⟩
/-- Address of AX_KAFF (R253). -/
def aAX_KAFF (i : Nat) : Nat := 0xc011c + 0x400 * i
/-- AX_KAFF.V (R253). -/
def AX_KAFF (i : Nat) : Fld := ⟨(aAX_KAFF i), 0, 32⟩
/-- Address of AX_TFRIC (R253). -/
def aAX_TFRIC (i : Nat) : Nat := 0xc0120 + 0x400 * i
/-- AX_TFRIC.V (R253). -/
def AX_TFRIC (i : Nat) : Fld := ⟨(aAX_TFRIC i), 0, 32⟩
/-- Address of AX_KVF (R253). -/
def aAX_KVF (i : Nat) : Nat := 0xc0124 + 0x400 * i
/-- AX_KVF.V (R253). -/
def AX_KVF (i : Nat) : Fld := ⟨(aAX_KVF i), 0, 32⟩
/-- Address of AX_TLIMP (R253). -/
def aAX_TLIMP (i : Nat) : Nat := 0xc0128 + 0x400 * i
/-- AX_TLIMP.V (R253). -/
def AX_TLIMP (i : Nat) : Fld := ⟨(aAX_TLIMP i), 0, 32⟩
/-- Address of AX_TLIMN (R253). -/
def aAX_TLIMN (i : Nat) : Nat := 0xc012c + 0x400 * i
/-- AX_TLIMN.V (R253). -/
def AX_TLIMN (i : Nat) : Fld := ⟨(aAX_TLIMN i), 0, 32⟩
/-- Address of AX_FELIM (R253). -/
def aAX_FELIM (i : Nat) : Nat := 0xc0130 + 0x400 * i
/-- AX_FELIM.V (R253). -/
def AX_FELIM (i : Nat) : Fld := ⟨(aAX_FELIM i), 0, 64⟩
/-- Address of AX_VMAX (R253). -/
def aAX_VMAX (i : Nat) : Nat := 0xc0138 + 0x400 * i
/-- AX_VMAX.V (R253). -/
def AX_VMAX (i : Nat) : Fld := ⟨(aAX_VMAX i), 0, 32⟩
/-- Address of AX_ENTO (R253). -/
def aAX_ENTO (i : Nat) : Nat := 0xc013c + 0x400 * i
/-- AX_ENTO.V (R253). -/
def AX_ENTO (i : Nat) : Fld := ⟨(aAX_ENTO i), 0, 32⟩
/-- Address of AX_F1_B0 (R253). -/
def aAX_F1_B0 (i : Nat) : Nat := 0xc0140 + 0x400 * i
/-- AX_F1_B0.V (R253). -/
def AX_F1_B0 (i : Nat) : Fld := ⟨(aAX_F1_B0 i), 0, 32⟩
/-- Address of AX_F1_B1 (R253). -/
def aAX_F1_B1 (i : Nat) : Nat := 0xc0144 + 0x400 * i
/-- AX_F1_B1.V (R253). -/
def AX_F1_B1 (i : Nat) : Fld := ⟨(aAX_F1_B1 i), 0, 32⟩
/-- Address of AX_F1_B2 (R253). -/
def aAX_F1_B2 (i : Nat) : Nat := 0xc0148 + 0x400 * i
/-- AX_F1_B2.V (R253). -/
def AX_F1_B2 (i : Nat) : Fld := ⟨(aAX_F1_B2 i), 0, 32⟩
/-- Address of AX_F1_A1 (R253). -/
def aAX_F1_A1 (i : Nat) : Nat := 0xc014c + 0x400 * i
/-- AX_F1_A1.V (R253). -/
def AX_F1_A1 (i : Nat) : Fld := ⟨(aAX_F1_A1 i), 0, 32⟩
/-- Address of AX_F1_A2 (R253). -/
def aAX_F1_A2 (i : Nat) : Nat := 0xc0150 + 0x400 * i
/-- AX_F1_A2.V (R253). -/
def AX_F1_A2 (i : Nat) : Fld := ⟨(aAX_F1_A2 i), 0, 32⟩
/-- Address of AX_F2_B0 (R253). -/
def aAX_F2_B0 (i : Nat) : Nat := 0xc0160 + 0x400 * i
/-- AX_F2_B0.V (R253). -/
def AX_F2_B0 (i : Nat) : Fld := ⟨(aAX_F2_B0 i), 0, 32⟩
/-- Address of AX_F2_B1 (R253). -/
def aAX_F2_B1 (i : Nat) : Nat := 0xc0164 + 0x400 * i
/-- AX_F2_B1.V (R253). -/
def AX_F2_B1 (i : Nat) : Fld := ⟨(aAX_F2_B1 i), 0, 32⟩
/-- Address of AX_F2_B2 (R253). -/
def aAX_F2_B2 (i : Nat) : Nat := 0xc0168 + 0x400 * i
/-- AX_F2_B2.V (R253). -/
def AX_F2_B2 (i : Nat) : Fld := ⟨(aAX_F2_B2 i), 0, 32⟩
/-- Address of AX_F2_A1 (R253). -/
def aAX_F2_A1 (i : Nat) : Nat := 0xc016c + 0x400 * i
/-- AX_F2_A1.V (R253). -/
def AX_F2_A1 (i : Nat) : Fld := ⟨(aAX_F2_A1 i), 0, 32⟩
/-- Address of AX_F2_A2 (R253). -/
def aAX_F2_A2 (i : Nat) : Nat := 0xc0170 + 0x400 * i
/-- AX_F2_A2.V (R253). -/
def AX_F2_A2 (i : Nat) : Fld := ⟨(aAX_F2_A2 i), 0, 32⟩
/-- Address of AX_RC_ALPHA (R253). -/
def aAX_RC_ALPHA (i : Nat) : Nat := 0xc0200 + 0x400 * i
/-- AX_RC_ALPHA.V (R253). -/
def AX_RC_ALPHA (i : Nat) : Fld := ⟨(aAX_RC_ALPHA i), 0, 32⟩
/-- Address of AX_RC_Q1 (R253). -/
def aAX_RC_Q1 (i : Nat) : Nat := 0xc0204 + 0x400 * i
/-- AX_RC_Q1.V (R253). -/
def AX_RC_Q1 (i : Nat) : Fld := ⟨(aAX_RC_Q1 i), 0, 32⟩
/-- Address of AX_RC_KL (R253). -/
def aAX_RC_KL (i : Nat) : Nat := 0xc0208 + 0x400 * i
/-- AX_RC_KL.V (R253). -/
def AX_RC_KL (i : Nat) : Fld := ⟨(aAX_RC_KL i), 0, 32⟩
/-- Address of AX_RC_LEAD (R253). -/
def aAX_RC_LEAD (i : Nat) : Nat := 0xc020c + 0x400 * i
/-- AX_RC_LEAD.V (R253). -/
def AX_RC_LEAD (i : Nat) : Fld := ⟨(aAX_RC_LEAD i), 0, 8⟩
/-- Address of AX_RC_TLEAD (R253). -/
def aAX_RC_TLEAD (i : Nat) : Nat := 0xc0210 + 0x400 * i
/-- AX_RC_TLEAD.V (R253). -/
def AX_RC_TLEAD (i : Nat) : Fld := ⟨(aAX_RC_TLEAD i), 0, 32⟩
/-- Address of AX_RC_WMIN (R253). -/
def aAX_RC_WMIN (i : Nat) : Nat := 0xc0214 + 0x400 * i
/-- AX_RC_WMIN.V (R253). -/
def AX_RC_WMIN (i : Nat) : Fld := ⟨(aAX_RC_WMIN i), 0, 32⟩
/-- Address of AX_RC_ULIM (R253). -/
def aAX_RC_ULIM (i : Nat) : Nat := 0xc0218 + 0x400 * i
/-- AX_RC_ULIM.V (R253). -/
def AX_RC_ULIM (i : Nat) : Fld := ⟨(aAX_RC_ULIM i), 0, 32⟩
/-- Address of AX_RC_STAT (R253). -/
def aAX_RC_STAT (i : Nat) : Nat := 0xc021c + 0x400 * i
/-- AX_RC_STAT.POINT (R253). -/
def AX_RC_STAT_POINT (i : Nat) : Fld := ⟨(aAX_RC_STAT i), 0, 12⟩
/-- AX_RC_STAT.SKIP (R253). -/
def AX_RC_STAT_SKIP (i : Nat) : Fld := ⟨(aAX_RC_STAT i), 16, 16⟩
/-- Address of AX_INJ_CFG (R253). -/
def aAX_INJ_CFG (i : Nat) : Nat := 0xc0280 + 0x400 * i
/-- AX_INJ_CFG.POINT (R253). -/
def AX_INJ_CFG_POINT (i : Nat) : Fld := ⟨(aAX_INJ_CFG i), 0, 2⟩
/-- AX_INJ_CFG.WAVE (R253). -/
def AX_INJ_CFG_WAVE (i : Nat) : Fld := ⟨(aAX_INJ_CFG i), 4, 3⟩
/-- AX_INJ_CFG.ORDER (R253). -/
def AX_INJ_CFG_ORDER (i : Nat) : Fld := ⟨(aAX_INJ_CFG i), 8, 5⟩
/-- AX_INJ_CFG.HOLD (R253). -/
def AX_INJ_CFG_HOLD (i : Nat) : Fld := ⟨(aAX_INJ_CFG i), 16, 8⟩
/-- Address of AX_INJ_AMP (R253). -/
def aAX_INJ_AMP (i : Nat) : Nat := 0xc0284 + 0x400 * i
/-- AX_INJ_AMP.V (R253). -/
def AX_INJ_AMP (i : Nat) : Fld := ⟨(aAX_INJ_AMP i), 0, 32⟩
/-- Address of AX_INJ_F0 (R253). -/
def aAX_INJ_F0 (i : Nat) : Nat := 0xc0288 + 0x400 * i
/-- AX_INJ_F0.V (R253). -/
def AX_INJ_F0 (i : Nat) : Fld := ⟨(aAX_INJ_F0 i), 0, 32⟩
/-- Address of AX_INJ_F1 (R253). -/
def aAX_INJ_F1 (i : Nat) : Nat := 0xc028c + 0x400 * i
/-- AX_INJ_F1.V (R253). -/
def AX_INJ_F1 (i : Nat) : Fld := ⟨(aAX_INJ_F1 i), 0, 32⟩
/-- Address of AX_INJ_LEN (R253). -/
def aAX_INJ_LEN (i : Nat) : Nat := 0xc0290 + 0x400 * i
/-- AX_INJ_LEN.V (R253). -/
def AX_INJ_LEN (i : Nat) : Fld := ⟨(aAX_INJ_LEN i), 0, 32⟩
/-- Address of AX_MAN_TRQ (R253). -/
def aAX_MAN_TRQ (i : Nat) : Nat := 0xc02c0 + 0x400 * i
/-- AX_MAN_TRQ.V (R253). -/
def AX_MAN_TRQ (i : Nat) : Fld := ⟨(aAX_MAN_TRQ i), 0, 32⟩
/-- Address of AX_MAN_VEL (R253). -/
def aAX_MAN_VEL (i : Nat) : Nat := 0xc02c4 + 0x400 * i
/-- AX_MAN_VEL.V (R253). -/
def AX_MAN_VEL (i : Nat) : Fld := ⟨(aAX_MAN_VEL i), 0, 32⟩
/-- Address of AX_ACTPOS (R253). -/
def aAX_ACTPOS (i : Nat) : Nat := 0xc0300 + 0x400 * i
/-- AX_ACTPOS.V (R253). -/
def AX_ACTPOS (i : Nat) : Fld := ⟨(aAX_ACTPOS i), 0, 64⟩
/-- Address of AX_ACTVEL (R253). -/
def aAX_ACTVEL (i : Nat) : Nat := 0xc0308 + 0x400 * i
/-- AX_ACTVEL.V (R253). -/
def AX_ACTVEL (i : Nat) : Fld := ⟨(aAX_ACTVEL i), 0, 32⟩
/-- Address of AX_ACTTRQ (R253). -/
def aAX_ACTTRQ (i : Nat) : Nat := 0xc030c + 0x400 * i
/-- AX_ACTTRQ.V (R253). -/
def AX_ACTTRQ (i : Nat) : Fld := ⟨(aAX_ACTTRQ i), 0, 32⟩
/-- Address of AX_CMDPOS (R253). -/
def aAX_CMDPOS (i : Nat) : Nat := 0xc0310 + 0x400 * i
/-- AX_CMDPOS.V (R253). -/
def AX_CMDPOS (i : Nat) : Fld := ⟨(aAX_CMDPOS i), 0, 64⟩
/-- Address of AX_CMDVEL (R253). -/
def aAX_CMDVEL (i : Nat) : Nat := 0xc0318 + 0x400 * i
/-- AX_CMDVEL.V (R253). -/
def AX_CMDVEL (i : Nat) : Fld := ⟨(aAX_CMDVEL i), 0, 32⟩
/-- Address of AX_EPOS (R253). -/
def aAX_EPOS (i : Nat) : Nat := 0xc0320 + 0x400 * i
/-- AX_EPOS.V (R253). -/
def AX_EPOS (i : Nat) : Fld := ⟨(aAX_EPOS i), 0, 64⟩
/-- Address of AX_VREF (R253). -/
def aAX_VREF (i : Nat) : Nat := 0xc0328 + 0x400 * i
/-- AX_VREF.V (R253). -/
def AX_VREF (i : Nat) : Fld := ⟨(aAX_VREF i), 0, 32⟩
/-- Address of AX_UOUT (R253). -/
def aAX_UOUT (i : Nat) : Nat := 0xc032c + 0x400 * i
/-- AX_UOUT.V (R253). -/
def AX_UOUT (i : Nat) : Fld := ⟨(aAX_UOUT i), 0, 32⟩
/-- Address of AX_INTEG (R253). -/
def aAX_INTEG (i : Nat) : Nat := 0xc0330 + 0x400 * i
/-- AX_INTEG.V (R253). -/
def AX_INTEG (i : Nat) : Fld := ⟨(aAX_INTEG i), 0, 32⟩
/-- Address of AX_URC (R253). -/
def aAX_URC (i : Nat) : Nat := 0xc0334 + 0x400 * i
/-- AX_URC.V (R253). -/
def AX_URC (i : Nat) : Fld := ⟨(aAX_URC i), 0, 32⟩
/-- Address of AX_NSTATUS (R253). -/
def aAX_NSTATUS (i : Nat) : Nat := 0xc0338 + 0x400 * i
/-- AX_NSTATUS.V (R253). -/
def AX_NSTATUS (i : Nat) : Fld := ⟨(aAX_NSTATUS i), 0, 32⟩
/-- Address of AX_NERR (R253). -/
def aAX_NERR (i : Nat) : Nat := 0xc033c + 0x400 * i
/-- AX_NERR.V (R253). -/
def AX_NERR (i : Nat) : Fld := ⟨(aAX_NERR i), 0, 32⟩
/-- Address of AX_EXTRAP_CNT (R253). -/
def aAX_EXTRAP_CNT (i : Nat) : Nat := 0xc0340 + 0x400 * i
/-- AX_EXTRAP_CNT.V (R253). -/
def AX_EXTRAP_CNT (i : Nat) : Fld := ⟨(aAX_EXTRAP_CNT i), 0, 32⟩
/-- Address of AX_FAULT_RND (R253). -/
def aAX_FAULT_RND (i : Nat) : Nat := 0xc0344 + 0x400 * i
/-- AX_FAULT_RND.V (R253). -/
def AX_FAULT_RND (i : Nat) : Fld := ⟨(aAX_FAULT_RND i), 0, 32⟩
/-- Address of AX_VSTAT (R253). -/
def aAX_VSTAT (i : Nat) : Nat := 0xc03fc + 0x400 * i
/-- AX_VSTAT.VSTAT (R253). -/
def AX_VSTAT (i : Nat) : Fld := ⟨(aAX_VSTAT i), 0, 24⟩

/-! Page `fb` at 0x101000: chapter 09, R306. -/

/-- Address of FB_CTL (R306). -/
def aFB_CTL (i : Nat) : Nat := 0x101000 + 0x100 * i
/-- FB_CTL.EN (R306). -/
def FB_CTL_EN (i : Nat) : Fld := ⟨(aFB_CTL i), 0, 1⟩
/-- FB_CTL.FAULT_ACK (R306). -/
def FB_CTL_FAULT_ACK (i : Nat) : Fld := ⟨(aFB_CTL i), 1, 1⟩
/-- FB_CTL.LOAD (R306). -/
def FB_CTL_LOAD (i : Nat) : Fld := ⟨(aFB_CTL i), 2, 1⟩
/-- FB_CTL.UNC_CLR (R306). -/
def FB_CTL_UNC_CLR (i : Nat) : Fld := ⟨(aFB_CTL i), 3, 1⟩
/-- FB_CTL.CNT_CLR (R306). -/
def FB_CTL_CNT_CLR (i : Nat) : Fld := ⟨(aFB_CTL i), 4, 1⟩
/-- FB_CTL.ZIRQ (R306). -/
def FB_CTL_ZIRQ (i : Nat) : Fld := ⟨(aFB_CTL i), 5, 1⟩
/-- Address of FB_CFG (R306). -/
def aFB_CFG (i : Nat) : Nat := 0x101004 + 0x100 * i
/-- FB_CFG.TYPE (R306). -/
def FB_CFG_TYPE (i : Nat) : Fld := ⟨(aFB_CFG i), 0, 2⟩
/-- FB_CFG.INV (R306). -/
def FB_CFG_INV (i : Nat) : Fld := ⟨(aFB_CFG i), 2, 1⟩
/-- FB_CFG.ZGATE (R306). -/
def FB_CFG_ZGATE (i : Nat) : Fld := ⟨(aFB_CFG i), 3, 1⟩
/-- FB_CFG.ZCORR (R306). -/
def FB_CFG_ZCORR (i : Nat) : Fld := ⟨(aFB_CFG i), 4, 1⟩
/-- FB_CFG.SLFLT (R306). -/
def FB_CFG_SLFLT (i : Nat) : Fld := ⟨(aFB_CFG i), 5, 1⟩
/-- FB_CFG.FILT (R306). -/
def FB_CFG_FILT (i : Nat) : Fld := ⟨(aFB_CFG i), 8, 4⟩
/-- Address of FB_LINES (R306). -/
def aFB_LINES (i : Nat) : Nat := 0x101008 + 0x100 * i
/-- FB_LINES.V (R306). -/
def FB_LINES (i : Nat) : Fld := ⟨(aFB_LINES i), 0, 32⟩
/-- Address of FB_ZTOL (R306). -/
def aFB_ZTOL (i : Nat) : Nat := 0x10100c + 0x100 * i
/-- FB_ZTOL.V (R306). -/
def FB_ZTOL (i : Nat) : Fld := ⟨(aFB_ZTOL i), 0, 8⟩
/-- Address of FB_SSI_FMT (R306). -/
def aFB_SSI_FMT (i : Nat) : Nat := 0x101010 + 0x100 * i
/-- FB_SSI_FMT.BITS (R306). -/
def FB_SSI_FMT_BITS (i : Nat) : Fld := ⟨(aFB_SSI_FMT i), 0, 7⟩
/-- FB_SSI_FMT.GRAY (R306). -/
def FB_SSI_FMT_GRAY (i : Nat) : Fld := ⟨(aFB_SSI_FMT i), 7, 1⟩
/-- FB_SSI_FMT.POSLSB (R306). -/
def FB_SSI_FMT_POSLSB (i : Nat) : Fld := ⟨(aFB_SSI_FMT i), 8, 6⟩
/-- FB_SSI_FMT.POSW (R306). -/
def FB_SSI_FMT_POSW (i : Nat) : Fld := ⟨(aFB_SSI_FMT i), 16, 6⟩
/-- FB_SSI_FMT.UNWRAP (R306). -/
def FB_SSI_FMT_UNWRAP (i : Nat) : Fld := ⟨(aFB_SSI_FMT i), 22, 1⟩
/-- FB_SSI_FMT.SUB (R306). -/
def FB_SSI_FMT_SUB (i : Nat) : Fld := ⟨(aFB_SSI_FMT i), 24, 2⟩
/-- Address of FB_SSI_TIM (R306). -/
def aFB_SSI_TIM (i : Nat) : Nat := 0x101014 + 0x100 * i
/-- FB_SSI_TIM.CLKDIV (R306). -/
def FB_SSI_TIM_CLKDIV (i : Nat) : Fld := ⟨(aFB_SSI_TIM i), 0, 12⟩
/-- FB_SSI_TIM.DCOMP (R306). -/
def FB_SSI_TIM_DCOMP (i : Nat) : Fld := ⟨(aFB_SSI_TIM i), 16, 8⟩
/-- FB_SSI_TIM.MONO (R306). -/
def FB_SSI_TIM_MONO (i : Nat) : Fld := ⟨(aFB_SSI_TIM i), 24, 8⟩
/-- Address of FB_NQ (R306). -/
def aFB_NQ (i : Nat) : Nat := 0x101018 + 0x100 * i
/-- FB_NQ.V (R306). -/
def FB_NQ (i : Nat) : Fld := ⟨(aFB_NQ i), 0, 32⟩
/-- Address of FB_SS (R306). -/
def aFB_SS (i : Nat) : Nat := 0x10101c + 0x100 * i
/-- FB_SS.SSTO (R306). -/
def FB_SS_SSTO (i : Nat) : Fld := ⟨(aFB_SS i), 0, 16⟩
/-- FB_SS.SSWIN (R306). -/
def FB_SS_SSWIN (i : Nat) : Fld := ⟨(aFB_SS i), 16, 16⟩
/-- Address of FB_JUMP (R306). -/
def aFB_JUMP (i : Nat) : Nat := 0x101020 + 0x100 * i
/-- FB_JUMP.V (R306). -/
def FB_JUMP (i : Nat) : Fld := ⟨(aFB_JUMP i), 0, 32⟩
/-- Address of FB_SETPOS (R306). -/
def aFB_SETPOS (i : Nat) : Nat := 0x101028 + 0x100 * i
/-- FB_SETPOS.V (R306). -/
def FB_SETPOS (i : Nat) : Fld := ⟨(aFB_SETPOS i), 0, 64⟩
/-- Address of FB_SLO (R306). -/
def aFB_SLO (i : Nat) : Nat := 0x101030 + 0x100 * i
/-- FB_SLO.V (R306). -/
def FB_SLO (i : Nat) : Fld := ⟨(aFB_SLO i), 0, 64⟩
/-- Address of FB_SHI (R306). -/
def aFB_SHI (i : Nat) : Nat := 0x101038 + 0x100 * i
/-- FB_SHI.V (R306). -/
def FB_SHI (i : Nat) : Fld := ⟨(aFB_SHI i), 0, 64⟩
/-- Address of FB_POS (R306). -/
def aFB_POS (i : Nat) : Nat := 0x101040 + 0x100 * i
/-- FB_POS.V (R306). -/
def FB_POS (i : Nat) : Fld := ⟨(aFB_POS i), 0, 64⟩
/-- Address of FB_VEL (R306). -/
def aFB_VEL (i : Nat) : Nat := 0x101048 + 0x100 * i
/-- FB_VEL.V (R306). -/
def FB_VEL (i : Nat) : Fld := ⟨(aFB_VEL i), 0, 32⟩
/-- Address of FB_ZPOS (R306). -/
def aFB_ZPOS (i : Nat) : Nat := 0x10104c + 0x100 * i
/-- FB_ZPOS.V (R306). -/
def FB_ZPOS (i : Nat) : Fld := ⟨(aFB_ZPOS i), 0, 64⟩
/-- Address of FB_STAT (R306). -/
def aFB_STAT (i : Nat) : Nat := 0x101054 + 0x100 * i
/-- FB_STAT.ENABLED (R306). -/
def FB_STAT_ENABLED (i : Nat) : Fld := ⟨(aFB_STAT i), 0, 1⟩
/-- FB_STAT.UNCERT (R306). -/
def FB_STAT_UNCERT (i : Nat) : Fld := ⟨(aFB_STAT i), 1, 1⟩
/-- FB_STAT.STANDSTILL (R306). -/
def FB_STAT_STANDSTILL (i : Nat) : Fld := ⟨(aFB_STAT i), 2, 1⟩
/-- FB_STAT.SLIM (R306). -/
def FB_STAT_SLIM (i : Nat) : Fld := ⟨(aFB_STAT i), 3, 1⟩
/-- FB_STAT.FAULT (R306). -/
def FB_STAT_FAULT (i : Nat) : Fld := ⟨(aFB_STAT i), 4, 1⟩
/-- FB_STAT.ZVALID (R306). -/
def FB_STAT_ZVALID (i : Nat) : Fld := ⟨(aFB_STAT i), 5, 1⟩
/-- FB_STAT.DIR (R306). -/
def FB_STAT_DIR (i : Nat) : Fld := ⟨(aFB_STAT i), 6, 1⟩
/-- FB_STAT.CFG_ERR (R306). -/
def FB_STAT_CFG_ERR (i : Nat) : Fld := ⟨(aFB_STAT i), 7, 1⟩
/-- FB_STAT.FCODE (R306). -/
def FB_STAT_FCODE (i : Nat) : Fld := ⟨(aFB_STAT i), 8, 4⟩
/-- Address of FB_ERR (R306). -/
def aFB_ERR (i : Nat) : Nat := 0x101058 + 0x100 * i
/-- FB_ERR.QSKIP (R306). -/
def FB_ERR_QSKIP (i : Nat) : Fld := ⟨(aFB_ERR i), 0, 16⟩
/-- FB_ERR.SSIERR (R306). -/
def FB_ERR_SSIERR (i : Nat) : Fld := ⟨(aFB_ERR i), 16, 8⟩
/-- FB_ERR.ZCORR (R306). -/
def FB_ERR_ZCORR (i : Nat) : Fld := ⟨(aFB_ERR i), 24, 8⟩
/-- Address of FB_ZDIFF (R306). -/
def aFB_ZDIFF (i : Nat) : Nat := 0x10105c + 0x100 * i
/-- FB_ZDIFF.V (R306). -/
def FB_ZDIFF (i : Nat) : Fld := ⟨(aFB_ZDIFF i), 0, 32⟩
/-- Address of FB_NOW (R306). -/
def aFB_NOW (i : Nat) : Nat := 0x101060 + 0x100 * i
/-- FB_NOW.V (R306). -/
def FB_NOW (i : Nat) : Fld := ⟨(aFB_NOW i), 0, 64⟩
/-- Address of FB_VSTAT (R306). -/
def aFB_VSTAT (i : Nat) : Nat := 0x1010fc + 0x100 * i
/-- FB_VSTAT.VSTAT (R306). -/
def FB_VSTAT (i : Nat) : Fld := ⟨(aFB_VSTAT i), 0, 24⟩

/-! Page `fbnv` at 0x104ffc: chapter 09, R307. -/

/-- Address of FB_N_VSTAT (R307). -/
def aFB_N_VSTAT : Nat := 0x104ffc
/-- FB_N_VSTAT.VSTAT (R307). -/
def FB_N_VSTAT : Fld := ⟨aFB_N_VSTAT, 0, 24⟩

/-! Page `fbn` at 0x105000: chapter 09, R307. -/

/-- Address of FB_N_NQ (R307). -/
def aFB_N_NQ (i : Nat) : Nat := 0x105000 + 0x20 * i
/-- FB_N_NQ.V (R307). -/
def FB_N_NQ (i : Nat) : Fld := ⟨(aFB_N_NQ i), 0, 32⟩
/-- Address of FB_N_SS (R307). -/
def aFB_N_SS (i : Nat) : Nat := 0x105004 + 0x20 * i
/-- FB_N_SS.SSTO (R307). -/
def FB_N_SS_SSTO (i : Nat) : Fld := ⟨(aFB_N_SS i), 0, 16⟩
/-- FB_N_SS.SSWIN (R307). -/
def FB_N_SS_SSWIN (i : Nat) : Fld := ⟨(aFB_N_SS i), 16, 16⟩
/-- Address of FB_N_JUMP (R307). -/
def aFB_N_JUMP (i : Nat) : Nat := 0x105008 + 0x20 * i
/-- FB_N_JUMP.V (R307). -/
def FB_N_JUMP (i : Nat) : Fld := ⟨(aFB_N_JUMP i), 0, 32⟩
/-- Address of FB_N_SLO (R307). -/
def aFB_N_SLO (i : Nat) : Nat := 0x105010 + 0x20 * i
/-- FB_N_SLO.V (R307). -/
def FB_N_SLO (i : Nat) : Fld := ⟨(aFB_N_SLO i), 0, 64⟩
/-- Address of FB_N_SHI (R307). -/
def aFB_N_SHI (i : Nat) : Nat := 0x105018 + 0x20 * i
/-- FB_N_SHI.V (R307). -/
def FB_N_SHI (i : Nat) : Fld := ⟨(aFB_N_SHI i), 0, 64⟩

/-! Page `fbns` at 0x107000: chapter 09, R307. -/

/-- Address of FB_N_STAT (R307). -/
def aFB_N_STAT (i : Nat) : Nat := 0x107000 + 0x10 * i
/-- FB_N_STAT.STANDSTILL (R307). -/
def FB_N_STAT_STANDSTILL (i : Nat) : Fld := ⟨(aFB_N_STAT i), 0, 1⟩
/-- FB_N_STAT.UNCERT (R307). -/
def FB_N_STAT_UNCERT (i : Nat) : Fld := ⟨(aFB_N_STAT i), 1, 1⟩
/-- FB_N_STAT.SLIM (R307). -/
def FB_N_STAT_SLIM (i : Nat) : Fld := ⟨(aFB_N_STAT i), 2, 1⟩
/-- FB_N_STAT.FAULT (R307). -/
def FB_N_STAT_FAULT (i : Nat) : Fld := ⟨(aFB_N_STAT i), 3, 1⟩
/-- FB_N_STAT.FCODE (R307). -/
def FB_N_STAT_FCODE (i : Nat) : Fld := ⟨(aFB_N_STAT i), 8, 4⟩
/-- FB_N_STAT.ONSETS (R307). -/
def FB_N_STAT_ONSETS (i : Nat) : Fld := ⟨(aFB_N_STAT i), 16, 16⟩
/-- Address of FB_N_VEL (R307). -/
def aFB_N_VEL (i : Nat) : Nat := 0x107004 + 0x10 * i
/-- FB_N_VEL.V (R307). -/
def FB_N_VEL (i : Nat) : Fld := ⟨(aFB_N_VEL i), 0, 32⟩

/-! Page `disb` at 0x110000: chapter 10, R334. -/

/-- Address of DIS_B_STAT (R334). -/
def aDIS_B_STAT : Nat := 0x110004
/-- DIS_B_STAT.V (R334). -/
def DIS_B_STAT : Fld := ⟨aDIS_B_STAT, 0, 32⟩
/-- Address of DIS_VSTAT (R334). -/
def aDIS_VSTAT : Nat := 0x1103fc
/-- DIS_VSTAT.VSTAT (R334). -/
def DIS_VSTAT : Fld := ⟨aDIS_VSTAT, 0, 24⟩

/-! Page `dis` at 0x110400: chapter 10, R334. -/

/-- Address of DIS_CFG (R334). -/
def aDIS_CFG : Nat := 0x110400
/-- DIS_CFG.QMAX (R334). -/
def DIS_CFG_QMAX : Fld := ⟨aDIS_CFG, 0, 4⟩
/-- DIS_CFG.BQMAX (R334). -/
def DIS_CFG_BQMAX : Fld := ⟨aDIS_CFG, 8, 4⟩
/-- DIS_CFG.FLOW_TO (R334). -/
def DIS_CFG_FLOW_TO : Fld := ⟨aDIS_CFG, 16, 16⟩
/-- Address of DIS_STAT (R334). -/
def aDIS_STAT : Nat := 0x110404
/-- DIS_STAT.BKG_RUN (R334). -/
def DIS_STAT_BKG_RUN : Fld := ⟨aDIS_STAT, 0, 1⟩
/-- DIS_STAT.SEGRUN (R334). -/
def DIS_STAT_SEGRUN : Fld := ⟨aDIS_STAT, 8, 8⟩
/-- DIS_STAT.USED (R334). -/
def DIS_STAT_USED : Fld := ⟨aDIS_STAT, 16, 11⟩
/-- Address of DIS_FLAGS (R334). -/
def aDIS_FLAGS : Nat := 0x110408
/-- DIS_FLAGS.TIMEOUT (R334). -/
def DIS_FLAGS_TIMEOUT : Fld := ⟨aDIS_FLAGS, 0, 1⟩
/-- DIS_FLAGS.STALE (R334). -/
def DIS_FLAGS_STALE : Fld := ⟨aDIS_FLAGS, 1, 1⟩
/-- DIS_FLAGS.OVERRUN (R334). -/
def DIS_FLAGS_OVERRUN : Fld := ⟨aDIS_FLAGS, 2, 1⟩
/-- DIS_FLAGS.OVERRIDE (R334). -/
def DIS_FLAGS_OVERRIDE : Fld := ⟨aDIS_FLAGS, 3, 1⟩
/-- DIS_FLAGS.SKIP (R334). -/
def DIS_FLAGS_SKIP : Fld := ⟨aDIS_FLAGS, 4, 1⟩
/-- DIS_FLAGS.DEFER (R334). -/
def DIS_FLAGS_DEFER : Fld := ⟨aDIS_FLAGS, 5, 1⟩
/-- DIS_FLAGS.FLOW_TO (R334). -/
def DIS_FLAGS_FLOW_TO : Fld := ⟨aDIS_FLAGS, 6, 1⟩
/-- DIS_FLAGS.DROP (R334). -/
def DIS_FLAGS_DROP : Fld := ⟨aDIS_FLAGS, 7, 1⟩
/-- Address of DIS_IRQ_EN (R334). -/
def aDIS_IRQ_EN : Nat := 0x11040c
/-- DIS_IRQ_EN.EN (R334). -/
def DIS_IRQ_EN : Fld := ⟨aDIS_IRQ_EN, 0, 5⟩
/-- Address of DIS_DESC (R334). -/
def aDIS_DESC (j : Nat) : Nat := 0x110410 + 0x4 * j
/-- DIS_DESC.W (R334). -/
def DIS_DESC (j : Nat) : Fld := ⟨(aDIS_DESC j), 0, 32⟩
/-- Address of DIS_CMD (R334). -/
def aDIS_CMD : Nat := 0x110430
/-- DIS_CMD.OP (R334). -/
def DIS_CMD_OP : Fld := ⟨aDIS_CMD, 0, 3⟩
/-- DIS_CMD.ENG (R334). -/
def DIS_CMD_ENG : Fld := ⟨aDIS_CMD, 6, 5⟩
/-- DIS_CMD.ALL (R334). -/
def DIS_CMD_ALL : Fld := ⟨aDIS_CMD, 11, 1⟩
/-- DIS_CMD.INDEX (R334). -/
def DIS_CMD_INDEX : Fld := ⟨aDIS_CMD, 16, 10⟩
/-- Address of DIS_RES (R334). -/
def aDIS_RES : Nat := 0x110434
/-- DIS_RES.BUSY (R334). -/
def DIS_RES_BUSY : Fld := ⟨aDIS_RES, 0, 1⟩
/-- DIS_RES.RESULT (R334). -/
def DIS_RES_RESULT : Fld := ⟨aDIS_RES, 1, 3⟩
/-- DIS_RES.INDEX (R334). -/
def DIS_RES_INDEX : Fld := ⟨aDIS_RES, 16, 10⟩

/-! Page `dle` at 0x112000: chapter 10, R334. -/

/-- Address of DIS_LE_CYC (R334). -/
def aDIS_LE_CYC (i : Nat) : Nat := 0x112000 + 0x20 * i
/-- DIS_LE_CYC.V (R334). -/
def DIS_LE_CYC (i : Nat) : Fld := ⟨(aDIS_LE_CYC i), 0, 32⟩
/-- Address of DIS_LE_BKG (R334). -/
def aDIS_LE_BKG (i : Nat) : Nat := 0x112004 + 0x20 * i
/-- DIS_LE_BKG.V (R334). -/
def DIS_LE_BKG (i : Nat) : Fld := ⟨(aDIS_LE_BKG i), 0, 32⟩
/-- Address of DIS_LE_PEAK (R334). -/
def aDIS_LE_PEAK (i : Nat) : Nat := 0x112008 + 0x20 * i
/-- DIS_LE_PEAK.V (R334). -/
def DIS_LE_PEAK (i : Nat) : Fld := ⟨(aDIS_LE_PEAK i), 0, 32⟩
/-- Address of DIS_LE_Q (R334). -/
def aDIS_LE_Q (i : Nat) : Nat := 0x11200c + 0x20 * i
/-- DIS_LE_Q.CWAIT (R334). -/
def DIS_LE_Q_CWAIT (i : Nat) : Fld := ⟨(aDIS_LE_Q i), 0, 4⟩
/-- DIS_LE_Q.CPEAK (R334). -/
def DIS_LE_Q_CPEAK (i : Nat) : Fld := ⟨(aDIS_LE_Q i), 4, 4⟩
/-- DIS_LE_Q.BWAIT (R334). -/
def DIS_LE_Q_BWAIT (i : Nat) : Fld := ⟨(aDIS_LE_Q i), 8, 4⟩
/-- DIS_LE_Q.BPEAK (R334). -/
def DIS_LE_Q_BPEAK (i : Nat) : Fld := ⟨(aDIS_LE_Q i), 12, 4⟩
/-- DIS_LE_Q.HANDSIZE (R334). -/
def DIS_LE_Q_HANDSIZE (i : Nat) : Fld := ⟨(aDIS_LE_Q i), 16, 9⟩
/-- Address of DIS_LE_PREEMPT (R334). -/
def aDIS_LE_PREEMPT (i : Nat) : Nat := 0x112010 + 0x20 * i
/-- DIS_LE_PREEMPT.V (R334). -/
def DIS_LE_PREEMPT (i : Nat) : Fld := ⟨(aDIS_LE_PREEMPT i), 0, 32⟩
/-- Address of DIS_LE_OVR (R334). -/
def aDIS_LE_OVR (i : Nat) : Nat := 0x112014 + 0x20 * i
/-- DIS_LE_OVR.V (R334). -/
def DIS_LE_OVR (i : Nat) : Fld := ⟨(aDIS_LE_OVR i), 0, 32⟩
/-- Address of DIS_LE_STAT (R334). -/
def aDIS_LE_STAT (i : Nat) : Nat := 0x112018 + 0x20 * i
/-- DIS_LE_STAT.POOL (R334). -/
def DIS_LE_STAT_POOL (i : Nat) : Fld := ⟨(aDIS_LE_STAT i), 0, 1⟩
/-- DIS_LE_STAT.FROZEN (R334). -/
def DIS_LE_STAT_FROZEN (i : Nat) : Fld := ⟨(aDIS_LE_STAT i), 1, 1⟩
/-- DIS_LE_STAT.HALTED (R334). -/
def DIS_LE_STAT_HALTED (i : Nat) : Fld := ⟨(aDIS_LE_STAT i), 2, 1⟩
/-- DIS_LE_STAT.OFF (R334). -/
def DIS_LE_STAT_OFF (i : Nat) : Fld := ⟨(aDIS_LE_STAT i), 3, 1⟩

/-! Page `df` at 0x113000: chapter 10, R334. -/

/-- Address of DIS_F_REL (R334). -/
def aDIS_F_REL (i : Nat) : Nat := 0x113000 + 0x20 * i
/-- DIS_F_REL.V (R334). -/
def DIS_F_REL (i : Nat) : Fld := ⟨(aDIS_F_REL i), 0, 32⟩
/-- Address of DIS_F_STALE (R334). -/
def aDIS_F_STALE (i : Nat) : Nat := 0x113004 + 0x20 * i
/-- DIS_F_STALE.V (R334). -/
def DIS_F_STALE (i : Nat) : Fld := ⟨(aDIS_F_STALE i), 0, 32⟩
/-- Address of DIS_F_SLACK (R334). -/
def aDIS_F_SLACK (i : Nat) : Nat := 0x113008 + 0x20 * i
/-- DIS_F_SLACK.V (R334). -/
def DIS_F_SLACK (i : Nat) : Fld := ⟨(aDIS_F_SLACK i), 0, 32⟩
/-- Address of DIS_F_DROP (R334). -/
def aDIS_F_DROP (i : Nat) : Nat := 0x11300c + 0x20 * i
/-- DIS_F_DROP.V (R334). -/
def DIS_F_DROP (i : Nat) : Fld := ⟨(aDIS_F_DROP i), 0, 32⟩

/-! Page `dd` at 0x118000: chapter 10, R334. -/

/-- Address of DIS_D_WAITMAX (R334). -/
def aDIS_D_WAITMAX (i : Nat) : Nat := 0x118000 + 0x20 * i
/-- DIS_D_WAITMAX.V (R334). -/
def DIS_D_WAITMAX (i : Nat) : Fld := ⟨(aDIS_D_WAITMAX i), 0, 32⟩
/-- Address of DIS_D_RUN (R334). -/
def aDIS_D_RUN (i : Nat) : Nat := 0x118004 + 0x20 * i
/-- DIS_D_RUN.V (R334). -/
def DIS_D_RUN (i : Nat) : Fld := ⟨(aDIS_D_RUN i), 0, 32⟩
/-- Address of DIS_D_RUNMAX (R334). -/
def aDIS_D_RUNMAX (i : Nat) : Nat := 0x118008 + 0x20 * i
/-- DIS_D_RUNMAX.V (R334). -/
def DIS_D_RUNMAX (i : Nat) : Fld := ⟨(aDIS_D_RUNMAX i), 0, 32⟩
/-- Address of DIS_D_TO (R334). -/
def aDIS_D_TO (i : Nat) : Nat := 0x11800c + 0x20 * i
/-- DIS_D_TO.V (R334). -/
def DIS_D_TO (i : Nat) : Fld := ⟨(aDIS_D_TO i), 0, 32⟩
/-- Address of DIS_D_STALE (R334). -/
def aDIS_D_STALE (i : Nat) : Nat := 0x118010 + 0x20 * i
/-- DIS_D_STALE.V (R334). -/
def DIS_D_STALE (i : Nat) : Fld := ⟨(aDIS_D_STALE i), 0, 32⟩
/-- Address of DIS_D_OVR (R334). -/
def aDIS_D_OVR (i : Nat) : Nat := 0x118014 + 0x20 * i
/-- DIS_D_OVR.V (R334). -/
def DIS_D_OVR (i : Nat) : Fld := ⟨(aDIS_D_OVR i), 0, 32⟩
/-- Address of DIS_D_HAND (R334). -/
def aDIS_D_HAND (i : Nat) : Nat := 0x118018 + 0x20 * i
/-- DIS_D_HAND.ENG (R334). -/
def DIS_D_HAND_ENG (i : Nat) : Fld := ⟨(aDIS_D_HAND i), 0, 5⟩
/-- DIS_D_HAND.HAND (R334). -/
def DIS_D_HAND_HAND (i : Nat) : Fld := ⟨(aDIS_D_HAND i), 8, 5⟩
/-- DIS_D_HAND.SKIPPED (R334). -/
def DIS_D_HAND_SKIPPED (i : Nat) : Fld := ⟨(aDIS_D_HAND i), 16, 16⟩
/-- Address of DIS_D_LAST (R334). -/
def aDIS_D_LAST (i : Nat) : Nat := 0x11801c + 0x20 * i
/-- DIS_D_LAST.V (R334). -/
def DIS_D_LAST (i : Nat) : Fld := ⟨(aDIS_D_LAST i), 0, 32⟩

/-! Page `le` at 0x120000: chapter 11, R375. -/

/-- Address of LE_B_STAT (R375). -/
def aLE_B_STAT (i : Nat) : Nat := 0x120004 + 0x1000 * i
/-- LE_B_STAT.V (R375). -/
def LE_B_STAT (i : Nat) : Fld := ⟨(aLE_B_STAT i), 0, 32⟩
/-- Address of LE_VSTAT (R375). -/
def aLE_VSTAT (i : Nat) : Nat := 0x1203fc + 0x1000 * i
/-- LE_VSTAT.VSTAT (R375). -/
def LE_VSTAT (i : Nat) : Fld := ⟨(aLE_VSTAT i), 0, 24⟩
/-- Address of LE_CTL (R375). -/
def aLE_CTL (i : Nat) : Nat := 0x120400 + 0x1000 * i
/-- LE_CTL.HALT (R375). -/
def LE_CTL (i : Nat) : Fld := ⟨(aLE_CTL i), 0, 1⟩
/-- Address of LE_STAT (R375). -/
def aLE_STAT (i : Nat) : Nat := 0x120404 + 0x1000 * i
/-- LE_STAT.HALTED (R375). -/
def LE_STAT_HALTED (i : Nat) : Fld := ⟨(aLE_STAT i), 0, 1⟩
/-- LE_STAT.FROZEN (R375). -/
def LE_STAT_FROZEN (i : Nat) : Fld := ⟨(aLE_STAT i), 1, 1⟩
/-- LE_STAT.CYC (R375). -/
def LE_STAT_CYC (i : Nat) : Fld := ⟨(aLE_STAT i), 2, 1⟩
/-- LE_STAT.BKG (R375). -/
def LE_STAT_BKG (i : Nat) : Fld := ⟨(aLE_STAT i), 3, 1⟩
/-- LE_STAT.HELD (R375). -/
def LE_STAT_HELD (i : Nat) : Fld := ⟨(aLE_STAT i), 4, 1⟩
/-- LE_STAT.AOV (R375). -/
def LE_STAT_AOV (i : Nat) : Fld := ⟨(aLE_STAT i), 8, 1⟩
/-- LE_STAT.SOV (R375). -/
def LE_STAT_SOV (i : Nat) : Fld := ⟨(aLE_STAT i), 9, 1⟩
/-- LE_STAT.FAULT (R375). -/
def LE_STAT_FAULT (i : Nat) : Fld := ⟨(aLE_STAT i), 10, 1⟩
/-- LE_STAT.ECC_CORR (R375). -/
def LE_STAT_ECC_CORR (i : Nat) : Fld := ⟨(aLE_STAT i), 11, 1⟩
/-- LE_STAT.FCODE (R375). -/
def LE_STAT_FCODE (i : Nat) : Fld := ⟨(aLE_STAT i), 16, 8⟩
/-- Address of LE_CFG (R375). -/
def aLE_CFG (i : Nat) : Nat := 0x120408 + 0x1000 * i
/-- LE_CFG.AOV_FAULT (R375). -/
def LE_CFG_AOV_FAULT (i : Nat) : Fld := ⟨(aLE_CFG i), 0, 1⟩
/-- LE_CFG.SOV_FAULT (R375). -/
def LE_CFG_SOV_FAULT (i : Nat) : Fld := ⟨(aLE_CFG i), 1, 1⟩
/-- Address of LE_PC (R375). -/
def aLE_PC (i : Nat) : Nat := 0x12040c + 0x1000 * i
/-- LE_PC.PC (R375). -/
def LE_PC_PC (i : Nat) : Fld := ⟨(aLE_PC i), 0, 16⟩
/-- LE_PC.DESC (R375). -/
def LE_PC_DESC (i : Nat) : Fld := ⟨(aLE_PC i), 16, 10⟩
/-- LE_PC.VALID (R375). -/
def LE_PC_VALID (i : Nat) : Fld := ⟨(aLE_PC i), 31, 1⟩
/-- Address of LE_FLT_INFO (R375). -/
def aLE_FLT_INFO (i : Nat) : Nat := 0x120410 + 0x1000 * i
/-- LE_FLT_INFO.PC (R375). -/
def LE_FLT_INFO_PC (i : Nat) : Fld := ⟨(aLE_FLT_INFO i), 0, 16⟩
/-- LE_FLT_INFO.DESC (R375). -/
def LE_FLT_INFO_DESC (i : Nat) : Fld := ⟨(aLE_FLT_INFO i), 16, 10⟩
/-- Address of LE_FLT_CNT (R375). -/
def aLE_FLT_CNT (i : Nat) : Nat := 0x120414 + 0x1000 * i
/-- LE_FLT_CNT.C (R375). -/
def LE_FLT_CNT (i : Nat) : Fld := ⟨(aLE_FLT_CNT i), 0, 32⟩
/-- Address of LE_ECC_CNT (R375). -/
def aLE_ECC_CNT (i : Nat) : Nat := 0x120418 + 0x1000 * i
/-- LE_ECC_CNT.C (R375). -/
def LE_ECC_CNT (i : Nat) : Fld := ⟨(aLE_ECC_CNT i), 0, 32⟩

/-! Page `cap` at 0x140000: chapter 13, R426. -/

/-- Address of CAP_B_ARM (R426). -/
def aCAP_B_ARM : Nat := 0x140000
/-- CAP_B_ARM.ARM (R426). -/
def CAP_B_ARM_ARM : Fld := ⟨aCAP_B_ARM, 0, 8⟩
/-- CAP_B_ARM.DISARM (R426). -/
def CAP_B_ARM_DISARM : Fld := ⟨aCAP_B_ARM, 8, 8⟩
/-- Address of CAP_VSTAT (R426). -/
def aCAP_VSTAT : Nat := 0x1403fc
/-- CAP_VSTAT.VSTAT (R426). -/
def CAP_VSTAT : Fld := ⟨aCAP_VSTAT, 0, 24⟩
/-- Address of CAP_STAT (R426). -/
def aCAP_STAT : Nat := 0x140400
/-- CAP_STAT.ARMED (R426). -/
def CAP_STAT_ARMED : Fld := ⟨aCAP_STAT, 0, 8⟩
/-- CAP_STAT.RATE_REDUCED (R426). -/
def CAP_STAT_RATE_REDUCED : Fld := ⟨aCAP_STAT, 8, 1⟩
/-- CAP_STAT.ARM_ERR (R426). -/
def CAP_STAT_ARM_ERR : Fld := ⟨aCAP_STAT, 9, 1⟩
/-- CAP_STAT.STREAM_OVF (R426). -/
def CAP_STAT_STREAM_OVF : Fld := ⟨aCAP_STAT, 10, 1⟩
/-- CAP_STAT.LATE (R426). -/
def CAP_STAT_LATE : Fld := ⟨aCAP_STAT, 11, 1⟩
/-- CAP_STAT.ECC_ERR (R426). -/
def CAP_STAT_ECC_ERR : Fld := ⟨aCAP_STAT, 12, 1⟩
/-- CAP_STAT.FROZEN (R426). -/
def CAP_STAT_FROZEN : Fld := ⟨aCAP_STAT, 13, 1⟩
/-- Address of CAP_FIRE (R426). -/
def aCAP_FIRE : Nat := 0x140404
/-- CAP_FIRE.DLY (R426). -/
def CAP_FIRE_DLY : Fld := ⟨aCAP_FIRE, 0, 16⟩
/-- CAP_FIRE.WIRE (R426). -/
def CAP_FIRE_WIRE : Fld := ⟨aCAP_FIRE, 16, 16⟩
/-- Address of CAP_RD_CTL (R426). -/
def aCAP_RD_CTL : Nat := 0x140800
/-- CAP_RD_CTL.CH (R426). -/
def CAP_RD_CTL_CH : Fld := ⟨aCAP_RD_CTL, 0, 6⟩
/-- CAP_RD_CTL.RED (R426). -/
def CAP_RD_CTL_RED : Fld := ⟨aCAP_RD_CTL, 8, 4⟩
/-- CAP_RD_CTL.HDR (R426). -/
def CAP_RD_CTL_HDR : Fld := ⟨aCAP_RD_CTL, 12, 1⟩
/-- CAP_RD_CTL.START (R426). -/
def CAP_RD_CTL_START : Fld := ⟨aCAP_RD_CTL, 16, 1⟩
/-- Address of CAP_RD_FIRST (R426). -/
def aCAP_RD_FIRST : Nat := 0x140804
/-- CAP_RD_FIRST.V (R426). -/
def CAP_RD_FIRST : Fld := ⟨aCAP_RD_FIRST, 0, 32⟩
/-- Address of CAP_RD_COUNT (R426). -/
def aCAP_RD_COUNT : Nat := 0x140808
/-- CAP_RD_COUNT.V (R426). -/
def CAP_RD_COUNT : Fld := ⟨aCAP_RD_COUNT, 0, 32⟩
/-- Address of CAP_RD_DATA (R426). -/
def aCAP_RD_DATA : Nat := 0x14080c
/-- CAP_RD_DATA.V (R426). -/
def CAP_RD_DATA : Fld := ⟨aCAP_RD_DATA, 0, 32⟩
/-- Address of CAP_RD_STAT (R426). -/
def aCAP_RD_STAT : Nat := 0x140810
/-- CAP_RD_STAT.BUSY (R426). -/
def CAP_RD_STAT_BUSY : Fld := ⟨aCAP_RD_STAT, 0, 1⟩
/-- CAP_RD_STAT.DONE (R426). -/
def CAP_RD_STAT_DONE : Fld := ⟨aCAP_RD_STAT, 1, 1⟩
/-- CAP_RD_STAT.ERR (R426). -/
def CAP_RD_STAT_ERR : Fld := ⟨aCAP_RD_STAT, 2, 1⟩
/-- CAP_RD_STAT.READY (R426). -/
def CAP_RD_STAT_READY : Fld := ⟨aCAP_RD_STAT, 16, 16⟩

/-! Page `capg` at 0x140500: chapter 13, R426. -/

/-- Address of CAP_G_CTL (R426). -/
def aCAP_G_CTL (i : Nat) : Nat := 0x140500 + 0x40 * i
/-- CAP_G_CTL.ARM (R426). -/
def CAP_G_CTL_ARM (i : Nat) : Fld := ⟨(aCAP_G_CTL i), 0, 1⟩
/-- CAP_G_CTL.DISARM (R426). -/
def CAP_G_CTL_DISARM (i : Nat) : Fld := ⟨(aCAP_G_CTL i), 1, 1⟩
/-- CAP_G_CTL.FORCE (R426). -/
def CAP_G_CTL_FORCE (i : Nat) : Fld := ⟨(aCAP_G_CTL i), 2, 1⟩
/-- Address of CAP_G_CFG (R426). -/
def aCAP_G_CFG (i : Nat) : Nat := 0x140504 + 0x40 * i
/-- CAP_G_CFG.MODE (R426). -/
def CAP_G_CFG_MODE (i : Nat) : Fld := ⟨(aCAP_G_CFG i), 0, 1⟩
/-- CAP_G_CFG.TKIND (R426). -/
def CAP_G_CFG_TKIND (i : Nat) : Fld := ⟨(aCAP_G_CFG i), 1, 3⟩
/-- CAP_G_CFG.EDGE (R426). -/
def CAP_G_CFG_EDGE (i : Nat) : Fld := ⟨(aCAP_G_CFG i), 4, 2⟩
/-- CAP_G_CFG.TCH (R426). -/
def CAP_G_CFG_TCH (i : Nat) : Fld := ⟨(aCAP_G_CFG i), 6, 6⟩
/-- CAP_G_CFG.CIN (R426). -/
def CAP_G_CFG_CIN (i : Nat) : Fld := ⟨(aCAP_G_CFG i), 12, 3⟩
/-- CAP_G_CFG.MU (R426). -/
def CAP_G_CFG_MU (i : Nat) : Fld := ⟨(aCAP_G_CFG i), 16, 2⟩
/-- CAP_G_CFG.MU_MASTER (R426). -/
def CAP_G_CFG_MU_MASTER (i : Nat) : Fld := ⟨(aCAP_G_CFG i), 18, 1⟩
/-- Address of CAP_G_PRE (R426). -/
def aCAP_G_PRE (i : Nat) : Nat := 0x140508 + 0x40 * i
/-- CAP_G_PRE.V (R426). -/
def CAP_G_PRE (i : Nat) : Fld := ⟨(aCAP_G_PRE i), 0, 32⟩
/-- Address of CAP_G_POST (R426). -/
def aCAP_G_POST (i : Nat) : Nat := 0x14050c + 0x40 * i
/-- CAP_G_POST.V (R426). -/
def CAP_G_POST (i : Nat) : Fld := ⟨(aCAP_G_POST i), 0, 32⟩
/-- Address of CAP_G_THR (R426). -/
def aCAP_G_THR (i : Nat) : Nat := 0x140510 + 0x40 * i
/-- CAP_G_THR.V (R426). -/
def CAP_G_THR (i : Nat) : Fld := ⟨(aCAP_G_THR i), 0, 64⟩
/-- Address of CAP_G_HYST (R426). -/
def aCAP_G_HYST (i : Nat) : Nat := 0x140518 + 0x40 * i
/-- CAP_G_HYST.V (R426). -/
def CAP_G_HYST (i : Nat) : Fld := ⟨(aCAP_G_HYST i), 0, 64⟩
/-- Address of CAP_G_KEY (R426). -/
def aCAP_G_KEY (i : Nat) : Nat := 0x140520 + 0x40 * i
/-- CAP_G_KEY.V (R426). -/
def CAP_G_KEY (i : Nat) : Fld := ⟨(aCAP_G_KEY i), 0, 64⟩
/-- Address of CAP_G_STAT (R426). -/
def aCAP_G_STAT (i : Nat) : Nat := 0x140528 + 0x40 * i
/-- CAP_G_STAT.STATE (R426). -/
def CAP_G_STAT_STATE (i : Nat) : Fld := ⟨(aCAP_G_STAT i), 0, 3⟩
/-- CAP_G_STAT.PRE_SHORT (R426). -/
def CAP_G_STAT_PRE_SHORT (i : Nat) : Fld := ⟨(aCAP_G_STAT i), 3, 1⟩
/-- CAP_G_STAT.ARM_REASON (R426). -/
def CAP_G_STAT_ARM_REASON (i : Nat) : Fld := ⟨(aCAP_G_STAT i), 4, 4⟩
/-- CAP_G_STAT.DOUBLINGS (R426). -/
def CAP_G_STAT_DOUBLINGS (i : Nat) : Fld := ⟨(aCAP_G_STAT i), 8, 3⟩
/-- Address of CAP_G_TTIME (R426). -/
def aCAP_G_TTIME (i : Nat) : Nat := 0x14052c + 0x40 * i
/-- CAP_G_TTIME.V (R426). -/
def CAP_G_TTIME (i : Nat) : Fld := ⟨(aCAP_G_TTIME i), 0, 64⟩
/-- Address of CAP_G_TTIME_F (R426). -/
def aCAP_G_TTIME_F (i : Nat) : Nat := 0x140534 + 0x40 * i
/-- CAP_G_TTIME_F.V (R426). -/
def CAP_G_TTIME_F (i : Nat) : Fld := ⟨(aCAP_G_TTIME_F i), 0, 32⟩
/-- Address of CAP_G_TANG (R426). -/
def aCAP_G_TANG (i : Nat) : Nat := 0x140538 + 0x40 * i
/-- CAP_G_TANG.V (R426). -/
def CAP_G_TANG (i : Nat) : Fld := ⟨(aCAP_G_TANG i), 0, 64⟩

/-! Page `capc` at 0x141000: chapter 13, R426. -/

/-- Address of CAP_C_CFG (R426). -/
def aCAP_C_CFG (i : Nat) : Nat := 0x141000 + 0x40 * i
/-- CAP_C_CFG.KIND (R426). -/
def CAP_C_CFG_KIND (i : Nat) : Fld := ⟨(aCAP_C_CFG i), 0, 3⟩
/-- CAP_C_CFG.W64 (R426). -/
def CAP_C_CFG_W64 (i : Nat) : Fld := ⟨(aCAP_C_CFG i), 3, 1⟩
/-- CAP_C_CFG.SEL (R426). -/
def CAP_C_CFG_SEL (i : Nat) : Fld := ⟨(aCAP_C_CFG i), 4, 4⟩
/-- CAP_C_CFG.INDEX (R426). -/
def CAP_C_CFG_INDEX (i : Nat) : Fld := ⟨(aCAP_C_CFG i), 8, 8⟩
/-- CAP_C_CFG.GROUP (R426). -/
def CAP_C_CFG_GROUP (i : Nat) : Fld := ⟨(aCAP_C_CFG i), 16, 3⟩
/-- CAP_C_CFG.EN (R426). -/
def CAP_C_CFG_EN (i : Nat) : Fld := ⟨(aCAP_C_CFG i), 19, 1⟩
/-- CAP_C_CFG.DEC_LOG2 (R426). -/
def CAP_C_CFG_DEC_LOG2 (i : Nat) : Fld := ⟨(aCAP_C_CFG i), 20, 5⟩
/-- Address of CAP_C_ADDR (R426). -/
def aCAP_C_ADDR (i : Nat) : Nat := 0x141004 + 0x40 * i
/-- CAP_C_ADDR.V (R426). -/
def CAP_C_ADDR (i : Nat) : Fld := ⟨(aCAP_C_ADDR i), 0, 32⟩
/-- Address of CAP_C_BASE (R426). -/
def aCAP_C_BASE (i : Nat) : Nat := 0x141008 + 0x40 * i
/-- CAP_C_BASE.V (R426). -/
def CAP_C_BASE (i : Nat) : Fld := ⟨(aCAP_C_BASE i), 0, 32⟩
/-- Address of CAP_C_LEN (R426). -/
def aCAP_C_LEN (i : Nat) : Nat := 0x14100c + 0x40 * i
/-- CAP_C_LEN.V (R426). -/
def CAP_C_LEN (i : Nat) : Fld := ⟨(aCAP_C_LEN i), 0, 32⟩
/-- Address of CAP_C_STAT (R426). -/
def aCAP_C_STAT (i : Nat) : Nat := 0x141010 + 0x40 * i
/-- CAP_C_STAT.F_LOG2 (R426). -/
def CAP_C_STAT_F_LOG2 (i : Nat) : Fld := ⟨(aCAP_C_STAT i), 0, 5⟩
/-- CAP_C_STAT.RATE_REDUCED (R426). -/
def CAP_C_STAT_RATE_REDUCED (i : Nat) : Fld := ⟨(aCAP_C_STAT i), 5, 1⟩
/-- CAP_C_STAT.LATE (R426). -/
def CAP_C_STAT_LATE (i : Nat) : Fld := ⟨(aCAP_C_STAT i), 6, 1⟩
/-- CAP_C_STAT.STOPPED (R426). -/
def CAP_C_STAT_STOPPED (i : Nat) : Fld := ⟨(aCAP_C_STAT i), 7, 1⟩
/-- Address of CAP_C_TRIDX (R426). -/
def aCAP_C_TRIDX (i : Nat) : Nat := 0x141014 + 0x40 * i
/-- CAP_C_TRIDX.V (R426). -/
def CAP_C_TRIDX (i : Nat) : Fld := ⟨(aCAP_C_TRIDX i), 0, 32⟩
/-- Address of CAP_C_PRE (R426). -/
def aCAP_C_PRE (i : Nat) : Nat := 0x141018 + 0x40 * i
/-- CAP_C_PRE.V (R426). -/
def CAP_C_PRE (i : Nat) : Fld := ⟨(aCAP_C_PRE i), 0, 32⟩
/-- Address of CAP_C_POST (R426). -/
def aCAP_C_POST (i : Nat) : Nat := 0x14101c + 0x40 * i
/-- CAP_C_POST.V (R426). -/
def CAP_C_POST (i : Nat) : Fld := ⟨(aCAP_C_POST i), 0, 32⟩
/-- Address of CAP_C_FILL (R426). -/
def aCAP_C_FILL (i : Nat) : Nat := 0x141020 + 0x40 * i
/-- CAP_C_FILL.V (R426). -/
def CAP_C_FILL (i : Nat) : Fld := ⟨(aCAP_C_FILL i), 0, 32⟩
/-- Address of CAP_C_FRAC (R426). -/
def aCAP_C_FRAC (i : Nat) : Nat := 0x141024 + 0x40 * i
/-- CAP_C_FRAC.V (R426). -/
def CAP_C_FRAC (i : Nat) : Fld := ⟨(aCAP_C_FRAC i), 0, 16⟩

/-! Page `ptn` at 0x150000: chapter 14, R459. -/

/-- Address of PTN_B_REQ (R459). -/
def aPTN_B_REQ : Nat := 0x150000
/-- PTN_B_REQ.HANDOVER (R459). -/
def PTN_B_REQ : Fld := ⟨aPTN_B_REQ, 0, 1⟩
/-- Address of PTN_VSTAT (R459). -/
def aPTN_VSTAT : Nat := 0x1503fc
/-- PTN_VSTAT.VSTAT (R459). -/
def PTN_VSTAT : Fld := ⟨aPTN_VSTAT, 0, 24⟩
/-- Address of PTN_CTL (R459). -/
def aPTN_CTL : Nat := 0x150400
/-- PTN_CTL.HANDOVER (R459). -/
def PTN_CTL_HANDOVER : Fld := ⟨aPTN_CTL, 0, 1⟩
/-- PTN_CTL.RESYNC (R459). -/
def PTN_CTL_RESYNC : Fld := ⟨aPTN_CTL, 1, 1⟩
/-- Address of PTN_STAT (R459). -/
def aPTN_STAT : Nat := 0x150404
/-- PTN_STAT.ROLE (R459). -/
def PTN_STAT_ROLE : Fld := ⟨aPTN_STAT, 0, 2⟩
/-- PTN_STAT.P (R459). -/
def PTN_STAT_P : Fld := ⟨aPTN_STAT, 2, 1⟩
/-- PTN_STAT.LINK (R459). -/
def PTN_STAT_LINK : Fld := ⟨aPTN_STAT, 3, 1⟩
/-- PTN_STAT.PAIRED (R459). -/
def PTN_STAT_PAIRED : Fld := ⟨aPTN_STAT, 4, 1⟩
/-- PTN_STAT.READY (R459). -/
def PTN_STAT_READY : Fld := ⟨aPTN_STAT, 5, 1⟩
/-- PTN_STAT.DEGRADED (R459). -/
def PTN_STAT_DEGRADED : Fld := ⟨aPTN_STAT, 6, 1⟩
/-- PTN_STAT.PATH_A (R459). -/
def PTN_STAT_PATH_A : Fld := ⟨aPTN_STAT, 7, 1⟩
/-- PTN_STAT.PATH_B (R459). -/
def PTN_STAT_PATH_B : Fld := ⟨aPTN_STAT, 8, 1⟩
/-- PTN_STAT.XFER (R459). -/
def PTN_STAT_XFER : Fld := ⟨aPTN_STAT, 9, 1⟩
/-- PTN_STAT.REV (R459). -/
def PTN_STAT_REV : Fld := ⟨aPTN_STAT, 16, 4⟩
/-- Address of PTN_FLAGS (R459). -/
def aPTN_FLAGS : Nat := 0x150408
/-- PTN_FLAGS.TAKEOVER (R459). -/
def PTN_FLAGS_TAKEOVER : Fld := ⟨aPTN_FLAGS, 0, 1⟩
/-- PTN_FLAGS.DEPOSED (R459). -/
def PTN_FLAGS_DEPOSED : Fld := ⟨aPTN_FLAGS, 1, 1⟩
/-- PTN_FLAGS.HB_LOST (R459). -/
def PTN_FLAGS_HB_LOST : Fld := ⟨aPTN_FLAGS, 2, 1⟩
/-- PTN_FLAGS.CRC_MISMATCH (R459). -/
def PTN_FLAGS_CRC_MISMATCH : Fld := ⟨aPTN_FLAGS, 3, 1⟩
/-- PTN_FLAGS.BACKLOG (R459). -/
def PTN_FLAGS_BACKLOG : Fld := ⟨aPTN_FLAGS, 4, 1⟩
/-- PTN_FLAGS.DECK_DIFF (R459). -/
def PTN_FLAGS_DECK_DIFF : Fld := ⟨aPTN_FLAGS, 5, 1⟩
/-- PTN_FLAGS.ANG_TOL (R459). -/
def PTN_FLAGS_ANG_TOL : Fld := ⟨aPTN_FLAGS, 6, 1⟩
/-- PTN_FLAGS.FAR_LIM (R459). -/
def PTN_FLAGS_FAR_LIM : Fld := ⟨aPTN_FLAGS, 7, 1⟩
/-- PTN_FLAGS.HO_REF (R459). -/
def PTN_FLAGS_HO_REF : Fld := ⟨aPTN_FLAGS, 8, 1⟩
/-- PTN_FLAGS.DUMMY_WR (R459). -/
def PTN_FLAGS_DUMMY_WR : Fld := ⟨aPTN_FLAGS, 9, 1⟩
/-- Address of PTN_EPOCH (R459). -/
def aPTN_EPOCH : Nat := 0x15040c
/-- PTN_EPOCH.V (R459). -/
def PTN_EPOCH : Fld := ⟨aPTN_EPOCH, 0, 32⟩
/-- Address of PTN_PEER (R459). -/
def aPTN_PEER : Nat := 0x150410
/-- PTN_PEER.V (R459). -/
def PTN_PEER : Fld := ⟨aPTN_PEER, 0, 64⟩
/-- Address of PTN_BACKLOG (R459). -/
def aPTN_BACKLOG : Nat := 0x150418
/-- PTN_BACKLOG.V (R459). -/
def PTN_BACKLOG : Fld := ⟨aPTN_BACKLOG, 0, 16⟩
/-- Address of PTN_MIR (R459). -/
def aPTN_MIR : Nat := 0x15041c
/-- PTN_MIR.LAST (R459). -/
def PTN_MIR_LAST : Fld := ⟨aPTN_MIR, 0, 16⟩
/-- PTN_MIR.PEAK (R459). -/
def PTN_MIR_PEAK : Fld := ⟨aPTN_MIR, 16, 16⟩
/-- Address of PTN_ANG_DIFF (R459). -/
def aPTN_ANG_DIFF : Nat := 0x150420
/-- PTN_ANG_DIFF.V (R459). -/
def PTN_ANG_DIFF : Fld := ⟨aPTN_ANG_DIFF, 0, 32⟩
/-- Address of PTN_ANG_TOL (R459). -/
def aPTN_ANG_TOL : Nat := 0x150424
/-- PTN_ANG_TOL.V (R459). -/
def PTN_ANG_TOL : Fld := ⟨aPTN_ANG_TOL, 0, 32⟩
/-- Address of PTN_MISS_A (R459). -/
def aPTN_MISS_A : Nat := 0x150428
/-- PTN_MISS_A.V (R459). -/
def PTN_MISS_A : Fld := ⟨aPTN_MISS_A, 0, 32⟩
/-- Address of PTN_MISS_B (R459). -/
def aPTN_MISS_B : Nat := 0x15042c
/-- PTN_MISS_B.V (R459). -/
def PTN_MISS_B : Fld := ⟨aPTN_MISS_B, 0, 32⟩
/-- Address of PTN_LINK_ERR (R459). -/
def aPTN_LINK_ERR : Nat := 0x150430
/-- PTN_LINK_ERR.V (R459). -/
def PTN_LINK_ERR : Fld := ⟨aPTN_LINK_ERR, 0, 32⟩
/-- Address of PTN_SW_CNT (R459). -/
def aPTN_SW_CNT : Nat := 0x150434
/-- PTN_SW_CNT.V (R459). -/
def PTN_SW_CNT : Fld := ⟨aPTN_SW_CNT, 0, 32⟩
/-- Address of PTN_SW_RND (R459). -/
def aPTN_SW_RND : Nat := 0x150438
/-- PTN_SW_RND.V (R459). -/
def PTN_SW_RND : Fld := ⟨aPTN_SW_RND, 0, 32⟩

/-! Page `saf` at 0x160000: chapter 15, R487. -/

/-- Address of SAF_STAT (R487). -/
def aSAF_STAT : Nat := 0x160000
/-- SAF_STAT.PERMITTED (R487). -/
def SAF_STAT_PERMITTED : Fld := ⟨aSAF_STAT, 0, 1⟩
/-- SAF_STAT.LOCKOUT (R487). -/
def SAF_STAT_LOCKOUT : Fld := ⟨aSAF_STAT, 1, 1⟩
/-- SAF_STAT.FLOCK (R487). -/
def SAF_STAT_FLOCK : Fld := ⟨aSAF_STAT, 2, 1⟩
/-- SAF_STAT.A_OK (R487). -/
def SAF_STAT_A_OK : Fld := ⟨aSAF_STAT, 3, 1⟩
/-- SAF_STAT.B_OK (R487). -/
def SAF_STAT_B_OK : Fld := ⟨aSAF_STAT, 4, 1⟩
/-- SAF_STAT.RESET_REF (R487). -/
def SAF_STAT_RESET_REF : Fld := ⟨aSAF_STAT, 5, 1⟩
/-- SAF_STAT.SS1_RUN (R487). -/
def SAF_STAT_SS1_RUN : Fld := ⟨aSAF_STAT, 6, 1⟩
/-- Address of SAF_FLAGS (R487). -/
def aSAF_FLAGS : Nat := 0x160004
/-- SAF_FLAGS.DISC (R487). -/
def SAF_FLAGS_DISC : Fld := ⟨aSAF_FLAGS, 0, 1⟩
/-- SAF_FLAGS.XSHORT (R487). -/
def SAF_FLAGS_XSHORT : Fld := ⟨aSAF_FLAGS, 1, 1⟩
/-- SAF_FLAGS.SOUT_ERR (R487). -/
def SAF_FLAGS_SOUT_ERR : Fld := ⟨aSAF_FLAGS, 2, 1⟩
/-- SAF_FLAGS.DECEL (R487). -/
def SAF_FLAGS_DECEL : Fld := ⟨aSAF_FLAGS, 3, 1⟩
/-- SAF_FLAGS.SRST_LONG (R487). -/
def SAF_FLAGS_SRST_LONG : Fld := ⟨aSAF_FLAGS, 4, 1⟩
/-- SAF_FLAGS.EVT (R487). -/
def SAF_FLAGS_EVT : Fld := ⟨aSAF_FLAGS, 5, 1⟩
/-- Address of SAF_SDI (R487). -/
def aSAF_SDI : Nat := 0x160008
/-- SAF_SDI.A (R487). -/
def SAF_SDI_A : Fld := ⟨aSAF_SDI, 0, 16⟩
/-- SAF_SDI.B (R487). -/
def SAF_SDI_B : Fld := ⟨aSAF_SDI, 16, 16⟩
/-- Address of SAF_SDI_ERR (R487). -/
def aSAF_SDI_ERR : Nat := 0x16000c
/-- SAF_SDI_ERR.FAULT (R487). -/
def SAF_SDI_ERR_FAULT : Fld := ⟨aSAF_SDI_ERR, 0, 16⟩
/-- SAF_SDI_ERR.DISC (R487). -/
def SAF_SDI_ERR_DISC : Fld := ⟨aSAF_SDI_ERR, 16, 16⟩
/-- Address of SAF_SOUT (R487). -/
def aSAF_SOUT : Nat := 0x160010
/-- SAF_SOUT.A (R487). -/
def SAF_SOUT_A : Fld := ⟨aSAF_SOUT, 0, 8⟩
/-- SAF_SOUT.B (R487). -/
def SAF_SOUT_B : Fld := ⟨aSAF_SOUT, 8, 8⟩
/-- SAF_SOUT.STUCK (R487). -/
def SAF_SOUT_STUCK : Fld := ⟨aSAF_SOUT, 16, 8⟩
/-- Address of SAF_FUNC_STOP (R487). -/
def aSAF_FUNC_STOP : Nat := 0x160014
/-- SAF_FUNC_STOP.V (R487). -/
def SAF_FUNC_STOP : Fld := ⟨aSAF_FUNC_STOP, 0, 32⟩
/-- Address of SAF_FUNC_LOCK (R487). -/
def aSAF_FUNC_LOCK : Nat := 0x160018
/-- SAF_FUNC_LOCK.V (R487). -/
def SAF_FUNC_LOCK : Fld := ⟨aSAF_FUNC_LOCK, 0, 32⟩
/-- Address of SAF_PCRC_A (R487). -/
def aSAF_PCRC_A : Nat := 0x16001c
/-- SAF_PCRC_A.V (R487). -/
def SAF_PCRC_A : Fld := ⟨aSAF_PCRC_A, 0, 32⟩
/-- Address of SAF_PCRC_B (R487). -/
def aSAF_PCRC_B : Nat := 0x160020
/-- SAF_PCRC_B.V (R487). -/
def SAF_PCRC_B : Fld := ⟨aSAF_PCRC_B, 0, 32⟩
/-- Address of SAF_SRST (R487). -/
def aSAF_SRST : Nat := 0x160024
/-- SAF_SRST.WIDTH (R487). -/
def SAF_SRST_WIDTH : Fld := ⟨aSAF_SRST, 0, 16⟩
/-- SAF_SRST.LONG (R487). -/
def SAF_SRST_LONG : Fld := ⟨aSAF_SRST, 16, 16⟩
/-- Address of SAF_FAULT (R487). -/
def aSAF_FAULT : Nat := 0x160028
/-- SAF_FAULT.FCODE (R487). -/
def SAF_FAULT_FCODE : Fld := ⟨aSAF_FAULT, 0, 8⟩
/-- SAF_FAULT.A (R487). -/
def SAF_FAULT_A : Fld := ⟨aSAF_FAULT, 8, 1⟩
/-- SAF_FAULT.B (R487). -/
def SAF_FAULT_B : Fld := ⟨aSAF_FAULT, 9, 1⟩
/-- Address of SAF_VSTAT (R487). -/
def aSAF_VSTAT : Nat := 0x1603fc
/-- SAF_VSTAT.Z (R487). -/
def SAF_VSTAT : Fld := ⟨aSAF_VSTAT, 0, 32⟩

/-! Page `safs` at 0x160100: chapter 15, R487. -/

/-- Address of SAF_PERMIT (R487). -/
def aSAF_PERMIT (i : Nat) : Nat := 0x160100 + 0x8 * i
/-- SAF_PERMIT.V (R487). -/
def SAF_PERMIT (i : Nat) : Fld := ⟨(aSAF_PERMIT i), 0, 64⟩

/-! Page `safx` at 0x160140: chapter 15, R487. -/

/-- Address of SAF_SS1 (R487). -/
def aSAF_SS1 (i : Nat) : Nat := 0x160140 + 0x8 * i
/-- SAF_SS1.V (R487). -/
def SAF_SS1 (i : Nat) : Fld := ⟨(aSAF_SS1 i), 0, 64⟩

/-! Page `fldv` at 0x1703fc: chapter 16, R502. -/

/-- Address of FLD_VSTAT (R502). -/
def aFLD_VSTAT : Nat := 0x1703fc
/-- FLD_VSTAT.VSTAT (R502). -/
def FLD_VSTAT : Fld := ⟨aFLD_VSTAT, 0, 24⟩

/-! Page `fld` at 0x170400: chapter 16, R502. -/

/-- Address of FLD_GEN (R502). -/
def aFLD_GEN : Nat := 0x170400
/-- FLD_GEN.DIN (R502). -/
def FLD_GEN_DIN : Fld := ⟨aFLD_GEN, 0, 4⟩
/-- FLD_GEN.DOUT (R502). -/
def FLD_GEN_DOUT : Fld := ⟨aFLD_GEN, 4, 2⟩
/-- Address of FLD_STAT (R502). -/
def aFLD_STAT : Nat := 0x170404
/-- FLD_STAT.FAULT (R502). -/
def FLD_STAT_FAULT : Fld := ⟨aFLD_STAT, 0, 1⟩
/-- FLD_STAT.FAULT_SEEN (R502). -/
def FLD_STAT_FAULT_SEEN : Fld := ⟨aFLD_STAT, 1, 1⟩
/-- FLD_STAT.MPEND (R502). -/
def FLD_STAT_MPEND : Fld := ⟨aFLD_STAT, 2, 1⟩
/-- FLD_STAT.VFIELD_OK (R502). -/
def FLD_STAT_VFIELD_OK : Fld := ⟨aFLD_STAT, 3, 1⟩
/-- FLD_STAT.WDOG_EXP (R502). -/
def FLD_STAT_WDOG_EXP : Fld := ⟨aFLD_STAT, 4, 1⟩
/-- FLD_STAT.HELD (R502). -/
def FLD_STAT_HELD : Fld := ⟨aFLD_STAT, 5, 1⟩
/-- Address of FLD_DIN (R502). -/
def aFLD_DIN : Nat := 0x170408
/-- FLD_DIN.V (R502). -/
def FLD_DIN : Fld := ⟨aFLD_DIN, 0, 32⟩
/-- Address of FLD_DIN_NOW (R502). -/
def aFLD_DIN_NOW : Nat := 0x17040c
/-- FLD_DIN_NOW.V (R502). -/
def FLD_DIN_NOW : Fld := ⟨aFLD_DIN_NOW, 0, 32⟩
/-- Address of FLD_DOUT (R502). -/
def aFLD_DOUT : Nat := 0x170410
/-- FLD_DOUT.V (R502). -/
def FLD_DOUT : Fld := ⟨aFLD_DOUT, 0, 16⟩
/-- Address of FLD_DOUT_ST (R502). -/
def aFLD_DOUT_ST : Nat := 0x170414
/-- FLD_DOUT_ST.V (R502). -/
def FLD_DOUT_ST : Fld := ⟨aFLD_DOUT_ST, 0, 16⟩
/-- Address of FLD_FMASK_LO (R502). -/
def aFLD_FMASK_LO : Nat := 0x170418
/-- FLD_FMASK_LO.V (R502). -/
def FLD_FMASK_LO : Fld := ⟨aFLD_FMASK_LO, 0, 32⟩
/-- Address of FLD_FMASK_HI (R502). -/
def aFLD_FMASK_HI : Nat := 0x17041c
/-- FLD_FMASK_HI.V (R502). -/
def FLD_FMASK_HI : Fld := ⟨aFLD_FMASK_HI, 0, 20⟩
/-- Address of FLD_DIN_IRQ (R502). -/
def aFLD_DIN_IRQ : Nat := 0x170420
/-- FLD_DIN_IRQ.V (R502). -/
def FLD_DIN_IRQ : Fld := ⟨aFLD_DIN_IRQ, 0, 32⟩
/-- Address of FLD_DIN_EDGE (R502). -/
def aFLD_DIN_EDGE : Nat := 0x170424
/-- FLD_DIN_EDGE.V (R502). -/
def FLD_DIN_EDGE : Fld := ⟨aFLD_DIN_EDGE, 0, 32⟩
/-- Address of FLD_WDOG (R502). -/
def aFLD_WDOG : Nat := 0x170428
/-- FLD_WDOG.V (R502). -/
def FLD_WDOG : Fld := ⟨aFLD_WDOG, 0, 32⟩
/-- Address of FLD_WDCFG (R502). -/
def aFLD_WDCFG : Nat := 0x17042c
/-- FLD_WDCFG.WDTIME (R502). -/
def FLD_WDCFG_WDTIME : Fld := ⟨aFLD_WDCFG, 0, 16⟩
/-- FLD_WDCFG.WDMASK (R502). -/
def FLD_WDCFG_WDMASK : Fld := ⟨aFLD_WDCFG, 16, 16⟩
/-- Address of FLD_DGCFG (R502). -/
def aFLD_DGCFG (j : Nat) : Nat := 0x170440 + 0x4 * j
/-- FLD_DGCFG.TYPE3 (R502). -/
def FLD_DGCFG_TYPE3 (j : Nat) : Fld := ⟨(aFLD_DGCFG j), 0, 1⟩
/-- FLD_DGCFG.FILT (R502). -/
def FLD_DGCFG_FILT (j : Nat) : Fld := ⟨(aFLD_DGCFG j), 8, 8⟩
/-- FLD_DGCFG.WB (R502). -/
def FLD_DGCFG_WB (j : Nat) : Fld := ⟨(aFLD_DGCFG j), 16, 8⟩
/-- Address of FLD_OGCFG (R502). -/
def aFLD_OGCFG (j : Nat) : Nat := 0x170460 + 0x4 * j
/-- FLD_OGCFG.PAR (R502). -/
def FLD_OGCFG_PAR (j : Nat) : Fld := ⟨(aFLD_OGCFG j), 0, 4⟩
/-- FLD_OGCFG.OLD (R502). -/
def FLD_OGCFG_OLD (j : Nat) : Fld := ⟨(aFLD_OGCFG j), 8, 8⟩
/-- FLD_OGCFG.RETRY (R502). -/
def FLD_OGCFG_RETRY (j : Nat) : Fld := ⟨(aFLD_OGCFG j), 16, 8⟩

/-! Page `scp` at 0x180000: chapter 19, R567. -/

/-- Address of SCP_STAT (R567). -/
def aSCP_STAT : Nat := 0x180000
/-- SCP_STAT.FD_DOWN (R567). -/
def SCP_STAT_FD_DOWN : Fld := ⟨aSCP_STAT, 0, 1⟩
/-- SCP_STAT.KEPT_FULL (R567). -/
def SCP_STAT_KEPT_FULL : Fld := ⟨aSCP_STAT, 1, 1⟩
/-- SCP_STAT.WRAPPED (R567). -/
def SCP_STAT_WRAPPED : Fld := ⟨aSCP_STAT, 2, 1⟩
/-- SCP_STAT.HW_REF (R567). -/
def SCP_STAT_HW_REF : Fld := ⟨aSCP_STAT, 3, 1⟩
/-- SCP_STAT.RECOVERED_TORN (R567). -/
def SCP_STAT_RECOVERED_TORN : Fld := ⟨aSCP_STAT, 4, 1⟩
/-- Address of SCP_NEXT (R567). -/
def aSCP_NEXT : Nat := 0x180004
/-- SCP_NEXT.V (R567). -/
def SCP_NEXT : Fld := ⟨aSCP_NEXT, 0, 48⟩
/-- Address of SCP_OPSEC (R567). -/
def aSCP_OPSEC : Nat := 0x18000c
/-- SCP_OPSEC.V (R567). -/
def SCP_OPSEC : Fld := ⟨aSCP_OPSEC, 0, 32⟩
/-- Address of SCP_PCYC (R567). -/
def aSCP_PCYC : Nat := 0x180010
/-- SCP_PCYC.V (R567). -/
def SCP_PCYC : Fld := ⟨aSCP_PCYC, 0, 32⟩
/-- Address of SCP_LOST (R567). -/
def aSCP_LOST : Nat := 0x180014
/-- SCP_LOST.V (R567). -/
def SCP_LOST : Fld := ⟨aSCP_LOST, 0, 32⟩
/-- Address of SCP_QUEUE (R567). -/
def aSCP_QUEUE : Nat := 0x180018
/-- SCP_QUEUE.N (R567). -/
def SCP_QUEUE_N : Fld := ⟨aSCP_QUEUE, 0, 9⟩
/-- SCP_QUEUE.PEAK (R567). -/
def SCP_QUEUE_PEAK : Fld := ⟨aSCP_QUEUE, 16, 9⟩
/-- Address of SCP_RD_SEQ (R567). -/
def aSCP_RD_SEQ : Nat := 0x180020
/-- SCP_RD_SEQ.V (R567). -/
def SCP_RD_SEQ : Fld := ⟨aSCP_RD_SEQ, 0, 64⟩
/-- Address of SCP_RD_CTL (R567). -/
def aSCP_RD_CTL : Nat := 0x180028
/-- SCP_RD_CTL.GO (R567). -/
def SCP_RD_CTL : Fld := ⟨aSCP_RD_CTL, 0, 1⟩
/-- Address of SCP_RD_STAT (R567). -/
def aSCP_RD_STAT : Nat := 0x18002c
/-- SCP_RD_STAT.BUSY (R567). -/
def SCP_RD_STAT_BUSY : Fld := ⟨aSCP_RD_STAT, 0, 1⟩
/-- SCP_RD_STAT.VALID (R567). -/
def SCP_RD_STAT_VALID : Fld := ⟨aSCP_RD_STAT, 1, 1⟩
/-- SCP_RD_STAT.GONE (R567). -/
def SCP_RD_STAT_GONE : Fld := ⟨aSCP_RD_STAT, 2, 1⟩
/-- SCP_RD_STAT.SEAL_ERR (R567). -/
def SCP_RD_STAT_SEAL_ERR : Fld := ⟨aSCP_RD_STAT, 3, 1⟩
/-- Address of SCP_RD_REC (R567). -/
def aSCP_RD_REC (j : Nat) : Nat := 0x180040 + 0x4 * j
/-- SCP_RD_REC.V (R567). -/
def SCP_RD_REC (j : Nat) : Fld := ⟨(aSCP_RD_REC j), 0, 32⟩
/-- Address of SCP_HW_ARG0 (R567). -/
def aSCP_HW_ARG0 : Nat := 0x180080
/-- SCP_HW_ARG0.V (R567). -/
def SCP_HW_ARG0 : Fld := ⟨aSCP_HW_ARG0, 0, 32⟩
/-- Address of SCP_HW_ARG1 (R567). -/
def aSCP_HW_ARG1 : Nat := 0x180084
/-- SCP_HW_ARG1.V (R567). -/
def SCP_HW_ARG1 : Fld := ⟨aSCP_HW_ARG1, 0, 32⟩
/-- Address of SCP_HW_CMD (R567). -/
def aSCP_HW_CMD : Nat := 0x180088
/-- SCP_HW_CMD.CODE (R567). -/
def SCP_HW_CMD_CODE : Fld := ⟨aSCP_HW_CMD, 0, 16⟩
/-- SCP_HW_CMD.LEVEL (R567). -/
def SCP_HW_CMD_LEVEL : Fld := ⟨aSCP_HW_CMD, 16, 2⟩
/-- Address of SCP_VSTAT (R567). -/
def aSCP_VSTAT : Nat := 0x1803fc
/-- SCP_VSTAT.Z (R567). -/
def SCP_VSTAT : Fld := ⟨aSCP_VSTAT, 0, 32⟩

/-! Page `cpr` at 0x190000: chapter 20, R593. -/

/-- Address of CPR_STAT (R593). -/
def aCPR_STAT : Nat := 0x190000
/-- CPR_STAT.REF_OK (R593). -/
def CPR_STAT_REF_OK : Fld := ⟨aCPR_STAT, 0, 1⟩
/-- CPR_STAT.RC_OK (R593). -/
def CPR_STAT_RC_OK : Fld := ⟨aCPR_STAT, 1, 1⟩
/-- CPR_STAT.PLL_OK (R593). -/
def CPR_STAT_PLL_OK : Fld := ⟨aCPR_STAT, 2, 5⟩
/-- CPR_STAT.REF_SEL (R593). -/
def CPR_STAT_REF_SEL : Fld := ⟨aCPR_STAT, 7, 1⟩
/-- CPR_STAT.FORCED (R593). -/
def CPR_STAT_FORCED : Fld := ⟨aCPR_STAT, 8, 1⟩
/-- CPR_STAT.SAFE (R593). -/
def CPR_STAT_SAFE : Fld := ⟨aCPR_STAT, 9, 1⟩
/-- Address of CPR_CLK_FAIL (R593). -/
def aCPR_CLK_FAIL : Nat := 0x190004
/-- CPR_CLK_FAIL.ID (R593). -/
def CPR_CLK_FAIL_ID : Fld := ⟨aCPR_CLK_FAIL, 0, 8⟩
/-- CPR_CLK_FAIL.RESTARTS (R593). -/
def CPR_CLK_FAIL_RESTARTS : Fld := ⟨aCPR_CLK_FAIL, 8, 8⟩
/-- Address of CPR_PD_STAT (R593). -/
def aCPR_PD_STAT : Nat := 0x190008
/-- CPR_PD_STAT.ON (R593). -/
def CPR_PD_STAT_ON : Fld := ⟨aCPR_PD_STAT, 0, 12⟩
/-- CPR_PD_STAT.RST (R593). -/
def CPR_PD_STAT_RST : Fld := ⟨aCPR_PD_STAT, 16, 12⟩
/-- Address of CPR_PD_DECK (R593). -/
def aCPR_PD_DECK : Nat := 0x19000c
/-- CPR_PD_DECK.V (R593). -/
def CPR_PD_DECK : Fld := ⟨aCPR_PD_DECK, 0, 12⟩
/-- Address of CPR_GATE_LO (R593). -/
def aCPR_GATE_LO : Nat := 0x190010
/-- CPR_GATE_LO.V (R593). -/
def CPR_GATE_LO : Fld := ⟨aCPR_GATE_LO, 0, 32⟩
/-- Address of CPR_GATE_HI (R593). -/
def aCPR_GATE_HI : Nat := 0x190014
/-- CPR_GATE_HI.V (R593). -/
def CPR_GATE_HI : Fld := ⟨aCPR_GATE_HI, 0, 16⟩
/-- Address of CPR_GATE_FORCED (R593). -/
def aCPR_GATE_FORCED : Nat := 0x190018
/-- CPR_GATE_FORCED.V (R593). -/
def CPR_GATE_FORCED : Fld := ⟨aCPR_GATE_FORCED, 0, 32⟩
/-- Address of CPR_RST_CAUSE (R593). -/
def aCPR_RST_CAUSE : Nat := 0x19001c
/-- CPR_RST_CAUSE.LAST (R593). -/
def CPR_RST_CAUSE_LAST : Fld := ⟨aCPR_RST_CAUSE, 0, 8⟩
/-- CPR_RST_CAUSE.PREV (R593). -/
def CPR_RST_CAUSE_PREV : Fld := ⟨aCPR_RST_CAUSE, 8, 8⟩
/-- Address of CPR_RST_HELD (R593). -/
def aCPR_RST_HELD : Nat := 0x190020
/-- CPR_RST_HELD.V (R593). -/
def CPR_RST_HELD : Fld := ⟨aCPR_RST_HELD, 0, 32⟩
/-- Address of CPR_STRAP (R593). -/
def aCPR_STRAP : Nat := 0x190024
/-- CPR_STRAP.MODE (R593). -/
def CPR_STRAP : Fld := ⟨aCPR_STRAP, 0, 3⟩
/-- Address of CPR_TEMP (R593). -/
def aCPR_TEMP : Nat := 0x190028
/-- CPR_TEMP.V (R593). -/
def CPR_TEMP : Fld := ⟨aCPR_TEMP, 0, 16⟩
/-- Address of CPR_TEMP_WARN (R593). -/
def aCPR_TEMP_WARN : Nat := 0x19002c
/-- CPR_TEMP_WARN.V (R593). -/
def CPR_TEMP_WARN : Fld := ⟨aCPR_TEMP_WARN, 0, 16⟩
/-- Address of CPR_EVT (R593). -/
def aCPR_EVT : Nat := 0x190030
/-- CPR_EVT.GATE_FORCED (R593). -/
def CPR_EVT_GATE_FORCED : Fld := ⟨aCPR_EVT, 0, 1⟩
/-- CPR_EVT.PD_CHANGE (R593). -/
def CPR_EVT_PD_CHANGE : Fld := ⟨aCPR_EVT, 1, 1⟩
/-- CPR_EVT.CLK_FAIL (R593). -/
def CPR_EVT_CLK_FAIL : Fld := ⟨aCPR_EVT, 2, 1⟩
/-- CPR_EVT.RST_HELD (R593). -/
def CPR_EVT_RST_HELD : Fld := ⟨aCPR_EVT, 3, 1⟩
/-- CPR_EVT.TEMP_WARN (R593). -/
def CPR_EVT_TEMP_WARN : Fld := ⟨aCPR_EVT, 4, 1⟩
/-- CPR_EVT.RESET_REF (R593). -/
def CPR_EVT_RESET_REF : Fld := ⟨aCPR_EVT, 5, 1⟩
/-- Address of CPR_CTL (R593). -/
def aCPR_CTL : Nat := 0x190034
/-- CPR_CTL.DEVRESET (R593). -/
def CPR_CTL : Fld := ⟨aCPR_CTL, 0, 1⟩
/-- Address of CPR_VSTAT (R593). -/
def aCPR_VSTAT : Nat := 0x1903fc
/-- CPR_VSTAT.Z (R593). -/
def CPR_VSTAT : Fld := ⟨aCPR_VSTAT, 0, 32⟩

/-! Page `tru` at 0x1a0000: chapter 02, R76. -/

/-- Address of TRU_STAT (R76). -/
def aTRU_STAT : Nat := 0x1a0000
/-- TRU_STAT.PROVISIONED (R76). -/
def TRU_STAT_PROVISIONED : Fld := ⟨aTRU_STAT, 0, 1⟩
/-- TRU_STAT.KILL (R76). -/
def TRU_STAT_KILL : Fld := ⟨aTRU_STAT, 1, 1⟩
/-- TRU_STAT.FROZEN_ANY (R76). -/
def TRU_STAT_FROZEN_ANY : Fld := ⟨aTRU_STAT, 2, 1⟩
/-- TRU_STAT.DBG_UNLOCKED (R76). -/
def TRU_STAT_DBG_UNLOCKED : Fld := ⟨aTRU_STAT, 3, 1⟩
/-- TRU_STAT.QUOTE_READY (R76). -/
def TRU_STAT_QUOTE_READY : Fld := ⟨aTRU_STAT, 4, 1⟩
/-- TRU_STAT.TOKEN_BUSY (R76). -/
def TRU_STAT_TOKEN_BUSY : Fld := ⟨aTRU_STAT, 5, 1⟩
/-- TRU_STAT.TOKEN_ERR (R76). -/
def TRU_STAT_TOKEN_ERR : Fld := ⟨aTRU_STAT, 6, 1⟩
/-- TRU_STAT.REASON (R76). -/
def TRU_STAT_REASON : Fld := ⟨aTRU_STAT, 8, 8⟩
/-- TRU_STAT.DECK_SLOT (R76). -/
def TRU_STAT_DECK_SLOT : Fld := ⟨aTRU_STAT, 16, 2⟩
/-- Address of TRU_FRZ_LO (R76). -/
def aTRU_FRZ_LO : Nat := 0x1a0004
/-- TRU_FRZ_LO.V (R76). -/
def TRU_FRZ_LO : Fld := ⟨aTRU_FRZ_LO, 0, 32⟩
/-- Address of TRU_FRZ_HI (R76). -/
def aTRU_FRZ_HI : Nat := 0x1a0008
/-- TRU_FRZ_HI.V (R76). -/
def TRU_FRZ_HI : Fld := ⟨aTRU_FRZ_HI, 0, 7⟩
/-- Address of TRU_VIOL_CNT (R76). -/
def aTRU_VIOL_CNT : Nat := 0x1a000c
/-- TRU_VIOL_CNT.V (R76). -/
def TRU_VIOL_CNT : Fld := ⟨aTRU_VIOL_CNT, 0, 32⟩
/-- Address of TRU_VIOL_MASTER (R76). -/
def aTRU_VIOL_MASTER : Nat := 0x1a0010
/-- TRU_VIOL_MASTER.MASTER (R76). -/
def TRU_VIOL_MASTER_MASTER : Fld := ⟨aTRU_VIOL_MASTER, 0, 8⟩
/-- TRU_VIOL_MASTER.WRITE (R76). -/
def TRU_VIOL_MASTER_WRITE : Fld := ⟨aTRU_VIOL_MASTER, 8, 1⟩
/-- Address of TRU_VIOL_ADDR (R76). -/
def aTRU_VIOL_ADDR : Nat := 0x1a0014
/-- TRU_VIOL_ADDR.V (R76). -/
def TRU_VIOL_ADDR : Fld := ⟨aTRU_VIOL_ADDR, 0, 32⟩
/-- Address of TRU_CHAL (R76). -/
def aTRU_CHAL (j : Nat) : Nat := 0x1a0040 + 0x4 * j
/-- TRU_CHAL.V (R76). -/
def TRU_CHAL (j : Nat) : Fld := ⟨(aTRU_CHAL j), 0, 32⟩
/-- Address of TRU_CTL (R76). -/
def aTRU_CTL : Nat := 0x1a0060
/-- TRU_CTL.CHAL_NEW (R76). -/
def TRU_CTL_CHAL_NEW : Fld := ⟨aTRU_CTL, 0, 1⟩
/-- TRU_CTL.TOKEN_GO (R76). -/
def TRU_CTL_TOKEN_GO : Fld := ⟨aTRU_CTL, 1, 1⟩
/-- TRU_CTL.QUOTE_REQ (R76). -/
def TRU_CTL_QUOTE_REQ : Fld := ⟨aTRU_CTL, 2, 1⟩
/-- TRU_CTL.DBG_LOCK (R76). -/
def TRU_CTL_DBG_LOCK : Fld := ⟨aTRU_CTL, 3, 1⟩
/-- TRU_CTL.FIFO_CLR (R76). -/
def TRU_CTL_FIFO_CLR : Fld := ⟨aTRU_CTL, 4, 1⟩
/-- Address of TRU_FIFO (R76). -/
def aTRU_FIFO : Nat := 0x1a0080
/-- TRU_FIFO.V (R76). -/
def TRU_FIFO : Fld := ⟨aTRU_FIFO, 0, 32⟩

/-- The value a register shows right after reset where the register map states one other than 0; every other register shows 0 (DESIGN
CHOICE, log entry 1). -/
def resetReg (a : Nat) : Word :=
  if a = 0x0 then 0x25602100#32 else  -- DEV_ID
  if a = 0x2110 then 0xf#32 else  -- IRQ_CFG
  if a = 0x30428 then 0x3e8#32 else  -- PLT_JUMP_TH
  if a = 0x3042c then 0x64#32 else  -- PLT_LOCK_TH
  if a = 0x30430 then 0x64#32 else  -- PLT_SLEW
  if a = 0x30434 then 0x602#32 else  -- PLT_SERVO
  if 0xc0000 ≤ a ∧ a < 0x100000 ∧ (a - 0xc0000) % 0x400 = 0x88 then 0x64#32 else  -- AX_SDELAY
  if 0xc0000 ≤ a ∧ a < 0x100000 ∧ (a - 0xc0000) % 0x400 = 0x104 then 0x40000000#32 else  -- AX_KVFF
  if 0xc0000 ≤ a ∧ a < 0x100000 ∧ (a - 0xc0000) % 0x400 = 0x114 then 0x40000000#32 else  -- AX_KAW
  if 0xc0000 ≤ a ∧ a < 0x100000 ∧ (a - 0xc0000) % 0x400 = 0x118 then 0x7fffffff#32 else  -- AX_ILIM
  if 0xc0000 ≤ a ∧ a < 0x100000 ∧ (a - 0xc0000) % 0x400 = 0x124 then 0x7fffffff#32 else  -- AX_KVF
  if 0xc0000 ≤ a ∧ a < 0x100000 ∧ (a - 0xc0000) % 0x400 = 0x13c then 0xc8#32 else  -- AX_ENTO
  if 0xc0000 ≤ a ∧ a < 0x100000 ∧ (a - 0xc0000) % 0x400 = 0x140 then 0x40000000#32 else  -- AX_F1_B0
  if 0xc0000 ≤ a ∧ a < 0x100000 ∧ (a - 0xc0000) % 0x400 = 0x160 then 0x40000000#32 else  -- AX_F2_B0
  if 0xc0000 ≤ a ∧ a < 0x100000 ∧ (a - 0xc0000) % 0x400 = 0x200 then 0x7fdf3b64#32 else  -- AX_RC_ALPHA
  if 0xc0000 ≤ a ∧ a < 0x100000 ∧ (a - 0xc0000) % 0x400 = 0x204 then 0x20000000#32 else  -- AX_RC_Q1
  if 0xc0000 ≤ a ∧ a < 0x100000 ∧ (a - 0xc0000) % 0x400 = 0x218 then 0x10000000#32 else  -- AX_RC_ULIM
  if 0x101000 ≤ a ∧ a < 0x102000 ∧ (a - 0x101000) % 0x100 = 0x18 then 0x10000#32 else  -- FB_NQ
  if 0x101000 ≤ a ∧ a < 0x102000 ∧ (a - 0x101000) % 0x100 = 0x1c then 0x14#32 else  -- FB_SS
  if 0x105000 ≤ a ∧ a < 0x107000 ∧ (a - 0x105000) % 0x20 = 0x0 then 0x10000#32 else  -- FB_N_NQ
  if 0x105000 ≤ a ∧ a < 0x107000 ∧ (a - 0x105000) % 0x20 = 0x4 then 0x14#32 else  -- FB_N_SS
  if a = 0x110400 then 0x3e80804#32 else  -- DIS_CFG
  if a = 0x160000 then 0x2#32 else  -- SAF_STAT
  if a = 0x170404 then 0x20#32 else  -- FLD_STAT
  if a = 0x190000 then 0x200#32 else  -- CPR_STAT
  if a = 0x190004 then 0xff#32 else  -- CPR_CLK_FAIL
  if a = 0x19002c then 0x41a#32 else  -- CPR_TEMP_WARN
  0#32

/-- Fields of page `dev` (R40). -/
def pageDev : Page := { base := 0x0, cnt := 1, stride := 0x0, regs := [
    ⟨0x0, 1, 0x0, false, [⟨0, 32, .ro, .ro, none, false, false⟩]⟩,
    ⟨0x4, 1, 0x0, false, [⟨0, 1, .w1c, .w1c, none, false, false⟩, ⟨1, 1, .w1c, .w1c, none, false, false⟩, ⟨2, 1, .w1c, .w1c, none, false, false⟩, ⟨3, 1, .w1c, .w1c, none, false, false⟩, ⟨4, 1, .w1c, .w1c, none, false, false⟩, ⟨5, 1, .w1c, .w1c, none, false, false⟩]⟩,
    ⟨0x8, 1, 0x0, false, [⟨0, 4, .ro, .ro, none, false, false⟩, ⟨4, 4, .ro, .ro, none, false, false⟩, ⟨16, 16, .ro, .ro, none, false, false⟩]⟩,
    ⟨0x10, 1, 0x0, true, [⟨0, 48, .ro, .ro, none, false, false⟩]⟩] }

/-- Fields of page `dck` (R108). -/
def pageDck : Page := { base := 0x100, cnt := 1, stride := 0x0, regs := [
    ⟨0x0, 1, 0x0, false, [⟨0, 4, .ro, .ro, none, false, false⟩, ⟨8, 8, .ro, .ro, none, false, false⟩, ⟨16, 1, .w1c, .w1c, none, false, false⟩, ⟨17, 1, .w1c, .w1c, none, false, false⟩, ⟨18, 1, .w1c, .w1c, none, false, false⟩, ⟨19, 1, .w1c, .w1c, none, false, false⟩, ⟨20, 1, .w1c, .w1c, none, false, false⟩]⟩,
    ⟨0x4, 1, 0x0, false, [⟨0, 4, .ro, .ro, none, false, false⟩, ⟨16, 16, .ro, .ro, none, false, false⟩]⟩,
    ⟨0x8, 1, 0x0, false, [⟨0, 9, .ro, .ro, none, false, false⟩]⟩,
    ⟨0xc, 1, 0x0, false, [⟨0, 1, .ro, .ro, none, false, false⟩, ⟨1, 1, .ro, .ro, none, false, false⟩]⟩,
    ⟨0x10, 1, 0x0, false, [⟨0, 32, .ro, .ro, none, false, false⟩]⟩,
    ⟨0x20, 12, 0x4, false, [⟨0, 32, .ro, .ro, none, false, false⟩]⟩] }

/-- Fields of page `flt` (R238). -/
def pageFlt : Page := { base := 0x200, cnt := 1, stride := 0x0, regs := [
    ⟨0x0, 8, 0x4, false, [⟨0, 32, .ro, .ro, none, false, false⟩]⟩] }

/-- Fields of page `mb` (R516). -/
def pageMb : Page := { base := 0x400, cnt := 1, stride := 0x0, regs := [
    ⟨0x0, 1, 0x0, false, [⟨0, 8, .wo, .wo, none, false, false⟩, ⟨8, 21, .wo, .wo, none, false, false⟩]⟩,
    ⟨0x4, 1, 0x0, false, [⟨0, 1, .ro, .ro, none, false, false⟩, ⟨1, 1, .w1c, .w1c, none, false, false⟩, ⟨2, 1, .w1c, .w1c, none, false, false⟩, ⟨3, 1, .w1c, .w1c, none, false, false⟩, ⟨8, 8, .ro, .ro, none, false, false⟩, ⟨16, 16, .ro, .ro, none, false, false⟩]⟩,
    ⟨0x8, 1, 0x0, false, [⟨0, 32, .win, .win, none, false, false⟩]⟩,
    ⟨0xc, 1, 0x0, false, [⟨0, 32, .win, .win, none, false, false⟩]⟩,
    ⟨0x10, 1, 0x0, false, [⟨0, 21, .ro, .ro, none, false, false⟩]⟩] }

/-- Fields of page `hst` (R515). -/
def pageHst : Page := { base := 0x800, cnt := 1, stride := 0x0, regs := [
    ⟨0x0, 1, 0x0, false, [⟨0, 1, .ro, .ro, none, false, false⟩, ⟨1, 2, .ro, .ro, none, false, false⟩, ⟨3, 1, .ro, .ro, none, false, false⟩]⟩,
    ⟨0x4, 1, 0x0, false, [⟨0, 32, .ro, .ro, none, false, false⟩]⟩,
    ⟨0x8, 1, 0x0, false, [⟨0, 32, .ro, .ro, none, false, false⟩]⟩,
    ⟨0xc, 1, 0x0, false, [⟨0, 32, .ro, .ro, none, false, false⟩]⟩,
    ⟨0x10, 1, 0x0, false, [⟨0, 32, .ro, .ro, none, false, false⟩]⟩,
    ⟨0x14, 1, 0x0, false, [⟨0, 1, .wo, .wo, none, false, false⟩]⟩,
    ⟨0x18, 1, 0x0, false, [⟨0, 16, .rw, .rw, none, false, false⟩]⟩,
    ⟨0x1c, 1, 0x0, false, [⟨0, 16, .w1c, .w1c, none, false, false⟩]⟩,
    ⟨0x20, 1, 0x0, false, [⟨0, 32, .ro, .ro, none, false, false⟩]⟩,
    ⟨0x24, 1, 0x0, false, [⟨0, 24, .ro, .ro, none, false, false⟩]⟩] }

/-- Fields of page `snp` (R529). -/
def pageSnp : Page := { base := 0xc00, cnt := 1, stride := 0x0, regs := [
    ⟨0x0, 1, 0x0, false, [⟨0, 1, .wo, .wo, none, false, false⟩]⟩,
    ⟨0x4, 1, 0x0, false, [⟨0, 1, .ro, .ro, none, false, false⟩, ⟨1, 1, .ro, .ro, none, false, false⟩, ⟨2, 1, .ro, .ro, none, false, false⟩, ⟨3, 1, .ro, .ro, none, false, false⟩]⟩,
    ⟨0x8, 1, 0x0, false, [⟨0, 32, .ro, .ro, none, false, false⟩]⟩,
    ⟨0x10, 1, 0x0, true, [⟨0, 48, .ro, .ro, none, false, false⟩]⟩,
    ⟨0x18, 1, 0x0, true, [⟨0, 64, .ro, .ro, none, false, false⟩]⟩,
    ⟨0x20, 1, 0x0, false, [⟨0, 32, .ro, .ro, none, false, false⟩]⟩,
    ⟨0x28, 1, 0x0, true, [⟨0, 64, .ro, .ro, none, false, false⟩]⟩] }

/-- Fields of page `irq` (R526). -/
def pageIrq : Page := { base := 0x2000, cnt := 1, stride := 0x0, regs := [
    ⟨0x0, 8, 0x4, false, [⟨0, 32, .w1c, .w1c, none, false, false⟩]⟩,
    ⟨0x40, 8, 0x4, false, [⟨0, 32, .rw, .rw, none, false, false⟩]⟩,
    ⟨0x80, 32, 0x4, false, [⟨0, 32, .rw, .rw, none, false, false⟩]⟩,
    ⟨0x100, 4, 0x4, false, [⟨0, 8, .ro, .ro, none, false, false⟩, ⟨31, 1, .ro, .ro, none, false, false⟩]⟩,
    ⟨0x110, 1, 0x0, false, [⟨0, 4, .rw, .rw, none, false, false⟩, ⟨4, 4, .rw, .rw, none, false, false⟩]⟩,
    ⟨0x114, 1, 0x0, false, [⟨0, 4, .ro, .ro, none, false, false⟩]⟩] }

/-- Fields of page `irqs` (R523). -/
def pageIrqs : Page := { base := 0x4000, cnt := 256, stride := 0x20, regs := [
    ⟨0x0, 1, 0x0, false, [⟨0, 32, .ro, .ro, none, false, false⟩]⟩,
    ⟨0x4, 1, 0x0, false, [⟨0, 32, .ro, .ro, none, false, false⟩]⟩,
    ⟨0x8, 1, 0x0, false, [⟨0, 32, .ro, .ro, none, false, false⟩]⟩,
    ⟨0xc, 1, 0x0, true, [⟨0, 64, .ro, .ro, none, false, false⟩]⟩,
    ⟨0x14, 1, 0x0, false, [⟨0, 32, .ro, .ro, none, false, false⟩]⟩,
    ⟨0x18, 1, 0x0, false, [⟨0, 16, .ro, .ro, none, false, false⟩, ⟨16, 1, .ro, .ro, none, false, false⟩, ⟨17, 1, .ro, .ro, none, false, false⟩]⟩,
    ⟨0x1c, 1, 0x0, false, [⟨0, 16, .wo, .wo, none, false, false⟩]⟩] }

/-- Fields of page `fw` (R519). -/
def pageFw : Page := { base := 0x10000, cnt := 16, stride := 0x1000, regs := [
    ⟨0x0, 512, 0x4, false, [⟨0, 32, .win, .win, none, false, false⟩]⟩,
    ⟨0x800, 1, 0x0, false, [⟨0, 12, .ro, .ro, none, false, false⟩]⟩,
    ⟨0x804, 1, 0x0, false, [⟨0, 12, .rw, .rw, none, false, false⟩]⟩,
    ⟨0x808, 1, 0x0, false, [⟨0, 1, .w1c, .w1c, none, false, false⟩, ⟨1, 1, .w1c, .w1c, none, false, false⟩, ⟨2, 1, .ro, .ro, none, false, false⟩]⟩] }

/-- Fields of page `ang` (R147). -/
def pageAng : Page := { base := 0x20400, cnt := 1, stride := 0x0, regs := [
    ⟨0x0, 1, 0x0, false, [⟨0, 1, .rwv, .rws, none, false, false⟩, ⟨1, 3, .rwv, .rws, none, false, false⟩, ⟨4, 8, .rwv, .rws, none, false, false⟩, ⟨12, 1, .rwv, .rws, none, false, false⟩]⟩,
    ⟨0x4, 1, 0x0, false, [⟨0, 1, .ro, .ro, none, false, false⟩, ⟨1, 1, .ro, .ro, none, false, false⟩, ⟨2, 1, .ro, .ro, none, false, false⟩, ⟨3, 1, .ro, .ro, none, false, false⟩, ⟨4, 1, .ro, .ro, none, false, false⟩, ⟨5, 1, .ro, .ro, none, false, false⟩, ⟨8, 1, .w1c, .w1c, none, false, false⟩, ⟨9, 1, .w1c, .w1c, none, false, false⟩, ⟨10, 1, .w1c, .w1c, none, false, false⟩, ⟨11, 1, .w1c, .w1c, none, false, false⟩, ⟨12, 1, .w1c, .w1c, none, false, false⟩, ⟨13, 1, .w1c, .w1c, none, false, false⟩, ⟨14, 1, .w1c, .w1c, none, false, false⟩, ⟨15, 1, .w1c, .w1c, none, false, false⟩]⟩,
    ⟨0x8, 1, 0x0, true, [⟨0, 64, .rwv, .rws, none, false, false⟩]⟩,
    ⟨0x10, 1, 0x0, true, [⟨0, 64, .rwv, .rws, none, false, false⟩]⟩,
    ⟨0x18, 1, 0x0, false, [⟨0, 32, .ro, .rwl, none, false, false⟩]⟩,
    ⟨0x1c, 1, 0x0, false, [⟨0, 16, .ro, .rwl, none, false, false⟩]⟩,
    ⟨0x20, 1, 0x0, true, [⟨0, 64, .ro, .rwl, none, false, false⟩]⟩,
    ⟨0x28, 1, 0x0, false, [⟨0, 32, .rwv, .rws, none, false, false⟩]⟩,
    ⟨0x2c, 1, 0x0, false, [⟨0, 5, .rwv, .rws, some (1, 16), false, false⟩, ⟨8, 4, .rwv, .rws, some (1, 8), false, false⟩]⟩,
    ⟨0x30, 1, 0x0, false, [⟨0, 16, .rwv, .rws, some (1, 65535), false, false⟩]⟩,
    ⟨0x34, 1, 0x0, false, [⟨0, 32, .rwv, .rws, none, false, false⟩]⟩,
    ⟨0x40, 1, 0x0, true, [⟨0, 64, .ro, .ro, none, false, false⟩]⟩,
    ⟨0x48, 1, 0x0, true, [⟨0, 64, .ro, .ro, none, false, false⟩]⟩,
    ⟨0x50, 1, 0x0, true, [⟨0, 64, .ro, .ro, none, false, false⟩]⟩,
    ⟨0x58, 1, 0x0, false, [⟨0, 32, .ro, .ro, none, false, false⟩]⟩,
    ⟨0x5c, 1, 0x0, false, [⟨0, 32, .ro, .ro, none, false, false⟩]⟩,
    ⟨0x60, 1, 0x0, false, [⟨0, 32, .ro, .ro, none, false, false⟩]⟩,
    ⟨0x64, 1, 0x0, false, [⟨0, 32, .ro, .ro, none, false, false⟩]⟩] }

/-- Fields of page `angv` (R147). -/
def pageAngv : Page := { base := 0x203fc, cnt := 1, stride := 0x0, regs := [
    ⟨0x0, 1, 0x0, false, [⟨0, 24, .ro, .ro, none, false, false⟩]⟩] }

/-- Fields of page `evt` (R147). -/
def pageEvt : Page := { base := 0x20800, cnt := 1, stride := 0x0, regs := [
    ⟨0x0, 4, 0x4, false, [⟨0, 32, .rw, .rw, none, false, false⟩]⟩,
    ⟨0x10, 1, 0x0, false, [⟨0, 2, .wo, .wo, none, false, false⟩, ⟨16, 12, .wo, .wo, none, false, false⟩]⟩,
    ⟨0x14, 1, 0x0, false, [⟨0, 1, .ro, .ro, none, false, false⟩, ⟨1, 3, .ro, .ro, none, false, false⟩, ⟨16, 12, .ro, .ro, none, false, false⟩]⟩,
    ⟨0x18, 1, 0x0, false, [⟨0, 13, .ro, .ro, none, false, false⟩]⟩,
    ⟨0x20, 2, 0x4, false, [⟨0, 32, .rw, .rw, none, false, false⟩]⟩] }

/-- Fields of page `ach` (R136). -/
def pageAch : Page := { base := 0x20c00, cnt := 64, stride := 0x10, regs := [
    ⟨0x0, 1, 0x0, false, [⟨0, 32, .ro, .ro, none, false, false⟩]⟩,
    ⟨0x4, 1, 0x0, false, [⟨0, 32, .ro, .ro, none, false, false⟩]⟩,
    ⟨0x8, 1, 0x0, false, [⟨0, 32, .ro, .ro, none, false, false⟩]⟩,
    ⟨0xc, 1, 0x0, false, [⟨0, 16, .ro, .ro, none, false, false⟩, ⟨16, 16, .ro, .ro, none, false, false⟩]⟩] }

/-- Fields of page `acap` (R144). -/
def pageAcap : Page := { base := 0x21000, cnt := 8, stride := 0x20, regs := [
    ⟨0x0, 1, 0x0, false, [⟨0, 32, .wo, .wo, none, false, false⟩]⟩,
    ⟨0x4, 1, 0x0, false, [⟨0, 1, .ro, .ro, none, false, false⟩, ⟨1, 1, .ro, .ro, none, false, false⟩, ⟨2, 5, .ro, .ro, none, false, false⟩, ⟨8, 1, .w1c, .w1c, none, false, false⟩]⟩,
    ⟨0x8, 1, 0x0, true, [⟨0, 64, .ro, .ro, none, false, false⟩]⟩,
    ⟨0x10, 1, 0x0, true, [⟨0, 64, .ro, .ro, none, false, false⟩]⟩] }

/-- Fields of page `pltb` (R552). -/
def pagePltb : Page := { base := 0x30000, cnt := 1, stride := 0x0, regs := [
    ⟨0x0, 1, 0x0, false, [⟨0, 1, .rwv, .rwv, none, false, false⟩]⟩,
    ⟨0x4, 1, 0x0, false, [⟨0, 32, .ro, .ro, none, false, false⟩]⟩,
    ⟨0x3fc, 1, 0x0, false, [⟨0, 24, .ro, .ro, none, false, false⟩]⟩] }

/-- Fields of page `plt` (R552). -/
def pagePlt : Page := { base := 0x30400, cnt := 1, stride := 0x0, regs := [
    ⟨0x0, 1, 0x0, false, [⟨0, 1, .wo, .wo, none, false, false⟩, ⟨1, 1, .wo, .wo, none, false, false⟩]⟩,
    ⟨0x4, 1, 0x0, false, [⟨0, 3, .ro, .ro, none, false, false⟩, ⟨3, 1, .ro, .ro, none, false, false⟩, ⟨4, 1, .w1c, .w1c, none, false, false⟩, ⟨5, 1, .w1c, .w1c, none, false, false⟩, ⟨6, 1, .w1c, .w1c, none, false, false⟩, ⟨7, 1, .w1c, .w1c, none, false, false⟩, ⟨8, 1, .ro, .ro, none, false, false⟩, ⟨9, 1, .w1c, .w1c, none, false, false⟩]⟩,
    ⟨0x8, 1, 0x0, true, [⟨0, 64, .ro, .ro, none, false, false⟩]⟩,
    ⟨0x10, 1, 0x0, false, [⟨0, 32, .ro, .ro, none, false, false⟩]⟩,
    ⟨0x14, 1, 0x0, false, [⟨0, 32, .ro, .ro, none, false, false⟩]⟩,
    ⟨0x18, 1, 0x0, false, [⟨0, 32, .ro, .ro, none, false, false⟩]⟩,
    ⟨0x1c, 1, 0x0, true, [⟨0, 64, .ro, .ro, none, false, false⟩]⟩,
    ⟨0x24, 1, 0x0, false, [⟨0, 1, .rwl, .rwl, none, false, false⟩]⟩,
    ⟨0x28, 1, 0x0, false, [⟨0, 32, .rws, .rws, some (100, 1000000000), false, false⟩]⟩,
    ⟨0x2c, 1, 0x0, false, [⟨0, 32, .rws, .rws, some (10, 10000), false, false⟩]⟩,
    ⟨0x30, 1, 0x0, false, [⟨0, 32, .rws, .rws, some (1, 500), false, false⟩]⟩,
    ⟨0x34, 1, 0x0, false, [⟨0, 4, .rws, .rws, none, false, false⟩, ⟨8, 4, .rws, .rws, none, false, false⟩]⟩,
    ⟨0x38, 1, 0x0, false, [⟨0, 32, .ro, .ro, none, false, false⟩]⟩,
    ⟨0x3c, 1, 0x0, false, [⟨0, 32, .ro, .ro, none, false, false⟩]⟩,
    ⟨0x40, 1, 0x0, false, [⟨0, 16, .rw, .rw, none, false, false⟩, ⟨16, 5, .rw, .rw, none, false, false⟩, ⟨21, 5, .rw, .rw, none, false, false⟩, ⟨26, 2, .rw, .rw, none, false, false⟩, ⟨28, 1, .rw, .rw, none, false, false⟩, ⟨31, 1, .ro, .ro, none, false, false⟩]⟩,
    ⟨0x44, 1, 0x0, false, [⟨0, 1, .rws, .rws, none, false, false⟩, ⟨1, 1, .rws, .rws, none, false, false⟩, ⟨8, 8, .rws, .rws, none, false, false⟩]⟩,
    ⟨0x48, 1, 0x0, false, [⟨0, 32, .ro, .ro, none, false, false⟩]⟩] }

/-- Fields of page `pltp` (R552). PLT_P_MAC is two plain 32-bit words, not a 64-bit pair that latches (DESIGN CHOICE, log entry 122). -/
def pagePltp : Page := { base := 0x30800, cnt := 2, stride := 0x400, regs := [
    ⟨0x0, 1, 0x0, false, [⟨0, 1, .rwl, .rwl, none, false, false⟩, ⟨1, 1, .rwl, .rwl, none, false, false⟩, ⟨2, 1, .rwl, .rwl, none, false, false⟩, ⟨3, 2, .rwl, .rwl, none, false, false⟩, ⟨5, 2, .rwl, .rwl, none, false, false⟩, ⟨8, 8, .rwl, .rwl, none, false, false⟩, ⟨16, 4, .rwl, .rwl, none, false, false⟩, ⟨20, 4, .rwl, .rwl, none, false, false⟩, ⟨24, 8, .rwl, .rwl, none, false, false⟩]⟩,
    ⟨0x4, 1, 0x0, false, [⟨0, 1, .ro, .ro, none, false, false⟩, ⟨1, 1, .ro, .ro, none, false, false⟩, ⟨2, 1, .ro, .ro, none, false, false⟩]⟩,
    ⟨0x8, 1, 0x0, false, [⟨0, 32, .rwl, .rwl, none, false, false⟩]⟩,
    ⟨0xc, 1, 0x0, false, [⟨0, 32, .rwl, .rwl, none, false, false⟩]⟩,
    ⟨0x10, 1, 0x0, false, [⟨0, 32, .rwl, .rwl, none, false, false⟩]⟩,
    ⟨0x14, 1, 0x0, false, [⟨0, 16, .rwl, .rwl, none, false, false⟩]⟩,
    ⟨0x18, 1, 0x0, false, [⟨0, 32, .rwl, .rwl, none, false, false⟩]⟩,
    ⟨0x1c, 1, 0x0, false, [⟨0, 32, .ro, .ro, none, false, false⟩]⟩,
    ⟨0x20, 1, 0x0, false, [⟨0, 32, .ro, .ro, none, false, false⟩]⟩,
    ⟨0x24, 1, 0x0, false, [⟨0, 32, .ro, .ro, none, false, false⟩]⟩,
    ⟨0x28, 1, 0x0, false, [⟨0, 32, .ro, .ro, none, false, false⟩]⟩,
    ⟨0x2c, 1, 0x0, false, [⟨0, 32, .ro, .ro, none, false, false⟩]⟩] }

/-- Fields of page `pltq` (R552). -/
def pagePltq : Page := { base := 0x31000, cnt := 8, stride := 0x20, regs := [
    ⟨0x0, 1, 0x0, false, [⟨0, 1, .rwl, .rwl, none, false, false⟩, ⟨1, 1, .rwl, .rwl, none, false, false⟩, ⟨8, 8, .rwl, .rwl, none, false, false⟩]⟩,
    ⟨0x4, 1, 0x0, false, [⟨0, 5, .wo, .wo, none, false, false⟩, ⟨5, 1, .wo, .wo, none, false, false⟩, ⟨16, 11, .wo, .wo, none, false, false⟩]⟩,
    ⟨0x8, 1, 0x0, true, [⟨0, 64, .rw, .rw, none, false, false⟩]⟩,
    ⟨0x10, 1, 0x0, false, [⟨0, 5, .ro, .ro, none, false, false⟩, ⟨16, 16, .ro, .ro, none, false, false⟩]⟩] }

/-- Fields of page `plts` (R544). -/
def pagePlts : Page := { base := 0x34000, cnt := 32, stride := 0x600, regs := [
    ⟨0x0, 380, 0x4, false, [⟨0, 32, .rw, .rw, none, false, false⟩]⟩] }

/-- Fields of page `seg` (R223). -/
def pageSeg : Page := { base := 0x40000, cnt := 8, stride := 0x8000, regs := [
    ⟨0x0, 1, 0x0, false, [⟨0, 3, .rwv, .rwv, some (1, 7), false, false⟩, ⟨8, 1, .rwv, .rwv, some (0, 1), false, true⟩]⟩,
    ⟨0x4, 1, 0x0, false, [⟨0, 27, .ro, .ro, none, false, false⟩]⟩,
    ⟨0x3fc, 1, 0x0, false, [⟨0, 24, .ro, .ro, none, false, false⟩]⟩,
    ⟨0x400, 1, 0x0, false, [⟨0, 1, .wo, .wo, none, false, false⟩, ⟨1, 1, .wo, .wo, none, false, false⟩, ⟨4, 3, .wo, .wo, none, false, false⟩, ⟨7, 1, .wo, .wo, none, false, false⟩]⟩,
    ⟨0x404, 1, 0x0, false, [⟨0, 4, .ro, .ro, none, false, false⟩, ⟨4, 3, .ro, .ro, none, false, false⟩, ⟨7, 3, .ro, .ro, none, false, false⟩, ⟨10, 1, .ro, .ro, none, false, false⟩, ⟨11, 1, .ro, .ro, none, false, false⟩, ⟨12, 1, .ro, .ro, none, false, false⟩, ⟨13, 7, .ro, .ro, none, false, false⟩, ⟨20, 7, .ro, .ro, none, false, false⟩]⟩,
    ⟨0x408, 1, 0x0, false, [⟨0, 1, .w1c, .w1c, none, false, false⟩, ⟨1, 1, .w1c, .w1c, none, false, false⟩, ⟨2, 1, .w1c, .w1c, none, false, false⟩, ⟨3, 1, .w1c, .w1c, none, false, false⟩, ⟨4, 1, .w1c, .w1c, none, false, false⟩, ⟨5, 1, .w1c, .w1c, none, false, false⟩, ⟨6, 1, .w1c, .w1c, none, false, false⟩, ⟨7, 1, .w1c, .w1c, none, false, false⟩, ⟨8, 1, .w1c, .w1c, none, false, false⟩, ⟨9, 1, .w1c, .w1c, none, false, false⟩, ⟨10, 1, .w1c, .w1c, none, false, false⟩]⟩,
    ⟨0x40c, 1, 0x0, false, [⟨0, 6, .ro, .ro, none, false, false⟩, ⟨31, 1, .ro, .ro, none, false, false⟩]⟩,
    ⟨0x410, 1, 0x0, false, [⟨0, 9, .ro, .ro, none, false, false⟩]⟩,
    ⟨0x414, 1, 0x0, false, [⟨0, 4, .ro, .ro, none, false, false⟩, ⟨16, 16, .ro, .ro, none, false, false⟩]⟩,
    ⟨0x418, 1, 0x0, false, [⟨0, 17, .ro, .ro, none, false, false⟩]⟩,
    ⟨0x420, 1, 0x0, false, [⟨0, 32, .ro, .ro, none, false, false⟩]⟩,
    ⟨0x424, 1, 0x0, false, [⟨0, 32, .ro, .ro, none, false, false⟩]⟩,
    ⟨0x428, 1, 0x0, false, [⟨0, 32, .ro, .ro, none, false, false⟩]⟩,
    ⟨0x42c, 1, 0x0, false, [⟨0, 32, .ro, .ro, none, false, false⟩]⟩,
    ⟨0x430, 1, 0x0, false, [⟨0, 32, .ro, .ro, none, false, false⟩]⟩,
    ⟨0x434, 1, 0x0, false, [⟨0, 32, .ro, .ro, none, false, false⟩]⟩,
    ⟨0x1000, 64, 0x40, false, [⟨0, 32, .ro, .ro, none, false, false⟩]⟩,
    ⟨0x1004, 64, 0x40, false, [⟨0, 32, .ro, .ro, none, false, false⟩]⟩,
    ⟨0x1008, 64, 0x40, false, [⟨0, 16, .ro, .ro, none, false, false⟩, ⟨16, 16, .ro, .ro, none, false, false⟩]⟩,
    ⟨0x100c, 64, 0x40, false, [⟨0, 16, .ro, .ro, none, false, false⟩, ⟨16, 16, .ro, .ro, none, false, false⟩]⟩,
    ⟨0x1010, 64, 0x40, false, [⟨0, 3, .ro, .ro, none, false, false⟩, ⟨3, 1, .w1c, .w1c, none, false, false⟩, ⟨4, 1, .ro, .ro, none, false, false⟩, ⟨8, 8, .ro, .ro, none, false, false⟩]⟩,
    ⟨0x1014, 64, 0x40, false, [⟨0, 32, .ro, .ro, none, false, false⟩]⟩,
    ⟨0x1018, 64, 0x40, false, [⟨0, 32, .ro, .ro, none, false, false⟩]⟩,
    ⟨0x101c, 64, 0x40, false, [⟨0, 32, .ro, .ro, none, false, false⟩]⟩,
    ⟨0x1020, 64, 0x40, false, [⟨0, 32, .ro, .ro, none, false, false⟩]⟩,
    ⟨0x1024, 64, 0x40, false, [⟨0, 32, .ro, .ro, none, false, false⟩]⟩,
    ⟨0x1028, 64, 0x40, false, [⟨0, 32, .ro, .ro, none, false, false⟩]⟩,
    ⟨0x102c, 64, 0x40, false, [⟨0, 16, .ro, .ro, none, false, false⟩, ⟨16, 5, .ro, .ro, none, false, false⟩]⟩,
    ⟨0x1030, 64, 0x40, false, [⟨0, 32, .ro, .ro, none, false, false⟩]⟩] }

/-- Fields of page `ax` (R253). -/
def pageAx : Page := { base := 0xc0000, cnt := 256, stride := 0x400, regs := [
    ⟨0x0, 1, 0x0, false, [⟨0, 1, .rwv, .rws, none, false, false⟩, ⟨1, 1, .rwv, .rws, none, false, false⟩, ⟨2, 1, .rwv, .rws, none, false, false⟩, ⟨3, 1, .rwv, .rws, none, false, false⟩, ⟨4, 1, .rwv, .rws, none, false, false⟩, ⟨5, 1, .rwv, .rws, none, false, false⟩, ⟨6, 1, .rwv, .rws, none, false, false⟩, ⟨8, 3, .rwv, .rws, some (1, 4), false, false⟩]⟩,
    ⟨0x4, 1, 0x0, false, [⟨0, 1, .ro, .ro, none, false, false⟩, ⟨1, 1, .ro, .ro, none, false, false⟩, ⟨2, 1, .ro, .ro, none, false, false⟩, ⟨3, 1, .ro, .ro, none, false, false⟩, ⟨4, 1, .ro, .ro, none, false, false⟩, ⟨5, 1, .ro, .ro, none, false, false⟩, ⟨6, 1, .ro, .ro, none, false, false⟩, ⟨7, 1, .ro, .ro, none, false, false⟩, ⟨8, 1, .w1c, .w1c, none, false, false⟩, ⟨9, 1, .ro, .ro, none, false, false⟩, ⟨10, 1, .ro, .ro, none, false, false⟩, ⟨11, 1, .w1c, .w1c, none, false, false⟩, ⟨12, 1, .ro, .ro, none, false, false⟩, ⟨16, 8, .ro, .ro, none, false, false⟩]⟩,
    ⟨0x8, 1, 0x0, false, [⟨0, 1, .rwv, .rwl, none, false, true⟩, ⟨1, 1, .rwv, .rwl, none, false, true⟩, ⟨2, 1, .rwv, .rwl, none, false, true⟩, ⟨8, 1, .rwv, .rwl, none, false, true⟩]⟩,
    ⟨0x10, 1, 0x0, true, [⟨0, 64, .rwv, .rws, none, true, false⟩]⟩,
    ⟨0x18, 1, 0x0, false, [⟨0, 32, .rwv, .rws, some (1, 2147483647), false, false⟩]⟩,
    ⟨0x1c, 1, 0x0, false, [⟨0, 32, .rwv, .rws, some (1, 2147483647), false, false⟩]⟩,
    ⟨0x20, 1, 0x0, false, [⟨0, 32, .rwv, .rws, some (1, 2147483647), false, false⟩]⟩,
    ⟨0x24, 1, 0x0, false, [⟨0, 32, .rwv, .rws, some (0, 2147483647), false, false⟩]⟩,
    ⟨0x28, 1, 0x0, false, [⟨0, 2, .rwv, .rws, none, false, false⟩, ⟨2, 1, .rwv, .rws, none, false, false⟩, ⟨3, 1, .rwv, .rws, none, false, false⟩]⟩,
    ⟨0x2c, 1, 0x0, false, [⟨0, 32, .rwv, .rws, some (-2147483647, 2147483647), true, false⟩]⟩,
    ⟨0x30, 1, 0x0, true, [⟨0, 64, .rwv, .rwl, some (0, 4611686018427387904), false, true⟩]⟩,
    ⟨0x38, 1, 0x0, true, [⟨0, 64, .rwv, .rws, none, true, false⟩]⟩,
    ⟨0x40, 1, 0x0, true, [⟨0, 64, .rwv, .rws, none, true, false⟩]⟩,
    ⟨0x48, 1, 0x0, true, [⟨0, 64, .rwv, .rws, none, false, false⟩]⟩,
    ⟨0x50, 1, 0x0, false, [⟨0, 32, .rwv, .rws, none, false, false⟩]⟩,
    ⟨0x58, 1, 0x0, true, [⟨0, 64, .ro, .ro, none, false, false⟩]⟩,
    ⟨0x60, 1, 0x0, false, [⟨0, 3, .ro, .ro, none, false, false⟩, ⟨3, 1, .ro, .ro, none, false, false⟩, ⟨4, 1, .ro, .ro, none, false, false⟩, ⟨5, 1, .ro, .ro, none, false, false⟩, ⟨6, 1, .ro, .ro, none, false, false⟩, ⟨7, 1, .ro, .ro, none, false, false⟩, ⟨8, 1, .ro, .ro, none, false, false⟩, ⟨9, 1, .w1c, .w1c, none, false, false⟩, ⟨10, 1, .w1c, .w1c, none, false, false⟩, ⟨11, 1, .w1c, .w1c, none, false, false⟩, ⟨12, 1, .ro, .ro, none, false, false⟩]⟩,
    ⟨0x68, 1, 0x0, true, [⟨0, 64, .ro, .ro, none, false, false⟩]⟩,
    ⟨0x80, 1, 0x0, false, [⟨0, 32, .rwv, .rws, some (0, 2147483647), false, false⟩]⟩,
    ⟨0x84, 1, 0x0, false, [⟨0, 32, .rwv, .rws, some (0, 2147483647), false, false⟩]⟩,
    ⟨0x88, 1, 0x0, false, [⟨0, 32, .rwv, .rws, some (0, 10000), false, false⟩]⟩,
    ⟨0x8c, 1, 0x0, false, [⟨0, 32, .rwv, .rws, some (0, 1000), false, false⟩]⟩,
    ⟨0x90, 1, 0x0, false, [⟨0, 32, .ro, .ro, none, false, false⟩]⟩,
    ⟨0x100, 1, 0x0, false, [⟨0, 32, .rwv, .rws, some (0, 1073741824), false, false⟩]⟩,
    ⟨0x104, 1, 0x0, false, [⟨0, 32, .rwv, .rws, some (0, 1610612736), false, false⟩]⟩,
    ⟨0x108, 1, 0x0, false, [⟨0, 32, .rwv, .rws, some (0, 2147483647), false, false⟩]⟩,
    ⟨0x10c, 1, 0x0, false, [⟨0, 32, .rwv, .rws, some (0, 1073741824), false, false⟩]⟩,
    ⟨0x110, 1, 0x0, false, [⟨0, 32, .rwv, .rws, some (0, 1073741824), false, false⟩]⟩,
    ⟨0x114, 1, 0x0, false, [⟨0, 32, .rwv, .rws, some (0, 2147483647), false, false⟩]⟩,
    ⟨0x118, 1, 0x0, false, [⟨0, 32, .rwv, .rws, some (0, 2147483647), false, false⟩]⟩,
    ⟨0x11c, 1, 0x0, false, [⟨0, 32, .rwv, .rws, some (0, 1073741824), false, false⟩]⟩,
    ⟨0x120, 1, 0x0, false, [⟨0, 32, .rwv, .rws, some (0, 536870912), false, false⟩]⟩,
    ⟨0x124, 1, 0x0, false, [⟨0, 32, .rwv, .rws, some (16777216, 2147483647), false, false⟩]⟩,
    ⟨0x128, 1, 0x0, false, [⟨0, 32, .rwv, .rws, some (0, 2147483647), false, false⟩]⟩,
    ⟨0x12c, 1, 0x0, false, [⟨0, 32, .rwv, .rws, some (0, 2147483647), false, false⟩]⟩,
    ⟨0x130, 1, 0x0, true, [⟨0, 64, .rwv, .rws, some (0, 4611686018427387904), false, false⟩]⟩,
    ⟨0x138, 1, 0x0, false, [⟨0, 32, .rwv, .rws, some (0, 2147483647), false, false⟩]⟩,
    ⟨0x13c, 1, 0x0, false, [⟨0, 32, .rwv, .rws, some (1, 2000), false, false⟩]⟩,
    ⟨0x140, 1, 0x0, false, [⟨0, 32, .ro, .rwl, none, false, false⟩]⟩,
    ⟨0x144, 1, 0x0, false, [⟨0, 32, .ro, .rwl, none, false, false⟩]⟩] ++ [
    ⟨0x148, 1, 0x0, false, [⟨0, 32, .ro, .rwl, none, false, false⟩]⟩,
    ⟨0x14c, 1, 0x0, false, [⟨0, 32, .ro, .rwl, none, false, false⟩]⟩,
    ⟨0x150, 1, 0x0, false, [⟨0, 32, .ro, .rwl, none, false, false⟩]⟩,
    ⟨0x160, 1, 0x0, false, [⟨0, 32, .ro, .rwl, none, false, false⟩]⟩,
    ⟨0x164, 1, 0x0, false, [⟨0, 32, .ro, .rwl, none, false, false⟩]⟩,
    ⟨0x168, 1, 0x0, false, [⟨0, 32, .ro, .rwl, none, false, false⟩]⟩,
    ⟨0x16c, 1, 0x0, false, [⟨0, 32, .ro, .rwl, none, false, false⟩]⟩,
    ⟨0x170, 1, 0x0, false, [⟨0, 32, .ro, .rwl, none, false, false⟩]⟩,
    ⟨0x200, 1, 0x0, false, [⟨0, 32, .rwv, .rws, some (1932735283, 2147483647), false, false⟩]⟩,
    ⟨0x204, 1, 0x0, false, [⟨0, 32, .rwv, .rws, some (0, 536870912), false, false⟩]⟩,
    ⟨0x208, 1, 0x0, false, [⟨0, 32, .rwv, .rws, some (0, 16777216), false, false⟩]⟩,
    ⟨0x20c, 1, 0x0, false, [⟨0, 8, .rwv, .rws, none, false, false⟩]⟩,
    ⟨0x210, 1, 0x0, false, [⟨0, 32, .rwv, .rws, some (0, 1000000), false, false⟩]⟩,
    ⟨0x214, 1, 0x0, false, [⟨0, 32, .rwv, .rws, none, false, false⟩]⟩,
    ⟨0x218, 1, 0x0, false, [⟨0, 32, .rwv, .rws, some (0, 1073741824), false, false⟩]⟩,
    ⟨0x21c, 1, 0x0, false, [⟨0, 12, .ro, .ro, none, false, false⟩, ⟨16, 16, .ro, .ro, none, false, false⟩]⟩,
    ⟨0x280, 1, 0x0, false, [⟨0, 2, .rwv, .rws, none, false, false⟩, ⟨4, 3, .rwv, .rws, none, false, false⟩, ⟨8, 5, .rwv, .rws, none, false, false⟩, ⟨16, 8, .rwv, .rws, none, false, false⟩]⟩,
    ⟨0x284, 1, 0x0, false, [⟨0, 32, .rwv, .rws, none, true, false⟩]⟩,
    ⟨0x288, 1, 0x0, false, [⟨0, 32, .rwv, .rws, some (0, 2147483648), false, false⟩]⟩,
    ⟨0x28c, 1, 0x0, false, [⟨0, 32, .rwv, .rws, some (0, 2147483648), false, false⟩]⟩,
    ⟨0x290, 1, 0x0, false, [⟨0, 32, .rwv, .rws, none, false, false⟩]⟩,
    ⟨0x2c0, 1, 0x0, false, [⟨0, 32, .rwv, .rws, none, true, false⟩]⟩,
    ⟨0x2c4, 1, 0x0, false, [⟨0, 32, .rwv, .rws, none, true, false⟩]⟩,
    ⟨0x300, 1, 0x0, true, [⟨0, 64, .ro, .ro, none, false, false⟩]⟩,
    ⟨0x308, 1, 0x0, false, [⟨0, 32, .ro, .ro, none, false, false⟩]⟩,
    ⟨0x30c, 1, 0x0, false, [⟨0, 32, .ro, .ro, none, false, false⟩]⟩,
    ⟨0x310, 1, 0x0, true, [⟨0, 64, .ro, .ro, none, false, false⟩]⟩,
    ⟨0x318, 1, 0x0, false, [⟨0, 32, .ro, .ro, none, false, false⟩]⟩,
    ⟨0x320, 1, 0x0, true, [⟨0, 64, .ro, .ro, none, false, false⟩]⟩,
    ⟨0x328, 1, 0x0, false, [⟨0, 32, .ro, .ro, none, false, false⟩]⟩,
    ⟨0x32c, 1, 0x0, false, [⟨0, 32, .ro, .ro, none, false, false⟩]⟩,
    ⟨0x330, 1, 0x0, false, [⟨0, 32, .ro, .ro, none, false, false⟩]⟩,
    ⟨0x334, 1, 0x0, false, [⟨0, 32, .ro, .ro, none, false, false⟩]⟩,
    ⟨0x338, 1, 0x0, false, [⟨0, 32, .ro, .ro, none, false, false⟩]⟩,
    ⟨0x33c, 1, 0x0, false, [⟨0, 32, .ro, .ro, none, false, false⟩]⟩,
    ⟨0x340, 1, 0x0, false, [⟨0, 32, .ro, .ro, none, false, false⟩]⟩,
    ⟨0x344, 1, 0x0, false, [⟨0, 32, .ro, .ro, none, false, false⟩]⟩,
    ⟨0x3fc, 1, 0x0, false, [⟨0, 24, .ro, .ro, none, false, false⟩]⟩] }

/-- Fields of page `fb` (R306). -/
def pageFb : Page := { base := 0x101000, cnt := 16, stride := 0x100, regs := [
    ⟨0x0, 1, 0x0, false, [⟨0, 1, .rwv, .rws, none, false, false⟩, ⟨1, 1, .rwv, .rws, none, false, false⟩, ⟨2, 1, .rwv, .rws, none, false, false⟩, ⟨3, 1, .rwv, .rws, none, false, false⟩, ⟨4, 1, .rwv, .rws, none, false, false⟩, ⟨5, 1, .rwv, .rws, none, false, false⟩]⟩,
    ⟨0x4, 1, 0x0, false, [⟨0, 2, .rwv, .rwl, some (0, 1), false, false⟩, ⟨2, 1, .rwv, .rwl, none, false, false⟩, ⟨3, 1, .rwv, .rwl, none, false, false⟩, ⟨4, 1, .rwv, .rwl, none, false, false⟩, ⟨5, 1, .rwv, .rwl, none, false, false⟩, ⟨8, 4, .rwv, .rwl, none, false, false⟩]⟩,
    ⟨0x8, 1, 0x0, false, [⟨0, 32, .rwv, .rwl, some (0, 2147483647), false, false⟩]⟩,
    ⟨0xc, 1, 0x0, false, [⟨0, 8, .rwv, .rwl, none, false, false⟩]⟩,
    ⟨0x10, 1, 0x0, false, [⟨0, 7, .rwv, .rwl, some (10, 64), false, false⟩, ⟨7, 1, .rwv, .rwl, none, false, false⟩, ⟨8, 6, .rwv, .rwl, some (0, 54), false, false⟩, ⟨16, 6, .rwv, .rwl, some (8, 48), false, false⟩, ⟨22, 1, .rwv, .rwl, none, false, false⟩, ⟨24, 2, .rwv, .rwl, none, false, false⟩]⟩,
    ⟨0x14, 1, 0x0, false, [⟨0, 12, .rwv, .rwl, some (25, 2500), false, false⟩, ⟨16, 8, .rwv, .rwl, none, false, false⟩, ⟨24, 8, .rwv, .rwl, none, false, false⟩]⟩,
    ⟨0x18, 1, 0x0, false, [⟨0, 32, .rwv, .rwl, some (1, 2147483647), false, false⟩]⟩,
    ⟨0x1c, 1, 0x0, false, [⟨0, 16, .rwv, .rws, some (1, 60000), false, false⟩, ⟨16, 16, .rwv, .rws, none, false, false⟩]⟩,
    ⟨0x20, 1, 0x0, false, [⟨0, 32, .rwv, .rws, none, false, false⟩]⟩,
    ⟨0x28, 1, 0x0, true, [⟨0, 64, .rwv, .rws, none, true, false⟩]⟩,
    ⟨0x30, 1, 0x0, true, [⟨0, 64, .rwv, .rws, none, true, false⟩]⟩,
    ⟨0x38, 1, 0x0, true, [⟨0, 64, .rwv, .rws, none, true, false⟩]⟩,
    ⟨0x40, 1, 0x0, true, [⟨0, 64, .ro, .ro, none, false, false⟩]⟩,
    ⟨0x48, 1, 0x0, false, [⟨0, 32, .ro, .ro, none, false, false⟩]⟩,
    ⟨0x4c, 1, 0x0, true, [⟨0, 64, .ro, .ro, none, false, false⟩]⟩,
    ⟨0x54, 1, 0x0, false, [⟨0, 1, .ro, .ro, none, false, false⟩, ⟨1, 1, .ro, .ro, none, false, false⟩, ⟨2, 1, .ro, .ro, none, false, false⟩, ⟨3, 1, .ro, .ro, none, false, false⟩, ⟨4, 1, .ro, .ro, none, false, false⟩, ⟨5, 1, .ro, .ro, none, false, false⟩, ⟨6, 1, .ro, .ro, none, false, false⟩, ⟨7, 1, .w1c, .w1c, none, false, false⟩, ⟨8, 4, .ro, .ro, none, false, false⟩]⟩,
    ⟨0x58, 1, 0x0, false, [⟨0, 16, .ro, .ro, none, false, false⟩, ⟨16, 8, .ro, .ro, none, false, false⟩, ⟨24, 8, .ro, .ro, none, false, false⟩]⟩,
    ⟨0x5c, 1, 0x0, false, [⟨0, 32, .ro, .ro, none, false, false⟩]⟩,
    ⟨0x60, 1, 0x0, true, [⟨0, 64, .ro, .ro, none, false, false⟩]⟩,
    ⟨0xfc, 1, 0x0, false, [⟨0, 24, .ro, .ro, none, false, false⟩]⟩] }

/-- Fields of page `fbnv` (R307). -/
def pageFbnv : Page := { base := 0x104ffc, cnt := 1, stride := 0x0, regs := [
    ⟨0x0, 1, 0x0, false, [⟨0, 24, .ro, .ro, none, false, false⟩]⟩] }

/-- Fields of page `fbn` (R307). -/
def pageFbn : Page := { base := 0x105000, cnt := 256, stride := 0x20, regs := [
    ⟨0x0, 1, 0x0, false, [⟨0, 32, .rwv, .rws, none, false, false⟩]⟩,
    ⟨0x4, 1, 0x0, false, [⟨0, 16, .rwv, .rws, some (1, 60000), false, false⟩, ⟨16, 16, .rwv, .rws, none, false, false⟩]⟩,
    ⟨0x8, 1, 0x0, false, [⟨0, 32, .rwv, .rws, none, false, false⟩]⟩,
    ⟨0x10, 1, 0x0, true, [⟨0, 64, .rwv, .rws, none, true, false⟩]⟩,
    ⟨0x18, 1, 0x0, true, [⟨0, 64, .rwv, .rws, none, true, false⟩]⟩] }

/-- Fields of page `fbns` (R307). -/
def pageFbns : Page := { base := 0x107000, cnt := 256, stride := 0x10, regs := [
    ⟨0x0, 1, 0x0, false, [⟨0, 1, .ro, .ro, none, false, false⟩, ⟨1, 1, .ro, .ro, none, false, false⟩, ⟨2, 1, .ro, .ro, none, false, false⟩, ⟨3, 1, .ro, .ro, none, false, false⟩, ⟨8, 4, .ro, .ro, none, false, false⟩, ⟨16, 16, .ro, .ro, none, false, false⟩]⟩,
    ⟨0x4, 1, 0x0, false, [⟨0, 32, .ro, .ro, none, false, false⟩]⟩] }

/-- Fields of page `disb` (R334). -/
def pageDisb : Page := { base := 0x110000, cnt := 1, stride := 0x0, regs := [
    ⟨0x4, 1, 0x0, false, [⟨0, 32, .ro, .ro, none, false, false⟩]⟩,
    ⟨0x3fc, 1, 0x0, false, [⟨0, 24, .ro, .ro, none, false, false⟩]⟩] }

/-- Fields of page `dis` (R334). -/
def pageDis : Page := { base := 0x110400, cnt := 1, stride := 0x0, regs := [
    ⟨0x0, 1, 0x0, false, [⟨0, 4, .rwv, .rws, some (1, 15), false, false⟩, ⟨8, 4, .rwv, .rws, some (1, 15), false, false⟩, ⟨16, 16, .rwv, .rws, some (1, 65535), false, false⟩]⟩,
    ⟨0x4, 1, 0x0, false, [⟨0, 1, .ro, .ro, none, false, false⟩, ⟨8, 8, .ro, .ro, none, false, false⟩, ⟨16, 11, .ro, .ro, none, false, false⟩]⟩,
    ⟨0x8, 1, 0x0, false, [⟨0, 1, .w1c, .w1c, none, false, false⟩, ⟨1, 1, .w1c, .w1c, none, false, false⟩, ⟨2, 1, .w1c, .w1c, none, false, false⟩, ⟨3, 1, .w1c, .w1c, none, false, false⟩, ⟨4, 1, .w1c, .w1c, none, false, false⟩, ⟨5, 1, .w1c, .w1c, none, false, false⟩, ⟨6, 1, .w1c, .w1c, none, false, false⟩, ⟨7, 1, .w1c, .w1c, none, false, false⟩]⟩,
    ⟨0xc, 1, 0x0, false, [⟨0, 5, .rw, .rw, none, false, false⟩]⟩,
    ⟨0x10, 8, 0x4, false, [⟨0, 32, .rw, .rw, none, false, false⟩]⟩,
    ⟨0x30, 1, 0x0, false, [⟨0, 3, .wo, .wo, none, false, false⟩, ⟨6, 5, .wo, .wo, none, false, false⟩, ⟨11, 1, .wo, .wo, none, false, false⟩, ⟨16, 10, .wo, .wo, none, false, false⟩]⟩,
    ⟨0x34, 1, 0x0, false, [⟨0, 1, .ro, .ro, none, false, false⟩, ⟨1, 3, .ro, .ro, none, false, false⟩, ⟨16, 10, .ro, .ro, none, false, false⟩]⟩] }

/-- Fields of page `dle` (R334). -/
def pageDle : Page := { base := 0x112000, cnt := 32, stride := 0x20, regs := [
    ⟨0x0, 1, 0x0, false, [⟨0, 32, .ro, .ro, none, false, false⟩]⟩,
    ⟨0x4, 1, 0x0, false, [⟨0, 32, .ro, .ro, none, false, false⟩]⟩,
    ⟨0x8, 1, 0x0, false, [⟨0, 32, .ro, .ro, none, false, false⟩]⟩,
    ⟨0xc, 1, 0x0, false, [⟨0, 4, .ro, .ro, none, false, false⟩, ⟨4, 4, .ro, .ro, none, false, false⟩, ⟨8, 4, .ro, .ro, none, false, false⟩, ⟨12, 4, .ro, .ro, none, false, false⟩, ⟨16, 9, .ro, .ro, none, false, false⟩]⟩,
    ⟨0x10, 1, 0x0, false, [⟨0, 32, .ro, .ro, none, false, false⟩]⟩,
    ⟨0x14, 1, 0x0, false, [⟨0, 32, .ro, .ro, none, false, false⟩]⟩,
    ⟨0x18, 1, 0x0, false, [⟨0, 1, .ro, .ro, none, false, false⟩, ⟨1, 1, .ro, .ro, none, false, false⟩, ⟨2, 1, .ro, .ro, none, false, false⟩, ⟨3, 1, .ro, .ro, none, false, false⟩]⟩] }

/-- Fields of page `df` (R334). -/
def pageDf : Page := { base := 0x113000, cnt := 16, stride := 0x20, regs := [
    ⟨0x0, 1, 0x0, false, [⟨0, 32, .ro, .ro, none, false, false⟩]⟩,
    ⟨0x4, 1, 0x0, false, [⟨0, 32, .ro, .ro, none, false, false⟩]⟩,
    ⟨0x8, 1, 0x0, false, [⟨0, 32, .ro, .ro, none, false, false⟩]⟩,
    ⟨0xc, 1, 0x0, false, [⟨0, 32, .ro, .ro, none, false, false⟩]⟩] }

/-- Fields of page `dd` (R334). -/
def pageDd : Page := { base := 0x118000, cnt := 1024, stride := 0x20, regs := [
    ⟨0x0, 1, 0x0, false, [⟨0, 32, .ro, .ro, none, false, false⟩]⟩,
    ⟨0x4, 1, 0x0, false, [⟨0, 32, .ro, .ro, none, false, false⟩]⟩,
    ⟨0x8, 1, 0x0, false, [⟨0, 32, .ro, .ro, none, false, false⟩]⟩,
    ⟨0xc, 1, 0x0, false, [⟨0, 32, .ro, .ro, none, false, false⟩]⟩,
    ⟨0x10, 1, 0x0, false, [⟨0, 32, .ro, .ro, none, false, false⟩]⟩,
    ⟨0x14, 1, 0x0, false, [⟨0, 32, .ro, .ro, none, false, false⟩]⟩,
    ⟨0x18, 1, 0x0, false, [⟨0, 5, .ro, .ro, none, false, false⟩, ⟨8, 5, .ro, .ro, none, false, false⟩, ⟨16, 16, .ro, .ro, none, false, false⟩]⟩,
    ⟨0x1c, 1, 0x0, false, [⟨0, 32, .ro, .ro, none, false, false⟩]⟩] }

/-- Fields of page `le` (R375). -/
def pageLe : Page := { base := 0x120000, cnt := 32, stride := 0x1000, regs := [
    ⟨0x4, 1, 0x0, false, [⟨0, 32, .ro, .ro, none, false, false⟩]⟩,
    ⟨0x3fc, 1, 0x0, false, [⟨0, 24, .ro, .ro, none, false, false⟩]⟩,
    ⟨0x400, 1, 0x0, false, [⟨0, 1, .rwv, .rws, none, false, false⟩]⟩,
    ⟨0x404, 1, 0x0, false, [⟨0, 1, .ro, .ro, none, false, false⟩, ⟨1, 1, .ro, .ro, none, false, false⟩, ⟨2, 1, .ro, .ro, none, false, false⟩, ⟨3, 1, .ro, .ro, none, false, false⟩, ⟨4, 1, .ro, .ro, none, false, false⟩, ⟨8, 1, .w1c, .w1c, none, false, false⟩, ⟨9, 1, .w1c, .w1c, none, false, false⟩, ⟨10, 1, .w1c, .w1c, none, false, false⟩, ⟨11, 1, .w1c, .w1c, none, false, false⟩, ⟨16, 8, .ro, .ro, none, false, false⟩]⟩,
    ⟨0x408, 1, 0x0, false, [⟨0, 1, .rwl, .rwl, none, false, false⟩, ⟨1, 1, .rwl, .rwl, none, false, false⟩]⟩,
    ⟨0x40c, 1, 0x0, false, [⟨0, 16, .ro, .ro, none, false, false⟩, ⟨16, 10, .ro, .ro, none, false, false⟩, ⟨31, 1, .ro, .ro, none, false, false⟩]⟩,
    ⟨0x410, 1, 0x0, false, [⟨0, 16, .ro, .ro, none, false, false⟩, ⟨16, 10, .ro, .ro, none, false, false⟩]⟩,
    ⟨0x414, 1, 0x0, false, [⟨0, 32, .ro, .ro, none, false, false⟩]⟩,
    ⟨0x418, 1, 0x0, false, [⟨0, 32, .ro, .ro, none, false, false⟩]⟩] }

/-- Fields of page `cap` (R426). -/
def pageCap : Page := { base := 0x140000, cnt := 1, stride := 0x0, regs := [
    ⟨0x0, 1, 0x0, false, [⟨0, 8, .rwv, .rwv, none, false, false⟩, ⟨8, 8, .rwv, .rwv, none, false, false⟩]⟩,
    ⟨0x3fc, 1, 0x0, false, [⟨0, 24, .ro, .ro, none, false, false⟩]⟩,
    ⟨0x400, 1, 0x0, false, [⟨0, 8, .ro, .ro, none, false, false⟩, ⟨8, 1, .w1c, .w1c, none, false, false⟩, ⟨9, 1, .w1c, .w1c, none, false, false⟩, ⟨10, 1, .w1c, .w1c, none, false, false⟩, ⟨11, 1, .w1c, .w1c, none, false, false⟩, ⟨12, 1, .w1c, .w1c, none, false, false⟩, ⟨13, 1, .ro, .ro, none, false, false⟩]⟩,
    ⟨0x404, 1, 0x0, false, [⟨0, 16, .rwl, .rwl, none, false, false⟩, ⟨16, 16, .rwl, .rwl, none, false, false⟩]⟩,
    ⟨0x800, 1, 0x0, false, [⟨0, 6, .wo, .wo, none, false, false⟩, ⟨8, 4, .wo, .wo, none, false, false⟩, ⟨12, 1, .wo, .wo, none, false, false⟩, ⟨16, 1, .wo, .wo, none, false, false⟩]⟩,
    ⟨0x804, 1, 0x0, false, [⟨0, 32, .rw, .rw, none, false, false⟩]⟩,
    ⟨0x808, 1, 0x0, false, [⟨0, 32, .rw, .rw, none, false, false⟩]⟩,
    ⟨0x80c, 1, 0x0, false, [⟨0, 32, .win, .win, none, false, false⟩]⟩,
    ⟨0x810, 1, 0x0, false, [⟨0, 1, .ro, .ro, none, false, false⟩, ⟨1, 1, .ro, .ro, none, false, false⟩, ⟨2, 1, .ro, .ro, none, false, false⟩, ⟨16, 16, .ro, .ro, none, false, false⟩]⟩] }

/-- Fields of page `capg` (R426). -/
def pageCapg : Page := { base := 0x140500, cnt := 8, stride := 0x40, regs := [
    ⟨0x0, 1, 0x0, false, [⟨0, 1, .wo, .wo, none, false, false⟩, ⟨1, 1, .wo, .wo, none, false, false⟩, ⟨2, 1, .wo, .wo, none, false, false⟩]⟩,
    ⟨0x4, 1, 0x0, false, [⟨0, 1, .rwl, .rwl, none, false, false⟩, ⟨1, 3, .rwl, .rwl, none, false, false⟩, ⟨4, 2, .rwl, .rwl, none, false, false⟩, ⟨6, 6, .rwl, .rwl, none, false, false⟩, ⟨12, 3, .rwl, .rwl, none, false, false⟩, ⟨16, 2, .rwl, .rwl, none, false, false⟩, ⟨18, 1, .rwl, .rwl, none, false, false⟩]⟩,
    ⟨0x8, 1, 0x0, false, [⟨0, 32, .rwl, .rwl, none, false, false⟩]⟩,
    ⟨0xc, 1, 0x0, false, [⟨0, 32, .rwl, .rwl, none, false, false⟩]⟩,
    ⟨0x10, 1, 0x0, true, [⟨0, 64, .rwl, .rwl, none, false, false⟩]⟩,
    ⟨0x18, 1, 0x0, true, [⟨0, 64, .rwl, .rwl, none, false, false⟩]⟩,
    ⟨0x20, 1, 0x0, true, [⟨0, 64, .rwl, .rwl, none, false, false⟩]⟩,
    ⟨0x28, 1, 0x0, false, [⟨0, 3, .ro, .ro, none, false, false⟩, ⟨3, 1, .ro, .ro, none, false, false⟩, ⟨4, 4, .ro, .ro, none, false, false⟩, ⟨8, 3, .ro, .ro, none, false, false⟩]⟩,
    ⟨0x2c, 1, 0x0, true, [⟨0, 64, .ro, .ro, none, false, false⟩]⟩,
    ⟨0x34, 1, 0x0, false, [⟨0, 32, .ro, .ro, none, false, false⟩]⟩,
    ⟨0x38, 1, 0x0, true, [⟨0, 64, .ro, .ro, none, false, false⟩]⟩] }

/-- Fields of page `capc` (R426). -/
def pageCapc : Page := { base := 0x141000, cnt := 64, stride := 0x40, regs := [
    ⟨0x0, 1, 0x0, false, [⟨0, 3, .rwl, .rwl, none, false, false⟩, ⟨3, 1, .rwl, .rwl, none, false, false⟩, ⟨4, 4, .rwl, .rwl, none, false, false⟩, ⟨8, 8, .rwl, .rwl, none, false, false⟩, ⟨16, 3, .rwl, .rwl, none, false, false⟩, ⟨19, 1, .rwl, .rwl, none, false, false⟩, ⟨20, 5, .rwl, .rwl, none, false, false⟩]⟩,
    ⟨0x4, 1, 0x0, false, [⟨0, 32, .rwl, .rwl, none, false, false⟩]⟩,
    ⟨0x8, 1, 0x0, false, [⟨0, 32, .rwl, .rwl, none, false, false⟩]⟩,
    ⟨0xc, 1, 0x0, false, [⟨0, 32, .rwl, .rwl, none, false, false⟩]⟩,
    ⟨0x10, 1, 0x0, false, [⟨0, 5, .ro, .ro, none, false, false⟩, ⟨5, 1, .ro, .ro, none, false, false⟩, ⟨6, 1, .w1c, .w1c, none, false, false⟩, ⟨7, 1, .ro, .ro, none, false, false⟩]⟩,
    ⟨0x14, 1, 0x0, false, [⟨0, 32, .ro, .ro, none, false, false⟩]⟩,
    ⟨0x18, 1, 0x0, false, [⟨0, 32, .ro, .ro, none, false, false⟩]⟩,
    ⟨0x1c, 1, 0x0, false, [⟨0, 32, .ro, .ro, none, false, false⟩]⟩,
    ⟨0x20, 1, 0x0, false, [⟨0, 32, .ro, .ro, none, false, false⟩]⟩,
    ⟨0x24, 1, 0x0, false, [⟨0, 16, .ro, .ro, none, false, false⟩]⟩] }

/-- Fields of page `ptn` (R459). -/
def pagePtn : Page := { base := 0x150000, cnt := 1, stride := 0x0, regs := [
    ⟨0x0, 1, 0x0, false, [⟨0, 1, .rwv, .rwv, none, false, false⟩]⟩,
    ⟨0x3fc, 1, 0x0, false, [⟨0, 24, .ro, .ro, none, false, false⟩]⟩,
    ⟨0x400, 1, 0x0, false, [⟨0, 1, .wo, .wo, none, false, false⟩, ⟨1, 1, .wo, .wo, none, false, false⟩]⟩,
    ⟨0x404, 1, 0x0, false, [⟨0, 2, .ro, .ro, none, false, false⟩, ⟨2, 1, .ro, .ro, none, false, false⟩, ⟨3, 1, .ro, .ro, none, false, false⟩, ⟨4, 1, .ro, .ro, none, false, false⟩, ⟨5, 1, .ro, .ro, none, false, false⟩, ⟨6, 1, .ro, .ro, none, false, false⟩, ⟨7, 1, .ro, .ro, none, false, false⟩, ⟨8, 1, .ro, .ro, none, false, false⟩, ⟨9, 1, .ro, .ro, none, false, false⟩, ⟨16, 4, .ro, .ro, none, false, false⟩]⟩,
    ⟨0x408, 1, 0x0, false, [⟨0, 1, .w1c, .w1c, none, false, false⟩, ⟨1, 1, .w1c, .w1c, none, false, false⟩, ⟨2, 1, .w1c, .w1c, none, false, false⟩, ⟨3, 1, .w1c, .w1c, none, false, false⟩, ⟨4, 1, .w1c, .w1c, none, false, false⟩, ⟨5, 1, .w1c, .w1c, none, false, false⟩, ⟨6, 1, .w1c, .w1c, none, false, false⟩, ⟨7, 1, .w1c, .w1c, none, false, false⟩, ⟨8, 1, .w1c, .w1c, none, false, false⟩, ⟨9, 1, .w1c, .w1c, none, false, false⟩]⟩,
    ⟨0x40c, 1, 0x0, false, [⟨0, 32, .ro, .ro, none, false, false⟩]⟩,
    ⟨0x410, 1, 0x0, true, [⟨0, 64, .ro, .ro, none, false, false⟩]⟩,
    ⟨0x418, 1, 0x0, false, [⟨0, 16, .ro, .ro, none, false, false⟩]⟩,
    ⟨0x41c, 1, 0x0, false, [⟨0, 16, .ro, .ro, none, false, false⟩, ⟨16, 16, .ro, .ro, none, false, false⟩]⟩,
    ⟨0x420, 1, 0x0, false, [⟨0, 32, .ro, .ro, none, false, false⟩]⟩,
    ⟨0x424, 1, 0x0, false, [⟨0, 32, .rws, .rws, none, false, false⟩]⟩,
    ⟨0x428, 1, 0x0, false, [⟨0, 32, .ro, .ro, none, false, false⟩]⟩,
    ⟨0x42c, 1, 0x0, false, [⟨0, 32, .ro, .ro, none, false, false⟩]⟩,
    ⟨0x430, 1, 0x0, false, [⟨0, 32, .ro, .ro, none, false, false⟩]⟩,
    ⟨0x434, 1, 0x0, false, [⟨0, 32, .ro, .ro, none, false, false⟩]⟩,
    ⟨0x438, 1, 0x0, false, [⟨0, 32, .ro, .ro, none, false, false⟩]⟩] }

/-- Fields of page `saf` (R487). -/
def pageSaf : Page := { base := 0x160000, cnt := 1, stride := 0x0, regs := [
    ⟨0x0, 1, 0x0, false, [⟨0, 1, .ro, .ro, none, false, false⟩, ⟨1, 1, .ro, .ro, none, false, false⟩, ⟨2, 1, .ro, .ro, none, false, false⟩, ⟨3, 1, .ro, .ro, none, false, false⟩, ⟨4, 1, .ro, .ro, none, false, false⟩, ⟨5, 1, .ro, .ro, none, false, false⟩, ⟨6, 1, .ro, .ro, none, false, false⟩]⟩,
    ⟨0x4, 1, 0x0, false, [⟨0, 1, .w1c, .w1c, none, false, false⟩, ⟨1, 1, .w1c, .w1c, none, false, false⟩, ⟨2, 1, .w1c, .w1c, none, false, false⟩, ⟨3, 1, .w1c, .w1c, none, false, false⟩, ⟨4, 1, .w1c, .w1c, none, false, false⟩, ⟨5, 1, .w1c, .w1c, none, false, false⟩]⟩,
    ⟨0x8, 1, 0x0, false, [⟨0, 16, .ro, .ro, none, false, false⟩, ⟨16, 16, .ro, .ro, none, false, false⟩]⟩,
    ⟨0xc, 1, 0x0, false, [⟨0, 16, .ro, .ro, none, false, false⟩, ⟨16, 16, .ro, .ro, none, false, false⟩]⟩,
    ⟨0x10, 1, 0x0, false, [⟨0, 8, .ro, .ro, none, false, false⟩, ⟨8, 8, .ro, .ro, none, false, false⟩, ⟨16, 8, .ro, .ro, none, false, false⟩]⟩,
    ⟨0x14, 1, 0x0, false, [⟨0, 32, .ro, .ro, none, false, false⟩]⟩,
    ⟨0x18, 1, 0x0, false, [⟨0, 32, .ro, .ro, none, false, false⟩]⟩,
    ⟨0x1c, 1, 0x0, false, [⟨0, 32, .ro, .ro, none, false, false⟩]⟩,
    ⟨0x20, 1, 0x0, false, [⟨0, 32, .ro, .ro, none, false, false⟩]⟩,
    ⟨0x24, 1, 0x0, false, [⟨0, 16, .ro, .ro, none, false, false⟩, ⟨16, 16, .ro, .ro, none, false, false⟩]⟩,
    ⟨0x28, 1, 0x0, false, [⟨0, 8, .ro, .ro, none, false, false⟩, ⟨8, 1, .ro, .ro, none, false, false⟩, ⟨9, 1, .ro, .ro, none, false, false⟩]⟩,
    ⟨0x3fc, 1, 0x0, false, [⟨0, 32, .ro, .ro, none, false, false⟩]⟩] }

/-- Fields of page `safs` (R487). -/
def pageSafs : Page := { base := 0x160100, cnt := 8, stride := 0x8, regs := [
    ⟨0x0, 1, 0x0, true, [⟨0, 64, .ro, .ro, none, false, false⟩]⟩] }

/-- Fields of page `safx` (R487). -/
def pageSafx : Page := { base := 0x160140, cnt := 8, stride := 0x8, regs := [
    ⟨0x0, 1, 0x0, true, [⟨0, 64, .ro, .ro, none, false, false⟩]⟩] }

/-- Fields of page `fldv` (R502). -/
def pageFldv : Page := { base := 0x1703fc, cnt := 1, stride := 0x0, regs := [
    ⟨0x0, 1, 0x0, false, [⟨0, 24, .ro, .ro, none, false, false⟩]⟩] }

/-- Fields of page `fld` (R502). -/
def pageFld : Page := { base := 0x170400, cnt := 1, stride := 0x0, regs := [
    ⟨0x0, 1, 0x0, false, [⟨0, 4, .rwv, .rws, none, false, false⟩, ⟨4, 2, .rwv, .rws, none, false, false⟩]⟩,
    ⟨0x4, 1, 0x0, false, [⟨0, 1, .ro, .ro, none, false, false⟩, ⟨1, 1, .w1c, .w1c, none, false, false⟩, ⟨2, 1, .ro, .ro, none, false, false⟩, ⟨3, 1, .ro, .ro, none, false, false⟩, ⟨4, 1, .w1c, .w1c, none, false, false⟩, ⟨5, 1, .ro, .ro, none, false, false⟩]⟩,
    ⟨0x8, 1, 0x0, false, [⟨0, 32, .ro, .ro, none, false, false⟩]⟩,
    ⟨0xc, 1, 0x0, false, [⟨0, 32, .ro, .ro, none, false, false⟩]⟩,
    ⟨0x10, 1, 0x0, false, [⟨0, 16, .rwv, .rws, none, false, false⟩]⟩,
    ⟨0x14, 1, 0x0, false, [⟨0, 16, .ro, .ro, none, false, false⟩]⟩,
    ⟨0x18, 1, 0x0, false, [⟨0, 32, .rw, .rw, none, false, false⟩]⟩,
    ⟨0x1c, 1, 0x0, false, [⟨0, 20, .rw, .rw, none, false, false⟩]⟩,
    ⟨0x20, 1, 0x0, false, [⟨0, 32, .rwv, .rws, none, false, false⟩]⟩,
    ⟨0x24, 1, 0x0, false, [⟨0, 32, .w1c, .w1c, none, false, false⟩]⟩,
    ⟨0x28, 1, 0x0, false, [⟨0, 32, .wo, .wo, none, false, false⟩]⟩,
    ⟨0x2c, 1, 0x0, false, [⟨0, 16, .ro, .rwl, none, false, false⟩, ⟨16, 16, .ro, .rwl, none, false, false⟩]⟩,
    ⟨0x40, 4, 0x4, false, [⟨0, 1, .ro, .rwl, none, false, false⟩, ⟨8, 8, .ro, .rwl, none, false, false⟩, ⟨16, 8, .ro, .rwl, none, false, false⟩]⟩,
    ⟨0x60, 2, 0x4, false, [⟨0, 4, .ro, .rwl, none, false, false⟩, ⟨8, 8, .ro, .rwl, none, false, false⟩, ⟨16, 8, .ro, .rwl, none, false, false⟩]⟩] }

/-- Fields of page `scp` (R567). -/
def pageScp : Page := { base := 0x180000, cnt := 1, stride := 0x0, regs := [
    ⟨0x0, 1, 0x0, false, [⟨0, 1, .ro, .ro, none, false, false⟩, ⟨1, 1, .ro, .ro, none, false, false⟩, ⟨2, 1, .ro, .ro, none, false, false⟩, ⟨3, 1, .w1c, .w1c, none, false, false⟩, ⟨4, 1, .w1c, .w1c, none, false, false⟩]⟩,
    ⟨0x4, 1, 0x0, true, [⟨0, 48, .ro, .ro, none, false, false⟩]⟩,
    ⟨0xc, 1, 0x0, false, [⟨0, 32, .ro, .ro, none, false, false⟩]⟩,
    ⟨0x10, 1, 0x0, false, [⟨0, 32, .ro, .ro, none, false, false⟩]⟩,
    ⟨0x14, 1, 0x0, false, [⟨0, 32, .ro, .ro, none, false, false⟩]⟩,
    ⟨0x18, 1, 0x0, false, [⟨0, 9, .ro, .ro, none, false, false⟩, ⟨16, 9, .ro, .ro, none, false, false⟩]⟩,
    ⟨0x20, 1, 0x0, true, [⟨0, 64, .rw, .rw, none, false, false⟩]⟩,
    ⟨0x28, 1, 0x0, false, [⟨0, 1, .wo, .wo, none, false, false⟩]⟩,
    ⟨0x2c, 1, 0x0, false, [⟨0, 1, .ro, .ro, none, false, false⟩, ⟨1, 1, .ro, .ro, none, false, false⟩, ⟨2, 1, .ro, .ro, none, false, false⟩, ⟨3, 1, .ro, .ro, none, false, false⟩]⟩,
    ⟨0x40, 16, 0x4, false, [⟨0, 32, .ro, .ro, none, false, false⟩]⟩,
    ⟨0x80, 1, 0x0, false, [⟨0, 32, .rw, .rw, none, false, false⟩]⟩,
    ⟨0x84, 1, 0x0, false, [⟨0, 32, .rw, .rw, none, false, false⟩]⟩,
    ⟨0x88, 1, 0x0, false, [⟨0, 16, .wo, .wo, none, false, false⟩, ⟨16, 2, .wo, .wo, none, false, false⟩]⟩,
    ⟨0x3fc, 1, 0x0, false, [⟨0, 32, .ro, .ro, none, false, false⟩]⟩] }

/-- Fields of page `cpr` (R593). -/
def pageCpr : Page := { base := 0x190000, cnt := 1, stride := 0x0, regs := [
    ⟨0x0, 1, 0x0, false, [⟨0, 1, .ro, .ro, none, false, false⟩, ⟨1, 1, .ro, .ro, none, false, false⟩, ⟨2, 5, .ro, .ro, none, false, false⟩, ⟨7, 1, .ro, .ro, none, false, false⟩, ⟨8, 1, .ro, .ro, none, false, false⟩, ⟨9, 1, .ro, .ro, none, false, false⟩]⟩,
    ⟨0x4, 1, 0x0, false, [⟨0, 8, .ro, .ro, none, false, false⟩, ⟨8, 8, .ro, .ro, none, false, false⟩]⟩,
    ⟨0x8, 1, 0x0, false, [⟨0, 12, .ro, .ro, none, false, false⟩, ⟨16, 12, .ro, .ro, none, false, false⟩]⟩,
    ⟨0xc, 1, 0x0, false, [⟨0, 12, .ro, .ro, none, false, false⟩]⟩,
    ⟨0x10, 1, 0x0, false, [⟨0, 32, .ro, .ro, none, false, false⟩]⟩,
    ⟨0x14, 1, 0x0, false, [⟨0, 16, .ro, .ro, none, false, false⟩]⟩,
    ⟨0x18, 1, 0x0, false, [⟨0, 32, .ro, .ro, none, false, false⟩]⟩,
    ⟨0x1c, 1, 0x0, false, [⟨0, 8, .ro, .ro, none, false, false⟩, ⟨8, 8, .ro, .ro, none, false, false⟩]⟩,
    ⟨0x20, 1, 0x0, false, [⟨0, 32, .ro, .ro, none, false, false⟩]⟩,
    ⟨0x24, 1, 0x0, false, [⟨0, 3, .ro, .ro, none, false, false⟩]⟩,
    ⟨0x28, 1, 0x0, false, [⟨0, 16, .ro, .ro, none, false, false⟩]⟩,
    ⟨0x2c, 1, 0x0, false, [⟨0, 16, .rw, .rw, none, false, false⟩]⟩,
    ⟨0x30, 1, 0x0, false, [⟨0, 1, .w1c, .w1c, none, false, false⟩, ⟨1, 1, .w1c, .w1c, none, false, false⟩, ⟨2, 1, .w1c, .w1c, none, false, false⟩, ⟨3, 1, .w1c, .w1c, none, false, false⟩, ⟨4, 1, .w1c, .w1c, none, false, false⟩, ⟨5, 1, .w1c, .w1c, none, false, false⟩]⟩,
    ⟨0x34, 1, 0x0, false, [⟨0, 1, .wo, .wo, none, false, false⟩]⟩,
    ⟨0x3fc, 1, 0x0, false, [⟨0, 32, .ro, .ro, none, false, false⟩]⟩] }

/-- Fields of page `tru` (R76). -/
def pageTru : Page := { base := 0x1a0000, cnt := 1, stride := 0x0, regs := [
    ⟨0x0, 1, 0x0, false, [⟨0, 1, .ro, .ro, none, false, false⟩, ⟨1, 1, .ro, .ro, none, false, false⟩, ⟨2, 1, .ro, .ro, none, false, false⟩, ⟨3, 1, .ro, .ro, none, false, false⟩, ⟨4, 1, .ro, .ro, none, false, false⟩, ⟨5, 1, .ro, .ro, none, false, false⟩, ⟨6, 1, .w1c, .w1c, none, false, false⟩, ⟨8, 8, .ro, .ro, none, false, false⟩, ⟨16, 2, .ro, .ro, none, false, false⟩]⟩,
    ⟨0x4, 1, 0x0, false, [⟨0, 32, .ro, .ro, none, false, false⟩]⟩,
    ⟨0x8, 1, 0x0, false, [⟨0, 7, .ro, .ro, none, false, false⟩]⟩,
    ⟨0xc, 1, 0x0, false, [⟨0, 32, .ro, .ro, none, false, false⟩]⟩,
    ⟨0x10, 1, 0x0, false, [⟨0, 8, .ro, .ro, none, false, false⟩, ⟨8, 1, .ro, .ro, none, false, false⟩]⟩,
    ⟨0x14, 1, 0x0, false, [⟨0, 32, .ro, .ro, none, false, false⟩]⟩,
    ⟨0x40, 8, 0x4, false, [⟨0, 32, .ro, .ro, none, false, false⟩]⟩,
    ⟨0x60, 1, 0x0, false, [⟨0, 1, .wo, .wo, none, false, false⟩, ⟨1, 1, .wo, .wo, none, false, false⟩, ⟨2, 1, .wo, .wo, none, false, false⟩, ⟨3, 1, .wo, .wo, none, false, false⟩, ⟨4, 1, .wo, .wo, none, false, false⟩]⟩,
    ⟨0x80, 1, 0x0, false, [⟨0, 32, .win, .win, none, false, false⟩]⟩] }

/-- Every register page of the host address map (R515, Table 17.4). -/
def pages : List Page := [pageDev, pageDck, pageFlt, pageMb, pageHst, pageSnp, pageIrq, pageIrqs, pageFw, pageAng, pageAngv, pageEvt, pageAch, pageAcap, pagePltb, pagePlt, pagePltp, pagePltq, pagePlts, pageSeg, pageAx, pageFb, pageFbnv, pageFbn, pageFbns, pageDisb, pageDis, pageDle, pageDf, pageDd, pageLe, pageCap, pageCapg, pageCapc, pagePtn, pageSaf, pageSafs, pageSafx, pageFldv, pageFld, pageScp, pageCpr, pageTru]

end Sys2Proof.Machine
end

