-- ==== Sys2Proof/Machine/BlockCore.lean ====
section
/-!
DEFINITION. The parts of the state that no single function owns: register writes awaiting their boundary, the trust
unit, the scorepad, the host port, the plant unit, clocks and resets. Every structure is plain data.
-/

namespace Sys2Proof.Machine

/-- An RWV write pending in the Dealer's validation queue (R103): the home register, the value written, the RWV fields it carries,
the VSTAT register of the function and the page offset VSTAT shows. -/
structure VWrite where
  addr : Nat
  value : Nat
  flds : List Fld
  vstat : Nat
  off : Nat
  deriving DecidableEq, Repr

/-- A field value that passed validation and awaits its commit boundary (R103, R104). -/
structure VField where
  fld : Fld
  value : Nat
  ss : Bool
  vstat : Nat
  off : Nat
  deriving DecidableEq, Repr

/-- A scorepad event with its stamps (R555, R561) and its repeat words (R562). -/
structure ScpEvent where
  code : Nat
  level : Nat
  timeOk : Bool
  angOk : Bool
  host : Bool
  delayed : Bool
  opsec : Nat
  pcyc : Nat
  round : Nat
  ptime : Nat
  angle : Nat
  arg0 : Nat
  arg1 : Nat
  repCnt : Nat
  repSec : Nat
  deriving DecidableEq, Repr

/-- The volatile side of the scorepad: the event queue in Dealer SRAM (R561), the newest written entry with a pending repeat update
(R562), events discarded since the last record 0x0004 (R563), when a host record was last accepted (R565) and an entry last written
(R561). -/
structure ScpUnit where
  queue : List ScpEvent
  newest : Option (Nat × ScpEvent)
  repDirty : Bool
  lostSince : Nat
  lastHost : Option Nat
  wroteAt : Option Nat
  readSeq : Option Nat
  deriving DecidableEq, Repr

/-- The data registers the JTAG TAP offers while locked (R70). -/
inductive TapReg where
  | idcode | bypass | challenge | token
  deriving DecidableEq, Repr

/-- The trust unit (chapter 2): policy tables in force, when the host port's challenge was made, the debug port's challenge
with its time, TRU_FIFO and how many quote words it still holds, the token being verified with the challenge of its
port, the debug unlock in force, the quote nonce, the quote's bytes once a boundary has fixed them, the data register the TAP has
selected. -/
structure Trust where
  loaded : Bool
  policy : List PolicyBlock
  hostChal : Option Nat
  dbgChal : Option (List Word × Nat)
  fifo : List Word
  quoteLeft : Nat
  token : Option (List Word × Option (List Word))
  unlock : Option Nat
  nonce : Option (List Word)
  quoteBody : List Byte
  tap : TapReg
  deriving DecidableEq, Repr

/-- Mailbox (R516): the command awaiting arguments or running, its words so far, the reply words. -/
structure Mailbox where
  code : Nat
  len : Nat
  args : List Word
  running : Bool
  waiting : Bool
  reply : List Word
  deriving DecidableEq, Repr

/-- Which pages a deck leaves out: the axes that exist, the odd ports of rings, the axes with LAW 2, whose microcode words stand in
place of registers (03_deck.md R87, 07_axis_loop_law.md R253). -/
structure Layout where
  axes : List Nat
  odd : List Nat
  raw : List Nat
  deriving DecidableEq, Repr

/-- A snapshot image (R528): its words by BAR0 offset, unlisted offsets reading their reset value; the domains off at its boundary,
one bit each; the layout then in force. -/
structure Image where
  live : Bool
  words : List (Nat × Word)
  off : Nat
  layout : Layout
  deriving DecidableEq, Repr

/-- A PCIe configuration request (R510, R526): a read of the Command and Status word, a write of the Command register, of BAR0, of
the power state. -/
inductive CfgReq where
  | read
  | command (memEnable intDisable : Bool)
  | bar0 (base : Word)
  | power (d3hot : Bool)
  deriving DecidableEq, Repr

/-- PCIe endpoint (R510 to R512, R526). -/
structure Pcie where
  intDisable : Bool
  memEnable : Bool
  d3hot : Bool
  bar0 : Nat
  deriving DecidableEq, Repr

/-- The host port: mailbox, sixteen FIFO windows, snapshot images, the PCIe endpoint. -/
structure HostPort where
  mb : Mailbox
  fw : Vector (List Word) 16
  images : Vector Image 2
  writing : Option Nat
  gen : Nat
  tags : Nat × Nat × Nat × Nat
  pcie : Pcie
  deriving DecidableEq, Repr

/-- A launch-time queue entry (R545). -/
structure QEntry where
  slot : Nat
  lt : Nat
  stamp : Bool
  ofs : Nat
  deriving DecidableEq, Repr

/-- A line-angle message but for its tag (Table 18.5). -/
structure LaMsg where
  magic : Nat
  ver : Nat
  flags : Nat
  serial : Nat
  salt : Nat
  seq : Nat
  time : Nat
  tfrac : Nat
  angle : Nat
  rate : Nat
  deriving DecidableEq, Repr

/-- What a plant port last sent. Times are in 2^-32 ns. -/
inductive TxMsg where
  | sync (origin : Int) (seq : Nat)
  | delayReq (egress : Int)
  | delayResp (source : Nat) (ingress : Int)
  | pdelayReq (egress : Int)
  | pdelayResp (source : Nat) (turnaround : Int)
  | announce (identity stepsRemoved clockClass accuracy variance priority1 priority2 timeSource : Nat)
  | lineAngle (dest udp : Nat) (msg : LaMsg) (tag : BitVec 128)
  | frame (bytes : List Byte)
  deriving DecidableEq, Repr

/-- The PTP engine of a port; times in 2^-32 ns: the source obeyed (R533), the ingress of a two-step Sync, the egress
of the last Delay_Req, Sync ingress minus origin, the egress of the last Pdelay_Req, receipt times of a two-step
Pdelay_Resp, the times the rate ratio compares, Announce received, messages sent, the last one sent; and in ns since power-up when the last
Sync was accepted or its receipt time-out declared, and when Sync, Announce and Pdelay_Req were last sent. -/
structure PtpPort where
  source : Option Nat
  twoStep : Option (Nat × Int)
  reqSent : Option Int
  syncDiff : Int
  pdSent : Option Int
  pdResp : Option (Int × Int)
  ratioAt : Option (Int × Int)
  announces : Nat
  seq : Nat
  lastTx : Option TxMsg
  heardAt : Nat
  syncAt : Option Nat
  announceAt : Option Nat
  pdelayAt : Option Nat
  deriving DecidableEq, Repr

/-- The plant unit: the servo's integral term (2^-40), its counts of consecutive measurements, the last rates, the step
awaiting a boundary (R537 to R541), line-angle messages (R549, R550), launch queues (R545), the two ports. -/
structure Plant where
  ri : Int
  inRange : Nat
  outRange : Nat
  backRange : Nat
  rates : List Int
  step : Option Int
  laSeq : Nat
  laSalt : Nat
  laLast : List (Nat × Nat)
  queues : Vector (List QEntry) 8
  ports : Vector PtpPort 2
  deriving DecidableEq, Repr

/-- Clock monitor, power controller and reset logic of PD0 (chapter 20): sources declared failed, in order; the declaration whose
asynchronous reset is due; sources odd in the last window; the RC oscillator odd in the last check; windows in a row in which the
reference was stable, and its last count; good windows of each PLL, and when the PLLs were started (R574); since when failed sources are
good again; restarts made; the RC oscillator failed for good; pins low and since when; a device reset due; gates waiting to close; domains
waiting to switch, and whether on; sources owed from while PD11 was off (R594); the Dealer on the RC oscillator; the cause of the reset in
force; the temperature above its threshold; domains ordered onto the RC oscillator (R577). -/
structure Pd0 where
  failed : List Nat
  declaredAt : Option Nat
  oddWindows : List Nat
  rcOdd : Bool
  stable : Nat
  lastCount : Nat
  pllGood : List (Nat × Nat)
  pllsAt : Option Nat
  goodSince : Option Nat
  restarts : List Nat
  rcDead : Bool
  porst : Bool
  resetN : Bool
  resetLow : Option Nat
  devResetAt : Option Nat
  gatePend : List Nat
  switching : List (Nat × Bool)
  owed : List Nat
  dealerRc : Bool
  pendCause : Nat
  tempHigh : Bool
  mux : List Nat
  deriving DecidableEq, Repr

/-- Start-up (Table 1.6): released from reset, since when, whether the elapsed time is frozen; which steps have completed; a deck
being dealt, one staged, whether it comes from the flash and its slot; the bytes of the container that have arrived; PHASE before
staging began. -/
structure Boot where
  released : Bool
  since : Nat
  frozen : Bool
  step1 : Bool
  step2 : Bool
  step3 : Bool
  step4 : Bool
  dealing : Bool
  staging : Bool
  fromFlash : Bool
  flashSlot : Nat
  flashSeq : Nat
  stage : List Byte
  phase : Nat
  deriving DecidableEq, Repr

/-- One-time-programmable memory (Table 2.2). -/
structure Otp where
  serial : DWord
  rootHash : BitVec 384
  puf : BitVec 4096
  cert : BitVec 8192
  slots : Vector KeySlot 4
  wrapped : BitVec 512
  secver : Nat
  provisioned : Bool
  kill : Bool
  deriving DecidableEq, Repr

/-- The 32 bytes of a copy of the scorepad counter block (Table 19.2), big-endian (DEDUCED, log entry 98). -/
def ctrBytes (gen opsec pcyc next : Nat) : List Byte :=
  let bs := bytesBE 4 gen ++ bytesBE 4 opsec ++ bytesBE 4 pcyc ++ bytesBE 6 next ++ List.replicate 10 0
  bs ++ bytesBE 4 (crc32 bs)

/-- The 8 bytes of a copy of the operating-second cell (R559). -/
def opsecBytes (count : Nat) : List Byte := bytesBE 4 count ++ bytesBE 4 (crc32 (bytesBE 4 count))

end Sys2Proof.Machine
end

