-- ==== Sys2Proof/Machine/BlockAxis.lean ====
section
/-!
DEFINITION. Axes (07_axis_loop_law.md, 08_profiles_and_gearing.md), position feedback (09_position_feedback.md), the
dispatcher (10_task_dispatch.md) and the loop engines (11_loop_engine_model.md), with the LOOPS records.
-/

namespace Sys2Proof.Machine

/-- GRAPH record of Table 7.1. -/
structure GraphRec where
  id : Nat
  law : Nat
  blocks : Nat
  h1 : Nat
  h2 : Nat
  deriving DecidableEq, Repr

/-- INIT record of Table 7.1. -/
structure InitRec where
  axis : Nat
  off : Nat
  value : Word
  deriving DecidableEq, Repr

/-! ### Profiles and gearing -/

/-- A command triple in 2^-48 count, count/µs and count/µs/ms (R254, R260). -/
structure Triple where
  x : Int
  v : Int
  a : Int
  deriving DecidableEq, Repr

/-- One phase of a plan: constant jerk in 2^-48 count/µs/ms per ms (`inst` for the step of unbounded jerk, which sets the
acceleration to `jerk`), its duration in ms, its number of Table 8.2, whether it belongs to the stop before a reversal. -/
structure Phase where
  jerk : Int
  inst : Bool
  dur : Rat
  num : Nat
  rev : Bool
  deriving DecidableEq, Repr

/-- Profile limits in force for a move, Q16.16 as the registers hold them (R262, R263). -/
structure Limits where
  vel : Nat
  acc : Nat
  dec : Nat
  jerk : Nat
  deriving DecidableEq, Repr

/-- A plan: the triple at its time origin, its phases, boundaries since the origin, and the position it ends at
(2^-48 count, unwrapped) for a move. -/
structure Plan where
  start : Triple
  phases : List Phase
  rounds : Nat
  target : Option Int
  deriving DecidableEq, Repr

/-- The generator of an axis: its triple, the plan running, the limits of the move, whether they are kept for the rest of it
(R263). -/
structure Gen where
  tr : Triple
  plan : Option Plan
  lim : Limits
  kept : Bool
  deriving DecidableEq, Repr

/-- A ratio change armed or blending: change angle, ratio in 2^-64 count per turn, blend length in 2^-32 turn; the round at whose
boundary it was armed (R274). -/
structure Arm where
  g : Nat
  r1 : Int
  b : Nat
  round : Nat
  deriving DecidableEq, Repr

/-- A running blend (R273): from `r0`, sign of the crossing. -/
structure Blend where
  arm : Arm
  fwd : Bool
  r0 : Int
  deriving DecidableEq, Repr

/-- The gear part: position in 2^-64 count (R270), velocity and acceleration in 2^-48, the ratio in force where no blend runs, the
blend, the change armed by AX_GANG and the one armed by AX_GRATIO (R274). -/
structure Gear where
  x : Int
  v : Int
  a : Int
  ratio : Int
  blend : Option Blend
  armed : Option Arm
  armedRatio : Option Arm
  deriving DecidableEq, Repr

/-! ### The loop law -/

/-- What a node reports of an axis in a turn (Table 5.5). -/
structure NodeAxis where
  mode : Nat
  status : Nat
  err : Nat
  pos : Int
  vel : Int
  trq : Int
  uncert : Bool
  aux : Nat
  extrap : Bool
  deriving DecidableEq, Repr

/-- A setpoint record (Table 5.4): positions Q48.16, velocity Q16.16, torque Q1.31. -/
structure SetRec where
  mode : Nat
  ctrl : Nat
  pos : Int
  vel : Int
  trq : Int
  aux : Nat
  deriving DecidableEq, Repr

/-- Where an axis stands in its enable sequence (Table 7.10, R251, R237). -/
inductive EnState where
  | off | asked | waiting | powering | on | stopping
  deriving DecidableEq, Repr

/-- Where a record slot of a flow stands (R327, R31). -/
inductive SlotState where
  | none | waiting | complete | released | stale
  deriving DecidableEq, Repr

/-- A record slot of a lead frame: its state, its record, when it was released, the record released before it. -/
structure Slot where
  st : SlotState
  data : SetRec
  rel : Nat
  prev : SetRec
  deriving DecidableEq, Repr

/-- A slot of this round that the builder has not fetched. -/
def Slot.unfetched (x : Slot) : Bool := x.st = .waiting || x.st = .complete || x.st = .released

/-- The slot's record goes out stale. -/
def Slot.stale (x : Slot) : Bool := x.st = .stale

/-- A test injection with the configuration taken at its start (R248). -/
structure Injection where
  k : Nat
  psi : Nat
  lfsr : Nat
  point : Nat
  wave : Nat
  order : Nat
  hold : Nat
  amp : Int
  f0 : Nat
  f1 : Nat
  len : Nat
  deriving DecidableEq, Repr

/-- Inputs of the law for one round (R230): position, velocity, whether the position is uncertain or extrapolated. -/
structure LawIn where
  x : Int
  v : Int
  uncert : Bool
  extrap : Bool
  cold : Bool
  deriving DecidableEq, Repr

/-- What a task of an earlier round sees of the axis after a boundary (R229, R239, R240): the round, the words of its parameters, its
round angle and rate, AUTO in force and its command. -/
structure AxisView where
  round : Nat
  words : List (Nat × Word)
  theta : Nat
  w : Int
  auto : Bool
  cmode : Nat
  gen : Gen
  gear : Gear
  deriving DecidableEq, Repr

/-- An axis. `cmode` is the command mode in force; `starting` says that the helper starts CMODE at the next boundary (R256); `jog` that it
runs the stepper jog of Table 7.5; `rested` counts the rounds at rest up to the last round and `rest` with the present one (R277);
`startAt` delays a stepper's start (R278); `joined` says that its node joined through a claim and no valid turn has come yet (Table 7.6);
`views` what unfinished tasks of earlier rounds see and `taskRound` the round of the running task (R229); `vf`, `integ`, `f1`, `f2` are
the loop states (R232, R233; the filter states in 2^-63); `rc` the table of the repetitive controller, `rcPoint`, `rcSum`, `rcCount` its
running sum and `rcSkip` the point that gathers no sum (R242, R243), `rcCleared` that a clear awaits its first round; `preset` is the u0
of a preset due (R246); `extrapRun` counts consecutive extrapolated rounds (R480); `record` is the law's last record; `cur` and `nxt` its
slots in the lead frame being emitted and in the next; `sent` the last record released. -/
structure Axis where
  gen : Gen
  gear : Gear
  cmode : Nat
  starting : Bool
  jog : Bool
  rest : Nat
  rested : Nat
  startAt : Bool
  joined : Bool
  views : List AxisView
  taskRound : Nat
  vf : Int
  integ : Int
  f1 : Int × Int
  f2 : Int × Int
  rc : List (Nat × Int)
  rcPoint : Option Nat
  rcSum : Int
  rcCount : Nat
  rcSkip : Option Nat
  rcCleared : Bool
  inj : Option Injection
  en : EnState
  enAt : Nat
  nmode : Nat
  preset : Option Int
  extrapRun : Nat
  node : NodeAxis
  record : SetRec
  cur : Slot
  nxt : Slot
  sent : SetRec
  engine : Nat
  deriving DecidableEq, Repr

/-! ### Feedback -/

/-- A position at an instant: ns of the time base, Q48.16 counts. -/
structure Mark where
  t : Int
  p : Int
  deriving DecidableEq, Repr

/-- The edge records of a position source (R299). -/
structure Edges where
  ref : Mark
  anchor : Mark
  last : Mark
  seen : Mark
  fwd : Bool
  same : Nat
  started : Bool
  prev : Option Int
  deriving DecidableEq, Repr

/-- A local channel: the count, raw and accepted levels of A, B and Z with their run lengths (R283), the time of the
decoder's samples, times of double transitions (R286) and their number since the last index (R290), the last index event
(R289), the last field value with its position for unwrapping (R294), failed frames in a row (R295), the receiver below threshold
(R303), a fault raised in this round (R304), the instant of the last sample, ns of the time base. -/
structure Channel where
  count : Int
  raw : Vector Bool 3
  same : Vector Nat 3
  acc : Vector Bool 3
  gate : Bool
  samples : Nat
  doubles : List Nat
  sinceIndex : Nat
  index : Option (Int × Bool)
  fieldV : Option (Nat × Int)
  fails : Nat
  below : Bool
  faultNow : Bool
  sampled : Int
  edges : Edges
  deriving DecidableEq, Repr

/-- A node-position entry (R297): its edges, rounds of UNCERT onsets, the last position reported. -/
structure NodeEntry where
  edges : Edges
  onsets : List Nat
  uncert : Bool
  deriving DecidableEq, Repr

/-! ### The dispatcher -/

/-- An instance of a task: its descriptor, entry flags, round and time of wake or release, flow sequence number. -/
structure Inst where
  desc : Nat
  extrap : Bool
  cold : Bool
  round : Nat
  woken : Nat
  seq : Nat
  deriving DecidableEq, Repr

/-- A descriptor (Table 10.1): its eight words; its wait; a deferred wake (R316); a delete or an admission pending (R311,
R312); a kick (R317); its next due time, plant time in ns; a rehome pending (R323); whether its state must be taken cold
at its next run (R322, R373); whether its creation waits for its boundary or tick; the words its last run wrote to its flow, by
offset (R327); of an axis, its resident slot in the banks of its hand engine (11_loop_engine_model.md Table 11.3). -/
structure Desc where
  words : Vector Word 8
  armed : Bool
  deferred : Option Inst
  deleting : Bool
  admitting : Bool
  kick : Bool
  due : Nat
  rehome : Option Nat
  cold : Bool
  live : Bool
  out : List (Nat × Word)
  slot : Option Nat
  deriving DecidableEq, Repr

/-- A background result of a flow (R330). -/
structure FlowResult where
  seq : Nat
  desc : Nat
  opened : Nat
  words : List Word
  closed : Bool
  dropped : Bool
  deriving DecidableEq, Repr

/-- A flow's state: the next sequence number, its open or undelivered results, words awaiting room in its
window (17_host_interface.md R519), the smallest slack of this round. -/
structure Flow where
  next : Nat
  results : List FlowResult
  out : List Word
  slack : Option Int
  deriving DecidableEq, Repr

/-! ### Engines -/

/-- A repeat stack entry (R359). -/
structure Repeat where
  count : Nat
  start : Nat
  fin : Nat
  deriving DecidableEq, Repr

/-- The registers of Table 11.1. The four S bits, LPD and RSD of SR follow `sat`, `reps` and `rets`. -/
structure ERegs where
  x : Vector Word 2
  y : Vector Word 2
  a : Vector (BitVec 80) 4
  g : Vector Word 8
  p : Vector (BitVec 16) 8
  d : Vector (BitVec 16) 4
  w : Vector Word 4
  pa : Word
  fa : Vector Word 4
  reps : List Repeat
  rets : List (BitVec 16)
  pc : BitVec 16
  bx : Int
  av : Bool
  sv : Bool
  sat : Vector Bool 4
  extrap : Bool
  cold : Bool
  bkg : Bool
  deriving DecidableEq, Repr

/-- Where a running task stands: in the standard law with its record ready, in a hook, or in its own microcode; `ended`
once END was issued and fabric loads are outstanding (R397). -/
inductive Stage where
  | law | hook1 | hook2 | code | ended
  deriving DecidableEq, Repr

/-- A task on an engine: its instance, stage, start time and busy time so far, the law's inputs and its record at a hook. -/
structure Run where
  inst : Inst
  stage : Stage
  since : Nat
  busy : Nat
  inputs : LawIn
  mid : SetRec
  deriving DecidableEq, Repr

/-- Where the data of an outstanding fabric load goes. -/
inductive LoadDest where
  | reg (code : Nat)
  | acc (n : Fin 4)
  | bank (y : Bool) (addr : Nat) (scan : Bool)
  deriving DecidableEq, Repr

/-- An outstanding fabric load (R358). -/
structure Load where
  addr : Nat
  len : Nat
  dest : LoadDest
  scan : Bool
  held : Bool
  deriving DecidableEq, Repr

/-- An outstanding fabric store, the task that issued it, its flow sequence number and round. -/
structure Store where
  addr : Nat
  words : List Word
  desc : Nat
  seq : Nat
  round : Nat
  deriving DecidableEq, Repr

/-- A loop engine: registers, the task running, the pre-empted background task with its context and entry block (Table 11.6), the two
queues (R324), outstanding fabric accesses, those loads that a task abandoned by now has left (R58), the freeze and halt times (R63,
R323), busy times of the round. -/
structure Engine where
  regs : ERegs
  run : Option Run
  held : Option (ERegs × Run × List Word)
  cq : List Inst
  bq : List Inst
  loads : List Load
  dropped : List Load
  stores : List Store
  leftAt : Option Nat
  cyc : Nat
  bkg : Nat
  deriving DecidableEq, Repr

end Sys2Proof.Machine
end

