-- ==== Sys2Proof/Machine/BlockAngle.lean ====
section
/-!
DEFINITION. The line-angle unit's state and the ANGLE section's records (04_line_angle.md).
-/

namespace Sys2Proof.Machine

/-- SOURCE record of Table 4.4. -/
structure SourceRec where
  kind : Nat
  index : Nat
  flags : Nat
  turnNum : Nat
  turnDen : Nat
  lossTo : Nat
  offset : Nat
  deriving DecidableEq, Repr

/-- EXTRAP record of Table 4.4. -/
structure ExtrapRec where
  kwShift : Nat
  lookahead : Nat
  resyncTh : Nat
  ramp : Nat
  deriving DecidableEq, Repr

/-- CHANNEL record of Table 4.4. -/
structure ChanRec where
  channel : Nat
  enabled : Bool
  cfg : Nat
  time : Nat
  hyst : Nat
  deriving DecidableEq, Repr

/-- The four words of an event record (Table 4.2). -/
structure EvtWords where
  w0 : Word
  w1 : Word
  w2 : Word
  w3 : Word
  deriving DecidableEq, Repr

/-- CAPIN record of Table 4.4. -/
structure CapinRec where
  input : Nat
  rising : Bool
  falling : Bool
  filter : Nat
  deriving DecidableEq, Repr

/-- The ANGLE section (R146). -/
structure AngleSect where
  sources : List SourceRec
  extraps : List ExtrapRec
  virtuals : List (Nat × Nat)
  channels : List ChanRec
  events : List EvtWords
  capins : List CapinRec
  deriving DecidableEq, Repr

/-- A record of the event table: its handle and words; for each direction, the movement of the lead angle since the
firing that it waits to re-arm from (R129), in 2^-64 turn; whether its crossing was sent to a node (R141). -/
structure EvtRec where
  handle : Nat
  words : EvtWords
  gapF : Option Int
  gapR : Option Int
  sent : Bool
  deriving DecidableEq, Repr

/-- A record that has crossed its key and waits to fire (R128); `at96` is the point of the key on the ring of the angle
estimate. -/
structure DueRec where
  handle : Nat
  fwd : Bool
  since : Nat
  at96 : Nat
  deriving DecidableEq, Repr

/-- A node command item awaiting its lead frame (R140, R142); `late` says that it has been counted late. -/
structure CmdItem where
  seg : Nat
  node : Nat
  code : Nat
  arg : Nat
  round16 : Nat
  ofs : Nat
  tc : Int
  late : Bool
  deriving DecidableEq, Repr

/-- A CAPIN entry (R143). -/
structure CapinEntry where
  rising : Bool
  angle : Nat
  time : Nat
  deriving DecidableEq, Repr

/-- A handover in progress (R120, R121): the new source, and when it was committed. -/
structure Handover where
  kind : Nat
  index : Nat
  since : Nat
  deriving DecidableEq, Repr

/-- A point from which angle and plant time went on evenly: the time since power-up in ns, the angle estimate and plant time then, and what
each ns adds to them. -/
structure PathPt where
  up : Nat
  th : Nat
  v : Int
  time : Nat
  tv : Int
  deriving DecidableEq, Repr

/-- The line-angle unit. `th` is the angle estimate with 32 bits below the line angle, modulo 2^96; `w` the rate and `c` the correction
slew, in 2^-64 turn per ns (R113); `mTh`, `mW` the estimate and rate at the last matching; `lastTheta`, `lastT` the last accepted sample;
`accepted` counts samples since the start, up to 2; `roundW` is the rate latched with the round angle (R240); `edit` is the command word
of a table edit under way with the record staged for it (R132); `past` the way angle and plant time came, newest point first, as far back
as a CAPIN filter reaches (R143); `stepped` says that a step of the angle fell in the present round (R115, R116), `resyncSince` that one
fell since the last line-angle message (Table 18.5). -/
structure Ang where
  th : Nat
  w : Int
  c : Int
  cLeft : Nat
  saturated : Bool
  mTh : Nat
  mW : Int
  kind : Nat
  index : Nat
  accepted : Nat
  lastTheta : Nat
  lastT : Nat
  lastAccept : Nat
  ofs : Nat
  handover : Option Handover
  lossW : Int
  lossAt : Option Nat
  absList : List EvtRec
  cycList : List EvtRec
  dueAbs : List DueRec
  dueCyc : List DueRec
  pins : Nat
  pulses : Vector (Option Nat) 16
  items : List CmdItem
  capCfg : Vector (Nat × Nat) 8
  capFifo : Vector (List CapinEntry) 8
  resyncSince : Bool
  roundW : Int
  stepped : Bool
  edit : Option (Nat × EvtWords)
  past : List PathPt
  deriving DecidableEq, Repr

end Sys2Proof.Machine
end

