-- ==== Sys2Proof/Machine/BlockSafety.lean ====
section
/-!
DEFINITION. The field die's state: field I/O (16_field_io.md) and the two safety channels (15_safety.md), with the
records of the FIELD and SAFETY sections.
-/

namespace Sys2Proof.Machine

/-- DIN_GROUP record of Table 16.3. -/
structure DinGroupRec where
  group : Nat
  enabled : Bool
  type3 : Bool
  filt : Nat
  wb : Nat
  irq : Nat
  deriving DecidableEq, Repr

/-- DOUT_GROUP record of Table 16.3. -/
structure DoutGroupRec where
  group : Nat
  enabled : Bool
  par : Nat
  old : Nat
  retry : Nat
  deriving DecidableEq, Repr

/-- WDOG record of Table 16.3. -/
structure WdogRec where
  time : Nat
  mask : Nat
  deriving DecidableEq, Repr

/-- The FIELD section (R501). -/
structure FieldSect where
  dins : List DinGroupRec
  douts : List DoutGroupRec
  wdogs : List WdogRec
  deriving DecidableEq, Repr

/-- What the field die measures on one sample: input levels, inputs below 0.3 mA, outputs below 5 mA, supplies in
mV, die temperature in 0.1 °C (R491, R492, R495, R496). -/
structure FieldIn where
  din : BitVec 32
  dinLow : BitVec 32
  outLow : BitVec 16
  vfield : Nat
  vout0 : Nat
  vout1 : Nat
  temp : Int
  deriving DecidableEq, Repr

/-- Field I/O on the field die. Counts are of 50 µs samples; `tripAt` is the time of the last trip of the set an output leads, `wdAt` that
of the last write of FLD_WDOG; `padOff` says that VFIELD is too low for a scorepad write (21_electrical_and_package.md R614); `rx` is what
the last die-to-die transfer brought the receiving die, `rxAt` when it came (01_dealer_and_helpers.md R16, R17). -/
structure Field where
  accepted : Nat
  level : Nat
  same : Vector Nat 32
  wbLow : Vector Nat 32
  wbHigh : Vector Nat 32
  wireBreak : Nat
  openLow : Vector Nat 16
  openHigh : Vector Nat 16
  openLoad : Nat
  tripped : Nat
  tripAt : Vector Nat 16
  vLow : Bool
  padOff : Bool
  voLow : Nat
  hot : Bool
  clockFail : Bool
  linkLost : Bool
  mask : Nat
  conditions : Nat
  wdArmed : Bool
  wdAt : Nat
  wdClear : Nat
  rx : Option Word
  rxAt : Nat
  deriving DecidableEq, Repr

/-- SAFID record of Table 15.6. -/
structure SafidRec where
  saddr : Nat
  swd : Nat
  sfilt : Nat
  tpw : Nat
  tpp : Nat
  ssv : Nat
  pcrc : Nat
  deriving DecidableEq, Repr

/-- INPUT record of Table 15.6. -/
structure InputRec where
  sdi : Nat
  mode : Nat
  tps : Nat
  tpsPair : Nat
  disc : Nat
  deriving DecidableEq, Repr

/-- SOUT record of Table 15.6. -/
structure SoutRec where
  pair : Nat
  pp : Bool
  test : Bool
  deriving DecidableEq, Repr

/-- FUNCTION record of Table 15.6. -/
structure FunctionRec where
  func : Nat
  sdi : Nat
  flags : Nat
  sout : Nat
  ss1T : Nat
  decMin : Nat
  vtol : Nat
  nodes : List Nat
  deriving DecidableEq, Repr

/-- EVENT record of the SAFETY section (Table 15.6). -/
structure SafEventRec where
  code : Nat
  reaction : Nat
  auto : Bool
  func : Nat
  deriving DecidableEq, Repr

/-- The SAFETY section (R486). -/
structure SafetySect where
  safids : List SafidRec
  inputs : List InputRec
  souts : List SoutRec
  functions : List FunctionRec
  events : List SafEventRec
  deriving DecidableEq, Repr

/-- What demanded a stop: a function, or a device event with the axes it concerns. -/
inductive StopSrc where
  | func (f : Nat)
  | event (code : Nat) (axes : List Nat)
  deriving DecidableEq, Repr

/-- A stop that runs or holds in one channel (R477, R478): targets, whether it is an SS1, its decision time, whether
torque is removed, restart, whether the demand still stands, and what channel B's monitor compares with (R480). -/
structure Stop where
  src : StopSrc
  nodes : List Nat
  sout : Nat
  ss1 : Bool
  ss1T : Nat
  decMin : Nat
  vtol : Nat
  t0 : Nat
  v0 : List (Nat × Nat)
  removed : Bool
  auto : Bool
  demand : Bool
  deriving DecidableEq, Repr

/-- One safety channel. `permit` and `ss1` are the maps of the word built for the next lead frame (R473), `scnt` its
counters, `halves` the SOUT halves it drives on; `exchAt` the time of its last valid exchange (R466). -/
structure Chan where
  tested : Bool
  exch : Bool
  exchAt : Option Nat
  sdi : Nat
  stops : List Stop
  permit : Vector Nat 8
  ss1 : Vector Nat 8
  scnt : Vector Nat 8
  halves : Nat
  fault : Nat
  deriving DecidableEq, Repr

/-- A safety word as a lead block carries it (Table 15.2). -/
structure SafeWord where
  byte0 : Nat
  byte1 : Nat
  scnt : Nat
  permit : Nat
  ss1 : Nat
  scrc : Nat
  deriving DecidableEq, Repr

/-- The progress of a discrepancy towards its end (R470). -/
inductive DiscState where
  | none | raised | bothDemand | clearing
  deriving DecidableEq, Repr

/-- The safety functions: raw input levels with the time of their last change, both channels, input faults by the TPS pulse that last
found them and those awaiting a reset, how long the channels' filtered levels have differed, discrepancies, since when a pair that begins
at SDI `i` has had two meanings, the lockout since start-up, device events awaiting channel B with their axes. -/
structure Safety where
  raw : Nat
  changed : Vector Nat 16
  a : Chan
  b : Chan
  faultNow : Vector Nat 4
  faultHeld : Nat
  disc : Vector DiscState 16
  apart : Vector (Option Nat) 16
  startLock : Bool
  mismatch : Vector (Option Nat) 16
  events : List (Nat × List Nat)
  deriving DecidableEq, Repr

end Sys2Proof.Machine
end

