-- ==== Sys2Proof/Machine/BlockSegment.lean ====
section
/-!
DEFINITION. Thrumlos segments (05_thrumlos_link_and_frames.md, 06_thrumlos_start_and_schedules.md) and partner pairs
(14_partners.md), with the records of the CONTRACTS and MIRROR sections.
-/

namespace Sys2Proof.Machine

/-- SEGMENT record of Table 6.6. -/
structure SegRec where
  seg : Nat
  flags : Nat
  op : Nat
  hold : Nat
  miss : Nat
  deriving DecidableEq, Repr

/-- CONTRACT record of Table 6.6. -/
structure ContractRec where
  seg : Nat
  num : Nat
  kcount : Nat
  turns : Nat
  tOpen : Nat
  deriving DecidableEq, Repr

/-- TURN record of Table 6.6. -/
structure TurnRec where
  seg : Nat
  contract : Nat
  turn : Nat
  pos : Nat
  axes : Nat
  slots : Nat
  deriving DecidableEq, Repr

/-- NODEID record of Table 6.6. -/
structure NodeIdRec where
  seg : Nat
  pos : Nat
  serial : Nat
  deriving DecidableEq, Repr

/-- PAIR record of Table 14.8. -/
structure PairRec where
  lower : Nat
  higher : Nat
  commitWords : Nat
  angTol : Nat
  deriving DecidableEq, Repr

/-- WORDS record of Table 14.8. -/
structure WordsRec where
  addr : Nat
  words : Nat
  deriving DecidableEq, Repr

/-- The MIRROR section (R458); an RC record is its first and last axis. -/
structure MirrorSect where
  pairs : List PairRec
  rcs : List (Nat × Nat)
  words : List WordsRec
  deriving DecidableEq, Repr

/-- A management message the head sends (Table 6.4). -/
inductive MgmtMsg where
  | none
  | invite
  | enum (pos : Nat)
  | place (pos serial down up : Nat)
  | auth1 (pos : Nat) (nh : BitVec 128)
  | auth3 (pos : Nat) (d : BitVec 96) (wk : BitVec 128) (hp : BitVec 96)
  deriving DecidableEq, Repr

/-- A frame as received (R159, R433): whether it holds K30.7, or K30.7 followed by data in its window (R167), and its bytes from header
byte 1 to the CRC. -/
structure Frame where
  poison : Bool
  bytes : List Byte
  deriving DecidableEq, Repr

/-- A frame that arrives on port 2k+1 of ring k (R183). -/
structure Notice where
  ring : Fin 4
  frame : Frame
  deriving DecidableEq, Repr

/-- The outcome of a turn (Table 6.9). -/
inductive TurnOutcome where
  | empty | clipped | crc | format | tag | edge | nominal
  deriving DecidableEq, Repr

/-- What a head began to emit at a boundary (R160): the fields of the lead block (Tables 5.3 and 6.7), whether both ports of a ring carry
the frame, and the command slots by turn (R163), whose node blocks follow the fetches of R30. -/
structure Lead where
  round : Nat
  p : Nat
  contract : Nat
  next : Nat
  switch : Nat
  epoch : Nat
  ptime : Nat
  ring : Nat
  close : Nat
  bofs : Nat
  phase : Nat
  log2r : Nat
  kcount : Nat
  grantK : Nat
  grant : Bool
  arg : Nat
  safeA : SafeWord
  safeB : SafeWord
  both : Bool
  slots : List (Nat × List CmdItem)
  deriving DecidableEq, Repr

/-- How far the exchange of R205 with a node is: nothing sent, AUTH1 due or sent, AUTH3 due or sent, with the segment
rounds since the message went out. -/
inductive AuthStage where
  | none
  | due1
  | sent1 (rounds : Nat)
  | due3
  | sent3 (rounds : Nat)
  deriving DecidableEq, Repr

/-- A node position as the head knows it: its exchange, nonces, session key and the D sent to it (R203, R48), whether the exchange
follows a claim, whether it holds a session, whether it joined in Run and its first valid turn is to come (R216),
the round trip of R198 in 0.1 ns, far-end delays (R201), rounds without a valid turn (R219), the rounds of its last
outcome and last valid turn, whether that came by port 2k+1, the outcome of an invalid copy in the round it names (R183), and the last round
it reported HEAL (R185). -/
structure SegNode where
  auth : AuthStage
  nh : BitVec 128
  nn : BitVec 128
  ks : BitVec 128
  hasKs : Bool
  d : BitVec 96
  claimed : Bool
  session : Bool
  first : Bool
  rtt : Int
  farDown : Nat
  farUp : Nat
  missRun : Nat
  lastOutcome : Option Nat
  lastValid : Option Nat
  far : Bool
  bad : Option (Nat × TurnOutcome)
  lastHeal : Option Nat
  deriving DecidableEq, Repr

/-- The walk (R197 to R200): position, whether PLACE is being sent, rounds its ENUM went unanswered, the answer. -/
structure Walk where
  pos : Nat
  placing : Bool
  missed : Nat
  answered : Bool
  deriving DecidableEq, Repr

/-- A CLAIM received this round (R214): kitty window or none for a position window, position, CLAIM_ID, serial. -/
structure Claim where
  window : Nat
  pos : Nat
  id : Nat
  serial : Nat
  deriving DecidableEq, Repr

/-- A kitty window granted (R216): window, position, rounds since the grant. -/
structure Kitty where
  window : Nat
  pos : Nat
  rounds : Nat
  deriving DecidableEq, Repr

/-- A segment controller beside its page. `fresh` says that a state was entered and its first segment round begins at the
next segment boundary; `k` and `sr` count segment rounds in the state and since state 1 (R188); `listen` is the length of
Listen (Table 14.3); `callId` and `opener` are the first CALL's; `switchAt` and `announced` are the device rounds of C
and s (Table 6.8); `want` is a switch requested, `stop` a stop; `chunk` the carousel index; `closedAt` the boundary of the last ring
closure; `frame` the blocks of the lead frame under way, each with its start after the K29.7 in 0.1 ns and its bytes from header byte 1 to
the CRC; `returnAt` is t_ret − BOFS of R201 in 0.1 ns. -/
structure Seg where
  fresh : Bool
  k : Nat
  sr : Nat
  listen : Nat
  call : Option (Nat × Nat)
  walk : Option Walk
  kl : BitVec 128
  hasKl : Bool
  chunk : Nat
  switchAt : Option Nat
  announced : Nat
  nack : Bool
  aborted : Bool
  want : Option Nat
  stop : Bool
  claims : List Claim
  grant : Option (Nat × Nat)
  kitty : List Kitty
  noticeAt : Option Nat
  heal : Nat
  closeAt : Option Nat
  closedAt : Option Nat
  lead : Option Lead
  frame : List (Nat × List Byte)
  returnAt : Option Int
  walkerP : Nat
  nodes : List (Nat × SegNode)
  deriving DecidableEq, Repr

/-- HELLO of Table 14.2; `role` is the running role, 0 before step 4 has ended. -/
structure Hello where
  serial : Nat
  hash : BitVec 384
  secver : Nat
  role : Nat
  epoch : Nat
  boot : Nat
  deriving DecidableEq, Repr

/-- A partner frame to be sent: TYPE of Table 14.2 and payload. -/
structure TxFrame where
  type : Nat
  words : List Word
  deriving DecidableEq, Repr

/-- HEARTBEAT of Table 14.4; `departs` is in 2^-32 ns. -/
structure Heartbeat where
  role : Nat
  ready : Bool
  yield : Bool
  stopped : Bool
  leadOk : Nat
  epoch : Nat
  round16 : Nat
  departs : Nat
  backlog : Nat
  deriving DecidableEq, Repr

/-- Mirror items of Table 14.5; positions Q48.16, speeds and accelerations Q16.16. -/
inductive MirItem where
  | header (round epoch angle : Nat) (omega : Int) (digest count backlog : Nat)
  | commit (round16 off : Nat) (words : List Word)
  | seed (axis : Nat) (x v a : Int) (cmode : Nat)
  | rc (axis point : Nat) (u : Int)
  | words (index : Nat) (ws : List Word)
  deriving DecidableEq, Repr

/-- Contents of a SESSION frame (Table 14.2). -/
inductive SessItem where
  | lead (seg : Nat) (key : BitVec 128)
  | node (seg pos serial : Nat) (key : BitVec 128)
  | ended (seg pos : Nat)
  deriving DecidableEq, Repr

/-- A part of the transfer of R456: a mirror item, a key, a record of the event table under its handle, a descriptor, words of a WORDS
region from word `ofs` on. -/
inductive BulkItem where
  | item (x : MirItem)
  | key (x : SessItem)
  | event (handle : Nat) (words : EvtWords)
  | desc (d : Nat) (words : Vector Word 8)
  | mem (index ofs : Nat) (words : List Word)
  deriving DecidableEq, Repr

/-- The partner unit: step 4 running since; the partner's HELLO, and when this unit sends its next; the rounds for which paths A and B
were last judged, with the verdict; the rings that met path A in the present round; consecutive misses and heartbeats met; matching
digests in a row; READY at the end of the last round that met a path; whether plant time still steps to the declarer's; a yield boundary;
when to stop emitting; whether the transfer is complete; whether a transfer starts at the next boundary; whether every axis is to be
seeded; mirror items queued, and held with their round until the transfer ends; mirror words sent since the boundary; frames waiting to
be sent, the round and the number of those started in it, the last one started and when, when the link is free, 0.1 ns; the last frame
accepted; the words of a mirror item not yet whole, none after a frame of the round was lost; the round angle of the last mirror header, and
its digest until it has been compared. -/
structure Partner where
  electing : Option Nat
  hello : Option Hello
  helloAt : Option Nat
  outA : Option (Nat × Bool)
  outB : Option (Nat × Bool)
  ringsA : List Nat
  missA : Nat
  missB : Nat
  metB : Nat
  digests : Nat
  wasReady : Bool
  stepTime : Bool
  yieldAt : Option Nat
  stopAt : Option Nat
  xferDone : Bool
  bulkDue : Bool
  seedAll : Bool
  queue : List MirItem
  held : List (Nat × MirItem)
  mirWords : Nat
  tx : List TxFrame
  txRound : Nat
  txSeq : Nat
  line : Option (Nat × List Byte)
  lineFree : Nat
  rxFrame : Option (Nat × Nat)
  rxPart : Option (List Word)
  mirAngle : Nat
  digest : Option Nat
  stamps : List (Nat × Nat)
  deriving DecidableEq, Repr

end Sys2Proof.Machine
end

