-- ==== Sys2Proof/Machine/BlockCapture.lean ====
section
/-!
DEFINITION. The capture engine's state and the CAPTURE section's records (13_capture.md).
-/

namespace Sys2Proof.Machine

/-- CHANNEL record of Table 13.5. -/
structure CapChanRec where
  chan : Nat
  cfg : Nat
  addr : Nat
  base : Nat
  len : Nat
  deriving DecidableEq, Repr

/-- GROUP record of Table 13.5. -/
structure CapGroupRec where
  group : Nat
  cfg : Nat
  pre : Nat
  post : Nat
  thr : Nat
  hyst : Nat
  key : Nat
  deriving DecidableEq, Repr

/-- The CAPTURE section (R425); a FIRE record is DLY and WIRE. -/
structure CaptureSect where
  chans : List CapChanRec
  groups : List CapGroupRec
  fires : List (Nat × Nat)
  deriving DecidableEq, Repr

/-- A capture channel. The record being gathered: its first round, rounds so far, the reductions (for kind 4 AND, OR and
last word), its mark. `start` is the first round of record 0, `written` the records stored since the arm, `trig` the number
of the trigger record, `f` the rate reduction and `want` the doublings made, `goal` the post records wanted; `prev` the last
per-round value, `low` and `high` the hysteresis met (R412); `recent` the latest values; `freed` the records a streaming
readout has freed, `halfSeen` that half the buffer was reported since a read. -/
structure CapChan where
  first : Option Nat
  n : Nat
  sample : Int
  mn : Int
  mx : Int
  sum : Int
  unc : Bool
  start : Nat
  written : Nat
  trig : Option Nat
  f : Nat
  want : Nat
  goal : Nat
  prev : Option Int
  low : Bool
  high : Bool
  recent : List (Nat × Int × Bool)
  freed : Nat
  halfSeen : Bool
  stopped : Bool
  deriving DecidableEq, Repr

/-- A capture group: an arm due at the next boundary, the round it was armed in, its trigger time (2^-32 ns), when its
TRIG_FIRE pulse is due, whether it streams. -/
structure CapGroup where
  pend : Bool
  since : Nat
  trig : Option Nat
  fireAt : Option Nat
  streams : Bool
  deriving DecidableEq, Repr

/-- A readout in progress (R421); the words ready, each with whether it met an uncorrectable error (R422). -/
structure Readout where
  chan : Nat
  red : Nat
  hdr : Bool
  next : Nat
  left : Nat
  words : List (Word × Bool)
  deriving DecidableEq, Repr

/-- The capture engine: channels and groups, angles and plant times of the last three boundaries, latest first, powered
banks, levels that other units drive on TRIG_ARM and TRIG_FIRE (true for low), the end of our fire pulse, the readout. -/
structure Capture where
  chans : List (Nat × CapChan)
  groups : List (Nat × CapGroup)
  angles : Vector Nat 3
  times : Vector Nat 3
  banks : Nat
  armLow : Bool
  fireLow : Bool
  fireUntil : Nat
  rd : Option Readout
  deriving DecidableEq, Repr

end Sys2Proof.Machine
end

