-- ==== Sys2Proof/Machine/Blocks.lean ====
section
/-!
DEFINITION. The deck as one value, the volatile state of the device (`Block`) and what survives every
reset and supply (`NonVol`).
-/

namespace Sys2Proof.Machine

/-- A deck container (03_deck.md R79), as the Dealer parses it. `raw` is the bytes received; `keyHash` the
SHA-384 of the presented key and `sigOk` the verdict of R80; `digest` the SHA-384 of the container; `parseFault` the
section index and RTYPE of the first record that R84 calls malformed; `pcrcOk` says that PCRC matches the SAFETY body
(15_safety.md R463). -/
structure Deck where
  header : DeckHeader
  sects : List SectEntry
  raw : List Byte
  keyHash : BitVec 384
  sigOk : Bool
  digest : BitVec 384
  parseFault : Option (Nat × Nat)
  rounds : List RoundRec
  domains : List Nat
  flows : List FlowRec
  axes : List AxisRec
  graphs : List GraphRec
  inits : List InitRec
  images : List ImageRec
  tasks : List TaskRec
  segs : List SegRec
  contracts : List ContractRec
  turns : List TurnRec
  nodeIds : List NodeIdRec
  mirror : Option MirrorSect
  policy : List PolicyBlock
  ranges : List RangeRec
  locks : List LockRec
  fills : List SlotFill
  revokes : List Nat
  kMnr : Option (BitVec 128)
  kPr : Option (BitVec 128)
  plant : PlantSect
  angle : AngleSect
  field : FieldSect
  capture : Option CaptureSect
  safety : SafetySect
  pcrcOk : Bool
  deriving DecidableEq, Repr

/-- The number of bytes received. -/
def Deck.bytes (d : Deck) : Nat := d.raw.length

/-- What survives resets and supplies: OTP (Table 2.2), the scorepad memory and the copies in its system area (R554, R558, R559), the boot
flash (R93), an unlisted byte of which is erased. -/
structure NonVol where
  otp : Otp
  pad : List Host.Cell
  ctr : Vector (List Byte) 2
  opsec : Vector (List Byte) 2
  flash : List Host.Cell
  deriving DecidableEq, Repr

/-- The volatile state of the device. `regs` holds every register by its BAR0 offset; `shadow` the RWS values written since the last
boundary (R10); `vq`, `valid`, `due` the RWV writes pending, validated and latched for the coming boundary (R103, R104); `latchHi`,
`heldLo`, `stampLatch`, `readData` belong to the 39 masters (R8, R9, R524); `mem` is memory by fabric address (R52), `ecc` the words of it
whose stored bits are in error, with how many (11_loop_engine_model.md R343, 13_capture.md R422); `time` plant time in 2^-32 ns; `up`
nanoseconds passed; `free` counts the free values taken; `dealt` is the deck in force, `passed` one being dealt whose checks have passed
(R97); `ports` when each Thrumlos receiver, and the partner link's, came into lock (R153); `roundAt` the time of the last boundary. -/
structure Block where
  regs : List (Nat × Word)
  shadow : List (Fld × Nat)
  vq : List VWrite
  valid : List VField
  due : List VField
  latchHi : Vector Word 39
  heldLo : Vector Word 39
  stampLatch : Vector (Vector Word 7) 39
  readData : Vector Word 39
  mem : List Host.Cell
  ecc : List (Nat × Nat)
  time : Nat
  up : Nat
  free : Nat
  dealt : Option Deck
  passed : Option Deck
  boot : Boot
  trust : Trust
  scp : ScpUnit
  host : HostPort
  plant : Plant
  pd0 : Pd0
  ang : Ang
  field : Field
  safety : Safety
  axes : List (Nat × Axis)
  chans : List (Nat × Channel)
  entries : List (Nat × NodeEntry)
  descs : List (Nat × Desc)
  flows : List (Nat × Flow)
  engines : List (Nat × Engine)
  segs : List (Nat × Seg)
  ports : Vector (Option Nat) 9
  partner : Partner
  roundAt : Nat
  cap : Capture
  deriving DecidableEq, Repr

end Sys2Proof.Machine
end

