-- ==== Sys2Proof/Syntax.lean ====
section
/-!
DEFINITION. The commands of the block: one constructor per row of opcode_table.json. The table gives the rows no bits
and no fields; the operands are the model's reading of the rule each row cites.
-/

namespace Sys2Proof

open Sys2Proof.Machine

/-- A command of the block. -/
inductive Instr where
  /-- ROUND_BOUNDARY (R25): At each round boundary the round number increments, the round angle is latched, due RWS and validated RWV
  commits take effect together, a pending snapshot is served and every segment begins its lead frame. -/
  | roundBoundary
  /-- COMMIT_LATCH_CLOSE (R104): Each block's commit latch closes 200 ns before a boundary, which fixes whether a validated value commits
  at this boundary or the next. -/
  | commitLatchClose
  /-- HOST_REGISTER_WRITE (R10): A write to a register without a row of its own acts by the access code of each field: RW at once, RWS
  into a shadow, RWL only while the block is stopped, W1C clears bits. -/
  | hostRegisterWrite (m : Fin 39) (addr : Nat) (v : Word)
  /-- SUB_WORD_ACCESS (R5): A register access of fewer than 32 bits is ignored or reads 0 and is counted in the host interface error
  counter. -/
  | subWordAccess (m : Fin 39) (write : Bool)
  /-- LOW_WORD_READ (R7): A read of the low word of a 64-bit pair latches the high word in that master's own latch. -/
  | lowWordRead (m : Fin 39) (addr : Nat)
  /-- LOW_WORD_WRITE (R9): A write of the low word of a 64-bit pair is held for that master, replacing any earlier held low word. -/
  | lowWordWrite (m : Fin 39) (addr : Nat) (v : Word)
  /-- HIGH_WORD_WRITE (R9): A write of the high word commits the pair with that master's held low word. -/
  | highWordWrite (m : Fin 39) (addr : Nat) (v : Word)
  /-- RWV_WRITE (R103): An RWV write enters the Dealer's validation queue of at most 64 pending writes, or is discarded with reason 0x06
  when the queue is full. -/
  | rwvWrite (m : Fin 39) (addr : Nat) (v : Word)
  /-- RWV_VALIDATION (R103): The Dealer ends validation of one queued write, checking each field against MIN, MAX, MAXSTEP and standstill,
  and holds passing values for their commit boundary. -/
  | rwvValidation
  /-- D2D_TRANSFER (R16): A die-to-die transfer arrives on both links; the receiver uses the first copy with a good CRC and records
  disagreement or a failed copy. -/
  | d2dTransfer (c0 : D2dCopy) (c1 : D2dCopy)
  /-- D2D_TIMEOUT (R17): When both copies fail or no transfer arrives for 2 µs, the field die de-energises all SOUT and DOUT outputs
  through channel A. -/
  | d2dTimeout
  /-- BUILDER_FETCH (R30): The lead-frame builder fetches a setpoint record 64 ns before its first byte is due on the wire. -/
  | builderFetch (i : Fin 256)
  /-- RESET_RELEASE (R35): Release of the later of PORST_N and RESET_N starts the start-up order of Table 1.6. -/
  | resetRelease (mode : BitVec 3)
  /-- START_UP_STEP_OVERRUN (R38): A start-up step that fails or overruns its bound stops start-up or retries, with a scorepad record
  naming the step. -/
  | startUpStepOverrun (step : Fin 7)
  /-- CHANNEL_B_SELF_TEST (R462): The safety island completes its self-test of logic, comparators, SOUT halves and TPS drivers in step 2. -/
  | channelBSelfTest (pass : Bool)
  /-- DECK_FLASH_READ (R93): The Dealer reads the boot flash descriptors, chooses the slot with the later valid SEQ and reads its
  container for dealing. -/
  | deckFlashRead
  /-- VIOLATION (R55): A checked master's access not allowed by its policy block or the fixed denials is a violation and is dropped. -/
  | violation (m : Fin 39) (addr : Nat) (len : Nat) (write : Bool) (beside : Beside)
  /-- FROZEN_HAND_MOVE (R63): From the first boundary at least 2 µs after an engine freeze, every descriptor of its hand takes a new hand
  engine. -/
  | frozenHandMove (e : Fin 32)
  /-- CHAL_NEW (R67): A write of TRU_CTL.CHAL_NEW makes a new 32-byte host-port challenge. -/
  | chalNew (m : Fin 39)
  /-- CHALLENGE_EXPIRY (R67): A challenge becomes void 60 s after it was made. -/
  | challengeExpiry (debug : Bool)
  /-- TOKEN_GO (R68): A write of TRU_CTL.TOKEN_GO starts verification of the token and key held in TRU_FIFO. -/
  | tokenGo (m : Fin 39)
  /-- TOKEN_VERIFIED (R68): Token verification ends: on success the token's action is carried out, otherwise TOKEN_ERR and REASON are set.
  -/
  | tokenVerified
  /-- DEBUG_TOKEN (R70): A token shifted into the JTAG token data register is presented for debug unlock. -/
  | debugToken (words : List Word)
  /-- QUOTE_REQ (R75): A write of TRU_CTL.QUOTE_REQ makes the Dealer build and sign an attestation quote over the host nonce. -/
  | quoteReq (m : Fin 39)
  /-- QUOTE_READY (R75): The signed quote is placed in TRU_FIFO and TRU_STAT.QUOTE_READY is set within 2 ms. -/
  | quoteReady
  /-- DBG_LOCK (R73): A write of TRU_CTL.DBG_LOCK ends any debug unlock. -/
  | dbgLock (m : Fin 39)
  /-- FIFO_CLR (R76): A write of TRU_CTL.FIFO_CLR empties TRU_FIFO. -/
  | fifoClr (m : Fin 39)
  /-- TRU_FIFO (R76): A word written to TRU_FIFO is pushed, and a read pops a word, clearing QUOTE_READY after the last quote word. -/
  | truFifo (m : Fin 39) (w : Option Word)
  /-- PROVISION (R45): The mailbox provisioning command wraps K_DECK, programs slot 0 and PROVISIONED, or is refused once provisioned. -/
  | provision (m : Fin 39) (args : List Word)
  /-- DEAL (R517): The mailbox DEAL command checks the preconditions of R95 and starts staging a deck from its argument words. -/
  | deal (m : Fin 39) (len : Nat)
  /-- MB_DATA (R516): A word written to HST_MB_DATA is taken as an argument; the last expected word runs the command, and an unexpected
  word sets DROP. -/
  | mbData (m : Fin 39) (w : Word)
  /-- DEALING_END (R97): Dealing of a staged deck ends with all checks passed and the deck distributed, or with a refusal that leaves the
  previous state. -/
  | dealingEnd (pcrc : Word × Word)
  /-- STORE (R94): The mailbox STORE command writes the dealt deck into the unused flash slot, container first and descriptor last. -/
  | store (m : Fin 39)
  /-- STORE_DONE (R94): The flash store ends, switching the slot in use or setting STORE_ERR. -/
  | storeDone (ok : Bool)
  /-- ABORT (R518): The mailbox ABORT command ends a command still awaiting arguments and discards its staged words. -/
  | abort (m : Fin 39)
  /-- VERSION (R516): The mailbox VERSION command replies with the ROM version and the mailbox protocol version. -/
  | version (m : Fin 39)
  /-- MB_REPLY (R516): A read of HST_MB_REPLY pops one reply word, or returns 0 when empty. -/
  | mbReply (m : Fin 39)
  /-- ANG_CTL (R110): A write of ANG_CTL naming no valid source keeps KIND and INDEX, sets SRC_ERR and asserts source 184. -/
  | angCtl (m : Fin 39) (v : Word)
  /-- ANGLE_SAMPLE (R114): A master-angle sample is processed: discarded if late or not newer, or used to correct rate and phase. -/
  | angleSample (kind : Fin 8) (index : Nat) (v : DWord) (tk : Nat) (uncertain : Bool)
  /-- EXTRAPOLATOR_STEP (R113): Every nanosecond the unit adds the rate and correction slew to the angle estimate. -/
  | extrapolatorStep
  /-- VIRTUAL_RATE_SLEW (R117): At each whole microsecond a virtual master's rate moves by ANG_VSLEW towards ANG_VRATE. -/
  | virtualRateSlew
  /-- HANDOVER_ABANDON (R121): If the new source gives no sample within 2 rounds the handover is abandoned and KIND and INDEX revert. -/
  | handoverAbandon
  /-- SOURCE_LOST (R122): After ANG_LOSS_TO µs without an accepted sample the unit sets LOST and holds or ramps the rate. -/
  | sourceLost
  /-- RATE_RAMP (R122): At each whole microsecond after loss with LOSS_ACT 1 the rate magnitude is reduced by one ramp step. -/
  | rateRamp
  /-- PULSE_END (R137): An EVT pulse ends after PULSE × 8 ns and the pin returns low. -/
  | pulseEnd (pin : Fin 16)
  /-- EVT_INSERT (R133): ANG_EVT_CMD insert adds the staged record under the lowest free handle, or refuses it as past, full or invalid. -/
  | evtInsert (m : Fin 39)
  /-- EVT_DELETE (R132): ANG_EVT_CMD delete removes the record named by HANDLE. -/
  | evtDelete (m : Fin 39) (handle : Nat)
  /-- EVT_REPLACE (R134): ANG_EVT_CMD replace atomically replaces the record of HANDLE by the staged record with fresh state. -/
  | evtReplace (m : Fin 39) (handle : Nat)
  /-- EVT_READ (R132): ANG_EVT_CMD read copies the record of HANDLE into the staging registers. -/
  | evtRead (m : Fin 39) (handle : Nat)
  /-- EDIT_COMPLETE (R132): A table edit completes within 10 µs, BUSY clears and source 186 asserts. -/
  | editComplete
  /-- CAPIN_EDGE (R143): An accepted CAPIN edge stores polarity, angle and plant time in the input's FIFO, or overflows. -/
  | capinEdge (i : Fin 8) (rising : Bool)
  /-- ANG_CAP_POP (R144): A write to ANG_CAPi_POP moves the oldest CAPIN entry into the holding registers. -/
  | angCapPop (m : Fin 39) (i : Fin 8)
  /-- RECEIVER_LOCK (R153): A receiver comes into lock after 4 aligned K28.5 commas. -/
  | receiverLock (port : Fin 9)
  /-- LOSS_OF_LOCK (R153): A receiver loses lock after 64 symbol times without a valid code group. -/
  | lossOfLock (port : Fin 9)
  /-- UPSTREAM_TURN (R217): A turn received in a node's window is checked and given exactly one outcome, counted per node. -/
  | upstreamTurn (seg : Fin 8) (p : Fin 64) (far : Bool) (ofs : Int) (x : Frame)
  /-- TURN_WINDOW_CLOSE (R217): A turn window closes with no start symbol and the turn's outcome is Empty. -/
  | turnWindowClose (seg : Fin 8) (p : Fin 64)
  /-- BREAK_NOTICE (R183): A valid break notice on port 2k+1 splits the ring so lead frames go out on both ports. -/
  | breakNotice (n : Notice)
  /-- RING_CLOSURE (R185): At the closure boundary the head emits on port 2k only and clears SPLIT and CLOSING. -/
  | ringClosure (ring : Fin 4)
  /-- LEAD_BLOCK_RECEIVED (R439): A lead block received by the device is used for ring return timing, path A of a dummy, Listen or
  deposition. -/
  | leadBlockReceived (ring : Fin 4) (far : Bool) (ofs : Nat) (x : Frame) (blocks : List Frame)
  /-- SEG_START (R224): SEG_CTL.START starts a stopped segment in Listen. -/
  | segStart (m : Fin 39) (seg : Fin 8)
  /-- SEG_STOP (R224): SEG_CTL.STOP stops the segment at the next segment boundary. -/
  | segStop (m : Fin 39) (seg : Fin 8)
  /-- SWITCH_GO (R211): SEG_CTL.SWITCH_GO requests a switch to TARGET, announced after the R172 check or refused. -/
  | switchGo (m : Fin 39) (seg : Fin 8) (target : Fin 8)
  /-- CONTRACT_REQUEST (R223): A committed SEG_B_REQ.CONTRACT different from the one in force starts a contract switch. -/
  | contractRequest (seg : Fin 8) (c : Fin 8)
  /-- SEGMENT_RESTART (R223): A committed SEG_B_REQ.RESTART restarts the segment from Listen at its commit boundary. -/
  | segmentRestart (seg : Fin 8)
  /-- LISTEN_END (R187): After 4 segment rounds of Listen the head enters Cold. -/
  | listenEnd (seg : Fin 8)
  /-- COLD_TIMEOUT (R187): After 8 rounds in Cold without a valid CALL the head returns to Listen. -/
  | coldTimeout (seg : Fin 8)
  /-- CALL (R195): The first valid CALL names the opener and moves the head to Integrate. -/
  | call (seg : Fin 8) (arrival : Nat) (x : Frame)
  /-- INTEGRATE_END (R187): After 4 rounds of Integrate the head enters Walk. -/
  | integrateEnd (seg : Fin 8)
  /-- ENUM_R (R198): An ENUM_R answer is stamped and the node's chain delays are computed for PLACE. -/
  | enumR (seg : Fin 8) (arrival : Nat) (poison : Bool) (body crc : List Byte)
  /-- ENUM_UNANSWERED (R200): An ENUM unanswered in two consecutive rounds ends the walk. -/
  | enumUnanswered (seg : Fin 8)
  /-- AUTH2 (R205): A node's AUTH2 is checked for NP and tag and answered with AUTH3. -/
  | auth2 (seg : Fin 8) (p : Fin 64) (poison : Bool) (body crc : List Byte)
  /-- AUTH4 (R205): A valid AUTH4 begins the node's session. -/
  | auth4 (seg : Fin 8) (p : Fin 64) (poison : Bool) (bytes : List Byte)
  /-- AUTH4_NAK (R205): A node reports a carousel digest mismatch and gets no session. -/
  | auth4Nak (seg : Fin 8) (p : Fin 64) (x : Frame)
  /-- AUTH_TIMEOUT (R205): The exchange is abandoned when AUTH2 or AUTH4 does not arrive within its bound. -/
  | authTimeout (seg : Fin 8) (p : Fin 64)
  /-- START_TIMEOUT (R188): A start-up reaching 256 segment rounds sets START_ERR and returns to Listen. -/
  | startTimeout (seg : Fin 8)
  /-- NACK (R211): A node's NACK refuses an announced contract. -/
  | nack (seg : Fin 8) (p : Fin 64) (x : Frame)
  /-- SWITCH_DECISION (R211): At round s+8 the head cancels the switch if a NACK arrived or continues the countdown. -/
  | switchDecision (seg : Fin 8)
  /-- CONTRACT_SWITCH (R211): At boundary C the first lead frame under the new contract is emitted. -/
  | contractSwitch (seg : Fin 8)
  /-- CLAIM (R215): A valid CLAIM in a position or kitty window may be granted in the next lead block. -/
  | claim (seg : Fin 8) (window : Fin 68) (poison : Bool) (bytes : List Byte)
  /-- KITTY_TIMEOUT (R216): A kitty window is freed 8 rounds after a grant without AUTH4, setting KITTY_TO. -/
  | kittyTimeout (seg : Fin 8) (window : Fin 4)
  /-- NODE_MISSING (R219): A node without a valid turn in MISS consecutive rounds becomes missing. -/
  | nodeMissing (seg : Fin 8) (p : Fin 64)
  /-- WAKE (R313): A valid turn ends a cyclic wait 40 ns after its data, and the task is placed on its hand engine or a new hand. -/
  | wake (d : Fin 1024)
  /-- WAIT_TIMEOUT (R314): A cyclic wait times out and wakes the task with EXTRAP set. -/
  | waitTimeout (d : Fin 1024)
  /-- DELAY_LIST_TICK (R317): Each 1 µs tick releases every due background descriptor and places it in a background queue. -/
  | delayListTick
  /-- FLOW_TIMEOUT (R330): A background result not closed within FLOW_TO µs is skipped by its flow. -/
  | flowTimeout (f : Fin 16)
  /-- HAND_MOVE (R323): At the first boundary at least 2 µs after a halt or domain off the leaving engine's hand moves. -/
  | handMove (e : Fin 32)
  /-- DIS_READ (R310): DIS_CMD read copies descriptor INDEX into staging. -/
  | disRead (m : Fin 39) (d : Fin 1024)
  /-- CREATE (R310): DIS_CMD create makes a descriptor at INDEX from staging, or refuses it. -/
  | create (m : Fin 39) (d : Fin 1024)
  /-- DESCRIPTOR_ADMISSION (R311): The Dealer's critical-path check of a new node or segment descriptor completes, admitting or refusing
  it. -/
  | descriptorAdmission
  /-- DIS_DELETE (R312): DIS_CMD delete removes a descriptor at once or when its copy ends. -/
  | disDelete (m : Fin 39) (d : Fin 1024)
  /-- KICK (R317): DIS_CMD KICK releases a background descriptor at the next tick. -/
  | kick (m : Fin 39) (d : Fin 1024)
  /-- REHOME (R323): DIS_CMD REHOME moves a cyclic descriptor to a named pool engine at the next boundary. -/
  | rehome (m : Fin 39) (d : Fin 1024) (e : Fin 32)
  /-- STATCLR (R333): DIS_CMD STATCLR clears the statistics of one descriptor or of all. -/
  | statclr (m : Fin 39) (d : Fin 1024) (all : Bool)
  /-- HALT (R376): A committed LE_CTL.HALT = 1 removes the engine from the pool. -/
  | halt (e : Fin 32)
  /-- HALT_DONE (R376): When queued and running tasks complete the engine halts and HALTED sets. -/
  | haltDone (e : Fin 32)
  /-- HALT_CLEAR (R376): A committed LE_CTL.HALT = 0 returns the engine to the pool with no hand. -/
  | haltClear (e : Fin 32)
  /-- MPY (R384): M-format word with AOP MPY: parallel moves and routed products begin new sums. -/
  | leMpy (e : Fin 32) (men : BitVec 4) (rt : Fin 4) (int : Bool) (xm : BitVec 10) (ym : BitVec 10) (scn : Bool)
  /-- MAC (R384): M-format word with AOP MAC adds routed products to the accumulators. -/
  | leMac (e : Fin 32) (men : BitVec 4) (rt : Fin 4) (int : Bool) (xm : BitVec 10) (ym : BitVec 10) (scn : Bool)
  /-- MSU (R384): M-format word with AOP MSU subtracts routed products from the accumulators. -/
  | leMsu (e : Fin 32) (men : BitVec 4) (rt : Fin 4) (int : Bool) (xm : BitVec 10) (ym : BitVec 10) (scn : Bool)
  /-- CLR (R387): Clears An and begins a sum. -/
  | leClr (e : Fin 32) (n : Fin 4)
  /-- MOVA (R387): Copies Am and its saturation flag into An. -/
  | leMova (e : Fin 32) (n : Fin 4) (m : Fin 4)
  /-- ADD (R387): Adds Am to An. -/
  | leAdd (e : Fin 32) (n : Fin 4) (m : Fin 4)
  /-- SUB (R387): Subtracts Am from An. -/
  | leSub (e : Fin 32) (n : Fin 4) (m : Fin 4)
  /-- BFY (R387): Forms An + Am and An − Am together. -/
  | leBfy (e : Fin 32) (n : Fin 4) (m : Fin 4)
  /-- NEG (R387): Negates An. -/
  | leNeg (e : Fin 32) (n : Fin 4)
  /-- ABS (R387): Takes the magnitude of An. -/
  | leAbs (e : Fin 32) (n : Fin 4)
  /-- ASH (R388): Shifts An by an immediate count. -/
  | leAsh (e : Fin 32) (n : Fin 4) (k : BitVec 7)
  /-- ASHG (R388): Shifts An by Gi. -/
  | leAshg (e : Fin 32) (n : Fin 4) (i : Fin 8)
  /-- ASHA (R388): Shifts A0 to A3 by Gi. -/
  | leAsha (e : Fin 32) (i : Fin 8)
  /-- ASHB (R387): Shifts An by the block exponent. -/
  | leAshb (e : Fin 32) (n : Fin 4)
  /-- SCAN (R352): Updates BX with the exponent of An. -/
  | leScan (e : Fin 32) (n : Fin 4)
  /-- INT_ADD (R389): Integer add on G registers. -/
  | leIntAdd (e : Fin 32) (d : Fin 8) (g : Fin 8) (imm : Bool) (v : BitVec 16)
  /-- INT_SUB (R389): Integer subtract on G registers. -/
  | leIntSub (e : Fin 32) (d : Fin 8) (g : Fin 8) (imm : Bool) (v : BitVec 16)
  /-- AND (R389): Integer AND on G registers. -/
  | leAnd (e : Fin 32) (d : Fin 8) (g : Fin 8) (imm : Bool) (v : BitVec 16)
  /-- OR (R389): Integer OR on G registers. -/
  | leOr (e : Fin 32) (d : Fin 8) (g : Fin 8) (imm : Bool) (v : BitVec 16)
  /-- XOR (R389): Integer XOR on G registers. -/
  | leXor (e : Fin 32) (d : Fin 8) (g : Fin 8) (imm : Bool) (v : BitVec 16)
  /-- LSL (R389): Logical shift left on G registers. -/
  | leLsl (e : Fin 32) (d : Fin 8) (g : Fin 8) (imm : Bool) (v : BitVec 16)
  /-- LSR (R389): Logical shift right on G registers. -/
  | leLsr (e : Fin 32) (d : Fin 8) (g : Fin 8) (imm : Bool) (v : BitVec 16)
  /-- ASR (R389): Arithmetic shift right on G registers. -/
  | leAsr (e : Fin 32) (d : Fin 8) (g : Fin 8) (imm : Bool) (v : BitVec 16)
  /-- MIN (R389): Signed minimum on G registers. -/
  | leMin (e : Fin 32) (d : Fin 8) (g : Fin 8) (imm : Bool) (v : BitVec 16)
  /-- MAX (R389): Signed maximum on G registers. -/
  | leMax (e : Fin 32) (d : Fin 8) (g : Fin 8) (imm : Bool) (v : BitVec 16)
  /-- LDI (R390): Loads a sign-extended immediate into a register. -/
  | leLdi (e : Fin 32) (code : BitVec 7) (imm : BitVec 16)
  /-- LDIH (R390): Loads an immediate into the high half of a register. -/
  | leLdih (e : Fin 32) (code : BitVec 7) (imm : BitVec 16)
  /-- MOV (R391): Copies one register to another. -/
  | leMov (e : Fin 32) (dst : BitVec 7) (src : BitVec 7)
  /-- LD (R392): Loads a bank word into a register. -/
  | leLd (e : Fin 32) (code : BitVec 7) (k : Fin 8) (upd : BitVec 3) (scn : Bool)
  /-- ST (R392): Stores a register into a bank word. -/
  | leSt (e : Fin 32) (code : BitVec 7) (k : Fin 8) (upd : BitVec 3) (scn : Bool)
  /-- LDA (R392): Loads a Q1.31 bank word into An. -/
  | leLda (e : Fin 32) (n : Fin 4) (k : Fin 8) (upd : BitVec 3) (scn : Bool)
  /-- LDAP (R392): Loads a bank word pair into An and An+1. -/
  | leLdap (e : Fin 32) (n : Fin 4) (k : Fin 8) (upd : BitVec 3) (scn : Bool)
  /-- STA (R349): Fractional store of An to a bank word. -/
  | leSta (e : Fin 32) (n : Fin 4) (k : Fin 8) (upd : BitVec 3) (scn : Bool)
  /-- STAP (R392): Fractional store of An and An+1 to a bank pair. -/
  | leStap (e : Fin 32) (n : Fin 4) (k : Fin 8) (upd : BitVec 3) (scn : Bool)
  /-- LD64 (R392): Loads a 64-bit bank pair into An. -/
  | leLd64 (e : Fin 32) (n : Fin 4) (k : Fin 8) (upd : BitVec 3) (scn : Bool)
  /-- ST64 (R392): Integer store of An to a bank pair. -/
  | leSt64 (e : Fin 32) (n : Fin 4) (k : Fin 8) (upd : BitVec 3) (scn : Bool)
  /-- LDF (R393): Issues a checked 32-bit fabric load. -/
  | leLdf (e : Fin 32) (code : BitVec 7) (i : Fin 4) (fupd : Fin 4) (scn : Bool)
  /-- STF (R393): Issues a checked 32-bit fabric store. -/
  | leStf (e : Fin 32) (code : BitVec 7) (i : Fin 4) (fupd : Fin 4) (scn : Bool)
  /-- LDF64 (R393): Issues a 64-bit fabric load into An. -/
  | leLdf64 (e : Fin 32) (n : Fin 4) (i : Fin 4) (fupd : Fin 4) (scn : Bool)
  /-- STF64 (R393): Issues a 64-bit fabric store of An. -/
  | leStf64 (e : Fin 32) (n : Fin 4) (i : Fin 4) (fupd : Fin 4) (scn : Bool)
  /-- FLDB (R393): Loads 32 bytes from the fabric into 8 bank words. -/
  | leFldb (e : Fin 32) (k : Fin 8) (upd : BitVec 3) (i : Fin 4) (fupd : Fin 4) (scn : Bool)
  /-- FSTB (R393): Stores 8 bank words to 32 fabric bytes. -/
  | leFstb (e : Fin 32) (k : Fin 8) (upd : BitVec 3) (i : Fin 4) (fupd : Fin 4) (scn : Bool)
  /-- FABRIC_LOAD_RETURN (R358): Data of an outstanding fabric load arrives, or an error response raises fault 0x05. -/
  | fabricLoadReturn (e : Fin 32) (error : Bool)
  /-- FABRIC_STORE_COMPLETE (R397): An outstanding fabric store completes. -/
  | fabricStoreComplete (e : Fin 32) (error : Bool)
  /-- NOP (R394): Does nothing. -/
  | leNop (e : Fin 32)
  /-- B (R394): Branches to a target. -/
  | leB (e : Fin 32) (t : BitVec 16)
  /-- BC (R394): Branches if a condition holds. -/
  | leBc (e : Fin 32) (cond : BitVec 4) (x : BitVec 4) (t : BitVec 16)
  /-- RET (R394): Pops the return address. -/
  | leRet (e : Fin 32)
  /-- REPI (R359): Starts a hardware repeat with an immediate count. -/
  | leRepi (e : Fin 32) (len : BitVec 8) (count : BitVec 16)
  /-- REPG (R359): Starts a hardware repeat with a count from Gi. -/
  | leRepg (e : Fin 32) (len : BitVec 8) (i : Fin 8)
  /-- BRK (R361): Pops the innermost repeat and continues after its body. -/
  | leBrk (e : Fin 32)
  /-- END (R397): Ends the task once its fabric loads have arrived. -/
  | leEnd (e : Fin 32)
  /-- LDENT (R396): Loads the entry block into G0 to G7. -/
  | leLdent (e : Fin 32)
  /-- BXC (R394): Sets BX to 63. -/
  | leBxc (e : Fin 32)
  /-- FSYNC (R394): Waits until every fabric store of the task has completed. -/
  | leFsync (e : Fin 32)
  /-- CMODE (R255): A committed change of AX_MCTL.CMODE starts the new command mode from the present triple. -/
  | cmode (i : Fin 256) (mode : Fin 4)
  /-- AX_STOP (R257): A committed AX_MCTL.STOP brings the axis to standstill with PDEC and PJERK. -/
  | axStop (i : Fin 256)
  /-- GCANCEL (R274): A committed AX_MCTL.GCANCEL disarms an armed ratio change. -/
  | gcancel (i : Fin 256)
  /-- TARGET (R261): A committed AX_TARGET starts or replans a move or offset move. -/
  | target (i : Fin 256) (v : DWord)
  /-- GANG (R273): A commit of the AX_GANG pair arms a ratio change. -/
  | gang (i : Fin 256) (v : DWord)
  /-- GRATIO (R274): A commit of AX_GRATIO while engaged arms a change that triggers in the next round. -/
  | gratio (i : Fin 256) (v : DWord)
  /-- ENABLE (R250): A committed AX_CTL.ENABLE = 1 starts the enable sequence, or is refused with EN_REF. -/
  | enable (i : Fin 256)
  /-- DISABLE (R251): A committed AX_CTL.ENABLE = 0 stops the node and clears ENABLED. -/
  | disable (i : Fin 256)
  /-- ENABLE_TIMEOUT (R250): If ENABLED is not reported within AX_ENTO ms the axis faults with code 0x04. -/
  | enableTimeout (i : Fin 256)
  /-- AUTOMATIC (R245): A committed AUTO = 1 sets the command to actual and presets the integrator. -/
  | automatic (i : Fin 256)
  /-- MANUAL (R245): A committed AUTO = 0 replaces the manual values by the last outputs and enters manual. -/
  | manual (i : Fin 256)
  /-- AX_FAULT_ACK (R238): A committed AX_CTL.FAULT_ACK clears FAULT and FCODE if the condition no longer holds. -/
  | axFaultAck (i : Fin 256)
  /-- RC_CLEAR (R243): A committed AX_CTL.RC_CLEAR zeroes the repetitive-controller table. -/
  | rcClear (i : Fin 256)
  /-- INJECTION (R248): A committed INJ_EN starts test injection when the axis is enabled, automatic and fault-free. -/
  | injection (i : Fin 256)
  /-- INJECTION_END (R248): After LEN rounds the device clears INJ_EN and injection stops. -/
  | injectionEnd (i : Fin 256)
  /-- DECODER_SAMPLE (R283): Every 8 ns the decoder samples A, B and Z, filters them and counts accepted transitions. -/
  | decoderSample (c : Fin 16) (a : Bool) (bb : Bool) (z : Bool)
  /-- POSITION_LATCH (R287): For a KIND 1 source the channel latches its position every 250 ns. -/
  | positionLatch (c : Fin 16)
  /-- SSI_FRAME_END (R295): An SSI frame ends with a position sample, or fails and is counted. -/
  | ssiFrameEnd (c : Fin 16) (word : Nat) (highBefore : Bool) (lowAfter : Bool)
  /-- INPUT_BELOW_THRESHOLD (R303): A differential input below threshold for over 1 µs raises feedback fault 6. -/
  | inputBelowThreshold (c : Fin 16) (below : Bool)
  /-- FB_ENABLE (R282): A committed FB_CTL.EN starts the channel, or is refused with CFG_ERR for SSI timing. -/
  | fbEnable (c : Fin 16)
  /-- FB_FAULT_ACK (R304): A committed FB_CTL.FAULT_ACK clears the channel fault unless its cause persists. -/
  | fbFaultAck (c : Fin 16)
  /-- LOAD (R291): A committed FB_CTL.LOAD sets the count to FB_SETPOS. -/
  | load (c : Fin 16)
  /-- UNC_CLR (R289): A committed FB_CTL.UNC_CLR clears UNCERT when FB_LINES is 0. -/
  | uncClr (c : Fin 16)
  /-- FB_CNT_CLR (R306): A committed FB_CTL.CNT_CLR clears FB_ERR. -/
  | fbCntClr (c : Fin 16)
  /-- ARM (R407): An arm of a capture group checks its channels and arms them at the next boundary, or refuses. -/
  | arm (m : Fin 39) (g : Fin 8)
  /-- DISARM (R415): A disarm ends a capture group's arm. -/
  | disarm (m : Fin 39) (g : Fin 8)
  /-- FORCE (R411): CAP_G_CTL.FORCE triggers an armed group. -/
  | force (m : Fin 39) (g : Fin 8)
  /-- TRIG_ARM_EDGE (R415): A TRIG_ARM edge arms or disarms follower groups. -/
  | trigArmEdge (low : Bool)
  /-- TRIG_FIRE_EDGE (R416): A falling TRIG_FIRE edge triggers groups with t_trig recovered from DLY and WIRE. -/
  | trigFireEdge (low : Bool)
  /-- FIRE_PULSE (R416): At t_trig plus DLY a master group pulls TRIG_FIRE low for 1 µs. -/
  | firePulse (g : Fin 8)
  /-- READOUT_START (R421): CAP_RD_CTL.START begins reading records of one channel. -/
  | readoutStart (m : Fin 39) (ch : Fin 64) (red : Fin 16) (hdr : Bool)
  /-- CAP_RD_DATA (R422): A read of CAP_RD_DATA pops the next readout word. -/
  | capRdData (m : Fin 39)
  /-- ELECTION (R436): Step 4 brings the partner link into lock and decides the unit's role. -/
  | election
  /-- HELLO (R436): A received HELLO frame feeds the election. -/
  | hello (poison : Bool) (bytes : List Byte)
  /-- HELLO_TIMEOUT (R436): Without a valid HELLO within 4 ms the unit becomes an unpaired declarer. -/
  | helloTimeout
  /-- HEARTBEAT (R438): A received heartbeat meets path B of the round. -/
  | heartbeat (poison : Bool) (bytes : List Byte) (delay : Nat)
  /-- PATH_B_MISS (R440): A heartbeat not valid within 4 µs of the boundary misses path B. -/
  | pathBMiss
  /-- PATH_A_MISS (R451): No valid lead block within 8 µs of the boundary misses path A. -/
  | pathAMiss
  /-- MIRROR (R443): Received mirror items are applied at the boundaries they name. -/
  | mirror (poison : Bool) (bytes : List Byte)
  /-- SESSION (R447): A SESSION frame delivers K_L, K_S or a session end to the dummy. -/
  | session (poison : Bool) (bytes : List Byte)
  /-- BULK (R456): A BULK frame carries part of the transfer to a new dummy. -/
  | bulk (poison : Bool) (header payload trailer : List Byte)
  /-- CAPTURE_FRAME (R415): A partner CAPTURE frame arms, disarms or fires a group. -/
  | captureFrame (poison : Bool) (header payload trailer : List Byte)
  /-- HANDOVER (R455): A planned handover is requested, or refused without a ready dummy. -/
  | handover
  /-- HANDOVER_BOUNDARY (R455): At boundary h the dummy takes over and the old declarer becomes dummy. -/
  | handoverBoundary
  /-- PTN_RESYNC (R456): PTN_CTL.RESYNC requests a new bulk transfer. -/
  | ptnResync
  /-- EVALUATION_CYCLE (R477): Channel A evaluates every safety function on its 50 µs grid. -/
  | evaluationCycle
  /-- SAFETY_EXCHANGE (R466): The channels exchange and compare their safety state every 50 µs. -/
  | safetyExchange (toA : Bool) (toB : Bool) (clockOk : Bool)
  /-- EXCHANGE_TIMEOUT (R466): No valid exchange for 1 ms raises fault 0x05. -/
  | exchangeTimeout (channelA : Bool)
  /-- SDI_EDGE (R467): A safety input changes level and is filtered for SFILT. -/
  | sdiEdge (i : Fin 16) (level : Bool)
  /-- TEST_PULSE (R468): A TPS off-pulse is driven and each input checked for missing or foreign pulses. -/
  | testPulse (j : Fin 4) (fell : BitVec 16) (driverOk : Bool)
  /-- DISCREPANCY (R470): A pair whose second input does not follow within DISC raises a discrepancy. -/
  | discrepancy (i : Fin 16)
  /-- SOUT_DARK_TEST (R471): Each channel switches its SOUT half off briefly and reads back both halves. -/
  | soutDarkTest (p : Fin 8) (stuckA : Bool) (stuckB : Bool)
  /-- SS1_T_EXPIRY (R479): Channel A removes torque SS1_T after its SS1 decision. -/
  | ss1TExpiry (f : Fin 32)
  /-- LOCKOUT_RESET (R483): A falling SRST_IN edge after 100 ms to 5 s high releases lockout, or is refused. -/
  | lockoutReset (widthA : Nat) (widthB : Nat)
  /-- SRST_LONG (R483): An SRST_IN pulse over 5 s sets SRST_LONG and asserts source 150. -/
  | srstLong
  /-- CHANNEL_A_SELF_TEST (R462): Channel A tests itself at every field-supply power-up. -/
  | channelASelfTest (pass : Bool)
  /-- FIELD_SAMPLE (R491): The field die samples inputs and evaluates output diagnostics and FAULT every 50 µs. -/
  | fieldSample (x : FieldIn)
  /-- TRIP (R495): A switch in current limit for 100 µs trips its whole set. -/
  | trip (n : Fin 16)
  /-- RETRY (R495): After RETRY × 10 ms a tripped set switches on again if still commanded. -/
  | retry (n : Fin 16)
  /-- FLD_WDOG (R497): A write of FLD_WDOG arms or restarts the host watchdog. -/
  | fldWdog (m : Fin 39) (v : Word)
  /-- WATCHDOG_EXPIRY (R497): WDTIME ms without a write turns off the outputs in WDMASK. -/
  | watchdogExpiry
  /-- FAULT_MASK_WRITE (R498): A write of FLD_FMASK sets MPEND until FAULT reflects the new mask. -/
  | faultMaskWrite (m : Fin 39) (hi : Bool) (v : Word)
  /-- FIELD_OVERTEMP (R496): The field die above 125 °C de-energises every DOUT. -/
  | fieldOvertemp
  /-- FIELD_CLOCK_FAILURE (R496): A field die clock failure de-energises every DOUT through asynchronous logic. -/
  | fieldClockFailure
  /-- ENDPOINT_RESET (R512): PERST_N, a link-down or a hot reset resets the PCIe endpoint alone. -/
  | endpointReset
  /-- QSPI_FRAME (R513): A quad-SPI read or write frame is served. -/
  | qspiFrame (cmd : Byte) (addr : BitVec 24) (data : List Word) (reads : Nat) (late : Bool) (cut : Bool)
  /-- HST_FW_DATA_READ (R519): A host read of an outbound window pops one word. -/
  | hstFwDataRead (m : Fin 39) (w : Fin 16)
  /-- HST_FW_DATA_WRITE (R520): A host write of an inbound window pushes one word. -/
  | hstFwDataWrite (m : Fin 39) (w : Fin 16) (v : Word)
  /-- HST_CNT_CLR (R515): HST_CTL.CNT_CLR clears the host port counters. -/
  | hstCntClr (m : Fin 39)
  /-- STAMP_LATCH (R524): A read of IRQ_S_TIME_LO latches the stamp record for that master. -/
  | stampLatch (m : Fin 39) (source : Fin 256)
  /-- IRQ_S_ACK (R525): A count written to IRQ_S_ACK clears pending if no later assertion occurred. -/
  | irqSAck (m : Fin 39) (source : Fin 256) (count : BitVec 16)
  /-- SNAPSHOT_REQUEST (R527): SNP_CTL.REQ makes a snapshot request pending. -/
  | snapshotRequest (m : Fin 39)
  /-- SNAPSHOT_COMPLETE (R529): A snapshot image completes, tags change and source 181 asserts. -/
  | snapshotComplete
  /-- SYNC (R537): An accepted Sync gives an offset measurement for the servo. -/
  | sync (p : Fin 2) (source : Nat) (domain : Nat) (twoStep : Bool) (seq : Nat) (origin : Int)
  /-- FOLLOW_UP (R533): A Follow_Up completes a two-step Sync. -/
  | followUp (p : Fin 2) (source : Nat) (seq : Nat) (origin : Int)
  /-- DELAY_REQ (R533): A transmitter port answers a Delay_Req with Delay_Resp. -/
  | delayReq (p : Fin 2) (source : Nat)
  /-- DELAY_RESP (R537): A Delay_Resp gives the mean path delay. -/
  | delayResp (p : Fin 2) (source : Nat) (received : Int)
  /-- PDELAY_REQ (R533): A received Pdelay_Req is answered one-step. -/
  | pdelayReq (p : Fin 2) (source : Nat)
  /-- PDELAY_RESP (R533): A Pdelay_Resp gives the neighbour delay and rate ratio. -/
  | pdelayResp (p : Fin 2) (twoStep : Bool) (value : Int)
  /-- PDELAY_RESP_FOLLOW_UP (R533): A Pdelay_Resp_Follow_Up completes a two-step response. -/
  | pdelayRespFollowUp (p : Fin 2) (sent : Int)
  /-- ANNOUNCE (R533): A received Announce is counted. -/
  | announce (p : Fin 2)
  /-- SYNC_TRANSMIT (R533): A transmitter port sends Sync one-step every Sync interval. -/
  | syncTransmit (p : Fin 2)
  /-- ANNOUNCE_TRANSMIT (R533): Announce is sent every second. -/
  | announceTransmit (p : Fin 2)
  /-- PDELAY_REQ_TRANSMIT (R533): Pdelay_Req is sent once per second. -/
  | pdelayReqTransmit (p : Fin 2)
  /-- PLANT_TIME_STEP (R539): At the next boundary plant time steps by whole rounds and the servo enters TRACK. -/
  | plantTimeStep
  /-- SYNC_RECEIPT_TIMEOUT (R541): A Sync receipt time-out enters HOLDOVER. -/
  | syncReceiptTimeout (p : Fin 2)
  /-- REALIGN (R542): REALIGN clears PLT_JOFS and returns the servo to ACQUIRE. -/
  | realign (m : Fin 39)
  /-- PUSH (R545): PLT_Q_PUSH appends a launch entry, or drops it. -/
  | push (m : Fin 39) (q : Fin 8) (v : Word)
  /-- LAUNCH (R546): A due queue head is launched or dropped as late. -/
  | launch (p : Fin 2)
  /-- LINE_ANGLE_MESSAGE (R550): A received line-angle message becomes a KIND 4 sample or is discarded. -/
  | lineAngleMessage (p : Fin 2) (x : LaMsg) (tag : BitVec 128)
  /-- PLT_MDIO (R531): A write of PLT_MDIO starts an MDIO frame. -/
  | pltMdio (m : Fin 39) (v : Word)
  /-- MDIO_DONE (R531): An MDIO frame ends and BUSY clears. -/
  | mdioDone (data : BitVec 16)
  /-- PLANT_LINK_CHANGE (R553): A plant port's LINK or AN_DONE changes. -/
  | plantLinkChange (p : Fin 2) (link : Bool) (anDone : Bool)
  /-- PLT_CNT_CLR (R552): PLT_CTL.CNT_CLR clears the plant counters. -/
  | pltCntClr (m : Fin 39)
  /-- RECORD_WRITE (R557): The Dealer writes one queued scorepad record and seals it. -/
  | recordWrite
  /-- SCP_HW_CMD (R565): SCP_HW_CMD adds a host record, or is refused. -/
  | scpHwCmd (m : Fin 39) (v : Word)
  /-- SCP_RD_GO (R566): SCP_RD_CTL.GO starts reading record SCP_RD_SEQ. -/
  | scpRdGo (m : Fin 39)
  /-- SCP_READ_DONE (R566): The record read completes with VALID, GONE or SEAL_ERR. -/
  | scpReadDone
  /-- OPSEC_TICK (R559): Each operating second the field die updates its cell. -/
  | opsecTick
  /-- MONITOR_WINDOW (R572): Each 128-RC-cycle window counts every source. -/
  | monitorWindow (ref : Nat) (plls : Vector (Bool × Nat) 5)
  /-- RC_CHECK (R573): The reference-clocked check judges the RC oscillator. -/
  | rcCheck (count : Nat)
  /-- REFERENCE_TIMEOUT (R574): The reference not stable or a PLL not in use in time stops start-up. -/
  | referenceTimeout
  /-- ASYNCHRONOUS_RESET (R577): 20 µs after a declaration the affected domains are reset asynchronously. -/
  | asynchronousReset
  /-- CLOCK_RESTART (R578): A failed source good for 100 ms causes an internal reset with cause 0x04. -/
  | clockRestart
  /-- GATE_CLOSE (R580): A clock gate closes once the block's fabric port reports idle. -/
  | gateClose (g : Fin 48)
  /-- GATE_FORCED (R580): After 64 cycles busy the gate closes by force with error responses. -/
  | gateForced (g : Fin 48) (flights : List (Fin 39 × Nat))
  /-- DOMAIN_SWITCH (R584): A power domain completes its switch on or off. -/
  | domainSwitch
  /-- PORST_N (R586): PORST_N low resets the whole core die. -/
  | porstN
  /-- RESET_N (R587): RESET_N low resets PD1 to PD11. -/
  | resetN (low : Nat)
  /-- SUPPLY_RISE (R586): The PD0 supply rising resets everything. -/
  | supplyRise
  /-- VDD_AO_FALL (R613): VDD_AO below 0.65 V is a power-on reset. -/
  | vddAoFall
  /-- LOCKSTEP_MISMATCH (R586): A Dealer lockstep mismatch resets with cause 0x05. -/
  | lockstepMismatch
  /-- DEALER_WATCHDOG (R586): An unserved Dealer watchdog resets after 10 ms. -/
  | dealerWatchdog
  /-- DEVRESET (R588): CPR_CTL.DEVRESET schedules a reset or is refused. -/
  | devreset (m : Fin 39)
  /-- HOST_DEVICE_RESET (R588): 1 ms after DEVRESET the device resets with cause 0x07. -/
  | hostDeviceReset
  /-- TRST_N (R586): TRST_N resets the JTAG TAP only. -/
  | trstN
  /-- TEMPERATURE_UPDATE (R592): Every 1 ms CPR_TEMP updates, asserting source 11 on crossing. -/
  | temperatureUpdate (t : Int)
  /-- FIELD_DIE_RESET (R614): VFIELD below 14.0 V resets the field die. -/
  | fieldDieReset
  /-- CALL_INSTRUCTION (R394): The CALL instruction pushes PC + 4 onto the return stack, faulting on a ninth push, and branches to its
  target. -/
  | callInstruction (e : Fin 32) (t : BitVec 16)
  /-- RESERVED_INSTRUCTION (R379): The engine issues a word of class 0x7, a reserved operation code, a non-zero reserved field or a zero
  word outside every image, and raises engine fault 0x01. -/
  | reservedInstruction (e : Fin 32)
  /-- CONFIGURATION_REQUEST (R526): A PCIe configuration request, such as a write of Interrupt Disable or of the power state, is served,
  and setting Interrupt Disable deasserts an asserted INTA. -/
  | configurationRequest (req : CfgReq)
  /-- RECEIVED_FRAME_DROPPED (R533): A plant-port frame that is not handled, such as a tagged, PAUSE, Signaling or Management frame,
  asserts the frame-start source, is dropped, counted in PLT_P_RX_DROP and asserts source 169 + 6p. -/
  | receivedFrameDropped (p : Fin 2)
  /-- DEBUG_PORT_CHALLENGE (R67): A request on the JTAG challenge data register makes a new debug-port challenge from the CTR_DRBG. -/
  | debugPortChallenge
  /-- LINK_UP (R611): PCIe link training completes and HST_MODE.LINK_UP and SPEED take their values. -/
  | linkUp (speed : Fin 4)
  deriving DecidableEq, Repr

end Sys2Proof
end

