-- ==== Sys2Proof/Decode.lean ====
section
/-!
DEFINITION. The command a word spells by the bits of the opcode table: the table gives no row any bits, so no word
spells a command.
-/

namespace Sys2Proof

/-- The command that the `nbits` bits `w` spell by opcode_table.json. Every row of the table has an empty list of
fields and no fixed bits, so the answer is always none. -/
def decodeTableWord (_nbits _w : Nat) : Option Instr := none

end Sys2Proof
end

