-- ==== Sys2Proof/Config.lean ====
section
/-!
DEFINITION. What an implementation fixes and what the manual leaves open. A constant without a body is a free value:
nothing proves a value of it. `freeValue` and its companions are applied to the counter `free` of the state.
-/

namespace Sys2Proof.Config

/-- A fresh word the manual does not fix (DESIGN CHOICE, log entry 2). -/
opaque freeWord : Nat → Word
/-- A fresh number the manual does not fix (DESIGN CHOICE, log entry 2). -/
opaque freeNat : Nat → Nat
/-- A fresh choice the manual leaves open (DESIGN CHOICE, log entry 2). -/
opaque freeBool : Nat → Bool
/-- 32 fresh bytes of the CTR_DRBG (02_trust.md R67). -/
opaque random : Nat → BitVec 256
/-- The ROM version word (02_trust.md Table 2.10; the manual gives no value). -/
opaque romVersion : Word
/-- SHA-384 over bytes (02_trust.md R66, R67). -/
opaque sha384 : List Byte → BitVec 384
/-- ECDSA P-384 verification of a signature (r, s) over a hash under an uncompressed key (02_trust.md R66, R67). -/
opaque ecdsaOk : BitVec 776 → BitVec 384 → BitVec 384 → BitVec 384 → Bool
/-- ECDSA P-384 signature (r, s) with a private key over a hash (02_trust.md R75, Table 2.1). -/
opaque ecdsaSign : Nat → BitVec 384 → BitVec 384 × BitVec 384
/-- The device unique key that the unclonable function gives with the helper data of OTP (02_trust.md R42). -/
opaque puf : BitVec 4096 → BitVec 256
/-- The AES-256-CMAC of bytes (02_trust.md R41). -/
opaque cmac256 : BitVec 256 → List Byte → BitVec 128
/-- Byte `i` of the AES-256-GCM key stream under a key and an IV (02_trust.md Table 2.1, 03_deck.md R81). -/
opaque stream256 : BitVec 256 → List Byte → Nat → Byte
/-- The AES-256-GCM tag over associated data and ciphertext (02_trust.md Table 2.2, 03_deck.md R81). -/
opaque tag256 : BitVec 256 → List Byte → List Byte → List Byte → BitVec 128
/-- Byte `i` of the AES-128-GCM key stream under a key and a nonce (14_partners.md R434). -/
opaque stream128 : BitVec 128 → List Byte → Nat → Byte
/-- The AES-128-GCM tag over associated data and ciphertext (14_partners.md R434). -/
opaque tag128 : BitVec 128 → List Byte → List Byte → List Byte → BitVec 128
/-- The identity word the TAP shifts out (02_trust.md R70; the manual gives no value). -/
opaque idcode : Word
/-- The byte of Etzan's standard loop law at a program address below 0x4000 (03_deck.md R89; the manual lists no word of it). -/
opaque romLaw : Nat → Byte
/-- The TYPE, less 4 and modulo 4, of the management blocks and frames of a kitty window, and of a NACK in Run
(06_thrumlos_start_and_schedules.md Table 6.4, R216; the manual gives none) (DESIGN CHOICE, log entry 120). -/
opaque mgmtType : Nat → Nat
/-- The TURN of the management blocks and frames of a kitty window and a position (06_thrumlos_start_and_schedules.md R216; the manual gives
none) (DESIGN CHOICE, log entry 120). -/
opaque kittyTurn : Nat → Nat → Nat
/-- What tags the node block of a position with which the head shares no K_S (05_thrumlos_link_and_frames.md R166; the manual gives none)
(DESIGN CHOICE, log entry 120). -/
opaque noKey : Nat → Nat → BitVec 128
/-- An AES-128-GCM tag with empty plaintext: key, nonce and associated data (05_thrumlos_link_and_frames.md R166). -/
opaque gcmTag : BitVec 128 → List Byte → List Byte → BitVec 128
/-- The AES-128-CMAC of bytes (06_thrumlos_start_and_schedules.md R203). -/
opaque cmac : BitVec 128 → List Byte → BitVec 128
/-- AES-128 of a block under a key (06_thrumlos_start_and_schedules.md R203, R206). -/
opaque aes : BitVec 128 → BitVec 128 → BitVec 128
/-- A microstep position in Q48.16 of axis `a` in counts of its local feedback (07_axis_loop_law.md R252; the manual
gives no factor). -/
opaque stepCounts : Nat → Int → Int
/-- The fabric address of the 256-byte area the Dealer reserves for the microcode state of axis `a`
(12_loop_engine_instructions.md R398; the manual gives no address). -/
opaque hookArea : Nat → Word
/-- Where in shared axis memory the 2 KiB of axis `a`'s resident slots are written back to (10_task_dispatch.md R322; the manual gives no
address). -/
opaque slotArea : Nat → Nat
/-- Bytes of shared axis memory that the state of an axis beyond the 16 resident ones of its engine takes (10_task_dispatch.md, hands;
the manual gives no figure). -/
opaque axisStateBytes : Nat

end Sys2Proof.Config
end

