-- ==== Sys2Proof/Machine/PartnerWords.lean ====
section
/-!
DEFINITION. The payload words of partner frames (14_partners.md Tables 14.2, 14.4, 14.5): their layout and its reading. Values of two words
lie low word first; the layouts of HELLO, SESSION and BULK and that of a key, most significant word first, are not in the manual (DESIGN
CHOICE, log entry 121).
-/

namespace Sys2Proof.Machine

/-- A value of two words. -/
def pairWords (v : Nat) : List Word := [BitVec.ofNat 32 v, BitVec.ofNat 32 (v / 2 ^ 32)]

/-- A long value of `n` words, the most significant first. -/
def longWords (n v : Nat) : List Word := (List.range n).map fun j => BitVec.ofNat 32 (v / 2 ^ (32 * (n - 1 - j)))

/-- The value of words, the most significant first. -/
def ofLong (ws : List Word) : Nat := ws.foldl (fun a w => a * 2 ^ 32 + w.toNat) 0

/-- Word `k` of a payload. -/
def wordAt (ws : List Word) (k : Nat) : Nat := (ws.getD k 0).toNat

/-- The value of two words from word `k`. -/
def pairAt (ws : List Word) (k : Nat) : Nat := wordAt ws k + wordAt ws (k + 1) * 2 ^ 32

/-- The first word of an item (R442): ITYPE, length in words, ARG. -/
def itemHead (t len arg : Nat) : Word := BitVec.ofNat 32 (t % 2 ^ 8 + len % 2 ^ 8 * 2 ^ 8 + arg % 2 ^ 16 * 2 ^ 16)

/-! ### Laying out -/

/-- A mirror item (Table 14.5). -/
def MirItem.toWords : MirItem → List Word
  | .header round epoch angle omega digest count backlog =>
    itemHead 1 12 0 :: pairWords round ++ [BitVec.ofNat 32 epoch] ++ pairWords angle ++ pairWords (wrapN 64 omega) ++
      [digest, count, backlog, 0].map (BitVec.ofNat 32)
  | .commit r16 off ws => itemHead 2 (2 + ws.length) r16 :: BitVec.ofNat 32 off :: ws
  | .seed i x v a m => itemHead 3 6 i :: pairWords (wrapN 64 x) ++ [wrapN 32 v, wrapN 32 a, m % 4].map (BitVec.ofNat 32)
  | .rc i p u => [itemHead 4 3 i, BitVec.ofNat 32 p, BitVec.ofNat 32 (wrapN 32 u)]
  | .words k ws => itemHead 5 (1 + ws.length) k :: ws

/-- A session item (Table 14.2). -/
def SessItem.toWords : SessItem → List Word
  | .lead seg key => itemHead 0x81 5 seg :: longWords 4 key.toNat
  | .node seg pos serial key => itemHead 0x82 7 (seg + 2 ^ 8 * pos) :: pairWords serial ++ longWords 4 key.toNat
  | .ended seg pos => [itemHead 0x83 1 (seg + 2 ^ 8 * pos)]

/-- An item of a transfer (R456). -/
def BulkItem.toWords : BulkItem → List Word
  | .item x => x.toWords
  | .key x => x.toWords
  | .event h r => [itemHead 0x91 5 h, r.w0, r.w1, r.w2, r.w3]
  | .desc d ws => itemHead 0x92 9 d :: ws.toList
  | .mem k ofs ws => itemHead 0x93 (2 + ws.length) k :: BitVec.ofNat 32 ofs :: ws

/-- A heartbeat (Table 14.4). -/
def Heartbeat.toWords (h : Heartbeat) : List Word :=
  BitVec.ofNat 32 (h.role % 4 + 4 * b2n h.ready + 8 * b2n h.yield + 16 * b2n h.stopped + 2 ^ 8 * (h.leadOk % 16)) ::
    BitVec.ofNat 32 h.epoch :: BitVec.ofNat 32 (h.round16 % 2 ^ 16) :: pairWords (h.departs / 2 ^ 32) ++
    [h.departs % 2 ^ 32, h.backlog % 2 ^ 16, 0].map (BitVec.ofNat 32)

/-- A HELLO (Table 14.2) (DESIGN CHOICE, log entry 121). -/
def Hello.toWords (h : Hello) : List Word :=
  pairWords h.serial ++ longWords 12 h.hash.toNat ++ [h.secver, h.role, h.epoch, h.boot].map (BitVec.ofNat 32)

/-- A CAPTURE frame (Table 14.2): operation, group, trigger time in 2^-32 ns. -/
def captureWords (op g t : Nat) : List Word :=
  BitVec.ofNat 32 (g % 8 + op % 4 * 2 ^ 8) :: pairWords (t / 2 ^ 32) ++ [BitVec.ofNat 32 t]

/-- The first word of a BULK frame: the first of a transfer, the last, or a dummy's request for one, and ROUND16 of the boundary it was
taken at (DESIGN CHOICE, log entry 121). -/
def bulkHead (first last ask : Bool) (round : Nat) : Word :=
  BitVec.ofNat 32 (b2n first + 2 * b2n last + 4 * b2n ask + round % 2 ^ 16 * 2 ^ 16)

/-- The payload of a request for a transfer. -/
def bulkRequest : List Word := [bulkHead false false true 0]

/-! ### Reading -/

/-- The mirror item that words make up; none for an ITYPE Table 14.5 does not name, or too few words. -/
def mirItemOf (ws : List Word) : Option MirItem :=
  let t := bits (wordAt ws 0) 0 8
  let arg := bits (wordAt ws 0) 16 16
  if t = 1 ∧ ws.length = 12 then
    some (.header (pairAt ws 1 % 2 ^ 48) (wordAt ws 3) (pairAt ws 4) (sgn 64 (pairAt ws 6)) (wordAt ws 8) (wordAt ws 9) (wordAt ws 10))
  else if t = 2 ∧ 3 ≤ ws.length then some (.commit arg (wordAt ws 1) (ws.drop 2))
  else if t = 3 ∧ ws.length = 6 then
    some (.seed arg (sgn 64 (pairAt ws 1)) (sgn 32 (wordAt ws 3)) (sgn 32 (wordAt ws 4)) (wordAt ws 5 % 4))
  else if t = 4 ∧ ws.length = 3 then some (.rc arg (wordAt ws 1 % 2 ^ 12) (sgn 32 (wordAt ws 2)))
  else if t = 5 then some (.words arg (ws.drop 1))
  else none

/-- The session item that words make up. -/
def sessItemOf (ws : List Word) : Option SessItem :=
  let t := bits (wordAt ws 0) 0 8
  let arg := bits (wordAt ws 0) 16 16
  let seg := arg % 2 ^ 8
  let pos := arg / 2 ^ 8
  if t = 0x81 ∧ ws.length = 5 then some (.lead seg (BitVec.ofNat 128 (ofLong (ws.drop 1))))
  else if t = 0x82 ∧ ws.length = 7 then some (.node seg pos (pairAt ws 1) (BitVec.ofNat 128 (ofLong (ws.drop 3))))
  else if t = 0x83 ∧ ws.length = 1 then some (.ended seg pos)
  else none

/-- The item of a transfer that words make up. -/
def bulkItemOf (ws : List Word) : Option BulkItem :=
  let t := bits (wordAt ws 0) 0 8
  let arg := bits (wordAt ws 0) 16 16
  if t = 0x91 ∧ ws.length = 5 then some (.event arg ⟨ws.getD 1 0, ws.getD 2 0, ws.getD 3 0, ws.getD 4 0⟩)
  else if t = 0x92 ∧ ws.length = 9 then some (.desc arg (Vector.ofFn fun j : Fin 8 => ws.getD (j.1 + 1) 0))
  else if t = 0x93 ∧ 2 ≤ ws.length then some (.mem arg (wordAt ws 1) (ws.drop 2))
  else match sessItemOf ws with
    | some x => some (.key x)
    | none => (mirItemOf ws).map .item

/-- The words of a payload cut into items, each as long as `len` says of its first word; the second list is an item not yet whole. An item
of no length ends the payload. -/
def cutItems (len : Word → Nat) : Nat → List Word → List (List Word) × List Word
  | 0, ws => ([], ws)
  | _ + 1, [] => ([], [])
  | n + 1, w :: t =>
    let k := len w
    if k = 0 then ([], [])
    else if (w :: t).length < k then ([], w :: t)
    else
      let (xs, rest) := cutItems len n ((w :: t).drop k)
      ((w :: t).take k :: xs, rest)

/-- The length an item's first word gives (R442). -/
def itemLen (w : Word) : Nat := bits w.toNat 8 8

/-- The length of a mirror item: that of a WORDS item follows from its record, for 1 + m does not fit the field where m is 255 or more
(DEDUCED, log entry 134). -/
def mirLen (region : Nat → Nat) (w : Word) : Nat := if bits w.toNat 0 8 = 5 then 1 + region (bits w.toNat 16 16) else itemLen w

/-- A heartbeat as read. -/
def heartbeatOf (ws : List Word) : Heartbeat :=
  let w := wordAt ws 0
  { role := bits w 0 2, ready := bit w 2, yield := bit w 3, stopped := bit w 4, leadOk := bits w 8 4, epoch := wordAt ws 1
    round16 := bits (wordAt ws 2) 0 16, departs := pairAt ws 3 * 2 ^ 32 + wordAt ws 5, backlog := bits (wordAt ws 6) 0 16 }

/-- A HELLO as read. -/
def helloOf (ws : List Word) : Hello :=
  { serial := pairAt ws 0, hash := BitVec.ofNat 384 (ofLong ((ws.drop 2).take 12)), secver := wordAt ws 14, role := wordAt ws 15
    epoch := wordAt ws 16, boot := wordAt ws 17 }

/-! ### Frames of many items -/

/-- A list cut into pieces of at most `n`, with fuel. -/
def pieces {α : Type} (n : Nat) : Nat → List α → List (List α)
  | 0, _ => []
  | _ + 1, [] => []
  | k + 1, x :: t => (x :: t).take n :: pieces n k ((x :: t).drop n)

/-- Items packed whole into payloads of at most `n` words; `cur` is the payload being filled. -/
def packItems (n : Nat) : List Word → List (List Word) → List (List Word)
  | cur, [] => if cur.isEmpty then [] else [cur]
  | cur, x :: t => if cur.length + x.length ≤ n ∨ cur.isEmpty then packItems n (cur ++ x) t else cur :: packItems n x t

/-- The rank of a frame's TYPE in sending priority (Table 14.2). -/
def txRank (type : Nat) : Nat :=
  if type = 4 then 0 else if type = 1 then 1 else if type = 5 then 2 else if type = 2 then 3 else if type = 3 then 4 else 5

/-- The frame a sender starts next: of those with the highest priority, the first queued (R435). -/
def nextTx : List TxFrame → Option TxFrame
  | [] => none
  | x :: t => match nextTx t with
    | some y => if txRank y.type < txRank x.type then some y else some x
    | none => some x

end Sys2Proof.Machine
end

