-- ==== Sys2Proof/Machine/State.lean ====
section
/-!
DEFINITION. The state of the block, the reasons a step can stop, and the state right after reset. Registers and other
volatile values the spec gives no reset value for are 0, empty or absent (DESIGN CHOICE, log entry 1).
-/

namespace Sys2Proof.Machine

/-- The machine: commands waiting, first in first out; what survives every reset; the volatile state. -/
structure State where
  pending : List Instr
  nv : NonVol
  blk : Block
  deriving DecidableEq, Repr

/-- Why the machine stops with a fault. The spec gives this part no stop: an access without a register reads 0
(17_host_interface.md R507), and every fault it names is an effect on the state. -/
inductive Fault where
  /-- Raised by no command: kept so that the type has a name to show. Safe. -/
  | absentMemory
  deriving DecidableEq, Repr

/-- Why a command is refused. -/
inductive Refusal where
  /-- The command has no meaning yet. Raised by `exec` alone. Safe: nothing is claimed of such a command. -/
  | notModelled (mnemonic : String)
  deriving DecidableEq, Repr

/-- The answer of a command that completes. -/
abbrev Outcome := Host.Outcome State Fault Refusal

namespace Reset

/-- OTP of a part: blank but for what Etzan test wrote, which the model holds as 0 (DESIGN CHOICE, log entry 1). -/
def otp : Otp :=
  { serial := 0, rootHash := 0, puf := 0, cert := 0, slots := Vector.replicate 4 ⟨0, 0⟩, wrapped := 0, secver := 0,
    provisioned := false, kill := false }

/-- A new part's scorepad and a blank boot flash (R556, R93; DESIGN CHOICE, log entry 1). -/
def nonVol : NonVol :=
  { otp := otp, pad := [], ctr := Vector.replicate 2 (ctrBytes 0 0 0 0), opsec := Vector.replicate 2 (opsecBytes 0),
    flash := [] }

/-- The trust unit at reset: no challenge, no unlock, no policy loaded (R67, R73). -/
def trust : Trust :=
  { loaded := false, policy := [], hostChal := none, dbgChal := none, fifo := [], quoteLeft := 0, token := none,
    unlock := none, nonce := none, quoteBody := [], tap := .idcode }

/-- The scorepad queue at reset (R561). -/
def scp : ScpUnit :=
  { queue := [], newest := none, repDirty := false, lostSince := 0, lastHost := none, wroteAt := none, readSeq := none }

/-- The host port at reset (R516, R519, R528). -/
def host : HostPort :=
  { mb := ⟨0, 0, [], false, false, []⟩, fw := Vector.replicate 16 [], images := Vector.replicate 2 ⟨false, [], 0, ⟨[], [], []⟩⟩,
    writing := none, gen := 0, tags := (0, 0, 0, 0), pcie := ⟨false, false, false, 0⟩ }

/-- The plant unit at reset: FREE (R538). -/
def plant : Plant :=
  { ri := 0, inRange := 0, outRange := 0, backRange := 0, rates := [], step := none, laSeq := 0, laSalt := 0,
    laLast := [], queues := Vector.replicate 8 [],
    ports := Vector.replicate 2 ⟨none, none, none, 0, none, none, none, 0, 0, none, 0, none, none, none⟩ }

/-- PD0 at reset: pins low until their release (R586). -/
def pd0 : Pd0 :=
  { failed := [], declaredAt := none, oddWindows := [], rcOdd := false, stable := 0, lastCount := 0, pllGood := [], pllsAt := none,
    goodSince := none, restarts := [], rcDead := false, porst := true, resetN := true, resetLow := none,
    devResetAt := none, gatePend := [], switching := [], owed := [], dealerRc := false, pendCause := 1,
    tempHigh := false, mux := [] }

/-- Start-up not yet begun (R35). -/
def boot : Boot :=
  { released := false, since := 0, frozen := false, step1 := false, step2 := false, step3 := false, step4 := false,
    dealing := false, staging := false, fromFlash := false, flashSlot := 0, flashSeq := 0, stage := [], phase := 0 }

/-- The line-angle unit at reset: stopped, angle 0 (R115, R138). -/
def ang : Ang :=
  { th := 0, w := 0, c := 0, cLeft := 0, saturated := false, mTh := 0, mW := 0, kind := 0, index := 0, accepted := 0,
    lastTheta := 0, lastT := 0, lastAccept := 0, ofs := 0, handover := none, lossW := 0, lossAt := none,
    absList := [], cycList := [], dueAbs := [], dueCyc := [], pins := 0, pulses := Vector.replicate 16 none,
    items := [], capCfg := Vector.replicate 8 (0, 0), capFifo := Vector.replicate 8 [], resyncSince := false,
    roundW := 0, stepped := false, edit := none, past := [] }

/-- The field die at its reset: outputs held (R496). -/
def field : Field :=
  { accepted := 0, level := 0, same := Vector.replicate 32 0, wbLow := Vector.replicate 32 0,
    wbHigh := Vector.replicate 32 0, wireBreak := 0, openLow := Vector.replicate 16 0,
    openHigh := Vector.replicate 16 0, openLoad := 0, tripped := 0, tripAt := Vector.replicate 16 0,
    vLow := false, padOff := false, voLow := 0, hot := false,
    clockFail := false, linkLost := false, mask := 0, conditions := 0, wdArmed := false, wdAt := 0, wdClear := 0,
    rx := none, rxAt := 0 }

/-- A safety channel at its reset: untested, every half off (R462). -/
def chan : Chan :=
  { tested := false, exch := false, exchAt := none, sdi := 0, stops := [], permit := Vector.replicate 8 0, ss1 := Vector.replicate 8 0,
    scnt := Vector.replicate 8 0, halves := 0, fault := 0 }

/-- The safety functions at reset: in lockout (R483). -/
def safety : Safety :=
  { raw := 0, changed := Vector.replicate 16 0, a := chan, b := chan, faultNow := Vector.replicate 4 0, faultHeld := 0,
    disc := Vector.replicate 16 .none, apart := Vector.replicate 16 none, startLock := true, mismatch := Vector.replicate 16 none, events := [] }

/-- Edge records before the first sample. -/
def edges : Edges :=
  { ref := ⟨0, 0⟩, anchor := ⟨0, 0⟩, last := ⟨0, 0⟩, seen := ⟨0, 0⟩, fwd := true, same := 0, started := false,
    prev := none }

/-- An axis at reset: at rest at 0, disabled. -/
def axis : Axis :=
  { gen := ⟨⟨0, 0, 0⟩, none, ⟨0, 0, 0, 0⟩, false⟩, gear := ⟨0, 0, 0, 0, none, none, none⟩, cmode := 0, starting := false,
    jog := false, rest := 0, rested := 0, startAt := false, joined := false, views := [], taskRound := 0,
    vf := 0, integ := 0, f1 := (0, 0), f2 := (0, 0), rc := [],
    rcPoint := none, rcSum := 0, rcCount := 0, rcSkip := none, rcCleared := false, inj := none, en := .off, enAt := 0,
    nmode := 0, preset := none, extrapRun := 0, node := ⟨0, 0, 0, 0, 0, 0, false, 0, false⟩,
    record := ⟨0, 0, 0, 0, 0, 0⟩, cur := ⟨.none, ⟨0, 0, 0, 0, 0, 0⟩, 0, ⟨0, 0, 0, 0, 0, 0⟩⟩,
    nxt := ⟨.none, ⟨0, 0, 0, 0, 0, 0⟩, 0, ⟨0, 0, 0, 0, 0, 0⟩⟩,
    sent := ⟨0, 0, 0, 0, 0, 0⟩, engine := 0 }

/-- A local channel at reset: disabled, count 0. -/
def channel : Channel :=
  { count := 0, raw := Vector.replicate 3 false, same := Vector.replicate 3 0, acc := Vector.replicate 3 false,
    gate := false, samples := 0, doubles := [], sinceIndex := 0, index := none, fieldV := none, fails := 0,
    below := false, faultNow := false, sampled := -1, edges := edges }

/-- A node-position entry at reset. -/
def entry : NodeEntry := { edges := edges, onsets := [], uncert := false }

/-- An empty descriptor (R308). -/
def desc : Desc :=
  { words := Vector.replicate 8 0, armed := false, deferred := none, deleting := false, admitting := false,
    kick := false, due := 0, rehome := none, cold := false, live := false, out := [], slot := none }

/-- A flow with nothing in it. -/
def flow : Flow := { next := 0, results := [], out := [], slack := none }

/-- The registers at task entry (R365): zero, and BX 63. -/
def eregs : ERegs :=
  { x := Vector.replicate 2 0, y := Vector.replicate 2 0, a := Vector.replicate 4 0, g := Vector.replicate 8 0,
    p := Vector.replicate 8 0, d := Vector.replicate 4 0, w := Vector.replicate 4 0, pa := 0,
    fa := Vector.replicate 4 0, reps := [], rets := [], pc := 0, bx := 63, av := false, sv := false,
    sat := Vector.replicate 4 false, extrap := false, cold := false, bkg := false }

/-- An idle engine. -/
def engine : Engine :=
  { regs := eregs, run := none, held := none, cq := [], bq := [], loads := [], dropped := [], stores := [], leftAt := none, cyc := 0,
    bkg := 0 }

/-- A node position nothing is known of. -/
def segNode : SegNode :=
  { auth := .none, nh := 0, nn := 0, ks := 0, hasKs := false, d := 0, claimed := false, session := false, first := false,
    rtt := 0, farDown := 0, farUp := 0,
    missRun := 0, lastOutcome := none, lastValid := none, far := false, bad := none, lastHeal := none }

/-- A stopped segment controller (Table 6.12). -/
def seg : Seg :=
  { fresh := false, k := 0, sr := 0, listen := 4, call := none, walk := none, kl := 0, hasKl := false, chunk := 0,
    switchAt := none, announced := 0, nack := false, aborted := false, want := none, stop := false, claims := [],
    grant := none, kitty := [], noticeAt := none, heal := 0, closeAt := none, closedAt := none, lead := none, frame := [],
    returnAt := none,
    walkerP := 0, nodes := [] }

/-- The partner unit before step 4: alone. -/
def partner : Partner :=
  { electing := none, hello := none, helloAt := none, outA := none, outB := none, ringsA := [], missA := 0, missB := 0, metB := 0,
    digests := 0, wasReady := false, stepTime := false, yieldAt := none, stopAt := none, xferDone := false, bulkDue := false,
    seedAll := false, queue := [], held := [], mirWords := 0, tx := [], txRound := 0, txSeq := 0, line := none, lineFree := 0,
    rxFrame := none, rxPart := some [], mirAngle := 0, digest := none, stamps := [] }

/-- An idle capture channel. -/
def capChan : CapChan :=
  { first := none, n := 0, sample := 0, mn := 0, mx := 0, sum := 0, unc := false, start := 0, written := 0,
    trig := none, f := 0, want := 0, goal := 0, prev := none, low := false, high := false, recent := [], freed := 0,
    halfSeen := false, stopped := false }

/-- An idle capture group. -/
def capGroup : CapGroup := { pend := false, since := 0, trig := none, fireAt := none, streams := false }

/-- The capture engine at reset: idle, TRIG_ARM and TRIG_FIRE high, no bank powered. -/
def capture : Capture :=
  { chans := [], groups := [], angles := Vector.replicate 3 0, times := Vector.replicate 3 0, banks := 0,
    armLow := false, fireLow := false, fireUntil := 0, rd := none }

/-- The volatile state at reset. -/
def block : Block :=
  { regs := [], shadow := [], vq := [], valid := [], due := [], latchHi := Vector.replicate 39 0,
    heldLo := Vector.replicate 39 0, stampLatch := Vector.replicate 39 (Vector.replicate 7 0),
    readData := Vector.replicate 39 0, mem := [], ecc := [], time := 0, up := 0, free := 0, dealt := none, passed := none, boot := boot,
    trust := trust, scp := scp, host := host, plant := plant, pd0 := pd0, ang := ang, field := field,
    safety := safety, axes := [], chans := [], entries := [], descs := [], flows := [], engines := [],
    segs := [], ports := Vector.replicate 9 none, partner := partner, roundAt := 0,
    cap := capture }

end Reset

/-- The machine right after reset. -/
def State.reset : State := { pending := [], nv := Reset.nonVol, blk := Reset.block }

end Sys2Proof.Machine
end

