-- ==== Sys2Proof/Machine/Ops.lean ====
section
/-!
DEFINITION. The named operations every family uses: registers and fields, memory, time, free values, interrupt
assertion (17_host_interface.md R523), scorepad events (19_scorepad.md R561), device errors, access checks
(02_trust.md R55), page levels (03_deck.md R101).
-/

namespace Sys2Proof.Machine

/-! ### Memory -/

/-- A byte of memory nothing has written reads 0 (DESIGN CHOICE, log entry 4), but for the first 16 KiB of a program memory, which hold
Etzan's standard loop law (03_deck.md R89), before the first deck is dealt too (DESIGN CHOICE, log entry 132). -/
def Memory.dflt (a : Nat) : Byte :=
  if 0x40000000 ≤ a ∧ a < 0x40800000 ∧ a % 0x40000 < 0x4000 then Config.romLaw (a % 0x40000) else 0

/-- The canonical form of a memory. -/
def Memory.wf (m : List Host.Cell) : Bool := swf Memory.dflt m

/-- One byte of a memory. -/
def Memory.read (m : List Host.Cell) (a : Nat) : Byte := sget Memory.dflt m a

/-- The memory with one byte written. -/
def Memory.write (m : List Host.Cell) (a : Nat) (v : Byte) : List Host.Cell := sput Memory.dflt m a v

/-- `n` bytes from address `a`. -/
def Memory.readBytes (m : List Host.Cell) (a : Nat) : Nat → List Byte
  | 0 => []
  | n + 1 => Memory.read m a :: Memory.readBytes m (a + 1) n

/-- The memory with bytes written from address `a`. -/
def Memory.writeBytes (m : List Host.Cell) (a : Nat) : List Byte → List Host.Cell
  | [] => m
  | b :: t => Memory.writeBytes (Memory.write m a b) (a + 1) t

/-- The word at `a`, least significant byte lowest (DESIGN CHOICE, log entry 4). -/
def Memory.readWord (m : List Host.Cell) (a : Nat) : Word := BitVec.ofNat 32 (ofBytesLE (Memory.readBytes m a 4))

/-- The memory with the word at `a` written. -/
def Memory.writeWord (m : List Host.Cell) (a : Nat) (v : Word) : List Host.Cell :=
  Memory.writeBytes m a (bytesLE 4 v.toNat)

/-- The memory with every byte of `[lo, hi)` as nothing has written it. -/
def Memory.clear (m : List Host.Cell) (lo hi : Nat) : List Host.Cell := m.filter fun c => c.1 < lo || hi ≤ c.1

/-! ### Registers and fields -/

/-- The word a register holds. -/
def Block.rd (b : Block) (a : Nat) : Word := sget resetReg b.regs a

/-- The block with a register written. -/
def Block.wr (b : Block) (a : Nat) (v : Word) : Block := { b with regs := sput resetReg b.regs a v }

/-- The value of a field; a field that passes bit 31 takes its high bits from the register above. -/
def Block.get (b : Block) (f : Fld) : Nat :=
  if f.lo + f.w ≤ 32 then bits (b.rd f.addr).toNat f.lo f.w
  else bits ((b.rd f.addr).toNat + (b.rd (f.addr + 4)).toNat * 2 ^ 32) f.lo f.w

/-- The block with a field set to the low bits of `v`. -/
def Block.set (b : Block) (f : Fld) (v : Nat) : Block :=
  if f.lo + f.w ≤ 32 then b.wr f.addr (BitVec.ofNat 32 (setBits (b.rd f.addr).toNat f.lo f.w v))
  else
    let x := setBits ((b.rd f.addr).toNat + (b.rd (f.addr + 4)).toNat * 2 ^ 32) f.lo f.w v
    (b.wr f.addr (BitVec.ofNat 32 x)).wr (f.addr + 4) (BitVec.ofNat 32 (x / 2 ^ 32))

/-- The signed value of a field (R4). -/
def Block.geti (b : Block) (f : Fld) : Int := sgn f.w (b.get f)

/-- The block with a field set to a signed value, wrapping. -/
def Block.seti (b : Block) (f : Fld) (i : Int) : Block := b.set f (wrapN f.w i)

/-- Whether a field is not zero. -/
def Block.flag (b : Block) (f : Fld) : Bool := b.get f ≠ 0

/-- The block with a field set to 1. -/
def Block.on (b : Block) (f : Fld) : Block := b.set f 1

/-- The block with a field set to 0. -/
def Block.off (b : Block) (f : Fld) : Block := b.set f 0

/-- The block with a one-bit field set to a truth value. -/
def Block.put (b : Block) (f : Fld) (v : Bool) : Block := b.set f (b2n v)

/-- A counter field incremented, saturating. -/
def Block.inc (b : Block) (f : Fld) : Block := b.set f (satInc f.w (b.get f))

/-- A counter field incremented, modulo its width. -/
def Block.incWrap (b : Block) (f : Fld) : Block := b.set f (wrapInc f.w (b.get f))

/-- A counter field with `n` added, saturating. -/
def Block.addSat (b : Block) (f : Fld) (n : Nat) : Block := b.set f (min (b.get f + n) (2 ^ f.w - 1))

/-- A field raised to at least `n`. -/
def Block.peak (b : Block) (f : Fld) (n : Nat) : Block := b.set f (max (b.get f) (min n (2 ^ f.w - 1)))

/-! ### Free values and time -/

/-- The next free value's index; the counter advances. -/
def Block.take (b : Block) : Nat × Block := (b.free, { b with free := b.free + 1 })

/-- Plant time in ns (R3, Table 0.5). -/
def Block.ns (b : Block) : Nat := b.time / 2 ^ 32 % 2 ^ 64

/-- The sub-nanosecond fraction of plant time. -/
def Block.frac (b : Block) : Nat := b.time % 2 ^ 32

/-- What one nanosecond of the time base adds to plant time, at the rate in force (18_plant_time.md R536). -/
def Block.tickStep (b : Block) : Int := 2 ^ 32 + sar (b.geti PLT_RATE) 8

/-- The extrapolated angle (R113). -/
def Block.angle (b : Block) : Nat := b.ang.th / 2 ^ 32 % 2 ^ 64

/-- The round length in ns (Table 0.4); 125 µs before a deck is dealt, the round of contract 0 (R35). -/
def Block.roundNs (b : Block) : Nat :=
  match b.dealt with
  | some d => match d.rounds with
    | r :: _ => if r.rate = 0 then 125000 else if r.rate = 1 then 62500 else if r.rate = 2 then 31250 else 15625
    | [] => 125000
  | none => 125000

/-- Plant time has come in this nanosecond to `phase` ns modulo `period` ns. -/
def Block.reached (b : Block) (period phase : Nat) : Bool :=
  let r : Nat := period * 2 ^ 32
  let past : Nat := (b.time + r - phase * 2 ^ 32 % r) % r
  decide ((past : Int) < b.tickStep)

/-- The round phase of the deck in force (R24); 0 before a deck is dealt (DESIGN CHOICE, log entry 126). -/
def Block.roundPhase (b : Block) : Nat := ((b.dealt.bind (·.rounds.head?)).map (·.phase)).getD 0

/-- A round boundary falls in this nanosecond (R24): in it plant time modulo the round length has come to the round phase. -/
def Block.atPhase (b : Block) : Bool := b.reached b.roundNs b.roundPhase

/-- This nanosecond is a round boundary that has not been taken yet. -/
def Block.atBoundary (b : Block) : Bool := b.atPhase && b.roundAt ≠ b.up

/-- The round number in force. -/
def Block.round (b : Block) : Nat := b.get DEV_ROUND

/-- The number of the round `n` rounds ahead; round numbers count modulo 2^48 (R4, Table 0.5). -/
def Block.roundIn (b : Block) (n : Nat) : Nat := (b.round + n) % 2 ^ 48

/-- Rounds from the one in force to the next one with number `r` (R4). -/
def Block.roundsTo (b : Block) (r : Nat) : Nat := (r % 2 ^ 48 + 2 ^ 48 - b.round % 2 ^ 48) % 2 ^ 48

/-- Rounds from the last one with number `r` to the one in force (R4). -/
def Block.roundsSince (b : Block) (r : Nat) : Nat := (b.round % 2 ^ 48 + 2 ^ 48 - r % 2 ^ 48) % 2 ^ 48

/-! ### Interrupts (R523) -/

/-- Source `s` asserts: pending, count and stamps of this nanosecond. -/
def Block.irq (b : Block) (s : Nat) : Block :=
  let c := ((b.set ⟨aIRQ_PEND (s / 32), s % 32, 1⟩ 1).incWrap (IRQ_S_FLAGS_CNT s)).put (IRQ_S_FLAGS_ANG_VALID s)
    (b.flag ANG_STAT_LOCKED)
  let d := ((c.wr (aIRQ_S_TIME_LO s) (BitVec.ofNat 32 b.ns)).wr (aIRQ_S_TIME_HI s) (BitVec.ofNat 32 (b.ns / 2 ^ 32))).wr
    (aIRQ_S_TFRAC s) (BitVec.ofNat 32 b.frac)
  (d.set (IRQ_S_ANG s) b.angle).wr (aIRQ_S_ROUND s) (BitVec.ofNat 32 b.round)

/-- Whether source `s` is pending. -/
def Block.pendingIrq (b : Block) (s : Nat) : Bool := b.flag ⟨aIRQ_PEND (s / 32), s % 32, 1⟩

/-- Set a status bit and, when it was 0, assert its source (DEDUCED, log entry 5). -/
def Block.raise (b : Block) (f : Fld) (s : Nat) : Block := if b.flag f then b else (b.on f).irq s

/-- Set a DEV_STAT error bit; source 0 asserts when it was 0 (Table 1.7, Table 17.10). -/
def Block.devErr (b : Block) (f : Fld) : Block := b.raise f 0

/-- Change DEV_BOOT.PHASE; source 1 asserts on a change (Table 1.8, Table 17.10) (DEDUCED, log entry 38). -/
def Block.setPhase (b : Block) (p : Nat) : Block :=
  if b.get DEV_BOOT_PHASE = p then b
  else
    let b := (b.set DEV_BOOT_PHASE p).irq 1
    if p = 14 then b.on CPR_STAT_SAFE
    else if p = 6 ∧ ¬ b.flag CPR_STAT_FORCED then b.off CPR_STAT_SAFE else b

/-- Change DCK_STAT.STATE; source 2 asserts on a change (Table 3.14, Table 17.10). -/
def Block.setDckState (b : Block) (v : Nat) : Block :=
  if b.get DCK_STAT_STATE = v then b else (b.set DCK_STAT_STATE v).irq 2

/-- A host port page counter increments; source 183 asserts (Table 17.10). -/
def Block.hostCount (b : Block) (f : Fld) : Block := (b.inc f).irq 183

/-! ### Words of the fabric memories -/

/-- Bits in error in the stored word at fabric address `a`: 0 for a sound word, 1 for an error that reads correct, more for one that
cannot be corrected (11_loop_engine_model.md R343, 13_capture.md R422) (DESIGN CHOICE, log entry 109). -/
def Block.eccAt (b : Block) (a : Nat) : Nat := sget (fun _ => 0) b.ecc a

/-- The block with the word at fabric address `a` written; a write makes the word sound. -/
def Block.memPut (b : Block) (a : Nat) (v : Word) : Block :=
  { b with mem := Memory.writeWord b.mem a v, ecc := sput (fun _ => 0) b.ecc a 0 }

/-- The block with every byte of `[lo, hi)` written 0. -/
def Block.memClear (b : Block) (lo hi : Nat) : Block :=
  { b with mem := Memory.clear b.mem lo hi, ecc := b.ecc.filter fun c => c.1 < lo || hi ≤ c.1 }

/-- A host access meets an error response at BAR0 offset `addr` (17_host_interface.md R509). -/
def Block.hostError (b : Block) (addr : Nat) : Block :=
  let b := b.set HST_ERR_ADDR addr
  (b.inc HST_ERR_RD_CNT).irq 183

/-- The words of an engine's memories at `addrs` are read: errors of one bit are corrected, counted in LE_ECC_CNT and shown in ECC_CORR
with source 80 + `e` (11_loop_engine_model.md R343, R377); the answer says whether an error could not be corrected. -/
def Block.eccRead (b : Block) (e : Nat) (addrs : List Nat) : Bool × Block :=
  let n := (addrs.eraseDups.filter fun a => b.eccAt a = 1).length
  (addrs.any fun a => decide (1 < b.eccAt a), if n = 0 then b else (b.addSat (LE_ECC_CNT e) n).raise (LE_STAT_ECC_CORR e) (80 + e))

/-! ### Scorepad events (R561, R562) -/

/-- An event with the stamps of this nanosecond. -/
def Block.stampEvent (b : Block) (code level arg0 arg1 : Nat) (host delayed : Bool) : ScpEvent :=
  let st := b.get PLT_STAT_STATE
  { code := code, level := level, timeOk := st = 2 || st = 3 || st = 4, angOk := b.flag ANG_STAT_LOCKED, host := host,
    delayed := delayed, opsec := b.get SCP_OPSEC, pcyc := b.get SCP_PCYC, round := b.round, ptime := b.ns,
    angle := b.angle, arg0 := arg0 % 2 ^ 32, arg1 := arg1 % 2 ^ 32, repCnt := 0, repSec := 0 }

/-- Two events match when CODE, LEVEL, ARG0, ARG1 and FLAGS.HOST are equal (R562). -/
def ScpEvent.same (x y : ScpEvent) : Bool :=
  x.code = y.code && x.level = y.level && x.arg0 = y.arg0 && x.arg1 = y.arg1 && x.host = y.host

/-- One more occurrence of an entry (R562). -/
def ScpEvent.repeated (x : ScpEvent) (opsec : Nat) : ScpEvent :=
  { x with repCnt := satInc 32 x.repCnt, repSec := opsec }

/-- Replace the last element of a list. -/
def setLast {α : Type} (f : α → α) : List α → List α
  | [] => []
  | [x] => [f x]
  | x :: y :: t => x :: setLast f (y :: t)

/-- An event enters the queue of 256 entries: a repeat of the newest entry counts in it (R562); a full queue
discards the event and counts it (R563). -/
def Block.enqueue (b : Block) (e : ScpEvent) : Block :=
  match b.scp.queue.getLast? with
  | some l =>
    if l.same e then { b with scp.queue := setLast (·.repeated e.opsec) b.scp.queue }
    else if 256 ≤ b.scp.queue.length then
      ({ b with scp.lostSince := b.scp.lostSince + 1 }.inc SCP_LOST).irq 177
    else
      let b := { b with scp.queue := b.scp.queue ++ [e] }
      (b.set SCP_QUEUE_N b.scp.queue.length).peak SCP_QUEUE_PEAK b.scp.queue.length
  | none =>
    match b.scp.newest with
    | some (q, x) =>
      if x.same e then { b with scp.newest := some (q, x.repeated e.opsec), scp.repDirty := true }
      else
        let b := { b with scp.queue := [e] }
        (b.set SCP_QUEUE_N 1).peak SCP_QUEUE_PEAK 1
    | none =>
      let b := { b with scp.queue := [e] }
      (b.set SCP_QUEUE_N 1).peak SCP_QUEUE_PEAK 1

/-- A device event of Table 19.4. -/
def Block.event (b : Block) (code level arg0 arg1 : Nat) : Block :=
  b.enqueue (b.stampEvent code level arg0 arg1 false false)

/-- A device event of PD0 from before the Dealer ran, stamped at its writing (R561). -/
def Block.eventDelayed (b : Block) (code level arg0 arg1 : Nat) : Block :=
  b.enqueue (b.stampEvent code level arg0 arg1 false true)

/-! ### Facts of the dealt deck -/

/-- The AXIS record of axis `i`, none where the axis does not exist (R87). -/
def Block.axisRec (b : Block) (i : Nat) : Option AxisRec :=
  match b.dealt with
  | some d => d.axes.find? (·.axis = i)
  | none => none

/-- Whether axis `i` exists. -/
def Block.axisExists (b : Block) (i : Nat) : Bool := (b.axisRec i).isSome

/-- The axes that exist, in the deck's order. -/
def Block.axisList (b : Block) : List AxisRec :=
  match b.dealt with
  | some d => d.axes
  | none => []

/-- The LOCK records in force. -/
def Block.locks (b : Block) : List LockRec :=
  match b.dealt with
  | some d => d.locks
  | none => []

/-- The RANGE records in force. -/
def Block.ranges (b : Block) : List RangeRec :=
  match b.dealt with
  | some d => d.ranges
  | none => []

/-- Whether a LOCK record covers the register at `a` (R102). -/
def Block.lockedAt (b : Block) (a : Nat) : Bool := b.locks.any fun l => l.addr ≤ a && a < l.addr + l.len

/-- Whether the LOCK records together cover `[lo, hi)` (R101), walking from `lo` at most `n` records on. -/
def Block.lockCover (b : Block) (hi : Nat) : Nat → Nat → Bool
  | 0, lo => hi ≤ lo
  | n + 1, lo =>
    if hi ≤ lo then true
    else
      let next := b.locks.foldl (fun a l => if l.addr ≤ lo then max a (l.addr + l.len) else a) lo
      if next ≤ lo then false else b.lockCover hi n next

/-- Whether the LOCK records cover the whole level range `[lo, hi)`. -/
def Block.locked (b : Block) (lo hi : Nat) : Bool := b.lockCover hi b.locks.length lo

/-! ### Page levels (R101, Table 3.10) -/

/-- The level range an expert address belongs to: none for an address outside every level range. -/
def levelRange (a : Nat) : Option (Nat × Nat) :=
  if 0x20400 ≤ a ∧ a < 0x20800 then some (0x20400, 0x20800)
  else if 0x30400 ≤ a ∧ a < 0x32000 then some (0x30400, 0x32000)
  else if 0x40000 ≤ a ∧ a < 0x80000 ∧ 0x400 ≤ a % 0x8000 ∧ a % 0x8000 < 0x500 then
    some (a / 0x8000 * 0x8000 + 0x400, a / 0x8000 * 0x8000 + 0x500)
  else if 0x101000 ≤ a ∧ a < 0x102000 then some (0x101000, 0x102000)
  else if 0x105000 ≤ a ∧ a < 0x107000 then some (0x105000, 0x107000)
  else if 0x110400 ≤ a ∧ a < 0x110800 then some (0x110400, 0x110800)
  else if 0x120000 ≤ a ∧ a < 0x140000 ∧ 0x400 ≤ a % 0x1000 ∧ a % 0x1000 < 0x800 then
    some (a / 0x1000 * 0x1000 + 0x400, a / 0x1000 * 0x1000 + 0x800)
  else if 0x140400 ≤ a ∧ a < 0x140800 then some (0x140400, 0x140800)
  else if 0x141000 ≤ a ∧ a < 0x142000 then some (0x141000, 0x142000)
  else if 0x150400 ≤ a ∧ a < 0x150800 then some (0x150400, 0x150800)
  else if 0x170400 ≤ a ∧ a < 0x170800 then some (0x170400, 0x170800)
  else none

/-- Whether the function of an expert address is at basic level (R101); capture has two ranges, and both must be
covered (13_capture.md R426). An axis takes its level from its AXIS record. -/
def Block.basicLevel (b : Block) (a : Nat) : Bool :=
  if 0xC0000 ≤ a ∧ a < 0x100000 then
    match b.axisRec ((a - 0xC0000) / 0x400) with
    | some r => r.level = 0
    | none => true
  else if (0x140400 ≤ a ∧ a < 0x140800) ∨ (0x141000 ≤ a ∧ a < 0x142000) then
    b.locked 0x140400 0x140800 && b.locked 0x141000 0x142000
  else
    match levelRange a with
    | some (lo, hi) => b.locked lo hi
    | none => false

/-! ### Access checks (R54, R55, R61, R621) -/

/-- The fabric address at which a BAR0 offset is checked (R621). -/
def fabricOf (x : Nat) : Nat := if x < 0x800000 then 0x10000000 + x else 0x40000000 + (x - 0x800000)

/-- The trust-page and identity registers always within the host's reach (R61). -/
def alwaysReach (x : Nat) : Bool :=
  x = 0x0 || x = 0x1A0000 || x = 0x1A0004 || x = 0x1A0008 || x = 0x1A000C || x = 0x1A0010 || x = 0x1A0014 ||
    (0x1A0040 ≤ x && x < 0x1A0060) || x = 0x1A0060 || x = 0x1A0080

/-- The fixed denials of R54 on fabric addresses: the trust page but for the registers of R61, writes to the
snapshot bank, the empty region of R621. -/
def fixedDenied (fa : Nat) (write : Bool) : Bool :=
  (0x101A0000 ≤ fa && fa < 0x101B0000 && !alwaysReach (fa - 0x10000000)) ||
    (write && 0x10400000 ≤ fa && fa < 0x10800000) || (0x10800000 ≤ fa && fa < 0x11000000)

/-- An entry permits an access (R55, Table 2.6). -/
def PolicyEntry.permits (e : PolicyEntry) (fa len : Nat) (write cyclic : Bool) : Bool :=
  e.base ≤ fa && fa + len ≤ e.limit + 1 && bit e.w2 (if write then 1 else 0) && bit e.w2 (if cyclic then 2 else 3)

/-- The policy entries of a master; a master without a block has none (R85). -/
def Trust.entries (t : Trust) (m : Nat) : List PolicyEntry :=
  match t.policy.find? (·.master = m) with
  | some p => p.entries
  | none => []

/-- The scope bit of a debug unlock that an access needs (R71). -/
def scopeBit (fa : Nat) (write : Bool) : Option Nat :=
  if 0x10000000 ≤ fa ∧ fa < 0x10800000 then some (if write then 1 else 0)
  else if 0x40000000 ≤ fa ∧ fa < 0x40800000 then some (if write then 3 else 2)
  else if 0x20000000 ≤ fa ∧ fa < 0x20800000 then (if write then none else some 4)
  else if 0x30000000 ≤ fa ∧ fa < 0x32000000 then (if write then none else some 5)
  else none

/-- The debug port reaches what both its unlock scope and its deck block permit (R70, R71). -/
def Trust.debugScope (t : Trust) (fa : Nat) (write : Bool) : Bool :=
  match t.unlock, scopeBit fa write with
  | some s, some k => bit s k
  | _, _ => false

/-- Whether the checker allows an access (R55). Before the first deck is dealt only the fixed denials stand (log
entry 6). The Dealer and the safety island are not checked (R18); the dispatcher reaches entry blocks alone of the engine memories
(10_task_dispatch.md R335). While a deck is staged, another master's access to shared axis memory is a violation like any other that
the checker refuses (DESIGN CHOICE, log entry 117). -/
def Block.allowed (b : Block) (m fa len : Nat) (write cyclic : Bool) : Bool :=
  if m = 0 ∨ m = 1 then true
  else if m = 36 ∧ 0x10000000 ≤ fa ∧ alwaysReach (fa - 0x10000000) then true
  else if fixedDenied fa write then false
  else if m = 37 ∧ ¬ b.trust.debugScope fa write then false
  else if m = 34 ∧ 0x40000000 ≤ fa ∧ fa < 0x40800000 ∧ ¬ (0x1FFE0 ≤ fa % 0x40000 ∧ fa % 0x40000 + len ≤ 0x20000) then false
  else if b.boot.dealing ∧ 0x20000000 ≤ fa ∧ fa < 0x20800000 then false
  else if ¬ b.trust.loaded then true
  else (b.trust.entries m).any (·.permits fa len write cyclic)

/-- Whether master `m` is frozen (TRU_FRZ_LO, TRU_FRZ_HI). -/
def Block.frozen (b : Block) (m : Nat) : Bool :=
  if m < 32 then bit (b.get TRU_FRZ_LO) m else bit (b.get TRU_FRZ_HI) (m - 32)

/-- A freeze keeps a master's access out, but not a frozen host port's from what it always reaches (02_trust.md R58, R61). -/
def Block.barred (b : Block) (m fa : Nat) : Bool :=
  b.frozen m && !(m = 36 && 0x10000000 ≤ fa && alwaysReach (fa - 0x10000000))

/-! ### Standstill -/

/-- An axis is at standstill as position feedback reports it (09_position_feedback.md R300): its local channel or its
node entry; an axis without feedback, as a virtual one, while v_c and a_c are 0. -/
def Block.standstill (b : Block) (i : Nat) : Bool :=
  match b.axisRec i with
  | some r =>
    if r.kind = 3 ∨ r.feedback = 0xFF then !b.flag (AX_MSTAT_MOVING i)
    else if 0x10 ≤ r.feedback then b.flag (FB_STAT_STANDSTILL (r.feedback - 0x10))
    else b.flag (FB_N_STAT_STANDSTILL i)
  | none => true

/-- Every existing axis is at standstill (R95). -/
def Block.allStandstill (b : Block) : Bool := b.axisList.all fun r => b.standstill r.axis

/-! ### Folding over axes, segments and channels -/

/-- Apply `f` to every existing axis in the deck's order. -/
def Block.eachAxis (b : Block) (f : Block → Nat → Block) : Block := b.axisList.foldl (fun b r => f b r.axis) b

/-- Apply `f` to 0 up to `n - 1`. -/
def Block.each (b : Block) (n : Nat) (f : Block → Nat → Block) : Block := (List.range n).foldl f b

/-! ### Sparse parts of the block -/

/-- Axis `i`. -/
def Block.ax (b : Block) (i : Nat) : Axis := sget (fun _ => Reset.axis) b.axes i
/-- The block with axis `i` changed. -/
def Block.modAx (b : Block) (i : Nat) (f : Axis → Axis) : Block :=
  { b with axes := sput (fun _ => Reset.axis) b.axes i (f (b.ax i)) }
/-- Local channel `c`. -/
def Block.ch (b : Block) (c : Nat) : Channel := sget (fun _ => Reset.channel) b.chans c
/-- The block with channel `c` changed. -/
def Block.modCh (b : Block) (c : Nat) (f : Channel → Channel) : Block :=
  { b with chans := sput (fun _ => Reset.channel) b.chans c (f (b.ch c)) }
/-- The node-position entry of axis `i`. -/
def Block.entry (b : Block) (i : Nat) : NodeEntry := sget (fun _ => Reset.entry) b.entries i
/-- The block with a node-position entry changed. -/
def Block.modEntry (b : Block) (i : Nat) (f : NodeEntry → NodeEntry) : Block :=
  { b with entries := sput (fun _ => Reset.entry) b.entries i (f (b.entry i)) }
/-- Descriptor `d`. -/
def Block.desc (b : Block) (d : Nat) : Desc := sget (fun _ => Reset.desc) b.descs d
/-- The block with a descriptor changed. -/
def Block.modDesc (b : Block) (d : Nat) (f : Desc → Desc) : Block :=
  { b with descs := sput (fun _ => Reset.desc) b.descs d (f (b.desc d)) }
/-- Flow `n`. -/
def Block.flow (b : Block) (n : Nat) : Flow := sget (fun _ => Reset.flow) b.flows n
/-- The block with a flow changed. -/
def Block.modFlow (b : Block) (n : Nat) (f : Flow → Flow) : Block :=
  { b with flows := sput (fun _ => Reset.flow) b.flows n (f (b.flow n)) }
/-- Engine `e`. -/
def Block.eng (b : Block) (e : Nat) : Engine := sget (fun _ => Reset.engine) b.engines e
/-- The block with an engine changed. -/
def Block.modEng (b : Block) (e : Nat) (f : Engine → Engine) : Block :=
  { b with engines := sput (fun _ => Reset.engine) b.engines e (f (b.eng e)) }

/-- Segment controller `s`. -/
def Block.sg (b : Block) (s : Nat) : Seg := sget (fun _ => Reset.seg) b.segs s
/-- The block with a segment controller changed. -/
def Block.modSg (b : Block) (s : Nat) (f : Seg → Seg) : Block :=
  { b with segs := sput (fun _ => Reset.seg) b.segs s (f (b.sg s)) }
/-- Node position `p` of a segment. -/
def Seg.node (x : Seg) (p : Nat) : SegNode := sget (fun _ => Reset.segNode) x.nodes p
/-- Node position `p` of segment `s`. -/
def Block.sn (b : Block) (s p : Nat) : SegNode := (b.sg s).node p
/-- The block with a node position changed. -/
def Block.modSn (b : Block) (s p : Nat) (f : SegNode → SegNode) : Block :=
  b.modSg s fun x => { x with nodes := sput (fun _ => Reset.segNode) x.nodes p (f (x.node p)) }

/-- A partner frame is to be sent (14_partners.md R435); the link of a unit whose deck has no MIRROR section stays idle. -/
def Block.ptnSend (b : Block) (type : Nat) (words : List Word) : Block :=
  if b.dealt.any (·.mirror.isSome) then { b with partner.tx := b.partner.tx ++ [⟨type, words⟩] } else b

/-- Mirror words leave in frames of at most 256, in which an item may go on in the next one (DEDUCED, log entry 134). -/
def Block.sendWords (b : Block) (ws : List Word) : Block :=
  (pieces 256 ws.length ws).foldl (fun b p => b.ptnSend 2 p) { b with partner.mirWords := b.partner.mirWords + ws.length }

/-- A mirror item for the dummy (14_partners.md R442): a paired declarer queues it for the boundary; an RC item leaves at once. -/
def Block.mirror (b : Block) (x : MirItem) : Block :=
  if b.get PTN_STAT_ROLE = 1 ∧ b.flag PTN_STAT_PAIRED then
    match x with
    | .rc .. => b.sendWords x.toWords
    | _ => { b with partner.queue := b.partner.queue ++ [x] }
  else b

/-- A device event for channel B (15_safety.md R482): its code and the axes it concerns (DEDUCED, log entry 97). -/
def Block.safEvent (b : Block) (code : Nat) (axes : List Nat) : Block :=
  { b with safety.events := b.safety.events ++ [(code, axes)] }

/-! ### Clock gates (20_clocks_power_reset.md R580) -/

/-- Whether gate `g` is closed. -/
def Block.gateClosed (b : Block) (g : Nat) : Bool :=
  if g < 32 then bit (b.get CPR_GATE_LO) g else bit (b.get CPR_GATE_HI) (g - 32)

/-- Gate `g` shown closed or open. -/
def Block.setGate (b : Block) (g : Nat) (v : Bool) : Block :=
  if g < 32 then b.put ⟨aCPR_GATE_LO, g, 1⟩ v else b.put ⟨aCPR_GATE_HI, g - 32, 1⟩ v

/-- Gate `g` is to close once its block's port is idle. -/
def Block.wantGate (b : Block) (g : Nat) : Block :=
  if b.gateClosed g ∨ b.pd0.gatePend.contains g then b else { b with pd0.gatePend := b.pd0.gatePend ++ [g] }

/-- Gate `g` opens. -/
def Block.openGate (b : Block) (g : Nat) : Block :=
  { b with pd0.gatePend := b.pd0.gatePend.filter (· ≠ g) }.setGate g false

/-! ### Answers -/

/-- A meaning that changes the volatile state alone. -/
def State.onBlk (s : State) (f : Block → Block) : State := { s with blk := f s.blk }

/-- The word the port of master `m` returned. -/
def Block.answer (b : Block) (m : Fin 39) (v : Word) : Block := { b with readData := b.readData.set m.1 v m.2 }

end Sys2Proof.Machine
end

