-- ==== Sys2Proof/Machine/Angle.lean ====
section
/-!
DEFINITION. The line-angle unit (04_line_angle.md): conversion, extrapolation, handover and loss, the event table, event
channels, node commands and CAPIN capture.
-/

namespace Sys2Proof.Machine

/-! ### Samples and the estimate -/

/-- The line angle of a position sample, in units of 2^-16 count (R111). -/
def convertAngle (p : Int) (num den ofs : Nat) : Nat :=
  let num := if num = 0 then 1 else num
  let den := if den = 0 then 1 else den
  let q := p * den
  let per : Int := num * 2 ^ 16
  let turns := q / per
  let frac := (q - turns * per) * 2 ^ 32 / per
  wrapN 64 (turns * 2 ^ 32 + frac + ofs)

/-- The signed difference of two line angles. -/
def angleDiff (x y : Nat) : Int := sgn 64 (x + 2 ^ 64 - y % 2 ^ 64)

/-- The rate limited to 2^48 (R113); entering saturation sets RESYNC and asserts source 185 once. -/
def Block.setRate (b : Block) (w : Int) : Block :=
  let full := 2 ^ 48 ≤ w.natAbs
  let b' := { b with ang.w := clampI (-(2 ^ 48)) (2 ^ 48) w, ang.saturated := full }
  if full ∧ ¬ b.ang.saturated then (b'.on ANG_STAT_RESYNC).irq 185 else b'

/-- The rate without a check of its limit: one that leaves the limit ends saturation (R113). -/
def Block.putRate (b : Block) (w : Int) : Block := { b with ang.w := w, ang.saturated := b.ang.saturated && 2 ^ 48 ≤ w.natAbs }

/-- ANG_TUNE.KW_SHIFT in force: 0 or 17 to 31 is taken as 16 (Table 4.5). -/
def Block.kwShift (b : Block) : Nat :=
  let k := b.get ANG_TUNE_KW_SHIFT
  if k = 0 ∨ 16 < k then 16 else k

/-- ANG_TUNE.LOOKAHEAD in force, 1 to 8 (R140). -/
def Block.lookahead (b : Block) : Nat := clampN 1 8 (b.get ANG_TUNE_LOOKAHEAD)

/-- ANG_LOSS_TO in force, µs (R122). -/
def Block.lossTo (b : Block) : Nat := max 1 (b.get ANG_LOSS_TO)

/-- The key of an absolute record, with 32 bits below. -/
def EvtWords.keyAbs (r : EvtWords) : Nat := (r.w1.toNat * 2 ^ 32 + r.w0.toNat) * 2 ^ 32

/-- The key of a cyclic record on the turn, with 32 bits below. -/
def EvtWords.keyCyc (r : EvtWords) : Nat := r.w0.toNat * 2 ^ 32

/-- CHANNEL of an event record. -/
def EvtWords.channel (r : EvtWords) : Nat := bits r.w2.toNat 0 6

/-- Whether the record is cyclic. -/
def EvtWords.cyclic (r : EvtWords) : Bool := bits r.w2.toNat 6 2 = 1

/-- Whether DIR permits forward (`true`) or reverse motion. -/
def EvtWords.permits (r : EvtWords) (fwd : Bool) : Bool := bit (bits r.w2.toNat 8 2) (if fwd then 0 else 1)

/-- A record with no invalid field (Table 4.2). -/
def EvtWords.valid (r : EvtWords) : Bool :=
  let mode := bits r.w2.toNat 6 2
  mode ≤ 1 && bits r.w2.toNat 8 2 ≠ 0 && bits r.w2.toNat 10 3 ≤ 4 && bits r.w2.toNat 14 2 = 0 &&
    !(mode = 1 && r.w1 ≠ 0) && !(mode = 0 && bit r.w2.toNat 13)

/-- LEAD of a record's channel, ns. -/
def Block.leadOf (b : Block) (r : EvtWords) : Nat := bits (b.get (ANG_CH_TIME r.channel)) 0 16

/-- A lead angle, 96 bits: the extrapolated angle plus rate times LEAD (R127). -/
def leadAngle (th : Nat) (w : Int) (lead : Nat) : Nat := wrapN 96 ((th / 2 ^ 32 * 2 ^ 32 : Nat) + w * lead)

/-- The size of the ring a list's keys lie on: the whole angle or one turn. -/
def ringOf (cyc : Bool) : Nat := if cyc then 2 ^ 64 else 2 ^ 96

/-- The key of a record on its ring. -/
def EvtWords.key (r : EvtWords) : Nat := if r.cyclic then r.keyCyc else r.keyAbs

/-- The distance from angle `x` forward to key `k` on a ring of `n`, 1 to `n`. -/
def ahead (n k x : Nat) : Nat :=
  let d := (k % n + n - x % n) % n
  if d = 0 then n else d

/-- The distance from angle `x` backward to key `k` on a ring of `n`, 1 to `n`. -/
def behind (n k x : Nat) : Nat := ahead n x k

/-- How far ahead of angle `x` a record's key lies in the direction of motion; an absolute key in the half behind
is not ahead. -/
def EvtWords.distance (r : EvtWords) (x : Nat) (fwd : Bool) : Option Nat :=
  let n := ringOf r.cyclic
  let d := if fwd then ahead n r.key x else behind n r.key x
  if r.cyclic then some d else if d < 2 ^ 95 then some d else none

/-! ### Steps of the angle (R116, R130) -/

/-- Whether a step by `d` from angle `x` passes over a record's key in either direction. -/
def EvtWords.passed (r : EvtWords) (x : Nat) (d : Int) : Bool :=
  match r.distance x (0 ≤ d) with
  | some k => (k : Int) ≤ d.natAbs
  | none => false

/-- The gaps of a record after the lead angle moved by `d` (R129): a record re-arms once the angle lies HYST behind
the point it fired at, reached by moving back or by moving on round the turn (DEDUCED, log entry 8). -/
def EvtRec.moved (r : EvtRec) (d : Int) (hyst : Nat) : EvtRec :=
  let h : Int := hyst * 2 ^ 32
  let f := match r.gapF with
    | none => none
    | some g => if g + d ≤ -h ∨ 2 ^ 64 - h ≤ g + d then none else some (g + d)
  let v := match r.gapR with
    | none => none
    | some g => if h ≤ g + d ∨ g + d ≤ -(2 ^ 64 - h) then none else some (g + d)
  { r with gapF := f, gapR := v }

/-- The movement of a record's lead angle since the last matching. -/
def Block.leadMoved (b : Block) (r : EvtWords) : Int :=
  let lead := b.leadOf r
  sgn 96 (leadAngle b.ang.th b.ang.w lead + 2 ^ 96 - leadAngle b.ang.mTh b.ang.mW lead)

/-- A record of the cyclic list with its gaps moved on to the present angle and rate. -/
def Block.gapsOf (b : Block) (r : EvtRec) : EvtRec := r.moved (b.leadMoved r.words) (b.get (ANG_CH_HYST r.words.channel))

/-- The gaps follow the angle, whether it moved or stepped, and nothing is matched against the way it came. -/
def Block.followGaps (b : Block) : Block :=
  { b with ang.cycList := b.ang.cycList.map b.gapsOf, ang.mTh := b.ang.th, ang.mW := b.ang.w }

/-- The estimate set to `th` by a step: records passed over are counted, and nothing fires (R130). -/
def Block.stepAngle (b : Block) (th : Nat) : Block :=
  let d := sgn 96 (th + 2 ^ 96 - b.ang.th % 2 ^ 96)
  let n : Nat := ((b.ang.absList ++ b.ang.cycList).filter fun (r : EvtRec) =>
    r.words.passed (leadAngle b.ang.th b.ang.w (b.leadOf r.words)) d).length
  let b := { b with ang.th := th % 2 ^ 96 }.followGaps
  let b := if d = 0 then b else { b with ang.stepped := true, ang.resyncSince := true }
  if n = 0 then b else (b.addSat ANG_SKIP_CNT n).on ANG_STAT_SKIP

/-- A setting step of R115: when the angle changes, RESYNC and source 185, not counted in ANG_RESYNC_CNT. -/
def Block.settingStep (b : Block) (th : Nat) : Block :=
  let moved := th % 2 ^ 96 ≠ b.ang.th % 2 ^ 96
  let b := b.stepAngle th
  if moved then (b.on ANG_STAT_RESYNC).irq 185 else b

/-- A sample is dropped (R114). -/
def Block.dropSample (b : Block) : Block := (b.inc ANG_DROP_CNT).on ANG_STAT_SMP_DROP

/-- LOST and RAMP clear when samples return (R122); source 184 asserts (Table 4.3). -/
def Block.foundSource (b : Block) : Block :=
  if b.flag ANG_STAT_LOST then
    ({ b with ang.lossAt := none }.off ANG_STAT_LOST |>.off ANG_STAT_RAMP).irq 184
  else b

/-- Record a sample as accepted. -/
def Block.acceptSample (b : Block) (theta tk : Nat) : Block :=
  let n := if b.ang.accepted < 2 then b.ang.accepted + 1 else 2
  { b with ang.accepted := n, ang.lastTheta := theta, ang.lastT := tk, ang.lastAccept := b.up }.foundSource

/-- An accepted sample of the source in use (R114 to R116); `theta` includes the handover offset. -/
def Block.useSample (b : Block) (theta tk : Nat) : Block :=
  let late : Int := (b.ns : Int) - tk
  let a := b.ang
  if a.accepted = 0 then
    ({ (b.settingStep (theta * 2 ^ 32)) with ang.w := 0, ang.c := 0, ang.cLeft := 0, ang.saturated := false }).acceptSample
      theta tk
  else
    let t : Int := (tk : Int) - a.lastT
    let fresh := divRound (angleDiff theta a.lastTheta * 2 ^ 32) t
    if a.accepted = 1 then
      let b := (b.settingStep (theta * 2 ^ 32)).setRate fresh
      ({ b with ang.c := 0, ang.cLeft := 0 }.on ANG_STAT_LOCKED).acceptSample theta tk
    else
      let est := wrapN 96 ((a.th : Int) - (a.w + a.c) * late)
      let e := angleDiff theta (est / 2 ^ 32)
      if b.get ANG_RESYNC_TH < e.natAbs then
        let b := b.stepAngle (wrapN 96 ((theta : Int) * 2 ^ 32 + (a.w + a.c) * late))
        let b := { b with ang.c := 0, ang.cLeft := 0 }.setRate fresh
        ((((b.inc ANG_RESYNC_CNT).on ANG_STAT_RESYNC).irq 185).safEvent 0x11 []).acceptSample theta tk
      else
        let corr := divRound (e * 2 ^ 32) t
        let b := b.setRate (a.w + divRound corr (2 ^ b.kwShift))
        { b with ang.c := corr, ang.cLeft := t.natAbs }.acceptSample theta tk

/-- A sample of source (`kind`, `index`) with line angle `theta` at plant time `tk` arrives (R114, R120). Samples of
any other source are not taken (R110), nor is the first of a new source after 2 rounds (R121). The mark of a sample shows until the next
one, of whatever KIND (R112; 09_position_feedback.md R287). -/
def Block.angleSample (b : Block) (kind index theta tk : Nat) (uncertain : Bool) : Block :=
  if ¬ b.flag ANG_STAT_RUNNING then b
  else
    let late : Int := (b.ns : Int) - tk
    let mark (b : Block) := b.put ANG_STAT_UNCERT uncertain
    if b.ang.handover.any fun h => h.kind = kind && h.index = index && b.up ≤ h.since + 2 * b.roundNs then
      if (2 * b.roundNs : Int) < late then b.dropSample
      else
        let est := wrapN 96 ((b.ang.th : Int) - (b.ang.w + b.ang.c) * late) / 2 ^ 32
        let o := (est + 2 ^ 64 - theta % 2 ^ 64) % 2 ^ 64
        let n := if b.flag ANG_STAT_LOCKED then 1 else 0
        let b := { b with ang.handover := none, ang.kind := kind, ang.index := index, ang.ofs := o, ang.accepted := n }
        mark ((b.off ANG_STAT_HANDOVER).acceptSample est tk)
    else if b.ang.kind = kind ∧ b.ang.index = index ∧ kind ≠ 3 ∧ kind ≠ 0 then
      if (b.ang.accepted ≠ 0 ∧ tk ≤ b.ang.lastT) ∨ (2 * b.roundNs : Int) < late then b.dropSample
      else mark (b.useSample ((theta + b.ang.ofs) % 2 ^ 64) tk)
    else b

/-- A position sample of a KIND 1 or KIND 2 source, in 2^-16 count (R111). -/
def Block.anglePosition (b : Block) (kind index : Nat) (p : Int) (tk : Nat) (uncertain : Bool) : Block :=
  b.angleSample kind index (convertAngle p (b.get ANG_TURN_NUM) (b.get ANG_TURN_DEN) (b.get ANG_OFFSET)) tk uncertain

/-- ANGLE_SAMPLE (R114). -/
def execAngleSample (kind : Fin 8) (index : Nat) (v : DWord) (tk : Nat) (uncertain : Bool) (s : State) : Outcome :=
  .next (s.onBlk fun b =>
    if kind.1 = 1 ∨ kind.1 = 2 then b.anglePosition kind.1 index (sgn 64 v.toNat) tk uncertain
    else b.angleSample kind.1 index v.toNat tk uncertain)

/-! ### Source control -/

/-- The source an ANG_CTL word names is one of Table 4.1 (R110). -/
def validSource (v : Nat) : Bool :=
  let kind := bits v 1 3
  let idx := bits v 4 8
  (kind = 0 && idx = 0) || (kind = 1 && idx < 16) || kind = 2 || (kind = 3 && idx = 0) || (kind = 4 && idx < 2)

/-- The unit stops at a commit boundary (R124, R138); source 184 asserts where LOST clears (Table 4.3). -/
def Block.stopAngle (b : Block) : Block :=
  let b := { b.foundSource with ang.w := 0 }.followGaps
  let b := { b with
    ang.c := 0, ang.cLeft := 0, ang.saturated := false, ang.accepted := 0, ang.handover := none,
    ang.lossAt := none, ang.dueAbs := [], ang.dueCyc := [], ang.pins := 0, ang.pulses := Vector.replicate 16 none,
    ang.ofs := 0 }
  ((((b.off ANG_STAT_RUNNING).off ANG_STAT_LOCKED).off ANG_STAT_LOST).off ANG_STAT_RAMP).off ANG_STAT_HANDOVER

/-- The unit starts on the committed source (R115): a sampled source stands still until its first sample, a
virtual master is LOCKED from this boundary. -/
def Block.startAngle (b : Block) : Block :=
  let k := b.get ANG_CTL_KIND
  let b := { b with
    ang.kind := k, ang.index := b.get ANG_CTL_INDEX, ang.w := 0, ang.c := 0, ang.cLeft := 0, ang.accepted := 0,
    ang.ofs := 0, ang.mTh := b.ang.th, ang.mW := 0, ang.lastAccept := b.up }
  let b := b.on ANG_STAT_RUNNING
  if k = 3 then b.on ANG_STAT_LOCKED else b

/-- A committed change of source while running (R120); a virtual master takes over at once, and no source is lost any
longer. -/
def Block.beginHandover (b : Block) (k i : Nat) : Block :=
  if k = 3 then
    let b := { b with ang.kind := 3, ang.index := 0, ang.c := 0, ang.cLeft := 0, ang.ofs := 0, ang.handover := none }
    ((b.off ANG_STAT_HANDOVER).on ANG_STAT_LOCKED).foundSource
  else { b with ang.handover := some ⟨k, i, b.up⟩ }.on ANG_STAT_HANDOVER

/-- What the ANG_CTL in force after a boundary's commits starts, stops or hands over (R120, R124). -/
def Block.commitAngle (b : Block) : Block :=
  let k := b.get ANG_CTL_KIND
  let i := b.get ANG_CTL_INDEX
  let run := b.flag ANG_CTL_RUN
  if b.flag ANG_STAT_RUNNING then
    if ¬ run then b.stopAngle
    else if b.ang.kind = k ∧ b.ang.index = i then
      { b with ang.handover := none }.off ANG_STAT_HANDOVER
    else if b.ang.handover.any fun h => h.kind = k && h.index = i then b
    else b.beginHandover k i
  else if run ∧ k ≠ 0 then b.startAngle
  else b

/-- HANDOVER_ABANDON (R121): 2 rounds after the commit the unit stays on the old source, and ANG_CTL names it again. -/
def execHandoverAbandon (s : State) : Outcome :=
  .next (s.onBlk fun b =>
    if ¬ b.ang.handover.any fun h => h.since + 2 * b.roundNs ≤ b.up then b
    else
      let b := { b with ang.handover := none }
      (((b.off ANG_STAT_HANDOVER).set ANG_CTL_KIND b.ang.kind).set ANG_CTL_INDEX b.ang.index).on ANG_STAT_SRC_ERR
        |>.irq 184)

/-- VIRTUAL_RATE_SLEW (R117): the rate of a running virtual master moves towards ANG_VRATE by ANG_VSLEW. -/
def execVirtualRateSlew (s : State) : Outcome :=
  .next (s.onBlk fun b =>
    if b.flag ANG_STAT_RUNNING ∧ b.ang.kind = 3 then
      let target := b.geti ANG_VRATE
      let slew : Int := b.get ANG_VSLEW
      let d := target - b.ang.w
      b.setRate (b.ang.w + clampI (-slew) slew d)
    else b)

/-- SOURCE_LOST (R122): no sample has been accepted for ANG_LOSS_TO; LOST and source 184; the rate is held or ramped. -/
def execSourceLost (s : State) : Outcome :=
  .next (s.onBlk fun b =>
    if b.flag ANG_STAT_RUNNING ∧ b.ang.kind ≠ 3 ∧ ¬ b.flag ANG_STAT_LOST ∧ b.ang.lastAccept + 1000 * b.lossTo ≤ b.up then
      let b := ((b.on ANG_STAT_LOST).irq 184).safEvent 0x10 []
      if b.flag ANG_CTL_LOSS_ACT then
        if b.get ANG_RAMP = 0 then b.putRate 0
        else { b with ang.lossW := b.ang.w, ang.lossAt := some b.up }.on ANG_STAT_RAMP
      else { b with ang.c := 0, ang.cLeft := 0 }
    else b)

/-- RATE_RAMP (R122): at a whole microsecond the rate's magnitude falls by one step of the ramp, and is 0 at the
first one at least ANG_RAMP µs after LOST set. -/
def execRateRamp (s : State) : Outcome :=
  .next (s.onBlk fun b =>
    match b.ang.lossAt with
    | none => b
    | some t =>
      if ¬ b.flag ANG_STAT_RAMP then b
      else
        let ramp := b.get ANG_RAMP
        if ramp = 0 ∨ t + 1000 * ramp ≤ b.up then ({ b with ang.lossAt := none }.putRate 0).off ANG_STAT_RAMP
        else
          let step := b.ang.lossW.natAbs / ramp
          let mag := b.ang.w.natAbs - step
          b.putRate (signI b.ang.w * mag))

/-! ### Firing (R127 to R129) -/

/-- What a firing does to a pin: channel, pin, OP and pulse width. -/
structure PinAct where
  channel : Nat
  pin : Nat
  op : Nat
  pulse : Nat
  deriving DecidableEq, Repr

/-- Whether a channel acts: a CHANNEL record and its enable bit (R136). A dummy suppresses every action
(14_partners.md R449). -/
def Block.chEnabled (b : Block) (n : Nat) : Bool := b.get PTN_STAT_ROLE ≠ 2 && bit (b.rd (aANG_CH_EN (n / 32))).toNat (n % 32)

/-- A pin action of a record of channel `n` (Table 4.6). -/
def Block.pinAct (b : Block) (r : EvtWords) : List PinAct :=
  let n := r.channel
  let cfg := b.get (ANG_CH_CFG n)
  if b.chEnabled n && bit cfg 2 && bits r.w2.toNat 10 3 ≠ 0 then [⟨n, bits cfg 4 4, bits r.w2.toNat 10 3, bits (b.get (ANG_CH_TIME n)) 16 16⟩]
  else []

/-- The pin and pulse registers after one action (R137); a clock failure holds every pin low until a reset (R138;
20_clocks_power_reset.md R575). -/
def Block.applyPin (b : Block) (a : PinAct) : Block :=
  let level := bit b.ang.pins a.pin
  if b.flag CPR_STAT_FORCED then b
  else
  let put (v : Bool) (p : Option Nat) : Block :=
    { b with
      ang.pins := setBits b.ang.pins a.pin 1 (b2n v)
      ang.pulses := if h : a.pin < 16 then b.ang.pulses.set a.pin p h else b.ang.pulses }
  if a.op = 1 then put true none
  else if a.op = 2 then put false none
  else if a.op = 3 then put (!level) none
  else if a.op = 4 then put true (some (b.up + 8 * a.pulse))
  else b

/-- Of several actions on one pin in one ns the lowest channel's decides (R137). -/
def Block.applyPins (b : Block) (acts : List PinAct) : Block :=
  (acts.filter fun a => acts.all fun c => c.pin ≠ a.pin || a.channel ≤ c.channel).foldl Block.applyPin b

/-- What an enabled channel's firing does besides its pin (R136). -/
def Block.channelFire (b : Block) (r : EvtWords) : Block :=
  let n := r.channel
  if b.chEnabled n then
    let b := if bit (b.get (ANG_CH_CFG n)) 0 then b.irq (192 + n) else b
    (b.set (ANG_CH_LAST_TAG n) (bits r.w2.toNat 16 16)).incWrap (ANG_CH_LAST_CNT n)
  else b

/-- The movement of the lead angle past a record's key in the direction of its firing, in 2^-64 turn. -/
def EvtWords.overshoot (r : EvtWords) (lead : Nat) (fwd : Bool) : Int :=
  let n := ringOf r.cyclic
  if fwd then (((lead % n + n - r.key % n) % n : Nat) : Int) else -(((r.key % n + n - lead % n) % n : Nat) : Int)

/-- A record crosses its key when its lead angle moves from `lp` to `lc` (R127): the direction and the distance. -/
def EvtRec.crossing (r : EvtRec) (lp lc : Nat) : Option (Bool × Nat) :=
  let d := sgn 96 (lc + 2 ^ 96 - lp % 2 ^ 96)
  if 0 < d ∧ r.words.permits true ∧ r.gapF.isNone then
    match r.words.distance lp true with
    | some k => if (k : Int) ≤ d then some (true, k) else none
    | none => none
  else if d < 0 ∧ r.words.permits false ∧ r.gapR.isNone then
    match r.words.distance lp false with
    | some k => if (k : Int) ≤ -d then some (false, k) else none
    | none => none
  else none

/-- Insert a crossing in order of distance. -/
def insertCross (x : Nat × DueRec) : List (Nat × DueRec) → List (Nat × DueRec)
  | [] => [x]
  | y :: t => if x.1 < y.1 then x :: y :: t else y :: insertCross x t

/-- The new crossings of a list in key order in the direction of motion, as due records. -/
def Block.crossings (b : Block) (rs : List EvtRec) (due : List DueRec) : List DueRec :=
  let xs := rs.foldl (fun acc r =>
    if due.any (·.handle = r.handle) then acc
    else
      let lead := b.leadOf r.words
      let lp := leadAngle b.ang.mTh b.ang.mW lead
      match r.crossing lp (leadAngle b.ang.th b.ang.w lead) with
      | some (fwd, k) => insertCross (k, ⟨r.handle, fwd, b.up, wrapN 96 (if fwd then (lp : Int) + k else (lp : Int) - k)⟩) acc
      | none => acc) []
  due ++ xs.map (·.2)

/-- How far ahead of the estimate, in its direction, the key of a due record lies. -/
def Block.dueAhead (b : Block) (d : DueRec) : Int :=
  let x := sgn 96 (d.at96 + 2 ^ 96 - b.ang.th % 2 ^ 96)
  if d.fwd then x else -x

/-- Whether a record that precedes a due record in key order, and whose own lead angle has not reached its key, holds it (R128). -/
def Block.heldBack (b : Block) (rs : List EvtRec) (d : DueRec) : Bool :=
  rs.any fun r =>
    r.handle ≠ d.handle && r.words.permits d.fwd &&
      match r.words.distance (b.ang.th / 2 ^ 32 * 2 ^ 32) d.fwd with
      | none => false
      | some dr => (dr : Int) < b.dueAhead d && (b.ang.w * b.leadOf r.words).natAbs < dr

/-- Due records that a reversal releases without firing: held ones whose direction is no longer that of motion. -/
def Block.keepDue (b : Block) (rs : List EvtRec) (due : List DueRec) : List DueRec :=
  let v := b.ang.w + b.ang.c
  due.filter fun d =>
    rs.any (·.handle = d.handle) && !(b.heldBack rs d && ((d.fwd && v < 0) || (!d.fwd && 0 < v)))

/-- The due record of a list that fires this ns: the first in key order, unless it is held. -/
def Block.nextDue (b : Block) (rs : List EvtRec) (due : List DueRec) : Option (DueRec × EvtRec) :=
  match (due.find? fun d => due.all fun x => x.fwd ≠ d.fwd || b.dueAhead d ≤ b.dueAhead x) with
  | none => none
  | some d => if b.heldBack rs d then none else (rs.find? (·.handle = d.handle)).map fun r => (d, r)

/-- A list after one record fired: absolute and one-shot records go, others wait to re-arm (R127, R129). -/
def Block.afterFire (b : Block) (rs : List EvtRec) (d : DueRec) (r : EvtRec) : List EvtRec :=
  if ¬ r.words.cyclic ∨ bit r.words.w2.toNat 13 then rs.filter (·.handle ≠ r.handle)
  else
    let g := r.words.overshoot (leadAngle b.ang.th b.ang.w (b.leadOf r.words)) d.fwd
    rs.map fun x =>
      if x.handle = r.handle then
        (if d.fwd then { x with gapF := some g, sent := false } else { x with gapR := some g, sent := false })
      else x

/-- BURST when a record fires more than 16 ns after its crossing (R128). -/
def Block.burst (b : Block) (d : DueRec) : Block := if d.since + 16 < b.up then (b.on ANG_STAT_BURST).irq 186 else b

/-- The count of records in the table. -/
def Block.showCount (b : Block) : Block := b.set ANG_EVT_COUNT (b.ang.absList.length + b.ang.cycList.length)

/-- One ns of matching: gaps and crossings of both lists, at most one firing of each, pins, channels. -/
def Block.matchEvents (b : Block) : Block :=
  if ¬ (b.flag ANG_STAT_RUNNING ∧ b.flag ANG_STAT_LOCKED) then b.followGaps
  else
    let cyc := b.ang.cycList.map b.gapsOf
    let dueA := b.keepDue b.ang.absList (b.crossings b.ang.absList b.ang.dueAbs)
    let dueC := b.keepDue cyc (b.crossings cyc b.ang.dueCyc)
    let fa := b.nextDue b.ang.absList dueA
    let fc := b.nextDue cyc dueC
    let absL := match fa with
      | some (d, r) => b.afterFire b.ang.absList d r
      | none => b.ang.absList
    let cycL := match fc with
      | some (d, r) => b.afterFire cyc d r
      | none => cyc
    let dropDue (f : Option (DueRec × EvtRec)) (l : List DueRec) : List DueRec := match f with
      | some (d, _) => l.filter (· ≠ d)
      | none => l
    let b := { b with
      ang.absList := absL, ang.cycList := cycL, ang.dueAbs := dropDue fa dueA, ang.dueCyc := dropDue fc dueC,
      ang.mTh := b.ang.th, ang.mW := b.ang.w }
    let fired := fa.toList ++ fc.toList
    let b := b.applyPins (fired.flatMap fun x => b.pinAct x.2.words)
    let b := fired.foldl (fun b x => (b.channelFire x.2.words).burst x.1) b
    b.showCount

/-- One nanosecond of the estimate (R113): the rate and the correction slew are added; the slew expires (R114). -/
def Block.advanceAngle (b : Block) : Block :=
  if ¬ b.flag ANG_STAT_RUNNING then b
  else
    let a := b.ang
    let left := a.cLeft - 1
    { b with ang.th := wrapN 96 (a.th + a.w + a.c), ang.cLeft := left, ang.c := if left = 0 then 0 else a.c }

/-- PULSE_END (R137): a pulse whose width has passed returns its pin low. -/
def execPulseEnd (pin : Fin 16) (s : State) : Outcome :=
  .next (s.onBlk fun b =>
    match b.ang.pulses[pin] with
    | some t =>
      if t ≤ b.up then { b with ang.pins := setBits b.ang.pins pin.1 1 0, ang.pulses := b.ang.pulses.set pin none }
      else b
    | none => b)

/-! ### Editing the table (R132 to R134) -/

/-- The staged record. -/
def Block.staged (b : Block) : EvtWords :=
  ⟨b.rd (aANG_EVT_REC 0), b.rd (aANG_EVT_REC 1), b.rd (aANG_EVT_REC 2), b.rd (aANG_EVT_REC 3)⟩

/-- The lowest handle that names no record, searching upward from `i` (R133). -/
def freeHandle (used : List Nat) : Nat → Nat → Nat
  | 0, i => i
  | n + 1, i => if used.contains i then freeHandle used n (i + 1) else i

/-- The rate by which R133 judges the direction: 0 while the unit is stopped (R148). -/
def Block.editRate (b : Block) : Int := if b.flag ANG_STAT_RUNNING then b.ang.w else 0

/-- An absolute record whose key lies behind the lead angle in the direction of motion (R133). -/
def Block.pastKey (b : Block) (r : EvtWords) : Bool :=
  let d := sgn 96 (r.keyAbs + 2 ^ 96 - leadAngle b.ang.th b.editRate (b.leadOf r))
  !r.cyclic && ((0 < b.editRate && d < 0) || (b.editRate < 0 && 0 < d))

/-- Every record of the table. -/
def Block.allEvents (b : Block) : List EvtRec := b.ang.absList ++ b.ang.cycList

/-- Add a record to its list. -/
def Block.addEvent (b : Block) (h : Nat) (r : EvtWords) : Block :=
  let x : EvtRec := ⟨h, r, none, none, false⟩
  (if r.cyclic then { b with ang.cycList := b.ang.cycList ++ [x] }
    else { b with ang.absList := b.ang.absList ++ [x] }).showCount

/-- Remove the record a handle names. -/
def Block.removeEvent (b : Block) (h : Nat) : Block :=
  { b with
    ang.absList := b.ang.absList.filter (·.handle ≠ h), ang.cycList := b.ang.cycList.filter (·.handle ≠ h),
    ang.dueAbs := b.ang.dueAbs.filter (·.handle ≠ h), ang.dueCyc := b.ang.dueCyc.filter (·.handle ≠ h) }.showCount

/-- The result of an edit: RESULT and HANDLE (Table 4.5). -/
def Block.editResult (b : Block) (result h : Nat) : Block := (b.set ANG_EVT_RES_RESULT result).set ANG_EVT_RES_HANDLE h

/-- Insert the staged record (R133): invalid 4, table full 1, past 2, else done (DEDUCED, log entry 52). -/
def Block.evtInsert (b : Block) (r : EvtWords) : Block :=
  let h := freeHandle (b.allEvents.map (·.handle)) 4096 0
  if ¬ r.valid then b.editResult 4 0
  else if 4096 ≤ b.allEvents.length then b.editResult 1 0
  else if b.pastKey r then b.editResult 2 0
  else (b.addEvent h r).editResult 0 h

/-- Delete the record of a handle. -/
def Block.evtDelete (b : Block) (h : Nat) : Block :=
  if b.allEvents.any (·.handle = h) then (b.removeEvent h).editResult 0 h else b.editResult 3 h

/-- Replace the record of a handle by the staged record with fresh state (R134). -/
def Block.evtReplace (b : Block) (h : Nat) (r : EvtWords) : Block :=
  if ¬ b.allEvents.any (·.handle = h) then b.editResult 3 h
  else if ¬ r.valid then b.editResult 4 h
  else if b.pastKey r then b.editResult 2 h
  else ((b.removeEvent h).addEvent h r).editResult 0 h

/-- Copy the record of a handle into the staging registers. -/
def Block.evtRead (b : Block) (h : Nat) : Block :=
  match b.allEvents.find? (·.handle = h) with
  | none => b.editResult 3 h
  | some x =>
    let b := ((b.wr (aANG_EVT_REC 0) x.words.w0).wr (aANG_EVT_REC 1) x.words.w1)
    ((b.wr (aANG_EVT_REC 2) x.words.w2).wr (aANG_EVT_REC 3) x.words.w3).editResult 0 h

/-- The edit that command word `v` orders, with `r` staged (Table 4.5). -/
def Block.evtEdit (b : Block) (v : Nat) (r : EvtWords) : Block :=
  let h := bits v 16 12
  let op := bits v 0 2
  if op = 1 then b.evtInsert r else if op = 2 then b.evtDelete h else if op = 3 then b.evtReplace h r else b.evtRead h

/-- A write of ANG_EVT_CMD (R132): the edit begins with the record staged now (DEDUCED, log entry 119); while BUSY it is ignored and sets
EDIT_ERR. -/
def Block.evtCmd (b : Block) (v : Nat) : Block :=
  if b.flag ANG_EVT_RES_BUSY then (b.on ANG_STAT_EDIT_ERR).irq 186
  else { b with ang.edit := some (v, b.staged) }.on ANG_EVT_RES_BUSY

/-- The edit under way takes effect (R134). A declarer mirrors one that it accepted (14_partners.md R443) (DEDUCED, log entry 52). -/
def Block.finishEdit (b : Block) : Block :=
  match b.ang.edit with
  | none => b
  | some (v, r) =>
    let b := { b with ang.edit := none }.evtEdit v r
    if bits v 0 2 = 0 ∨ b.get ANG_EVT_RES_RESULT ≠ 0 then b
    else b.mirror (.commit ((b.round + 1) % 2 ^ 16) aANG_EVT_CMD [r.w0, r.w1, r.w2, r.w3, BitVec.ofNat 32 v])

/-- EDIT_COMPLETE (R132, R134): the edit takes effect, BUSY clears and source 186 asserts. -/
def execEditComplete (s : State) : Outcome :=
  .next (s.onBlk fun b => if b.flag ANG_EVT_RES_BUSY then (b.finishEdit.off ANG_EVT_RES_BUSY).irq 186 else b)

/-! ### Node commands (R140 to R142) -/

/-- The node command of one record at this boundary, `none` when it is not to be sent. -/
def Block.nodeItem (b : Block) (r : EvtRec) : Option CmdItem :=
  let cfg := b.get (ANG_CH_CFG r.words.channel)
  let w := b.ang.w
  let fwd := decide (0 < w)
  if w = 0 ∨ r.sent ∨ ¬ b.chEnabled r.words.channel ∨ ¬ bit cfg 1 ∨ ¬ r.words.permits fwd then none
  else
    match r.words.distance (leadAngle b.ang.th w (b.leadOf r.words)) fwd with
    | none => none
    | some d =>
      let t := b.roundNs
      let dt := d / w.natAbs
      if dt < (b.lookahead + 2) * t then
        some ⟨bits cfg 8 3, bits cfg 16 6, bits cfg 24 8, r.words.w3.toNat, (b.round + dt / t) % 2 ^ 16, dt % t,
          (b.ns + dt : Nat), false⟩
      else none

/-- Items due within the look-ahead join the queue, and their records are marked sent (R140, R141). Nothing is converted unless LOCKED
(R115). -/
def Block.nodeCommands (b : Block) : Block :=
  if ¬ (b.flag ANG_STAT_RUNNING ∧ b.flag ANG_STAT_LOCKED) ∨ b.get PTN_STAT_ROLE = 2 then b
  else
    let items := b.allEvents.filterMap fun r => b.nodeItem r
    let mark (r : EvtRec) : EvtRec := if (b.nodeItem r).isSome then { r with sent := true } else r
    { b with
      ang.items := b.ang.items ++ items, ang.absList := b.ang.absList.map mark,
      ang.cycList := b.ang.cycList.map mark }

/-- `n` items are counted late (R142, 05_thrumlos_link_and_frames.md R163). -/
def Block.countLate (b : Block) (n : Nat) : Block :=
  if n = 0 then b else ((b.addSat ANG_LATE_CNT n).on ANG_STAT_LATE).irq 187

/-- Every waiting item is judged for the coming lead frame (R142): late where its time lies before the boundary after that. An item held for
another frame is judged again, and counts once (05_thrumlos_link_and_frames.md R163). -/
def Block.judgeLate (b : Block) : Block :=
  let late (x : CmdItem) : Bool := decide (x.tc < ((b.ns + 2 * b.roundNs : Nat) : Int))
  let n := (b.ang.items.filter fun x => late x && !x.late).length
  ({ b with ang.items := b.ang.items.map fun x => { x with late := x.late || late x } } : Block).countLate n

/-- The round angle is latched (R118), and the rate with it (07_axis_loop_law.md R240). -/
def Block.latchRoundAngle (b : Block) : Block := { b.set ANG_ROUND b.angle with ang.roundW := b.ang.w }

/-! ### CAPIN (R143, R144) -/

/-- The angle estimate at time `t` on a point's way. -/
def PathPt.thAt (p : PathPt) (t : Int) : Nat := wrapN 96 (p.th + p.v * (t - p.up))

/-- Plant time at time `t` on a point's way. -/
def PathPt.timeAt (p : PathPt) (t : Int) : Nat := wrapN 96 (p.time + p.tv * (t - p.up))

/-- The points newer than `t` and the one in force then. -/
def trimPath (t : Nat) : List PathPt → List PathPt
  | [] => []
  | p :: l => if p.up ≤ t then [p] else p :: trimPath t l

/-- A nanosecond has passed: a point is kept where angle or plant time left its way; a filter reaches 2,040 ns back. -/
def Block.notePath (b : Block) : Block :=
  if b.ang.past.head?.any fun p => p.thAt b.up = b.ang.th && p.timeAt b.up = b.time then b
  else
    let v := if b.flag ANG_STAT_RUNNING then b.ang.w + b.ang.c else 0
    { b with ang.past := trimPath (b.up - 2048) (⟨b.up, b.ang.th, v, b.time, b.tickStep⟩ :: b.ang.past) }

/-- The angle estimate and plant time `back` ns ago. -/
def Block.pathAt (b : Block) (back : Nat) : Nat × Nat :=
  let t : Int := (b.up : Int) - back
  let now : PathPt := ⟨b.up, b.ang.th, if b.flag ANG_STAT_RUNNING then b.ang.w + b.ang.c else 0, b.time, b.tickStep⟩
  let p := if back = 0 then now else ((b.ang.past.find? fun p => (p.up : Int) ≤ t).orElse fun _ => b.ang.past.getLast?).getD now
  (p.thAt t, p.timeAt t)

/-- Whether the FIFO pair of a level source holds an entry. -/
def Block.capLevel (b : Block) (j : Nat) : Bool :=
  if h : 2 * j + 1 < 8 then !(b.ang.capFifo[2 * j].isEmpty && b.ang.capFifo[2 * j + 1].isEmpty) else false

/-- An accepted edge of CAPIN `i` enters its FIFO with the angle and time of the first transition (R143); a full
FIFO discards it (R144). -/
def Block.capEdge (b : Block) (i : Fin 8) (rising : Bool) : Block :=
  let cfg := b.ang.capCfg[i]
  if ¬ bit cfg.1 (if rising then 0 else 1) then b
  else if 16 ≤ b.ang.capFifo[i].length then (b.on (ANG_CAP_FLAGS_OVF i.1)).on ANG_STAT_CAP_OVF
  else
    let (th, t) := b.pathAt (8 * cfg.2)
    let e : CapinEntry := ⟨rising, th / 2 ^ 32, t / 2 ^ 32 % 2 ^ 64⟩
    let was := b.capLevel (i.1 / 2)
    let b := { b with ang.capFifo := b.ang.capFifo.set i (b.ang.capFifo[i] ++ [e]) }
    let b := b.set (ANG_CAP_FLAGS_QUEUED i.1) b.ang.capFifo[i].length
    if was then b else b.irq (188 + i.1 / 2)

/-- A write of ANG_CAPi_POP moves the oldest entry to the holding registers; an empty FIFO clears VALID (R144). -/
def Block.capPop (b : Block) (i : Fin 8) : Block :=
  match b.ang.capFifo[i] with
  | [] => b.off (ANG_CAP_FLAGS_VALID i.1)
  | e :: t =>
    let b := { b with ang.capFifo := b.ang.capFifo.set i t }
    let b := ((b.on (ANG_CAP_FLAGS_VALID i.1)).put (ANG_CAP_FLAGS_RISING i.1) e.rising)
    ((b.set (ANG_CAP_FLAGS_QUEUED i.1) t.length).set (ANG_CAP_ANG i.1) e.angle).set (ANG_CAP_TIME i.1) e.time

end Sys2Proof.Machine
end

