-- ==== Sys2Proof/Machine/Profile.lean ====
section
/-!
DEFINITION. Motion profiles and electronic gearing (08_profiles_and_gearing.md): the point-to-point generator, velocity
mode, gearing, stepper current, and what commits on the profile registers start. The generator works in exact rationals and
keeps its triple in 2^-48 units, 32 bits below the registers (R260).
-/

namespace Sys2Proof.Machine

/-! ### Phases (R258) -/

/-- A triple in exact numbers: counts, counts/µs, counts/µs/ms. -/
structure RTriple where
  x : Rat
  v : Rat
  a : Rat
  deriving DecidableEq, Repr

/-- A number held in 2^-48 units (DESIGN CHOICE, log entry 68). -/
def rat48 (i : Int) : Rat := mkRat i (2 ^ 48)

/-- The nearest number of 2^-48 units. -/
def to48 (r : Rat) : Int := (r * 2 ^ 48 + 1 / 2).floor

/-- A triple in exact numbers. -/
def Triple.rat (t : Triple) : RTriple := ⟨rat48 t.x, rat48 t.v, rat48 t.a⟩

/-- A triple in 2^-48 units. -/
def RTriple.held (t : RTriple) : Triple := ⟨to48 t.x, to48 t.v, to48 t.a⟩

/-- The triple `τ` ms into a phase. -/
def RTriple.after (s : RTriple) (p : Phase) (τ : Rat) : RTriple :=
  let j : Rat := if p.inst then 0 else rat48 p.jerk
  let a := if p.inst then rat48 p.jerk else s.a
  ⟨s.x + 1000 * (s.v * τ + a * τ * τ / 2 + j * τ * τ * τ / 6), s.v + a * τ + j * τ * τ / 2, a + j * τ⟩

/-- The triple at the end of phases. -/
def RTriple.run (s : RTriple) (ps : List Phase) : RTriple := ps.foldl (fun s p => s.after p p.dur) s

/-- The triple `t` ms into phases, and the phase it falls in; `none` at or after their end. -/
def RTriple.at (s : RTriple) : List Phase → Rat → Option (RTriple × Phase)
  | [], _ => none
  | p :: ps, t => if t < p.dur then some (s.after p t, p) else RTriple.at (s.after p p.dur) ps (t - p.dur)

/-- Magnitude. -/
def absR (r : Rat) : Rat := if r < 0 then -r else r

/-- -1, 0 or 1. -/
def signR (r : Rat) : Int := if r < 0 then -1 else if 0 < r then 1 else 0

/-- The square root rounded down to 2^-32 (R259). -/
def sqrtR (r : Rat) : Rat := mkRat (isqrt 64 ((r * 2 ^ 64).floor.toNat)) (2 ^ 32)

/-- Phases that bring a velocity from `v` to `v1` and the acceleration from `a` to 0, with acceleration limit `lim` and
jerk `j` (0 for unbounded): phase numbers `base` to `base + 2` (R258, R259). -/
def ramp (v a v1 lim j : Rat) (base : Nat) (rev : Bool) : List Phase :=
  let ph (x : Rat) (inst : Bool) (d : Rat) (k : Nat) : List Phase :=
    if d = 0 ∧ ¬ inst then [] else [⟨to48 x, inst, d, base + k, rev⟩]
  if j = 0 then
    if v = v1 then (if a = 0 then [] else ph 0 true 0 2)
    else ph (signR (v1 - v) * lim) true (absR (v1 - v) / lim) 1 ++ ph 0 true 0 2
  else
    let d := v1 - (v + a * absR a / (2 * j))
    let s : Rat := if d < 0 then -1 else 1
    let sd := absR d
    let sa := s * a
    if sd = 0 then ph (-(signR a) * j) false (absR a / j) 2
    else if lim < sa then
      ph (-(s * j)) false ((sa - lim) / j) 0 ++ ph 0 false (sd / lim) 1 ++ ph (-(s * j)) false (lim / j) 2
    else
      let up : Rat := if 0 ≤ sa then sa * sa else 0
      let peak2 := j * sd + up
      let pk := if lim * lim ≤ peak2 then lim else max (sqrtR peak2) sa
      let hold := if pk ≤ 0 then 0 else (sd - (pk * pk - up) / j) / pk
      ph (s * j) false ((pk - sa) / j) 0 ++ ph 0 false hold 1 ++ ph (-(s * j)) false (pk / j) 2

/-! ### Plans -/

/-- A limit as an exact number. -/
def limR (n : Nat) : Rat := mkRat n (2 ^ 16)

/-- The stop of a triple with PDEC and PJERK; a deceleration of 0 stops at once (R261). -/
def stopPhases (s : RTriple) (l : Limits) (rev : Bool) : List Phase :=
  if l.dec = 0 then [⟨0, true, 0, 7, rev⟩] else ramp s.v s.a 0 (limR l.dec) (limR l.jerk) 5 rev

/-- Where a stop from a triple ends (R257, R269). -/
def stopEnd (s : RTriple) (l : Limits) : Rat := if l.dec = 0 then s.x else (s.run (stopPhases s l false)).x

/-- Up to a peak velocity and down to 0 again, in direction `s`. -/
def upDown (t : RTriple) (l : Limits) (s : Int) (peak : Rat) : List Phase × List Phase :=
  let j := limR l.jerk
  let ve := if j = 0 then t.v else t.v + t.a * absR t.a / (2 * j)
  let grow := ve * s < peak
  let up := ramp t.v t.a (s * peak) (limR (if grow then l.acc else l.dec)) j (if grow then 1 else 5) false
  let dn := ramp (s * peak) 0 0 (limR l.dec) j 5 false
  (up, dn)

/-- The distance of `upDown` in direction `s`. -/
def travel (t : RTriple) (l : Limits) (s : Int) (peak : Rat) : Rat :=
  let (up, dn) := upDown t l s peak
  s * ((t.run (up ++ dn)).x - t.x)

/-- The largest peak velocity in 2^-16 count/µs, at most PVEL, whose distance does not exceed `rem` (R259). -/
def peakVel (t : RTriple) (l : Limits) (s : Int) (rem : Rat) : Nat → Nat → Nat
  | 0, r => r
  | k + 1, r =>
    peakVel t l s rem k (if r + 2 ^ k ≤ l.vel ∧ travel t l s (limR (r + 2 ^ k)) ≤ rem then r + 2 ^ k else r)

/-- Phases towards a position ahead in direction `s`, with the cruise of phase 4 (R258, R259). -/
def towards (t : RTriple) (l : Limits) (s : Int) (target : Rat) : List Phase :=
  let rem := s * (target - t.x)
  let pk := if travel t l s (limR l.vel) ≤ rem then l.vel else peakVel t l s rem 31 0
  if pk = 0 then stopPhases t l false
  else
    let (up, dn) := upDown t l s (limR pk)
    let cruise := (rem - travel t l s (limR pk)) / (1000 * limR pk)
    up ++ (if cruise ≤ 0 then [] else [⟨0, false, cruise, 4, false⟩]) ++ dn

/-- Whether a stop would end beyond the target in the direction it carries the axis (R263). -/
def overshoots (t : RTriple) (l : Limits) (target : Rat) : Bool :=
  let m := signR (stopEnd t l - t.x)
  decide (limR 1 < m * (stopEnd t l - target))

/-- Phases of a move to a target: a stop that ends on it, a move ahead, or a stop with REVERSING and a move back (R263,
R265). -/
def movePhases (t : RTriple) (l : Limits) (target : Rat) : List Phase :=
  let e := stopEnd t l
  let moving := t.v ≠ 0 ∨ t.a ≠ 0
  if moving ∧ absR (target - e) ≤ limR 1 then stopPhases t l false
  else if overshoots t l target then
    stopPhases t l true ++ towards ⟨e, 0, 0⟩ l (signR (target - e)) target
  else if target = t.x ∧ ¬ moving then []
  else towards t l (signR (target - e)) target

/-- Phases of velocity mode: through 0 when the sign changes, PACC while the magnitude grows and PDEC while it shrinks
(R267). -/
def velPhases (t : RTriple) (l : Limits) (target : Rat) : List Phase :=
  let j := limR l.jerk
  let part (s : RTriple) (v1 : Rat) : List Phase :=
    let ve := if j = 0 then s.v else s.v + s.a * absR s.a / (2 * j)
    let grow := v1 ≠ 0 ∧ signR (v1 - ve) = signR v1
    ramp s.v s.a v1 (limR (if grow then l.acc else l.dec)) j (if grow then 1 else 5) false
  if t.v * target < 0 then
    let p := part t 0
    p ++ part ⟨(t.run p).x, 0, 0⟩ target
  else part t target

/-- Whether a velocity change needs PACC, and whether it needs PDEC (R261, R267): what is left to change once the acceleration is
brought to 0. -/
def velNeeds (t : RTriple) (l : Limits) (target : Rat) : Bool × Bool :=
  let j := limR l.jerk
  let ve := if j = 0 then t.v else t.v + t.a * absR t.a / (2 * j)
  if t.v * target < 0 then (true, true)
  else if target = ve then (false, false)
  else if target ≠ 0 ∧ signR (target - ve) = signR target then (true, false)
  else (false, true)

/-- PHASE of a velocity ramp (R267): 1 to 3 while the speed grows, 5 to 7 while it shrinks, by what the jerk does to the acceleration. -/
def velPhase (t : RTriple) (jerk : Rat) : Nat :=
  let s := if t.v ≠ 0 then signR t.v else if t.a ≠ 0 then signR t.a else signR jerk
  let a := s * t.a
  let j := s * jerk
  if 0 < a ∨ (a = 0 ∧ 0 < j) then (if 0 < j then 1 else if j = 0 then 2 else 3)
  else if a < 0 ∨ j < 0 then (if j < 0 then 5 else if j = 0 then 6 else 7)
  else if t.v ≠ 0 then 4
  else 0

/-! ### An axis's helper -/

/-- The round length in ms. -/
def Block.roundMs (b : Block) : Rat := mkRat b.roundNs 1000000

/-- The limits committed in the registers. -/
def Block.limits (b : Block) (i : Nat) : Limits :=
  ⟨b.get (AX_PVEL i), b.get (AX_PACC i), b.get (AX_PDEC i), b.get (AX_PJERK i)⟩

/-- The command triple of axis `i`: the gear part plus the offset part in CMODE 2 (R270), else the generator's. -/
def Block.cmd (b : Block) (i : Nat) : Triple :=
  let x := b.ax i
  if x.cmode = 2 then ⟨x.gear.x / 2 ^ 16 + x.gen.tr.x, x.gear.v + x.gen.tr.v, x.gear.a + x.gen.tr.a⟩ else x.gen.tr

/-- Axis `i` is virtual. -/
def Block.virtual (b : Block) (i : Nat) : Bool := (b.axisRec i).any (·.kind = 3)
/-- Axis `i` is a stepper. -/
def Block.stepper (b : Block) (i : Nat) : Bool := (b.axisRec i).any (·.kind = 2)
/-- Axis `i` has the modulus of R268. -/
def Block.modulo (b : Block) (i : Nat) : Bool := (b.axisRec i).any (bit ·.flags 0)

/-- The helper runs: the axis is enabled and in automatic, or jogs as a stepper in manual (Table 7.5); a virtual axis always (R256,
R257), and every axis of a dummy (14_partners.md R441). -/
def Block.helperRuns (b : Block) (i : Nat) : Bool :=
  b.virtual i || (b.flag (AX_STAT_ENABLED i) && (b.flag (AX_STAT_AUTO i) || (b.ax i).jog)) || b.get PTN_STAT_ROLE = 2

/-- A position in 2^-48 count as Q48.16, wrapped into 0 to M on a modulo axis (R268). -/
def Block.shownPos (b : Block) (i : Nat) (x : Int) : Int :=
  let q := sarRound x 32
  let m := b.get (AX_MODULUS i)
  if b.modulo i ∧ m ≠ 0 then q % m else q

/-- Give the generator a plan from its present triple. -/
def Block.plan (b : Block) (i : Nat) (ps : List Phase) (l : Limits) (target : Option Int) : Block :=
  b.modAx i fun x => { x with gen := { x.gen with plan := some ⟨x.gen.tr, ps, 0, target⟩, lim := l } }

/-- Show PHASE, REVERSING (Table 8.2, R263): PHASE reads 0 in CMODE 2 (Table 8.5). -/
def Block.showPhase (b : Block) (i : Nat) (n : Nat) (rev : Bool) : Block :=
  (b.set (AX_MSTAT_PHASE i) (if (b.ax i).cmode = 2 then 0 else n)).put (AX_MSTAT_REVERSING i) rev

/-- Hold (R255, R261): a stop with PDEC and PJERK from the present triple; with PDEC 0 at once, with PARAM_ERR. -/
def Block.holdMode (b : Block) (i : Nat) : Block :=
  let l := b.limits i
  let b := b.modAx i fun x => { x with gen := { x.gen with kept := false } }
  let t := (b.ax i).gen.tr
  if t.v = 0 ∧ t.a = 0 then b.modAx i fun x => { x with gen := { x.gen with plan := none } }
  else if l.dec = 0 then
    (b.modAx i fun x => { x with gen := { x.gen with tr := ⟨t.x, 0, 0⟩, plan := none } }).on (AX_MSTAT_PARAM_ERR i)
  else b.plan i (stopPhases t.rat l false) l none

/-- The equivalent of a target that a modulo move aims at (R269), in 2^-48 count. -/
def Block.equivalent (b : Block) (i : Nat) (target : Int) (l : Limits) : Int :=
  let m : Int := b.get (AX_MODULUS i) * 2 ^ 32
  if ¬ b.modulo i ∨ m = 0 then target
  else
    let t := (b.ax i).gen.tr
    let s := to48 (stopEnd t.rat l)
    let dn := s - (s - target) % m       -- the nearest equivalent at or below s
    let up := if dn = s then s else dn + m
    if b.flag (AX_CFG_MOD_SHORT i) then
      if s - dn < up - s then dn
      else if up - s < s - dn then up
      else if t.v < 0 ∨ (t.v = 0 ∧ t.a < 0) then dn else up
    else if b.flag (AX_CFG_MDIR i) then dn else up

/-- A stepper whose current is below SRUN starts a motion one boundary later (R278). -/
def Block.wake (b : Block) (i : Nat) : Block :=
  if b.stepper i ∧ b.flag (AX_MSTAT_CUR_RED i) then
    ((b.modAx i fun x => { x with rest := 0, rested := 0, startAt := true }).off (AX_MSTAT_CUR_RED i)).set (AX_SCUR i)
      (b.get (AX_SRUN i))
  else b

/-- A move may start (R261, R268): no limit is 0, nor the modulus of a modulo axis. `off` says that the generator runs the offset move
of CMODE 2 (R272). -/
def Block.mayMove (b : Block) (i : Nat) (l : Limits) (off : Bool) : Bool :=
  !(l.vel = 0 || l.acc = 0 || l.dec = 0 || (!off && b.modulo i && b.get (AX_MODULUS i) = 0))

/-- A refused motion: PARAM_ERR, and the helper holds (R261). -/
def Block.refuseMove (b : Block) (i : Nat) : Block := (b.holdMode i).on (AX_MSTAT_PARAM_ERR i)

/-- Start or replan a move to AX_TARGET (R261) (DEDUCED, log entry 72). -/
def Block.startMove (b : Block) (i : Nat) (l : Limits) (off : Bool) : Block :=
  if ¬ b.mayMove i l off then b.refuseMove i
  else
    let tgt := b.geti (AX_TARGET i) * 2 ^ 32
    let tgt := if off then tgt else b.equivalent i tgt l
    b.plan i (movePhases (b.ax i).gen.tr.rat l (rat48 tgt)) l (some tgt)

/-- A new move: where it starts, DONE and ACC_DEFERRED clear (R260, R263). -/
def Block.newMove (b : Block) (i : Nat) (off : Bool) : Block :=
  let l := b.limits i
  if ¬ b.mayMove i l off then b.refuseMove i
  else
    let b := ((b.off (AX_MSTAT_DONE i)).off (AX_STAT_ACC_DEFERRED i)).wake i
    (b.modAx i fun x => { x with gen := { x.gen with kept := false } }).startMove i l off

/-- Velocity mode (R267): AX_JVEL held at PVEL; a change that needs a limit of 0 is refused (R261). A jog runs towards
AX_MAN_VEL (R278). -/
def Block.velMode (b : Block) (i : Nat) : Block :=
  let l := b.limits i
  let j := if (b.ax i).jog then b.geti (AX_MAN_VEL i) else b.geti (AX_JVEL i)
  let b := if (l.vel : Int) < j.natAbs then b.on (AX_MSTAT_PARAM_ERR i) else b
  let v := mkRat (clampI (-(l.vel : Int)) l.vel j) (2 ^ 16)
  let t := (b.ax i).gen.tr.rat
  let (grows, shrinks) := velNeeds t l v
  if (grows ∧ l.acc = 0) ∨ (shrinks ∧ l.dec = 0) then b.refuseMove i
  else (b.wake i).plan i (velPhases t l v) l none

/-! ### Gearing -/

/-- The ratio function of a gear part at an angle `u` beyond the change angle in the blend's direction, in 2^-64 count per
turn (R273). -/
def Blend.ratio (m : Blend) (u : Int) : Rat :=
  if (m.arm.b : Int) ≤ u then m.arm.r1 else if u ≤ 0 then m.r0 else m.r0 + (m.arm.r1 - m.r0) * u / m.arm.b

/-- The integral of the ratio function from the change angle to `u`. -/
def Blend.area (m : Blend) (u : Int) : Rat :=
  if u ≤ 0 then m.r0 * u
  else if (m.arm.b : Int) ≤ u then m.arm.r1 * u - (m.arm.r1 - m.r0) * m.arm.b / 2
  else m.r0 * u + (m.arm.r1 - m.r0) * u * u / (2 * m.arm.b)

/-- How far an angle lies beyond the change angle in the blend's direction. -/
def Blend.along (m : Blend) (th : Nat) : Int := if m.fwd then angleDiff th m.arm.g else -(angleDiff th m.arm.g)

/-- R(θ) of a gear part, in 2^-64 count per turn. -/
def Gear.ratioAt (g : Gear) (th : Nat) : Rat :=
  match g.blend with
  | some m => m.ratio (m.along th)
  | none => g.ratio

/-- The integral of R over the angle from `th0` to `th1`, in 2^-96 count (R270). -/
def Gear.sum (g : Gear) (th0 th1 : Nat) : Rat :=
  match g.blend with
  | some m =>
    let d := m.area (m.along th1) - m.area (m.along th0)
    if m.fwd then d else -d
  | none => g.ratio * angleDiff th1 th0

/-- A change triggers in the interval from `th0` to `th1`, closed at both ends (R273). -/
def Arm.triggers (a : Arm) (th0 th1 : Nat) : Bool :=
  let d := angleDiff th1 th0
  let e := angleDiff a.g th0
  (0 ≤ e && e ≤ d) || (d ≤ e && e ≤ 0)

/-- The trigger of a change: the blend starts from R at the change angle (R273, R274). -/
def Gear.trigger (g : Gear) (a : Arm) (fwd : Bool) : Gear :=
  { g with blend := some ⟨a, fwd, to48 (g.ratioAt a.g * mkRat 1 (2 ^ 48))⟩ }

/-- A blend that has reached its end leaves its ratio in force. -/
def Gear.settle (g : Gear) (th : Nat) : Gear :=
  match g.blend with
  | some m => if (m.arm.b : Int) ≤ m.along th then { g with blend := none, ratio := m.arm.r1 } else g
  | none => g

/-- One piece of a round: from `th0` up to the change angle of an armed change that triggers, with the old function. -/
def Gear.piece (g : Gear) (arm : Option Arm) (th0 th1 : Nat) : Gear × Option Arm × Nat × Rat :=
  match arm with
  | some a =>
    if a.triggers th0 th1 then
      (g.trigger a (0 ≤ angleDiff th1 th0), none, a.g, g.sum th0 a.g)
    else (g, arm, th0, 0)
  | none => (g, none, th0, 0)

/-- The gear part over one round (R270, R273, R274): the AX_GRATIO change first, then the AX_GANG change; `w` in 2^-64
turn per ns. -/
def Gear.advance (g : Gear) (th0 th1 : Nat) (w : Int) (roundNs : Nat) : Gear :=
  let (g1, armR, a1, s1) := g.piece g.armedRatio th0 th1
  let (g2, arm, a2, s2) := if armR.isSome then (g1, g1.armed, a1, 0) else g1.piece g1.armed a1 th1
  let total := s1 + s2 + g2.sum a2 th1
  let v := (g2.ratioAt th1 * (w * 1000) * mkRat 1 (2 ^ 80) + 1 / 2).floor
  { g2.settle th1 with
    x := g.x + (total * mkRat 1 (2 ^ 32) + 1 / 2).floor, v := v, a := divRound ((v - g.v) * 1000000) roundNs,
    armed := arm, armedRatio := armR }

/-- The stepper current of the round (R277) (DEDUCED, log entry 73). -/
def Block.stepCurrent (b : Block) (i : Nat) : Block :=
  let x := b.ax i
  let t := b.cmd i
  let still := t.v = 0 ∧ t.a = 0 ∧ x.cmode ≠ 2 ∧ x.gen.plan.isNone
  let rounds (ms : Nat) : Nat := (ms * 1000000 + b.roundNs - 1) / b.roundNs
  let d := rounds (b.get (AX_SDELAY i))
  let rr := rounds (b.get (AX_SRAMP i))
  let run := b.get (AX_SRUN i)
  let hold := b.get (AX_SHOLD i)
  let n := if still then x.rested else 0
  let amp : Int :=
    if n ≤ d then run
    else if n - d ≤ rr then (2 * run * rr - 2 * ((run : Int) - hold) * (n - d : Nat) + rr) / (2 * rr)
    else hold
  let b := b.modAx i fun x => { x with rest := if still then n + 1 else 0 }
  (b.seti (AX_SCUR i) amp).put (AX_MSTAT_CUR_RED i) (d < n)

/-- The status and result registers follow the helper (Table 8.4, Table 8.5) (DEDUCED, log entry 71). -/
def Block.showHelper (b : Block) (i : Nat) : Block :=
  let b := if b.stepper i then b.stepCurrent i else b
  let x := b.ax i
  let t := b.cmd i
  let moving := t.v ≠ 0 || t.a ≠ 0
  let b := b.seti (AX_CMDPOS i) (b.shownPos i t.x)
  let b := b.seti (AX_CMDVEL i) (satI 32 (sarRound t.v 32))
  let b := b.seti (AX_OFSPOS i) (if x.cmode = 2 then sarRound x.gen.tr.x 32 else 0)
  let b := b.put (AX_MSTAT_MOVING i) moving
  let b := b.seti (AX_GRIN i) (if x.cmode = 2 then satI 64 ((x.gear.ratioAt (b.get ANG_ROUND) * mkRat 1 (2 ^ 32) + 1 / 2).floor) else 0)
  let b := b.put (AX_MSTAT_GEARED i) (x.cmode = 2)
  let b := b.put (AX_MSTAT_BLEND i) x.gear.blend.isSome
  let b := b.put (AX_MSTAT_GPEND i) (x.gear.armed.isSome || x.gear.armedRatio.isSome)
  if b.virtual i then (b.seti (AX_ACTPOS i) (b.shownPos i t.x)).seti (AX_ACTVEL i) (satI 32 (sarRound t.v 32)) else b

/-- Engagement (R271) with the mode to revert to. -/
def Block.engage (b : Block) (i : Nat) (revert : Nat) : Block :=
  let t := (b.ax i).gen.tr
  let w := b.ang.w
  if ¬ b.flag ANG_STAT_LOCKED ∨ (w = 0 ∧ t.v ≠ 0) then
    let b := (b.set (AX_MCTL_CMODE i) revert).on (AX_MSTAT_ENG_ERR i)
    if revert = 0 then (b.modAx i fun x => { x with cmode := 0 }).holdMode i else b
  else
    let re := if w = 0 then 0 else clampI (-(2 ^ 95)) (2 ^ 95 - 1) (divRound (t.v * 2 ^ 80) (w * 1000))
    let arm : Arm := ⟨b.get ANG_ROUND, b.geti (AX_GRATIO i) * 2 ^ 32, b.get (AX_GBLEND i), b.round⟩
    b.modAx i fun x => { x with
      cmode := 2
      gear := (⟨t.x * 2 ^ 16, t.v, t.a, re, some ⟨arm, 0 ≤ w, re⟩, none, none⟩ : Gear).settle (b.get ANG_ROUND)
      gen := ⟨⟨0, 0, 0⟩, none, x.gen.lim, false⟩ }

/-- Leave gearing: the new mode starts from the summed triple (R272). -/
def Block.disengage (b : Block) (i : Nat) : Block :=
  let t := b.cmd i
  b.modAx i fun x =>
    if x.cmode = 2 then
      { x with gen := ⟨t, none, x.gen.lim, false⟩, gear := { x.gear with blend := none, armed := none, armedRatio := none } }
    else x

/-! ### Modes and commits -/

/-- Start a command mode from the present triple (Table 8.1); `revert` is what a refused engagement reverts to. -/
def Block.startMode (b : Block) (i : Nat) (m revert : Nat) : Block :=
  let b := (b.disengage i).modAx i fun x => { x with gen := { x.gen with kept := x.gen.kept && m = 2 } }
  let set (b : Block) : Block := b.modAx i fun x => { x with cmode := m }
  if m = 0 then (set b).holdMode i
  else if m = 1 then (set b).newMove i false
  else if m = 2 then b.engage i revert
  else (set b).velMode i

/-- The stepper jog of Table 7.5 starts from the present triple: it runs as CMODE 3 towards AX_MAN_VEL (R278). -/
def Block.startJog (b : Block) (i : Nat) : Block :=
  ((b.disengage i).modAx i fun x => { x with jog := true, cmode := 3 }).velMode i

/-- A commit of CMODE (R255, R261, R271); retained while the helper does not run (R256). -/
def Block.commitCmode (b : Block) (i : Nat) : Block :=
  if ¬ b.helperRuns i ∨ (b.ax i).jog then b
  else
    let old := (b.ax i).cmode
    let m := b.get (AX_MCTL_CMODE i)
    (b.startMode i m (if old = 2 then 0 else old)).showHelper i

/-- A commit of STOP (R257): CMODE 0, AX_TARGET where the stop ends; not running, AX_TARGET takes x_c (R256). -/
def Block.commitStop (b : Block) (i : Nat) : Block :=
  let t := b.cmd i
  let l := b.limits i
  let b := (b.off (AX_MCTL_STOP i)).set (AX_MCTL_CMODE i) 0
  if b.helperRuns i then
    let b := b.seti (AX_TARGET i) (b.shownPos i (to48 (stopEnd t.rat l)))
    (b.startMode i 0 0).showHelper i
  else b.seti (AX_TARGET i) (b.shownPos i t.x)

/-- A commit of GCANCEL (R274). -/
def Block.commitGcancel (b : Block) (i : Nat) : Block :=
  ((b.off (AX_MCTL_GCANCEL i)).modAx i fun x =>
    { x with gear := { x.gear with armed := none, armedRatio := none } }).showHelper i

/-- A commit of AX_TARGET (R261, R262, R272). -/
def Block.commitTarget (b : Block) (i : Nat) : Block :=
  if ¬ b.helperRuns i ∨ (b.ax i).jog then b
  else
    let off := decide ((b.ax i).cmode = 2)
    if (b.ax i).cmode = 1 ∨ off then
      let moving := (b.ax i).gen.plan.any (·.target.isSome)
      if moving then
        -- within the same move, planned with the limits kept (R263)
        let k := (b.ax i).gen.lim
        let l := if (b.ax i).gen.kept then { b.limits i with dec := k.dec, jerk := k.jerk } else b.limits i
        let l := { l with
          vel := if l.vel = 0 then k.vel else l.vel
          acc := if l.acc = 0 then k.acc else l.acc
          dec := if l.dec = 0 then k.dec else l.dec }
        ((b.off (AX_MSTAT_DONE i)).startMove i l off).showHelper i
      else (b.newMove i off).showHelper i
    else b

/-- The phase of the running plan at the present boundary. -/
def Gen.phaseNow (g : Gen) (ms : Rat) : Nat :=
  match g.plan with
  | some p => match p.start.rat.at p.phases (p.rounds * ms) with
    | some (_, q) => q.num
    | none => 0
  | none => 0

/-- A commit of PVEL, PACC, PDEC or PJERK during a move or a velocity ramp (R262 to R267) (DEDUCED, log entry 70); `zero` says that it is
a 0 of one of the first three. A PDEC of 0 ends a stop at once (R261). -/
def Block.commitLimits (b : Block) (i : Nat) (zero : Bool) : Block :=
  let x := b.ax i
  if ¬ b.helperRuns i then b
  else if x.cmode = 3 then (b.velMode i).showHelper i
  else
    match x.gen.plan with
    | none => b
    | some ⟨_, _, _, none⟩ => if b.get (AX_PDEC i) = 0 then (b.holdMode i).showHelper i else b
    | some ⟨_, _, _, some tgt⟩ =>
      if zero then b.on (AX_MSTAT_PARAM_ERR i)
      else
        let new := b.limits i
        let k := x.gen.lim
        let l : Limits := ⟨if new.vel = 0 then k.vel else new.vel, if new.acc = 0 then k.acc else new.acc,
          if new.dec = 0 then k.dec else new.dec, new.jerk⟩
        let slowing := 5 ≤ x.gen.phaseNow b.roundMs
        let lessJerk := l.jerk ≠ 0 ∧ (k.jerk = 0 ∨ l.jerk < k.jerk)
        let kept := x.gen.kept ||
          (slowing && (l.dec < k.dec || decide lessJerk) && overshoots x.gen.tr.rat l (rat48 tgt))
        let b := b.modAx i fun x => { x with gen := { x.gen with kept := kept } }
        let l := if kept then { l with dec := k.dec, jerk := k.jerk } else l
        (b.plan i (movePhases x.gen.tr.rat l (rat48 tgt)) l (some tgt)).showHelper i

/-- A commit of AX_JVEL (R267). -/
def Block.commitJvel (b : Block) (i : Nat) : Block :=
  if b.helperRuns i ∧ (b.ax i).cmode = 3 ∧ ¬ (b.ax i).jog then (b.velMode i).showHelper i else b

/-- A commit of AX_MAN_VEL while a stepper jogs (R278). -/
def Block.commitManVel (b : Block) (i : Nat) : Block :=
  if b.helperRuns i ∧ (b.ax i).jog then (b.velMode i).showHelper i else b

/-- A commit of AX_GANG arms a change (R273); nothing is armed while the axis is not geared (R256). -/
def Block.commitGang (b : Block) (i : Nat) : Block :=
  if b.helperRuns i ∧ (b.ax i).cmode = 2 then
    let a : Arm := ⟨b.get (AX_GANG i), b.geti (AX_GNEW i) * 2 ^ 32, b.get (AX_GBLEND i), b.round⟩
    (b.modAx i fun x => { x with gear := { x.gear with armed := some a } }).showHelper i
  else b

/-- A commit of AX_GRATIO while engaged (R274): a change armed at the round angle. It replaces one armed by AX_GANG at an earlier
boundary; one of the same boundary is kept behind it. -/
def Block.commitGratio (b : Block) (i : Nat) : Block :=
  if b.helperRuns i ∧ (b.ax i).cmode = 2 then
    let a : Arm := ⟨b.get ANG_ROUND, b.geti (AX_GRATIO i) * 2 ^ 32, b.get (AX_GBLEND i), b.round⟩
    (b.modAx i fun x => { x with gear := { x.gear with
      armed := x.gear.armed.filter (·.round = b.round), armedRatio := some a } }).showHelper i
  else b

/-! ### The helper at a boundary (R254) -/

/-- The generator's next sample (R260): at or after the end of its phases the target exactly, with DONE. ACC_DEFERRED shows from the
boundary after the commit that it defers (R263). -/
def Block.sampleGen (b : Block) (i : Nat) : Block :=
  let x := b.ax i
  let b := if x.gen.kept then b.on (AX_STAT_ACC_DEFERRED i) else b
  match x.gen.plan with
  | none => b.showPhase i (if x.cmode = 3 ∧ x.gen.tr.v ≠ 0 then 4 else 0) false
  | some p =>
    let n := if x.startAt then p.rounds else p.rounds + 1
    let t := n * b.roundMs
    match p.start.rat.at p.phases t with
    | some (r, ph) =>
      let b := b.modAx i fun x => { x with startAt := false, gen := { x.gen with tr := r.held, plan := some { p with rounds := n } } }
      b.showPhase i (if x.cmode = 3 then velPhase r (if ph.inst then 0 else rat48 ph.jerk) else ph.num) ph.rev
    | none =>
      let e := (p.start.rat.run p.phases).held
      match p.target with
      | some tgt =>
        let b := b.modAx i fun x => { x with startAt := false, gen := { x.gen with tr := ⟨tgt, 0, 0⟩, plan := none, kept := false } }
        (b.showPhase i 0 false).on (AX_MSTAT_DONE i)
      | none =>
        let past : Rat := t - (p.phases.map (·.dur)).sum
        let tr : Triple := ⟨e.x + to48 (1000 * rat48 e.v * past), e.v, 0⟩
        let b := b.modAx i fun x => { x with startAt := false, gen :=
          { x.gen with tr := tr, plan := if e.v = 0 then none else some ⟨tr, [], 0, none⟩ } }
        b.showPhase i (if e.v = 0 then 0 else 4) false


/-- The command set to actual (R256): from the position and velocity of the last round. -/
def Block.followActual (b : Block) (i : Nat) : Block :=
  b.modAx i fun x => { x with
    gen := ⟨⟨b.geti (AX_ACTPOS i) * 2 ^ 32, b.geti (AX_ACTVEL i) * 2 ^ 32, 0⟩, none, x.gen.lim, false⟩
    gear := { x.gear with blend := none, armed := none, armedRatio := none }
    cmode := 0 }

/-- The helper of axis `i` at a boundary, before the commits it starts: from the round angle `th0` of the last
round to that of this one. A helper that does not run follows the actual values; one that starts begins CMODE. -/
def Block.helperStep (b : Block) (i : Nat) (th0 : Nat) : Block :=
  let b := b.modAx i fun x => { x with rested := x.rest }
  let b :=
    if ¬ b.helperRuns i then
      (b.followActual i).showPhase i 0 false
    else if (b.ax i).starting then
      let b := b.modAx i fun x => { x with starting := false, cmode := 0 }
      let b := if b.stepper i then b.stepCurrent i else b
      if (b.ax i).jog then b.startJog i else b.startMode i (b.get (AX_MCTL_CMODE i)) 0
    else
      let b := b.sampleGen i
      if (b.ax i).cmode = 2 then
        let b := b.modAx i fun x => { x with gear := x.gear.advance th0 (b.get ANG_ROUND) b.ang.w b.roundNs }
        if b.ang.stepped then b.on (AX_MSTAT_ASTEP i) else b
      else b
  b.showHelper i

end Sys2Proof.Machine
end

