-- ==== Sys2Proof/Machine/AxisLoop.lean ====
section
/-!
DEFINITION. The axis control law (07_axis_loop_law.md): intake, the servo and stepper laws, the repetitive controller,
injection, the enable sequence, axis faults, and the commits that act on an axis. Products are exact and every result is
rounded half up in the format of its register, saturating there (R232).
-/

namespace Sys2Proof.Machine

/-- The loop graph of axis `i`. -/
def Block.graphOf (b : Block) (i : Nat) : Option GraphRec :=
  match b.axisRec i, b.dealt with
  | some r, some d => d.graphs.find? (·.id = r.graph)
  | _, _ => none

/-! ### What a task sees after a boundary (R229) -/

/-- The words a task of axis `i` takes as its parameters: its page but for AX_STAT and the results, its feedback channel's page or its
entry's. -/
def Block.taskWord (b : Block) (i a : Nat) : Bool :=
  let page := 0xC0000 + 0x400 * i
  let fb := (b.axisRec i).map (·.feedback)
  (page ≤ a && a < page + 0x300 && a ≠ aAX_STAT i) ||
    fb.any fun c =>
      (0x10 ≤ c && c < 0x20 && 0x101000 + 0x100 * (c - 0x10) ≤ a && a < 0x101000 + 0x100 * (c - 0x10 + 1)) ||
        (c = 0 && 0x105000 + 0x20 * i ≤ a && a < 0x105000 + 0x20 * (i + 1))

/-- The block as the running task of axis `i` sees it: its own round's parameters, round angle, rate and command, where a boundary has
passed since. For reading only. -/
def Block.asTask (b : Block) (i : Nat) : Block :=
  let x := b.ax i
  match x.views.find? (·.round = x.taskRound) with
  | some v =>
    let regs := v.words ++ b.regs.filter fun p => !b.taskWord i p.1
    let b := ({ b with regs := regs, ang.roundW := v.w }.set ANG_ROUND v.theta).put (AX_STAT_AUTO i) v.auto
    b.modAx i fun x => { x with cmode := v.cmode, gen := v.gen, gear := v.gear }
  | none => b

/-- A boundary comes: what the unfinished instances of axis `i`, of the rounds `live`, go on seeing. -/
def Block.keepView (b : Block) (i : Nat) (live : List Nat) : Block :=
  let x := b.ax i
  let old := x.views.filter fun v => live.contains v.round
  let now := if live.contains b.round then
      [(⟨b.round, b.regs.filter fun p => b.taskWord i p.1, b.get ANG_ROUND, b.ang.roundW, b.flag (AX_STAT_AUTO i), x.cmode, x.gen,
        x.gear⟩ : AxisView)]
    else []
  if old = x.views ∧ now = [] then b else b.modAx i fun x => { x with views := old ++ now }

/-! ### Faults (R236 to R238) -/

/-- Set AX_STAT.FAULT with its bit of AX_FLT_MAP (R238). -/
def Block.putFault (b : Block) (i : Nat) (v : Bool) : Block :=
  (b.put (AX_STAT_FAULT i) v).put ⟨aAX_FLT_MAP (i / 32), i % 32, 1⟩ v

/-- The injection of an axis stops. -/
def Block.injStop (b : Block) (i : Nat) : Block :=
  (b.modAx i fun x => { x with inj := none }).off (AX_STAT_INJ_ACTIVE i)

/-- The axis leaves its enable sequence: it stops its node until that reports ENABLED = 0 (R237, R251). -/
def Block.stopAxis (b : Block) (i : Nat) : Block :=
  ((b.off (AX_CTL_ENABLE i)).injStop i).modAx i fun x => { x with en := .stopping, preset := none }

/-- An axis fault (R237): the first condition stays recorded; the law stops the node; source 48 + e of the engine that ran
the task; scorepad record 0x0030; a device event for channel B. -/
def Block.axisFault (b : Block) (i code : Nat) : Block :=
  if b.flag (AX_STAT_FAULT i) then b
  else
    let b := (b.putFault i true).set (AX_STAT_FCODE i) code
    let b := (b.stopAxis i).off (AX_STAT_RC_LEARNING i)
    let b := b.set (AX_FAULT_RND i) (b.round % 2 ^ 32)
    let b := (b.irq (48 + (b.ax i).engine)).event 0x30 2 i code
    b.safEvent code [i]

/-- The feedback of axis `i` has a fault: its channel's or its entry's, or its channel is disabled (R282, R303). -/
def Block.feedbackFault (b : Block) (i : Nat) : Bool :=
  match b.axisRec i with
  | some r =>
    if r.kind = 3 ∨ r.feedback = 0xFF then false
    else if 0x10 ≤ r.feedback then
      b.flag (FB_STAT_FAULT (r.feedback - 0x10)) || !b.flag (FB_STAT_ENABLED (r.feedback - 0x10))
    else b.flag (FB_N_STAT_FAULT i)
  | none => false

/-- The node of axis `i` is missing (SEG_NSTAT.STATE 4). -/
def Block.nodeMissing (b : Block) (i : Nat) : Bool :=
  (b.axisRec i).any fun r => r.kind ≠ 3 && b.get (SEG_NSTAT_STATE r.segment r.node) = 4

/-- The node of axis `i` holds a session in Run (R250): segment state 6, node state 3. -/
def Block.nodeInRun (b : Block) (i : Nat) : Bool :=
  (b.axisRec i).any fun r =>
    r.kind ≠ 3 && b.get (SEG_STAT_STATE r.segment) = 6 && b.get (SEG_NSTAT_STATE r.segment r.node) = 3

/-- The graph of axis `i` is LAW 2: its words at 0x100 to 0x2FC are its task's, not read by the device (R253). -/
def Block.rawAxis (b : Block) (i : Nat) : Bool := (b.graphOf i).any (·.law = 2)

/-- Whether the condition of a fault code still holds (R238). -/
def Block.faultHolds (b : Block) (i code : Nat) : Bool :=
  let n := (b.ax i).node
  match code with
  | 1 => !b.rawAxis i && b.get (AX_FELIM i) ≠ 0 && (b.get (AX_FELIM i) : Int) < (b.geti (AX_EPOS i)).natAbs
  | 2 => !b.rawAxis i && b.get (AX_VMAX i) ≠ 0 && (b.get (AX_VMAX i) : Int) < (b.geti (AX_ACTVEL i)).natAbs
  | 3 => n.err ≠ 0
  | 5 => b.feedbackFault i
  | 7 => b.nodeMissing i
  | 8 => bit n.status 6
  | _ => false

/-- A node-position entry's fault clears with the axis fault where its cause no longer holds: cause 7 holds while the
clamp acts (R304). -/
def Block.ackEntry (b : Block) (i : Nat) : Block :=
  if b.get (FB_N_STAT_FCODE i) = 7 ∧ b.flag (FB_N_STAT_SLIM i) then b
  else (b.off (FB_N_STAT_FAULT i)).set (FB_N_STAT_FCODE i) 0

/-- A committed FAULT_ACK (R238): the field then reads 0. -/
def Block.commitAck (b : Block) (i : Nat) : Block :=
  let b := b.off (AX_CTL_FAULT_ACK i)
  let code := b.get (AX_STAT_FCODE i)
  let b := if (b.axisRec i).any (·.feedback = 0) then b.ackEntry i else b
  if b.flag (AX_STAT_FAULT i) ∧ ¬ b.faultHolds i code then
    (b.putFault i false).set (AX_STAT_FCODE i) 0
  else b

/-! ### Filters (R233, R246) -/

/-- Filter coefficients in Q2.30. -/
structure Biquad where
  b0 : Int
  b1 : Int
  b2 : Int
  a1 : Int
  a2 : Int
  deriving DecidableEq, Repr

/-- The coefficients of F1 of axis `i`. -/
def Block.f1Of (b : Block) (i : Nat) : Biquad :=
  ⟨b.geti (AX_F1_B0 i), b.geti (AX_F1_B1 i), b.geti (AX_F1_B2 i), b.geti (AX_F1_A1 i), b.geti (AX_F1_A2 i)⟩
/-- The coefficients of F2 of axis `i`. -/
def Block.f2Of (b : Block) (i : Nat) : Biquad :=
  ⟨b.geti (AX_F2_B0 i), b.geti (AX_F2_B1 i), b.geti (AX_F2_B2 i), b.geti (AX_F2_A1 i), b.geti (AX_F2_A2 i)⟩

/-- One round of a filter: its output in Q1.31 and its states in 2^-63, saturating at 80 bits. -/
def Biquad.step (f : Biquad) (s : Int × Int) (x : Int) : Int × (Int × Int) :=
  let y := satI 32 (sarRound (4 * f.b0 * x + s.1) 32)
  (y, (satI 80 (4 * (f.b1 * x - f.a1 * y) + s.2), satI 80 (4 * (f.b2 * x - f.a2 * y))))

/-- 1 + a1 + a2 in Q2.30. -/
def Biquad.den (f : Biquad) : Int := 2 ^ 30 + f.a1 + f.a2

/-- The DC gain; 0 where it is not finite. -/
def Biquad.gain (f : Biquad) : Rat := if f.den = 0 then 0 else (f.b0 + f.b1 + f.b2 : Rat) / f.den

/-- Steady states for a constant input in 2^-31 of peak (R246). -/
def Biquad.steady (f : Biquad) (x : Rat) : Int × Int :=
  let y := f.gain * x
  (satI 80 ((4 * ((f.b1 + f.b2 : Int) * x - (f.a1 + f.a2 : Int) * y) + 1 / 2).floor),
    satI 80 ((4 * (f.b2 * x - f.a2 * y) + 1 / 2).floor))

/-! ### Waveforms (R248) -/

/-- The sine of a first-quadrant angle in 2^-64 radian, in 2^-64, by its series. -/
def sineSeries (x : Nat) : Nat :=
  let x2 : Nat := x * x / 2 ^ 64
  let rec go : Nat → Int → Nat → Int → Int
    | 0, _, _, acc => acc
    | n + 1, term, k, acc =>
      let t := -(term * x2 / 2 ^ 64 / ((2 * k) * (2 * k + 1) : Nat))
      go n t (k + 1) (acc + t)
  (go 12 x 1 x).toNat

/-- Entry `i` of the 1,024-point sine table in 2^-31, rounded to nearest (DEDUCED, log entry 12). -/
def sineEntry (i : Nat) : Int :=
  let q := i % 1024
  let h := q % 512
  let f := if h ≤ 256 then h else 512 - h
  let v : Int := ((sineSeries (f * 57952155664616982739 / 512) + 2 ^ 32) / 2 ^ 33 : Nat)
  if q < 512 then v else -v

/-- sine(ψ) of a 32-bit phase in 2^-53, by linear interpolation between table points. -/
def sine (psi : Nat) : Int :=
  let p := psi % 2 ^ 32
  let k : Nat := p / 2 ^ 22
  let r : Nat := p % 2 ^ 22
  sineEntry k * 2 ^ 22 + (sineEntry (k + 1) - sineEntry k) * r

/-- The second tap of the PRBS of each ORDER, none where the ORDER is invalid. -/
def prbsTap (order : Nat) : Option Nat :=
  match order with
  | 7 => some 6
  | 9 => some 5
  | 10 => some 7
  | 11 => some 9
  | 15 => some 14
  | _ => none

/-- The signal of the present round (Table 7.7). -/
def Injection.value (j : Injection) : Int :=
  match j.wave with
  | 1 | 4 => sarRound (j.amp * sine j.psi) 53
  | 2 => if j.psi < 2 ^ 31 then j.amp else -j.amp
  | 3 => if bit j.lfsr (j.order - 1) then j.amp else -j.amp
  | _ => 0

/-- The injection at its next round. -/
def Injection.next (j : Injection) : Injection :=
  let k := j.k + 1
  let psi := match j.wave with
    | 1 | 2 => (j.psi + j.f0) % 2 ^ 32
    | 4 => wrapN 32 ((j.psi : Int) + j.f0 + ((j.f1 : Int) - j.f0) * j.k / j.len)
    | _ => j.psi
  let fb := b2n (bit j.lfsr (j.order - 1) != bit j.lfsr ((prbsTap j.order).getD 1 - 1))
  let lfsr := if j.wave = 3 ∧ k % j.hold = 0 then (j.lfsr * 2 + fb) % 2 ^ j.order else j.lfsr
  { j with k := k, psi := psi, lfsr := lfsr }

/-- The injection that the registers describe, none where ORDER is invalid, a chirp has LEN 0, or WAVE or POINT name
nothing (R248; DEDUCED, log entry 13). -/
def Block.injConfig (b : Block) (i : Nat) : Option Injection :=
  let wave := b.get (AX_INJ_CFG_WAVE i)
  let order := b.get (AX_INJ_CFG_ORDER i)
  let len := b.get (AX_INJ_LEN i)
  if wave = 0 ∨ 4 < wave ∨ b.get (AX_INJ_CFG_POINT i) = 0 ∨ (wave = 3 ∧ prbsTap order = none) ∨ (wave = 4 ∧ len = 0)
  then none
  else some ⟨0, 0, 2 ^ order - 1, b.get (AX_INJ_CFG_POINT i), wave, order, b.get (AX_INJ_CFG_HOLD i) + 1,
    b.geti (AX_INJ_AMP i), b.get (AX_INJ_F0 i), b.get (AX_INJ_F1 i), len⟩

/-- Injection starts at the first round in which its conditions hold (R248), as the registers of `p` describe it; an axis of LAW 2 has no
injection registers (R253). -/
def Block.injStart (b : Block) (i : Nat) (p : Block) : Block :=
  let x := b.ax i
  if x.inj.isNone ∧ b.flag (AX_CTL_INJ_EN i) ∧ x.en = .on ∧ b.flag (AX_STAT_AUTO i) ∧ ¬ b.flag (AX_STAT_FAULT i) ∧
      ¬ b.rawAxis i then
    match p.injConfig i with
    | some j => (b.modAx i fun x => { x with inj := some j }).on (AX_STAT_INJ_ACTIVE i)
    | none => b.on (AX_STAT_EN_REF i)
  else b

/-- After LEN rounds the device clears the committed INJ_EN (R248). -/
def Block.injEnd (b : Block) (i : Nat) : Block :=
  match (b.ax i).inj with
  | some j => if j.len ≠ 0 ∧ j.len ≤ j.k then (b.injStop i).off (AX_CTL_INJ_EN i) else b
  | none => b

/-! ### The repetitive controller (R239 to R243) -/

/-- N of axis `i`. -/
def Block.rcPoints (b : Block) (i : Nat) : Nat := 2 ^ ((b.axisRec i).map (·.rcPoints)).getD 0

/-- Entry `j` of a table. -/
def Axis.rcAt (x : Axis) (n : Nat) (j : Int) : Int := sget (fun _ => 0) x.rc (j % n).toNat

/-- RO (R240). -/
def Block.rcOut (b : Block) (i : Nat) : Int :=
  let n := b.rcPoints i
  let x := b.ax i
  let phi := b.get ANG_ROUND % 2 ^ 32
  let j : Nat := phi * n / 2 ^ 32
  let r : Nat := phi * n % 2 ^ 32
  let w := b.ang.roundW
  let p : Int := b.get (AX_RC_LEAD i) + sarRound (w.natAbs * b.get (AX_RC_TLEAD i) * n : Nat) 64
  let p := if w < 0 then -p else p
  let u0 := x.rcAt n (j + p)
  let u1 := x.rcAt n (j + p + 1)
  if b.flag (AX_CTL_RC_OUT i) then satI 32 (sarRound (u0 * 2 ^ 32 + r * (u1 - u0)) 32) else 0

/-- The new value of point `j` for a mean error `e` in Q48.16, from the table `old`, and whether the limit acted (R242)
(DEDUCED, log entry 64). -/
def Block.rcUpdate (b : Block) (i : Nat) (old : Axis) (n j : Nat) (e : Rat) : Int × Bool :=
  let q1 : Int := b.get (AX_RC_Q1 i)
  let uq := q1 * old.rcAt n ((j : Int) - 1) + (2 ^ 31 - 2 * q1) * old.rcAt n j + q1 * old.rcAt n (j + 1)
  let v : Rat := mkRat ((b.get (AX_RC_ALPHA i) : Int) * uq) (2 ^ 62) + b.get (AX_RC_KL i) * e * mkRat 1 (2 ^ 17)
  let k := (v + 1 / 2).floor
  let lim : Int := b.get (AX_RC_ULIM i)
  let c := clampI (-lim) lim k
  (c, c ≠ k)

/-- Whether the learning conditions of R241 hold, as the task sees them; `lim` says that TL limited. -/
def Block.rcLearns (b : Block) (i : Nat) (inp : LawIn) (lim : Bool) : Bool :=
  (b.ax i).en == .on && b.flag (AX_STAT_AUTO i) && b.flag (AX_CTL_RC_LEARN i) && b.flag ANG_STAT_LOCKED && 0 < b.ang.roundW &&
    decide ((b.get (AX_RC_WMIN i) * 2 ^ 32 : Int) ≤ b.ang.roundW * 1000) && !inp.extrap && !inp.uncert && !lim &&
    !b.flag (AX_STAT_FAULT i)

/-- RC items of axis `i` are mirrored (14_partners.md R442, Table 14.8). -/
def Block.rcMirrored (b : Block) (i : Nat) : Bool :=
  ((b.dealt.bind (·.mirror)).any fun m => m.rcs.any fun r => decide (r.1 ≤ i ∧ i ≤ r.2))

/-- The update on leaving point `p` for point `j`: `p` and up to three points passed over, nearest first, with the same
mean; the rest is counted in SKIP (R242). -/
def Block.rcLeave (b : Block) (i p j : Nat) : Block :=
  let n := b.rcPoints i
  let old := b.ax i
  if old.rcCount = 0 then b
  else
    let e : Rat := mkRat old.rcSum old.rcCount
    let passed := (j + n - p) % n - 1
    let upd (b : Block) (k : Nat) : Block :=
      let (v, s) := (b.asTask i).rcUpdate i old n k e
      let b := b.modAx i fun x => { x with rc := sput (fun _ => 0) x.rc k v }
      let b := b.set (AX_RC_STAT_POINT i) k
      let b := if b.rcMirrored i then b.mirror (.rc i k v) else b
      if s then b.on (AX_STAT_RC_SAT i) else b
    let b := upd b p
    let b := (List.range (min 3 passed)).foldl (fun b k => upd b ((p + 1 + k) % n)) b
    b.addSat (AX_RC_STAT_SKIP i) (passed - 3)

/-- The point of the round angle (R239). -/
def Block.rcPointNow (b : Block) (i : Nat) : Nat := b.get ANG_ROUND % 2 ^ 32 * b.rcPoints i / 2 ^ 32

/-- The first round after a clear: the point `j` it occupies gathers no sum (R243). -/
def Block.rcFirst (b : Block) (i j : Nat) : Block :=
  if (b.ax i).rcCleared then b.modAx i fun x => { x with rcCleared := false, rcSkip := some j } else b

/-- RL for one round (R241 to R243), whether it learns or not: `ep` in Q48.16. -/
def Block.rcLearn (b : Block) (i : Nat) (inp : LawIn) (lim : Bool) (ep : Int) : Block :=
  let j := (b.asTask i).rcPointNow i
  let ok := (b.asTask i).rcLearns i inp lim
  let b := (b.put (AX_STAT_RC_LEARNING i) ok).rcFirst i j
  let b := match (b.ax i).rcPoint with
    | some p =>
      if p = j then b
      else
        let b := if ok then b.rcLeave i p j else b
        b.modAx i fun x => { x with rcPoint := none, rcSum := 0, rcCount := 0 }
    | none => b
  let b := if (b.ax i).rcSkip = some j then b else b.modAx i fun x => { x with rcSkip := none }
  if ok ∧ (b.ax i).rcSkip = none then
    b.modAx i fun x => { x with rcPoint := some j, rcSum := x.rcSum + ep, rcCount := x.rcCount + 1 }
  else b

/-- Clear the table (R243). -/
def Block.rcClear (b : Block) (i : Nat) : Block :=
  b.modAx i fun x => { x with rc := [], rcPoint := none, rcSum := 0, rcCount := 0, rcSkip := none, rcCleared := true }

/-! ### The servo law (R232) -/

/-- What one evaluation computed. -/
structure LawOut where
  ep : Int
  vref : Int
  uff : Int
  urc : Int
  u : Int
  injVel : Int
  injTrq : Int
  limited : Bool
  vlim : Bool
  deriving DecidableEq, Repr

/-- `i` limited to `-l` to `l`. -/
def satL (i l : Int) : Int := clampI (-l) l i

/-- The torque limited by sign (Table 7.3). -/
def Block.trqLimit (b : Block) (i : Nat) (u : Int) : Int := clampI (-(b.get (AX_TLIMN i) : Int)) (b.get (AX_TLIMP i)) u

/-- The presets of R246 are possible: every filter of the graph has a finite DC gain and their product is at least 0.5. -/
def Block.presetGain (b : Block) (i blocks : Nat) : Option Rat :=
  let f1 := b.f1Of i
  let f2 := b.f2Of i
  let g1 : Rat := if bit blocks 3 then f1.gain else 1
  let g2 : Rat := if bit blocks 4 then f2.gain else 1
  if (bit blocks 3 && f1.den = 0) || (bit blocks 4 && f2.den = 0) || decide (absR (g1 * g2) < 1 / 2) then none
  else some (g1 * g2)

/-- The servo law of one round for a graph's BLOCKS, on the inputs and the command, with the values of its round `p`; `auto` false in
manual, where RO, RL and injection rest (R244) (DEDUCED, log entry 66) (DEDUCED, log entry 63). -/
def Block.servoLaw (b : Block) (i blocks : Nat) (inp : LawIn) (auto : Bool) : LawOut × Block :=
  let x := b.ax i
  let p := b.asTask i
  let c := p.cmd i
  let xc := p.shownPos i c.x
  let vc := satI 32 (sarRound c.v 32)
  let ac := satI 32 (sarRound c.a 32)
  let full := x.nmode = 1
  let injAt (p : Nat) : Int := match x.inj with
    | some j => if auto ∧ j.point = p then j.value else 0
    | none => 0
  -- VF
  let vf := if x.preset.isSome ∨ ¬ bit blocks 0 then inp.v
    else satI 32 (x.vf + sarRound (p.get (AX_KVF i) * (inp.v - x.vf)) 31)
  -- PC
  let m := p.get (AX_MODULUS i)
  let e0 := xc + injAt 1 - inp.x
  let ep := if b.modulo i ∧ m ≠ 0 then (let r := e0 % m; if (m : Int) ≤ 2 * r then r - m else r) else satI 64 e0
  let vl : Int := p.get (AX_VLIM i)
  let kvff := p.geti (AX_KVFF i)
  let v0 := if x.nmode = 3 then sarRound (kvff * vc) 30 else sarRound (p.get (AX_KPP i) * ep + 4 * kvff * vc) 32
  let v1 := satL v0 vl
  let injVel := if x.nmode = 3 then 0 else injAt 2
  let vref := satL (v1 + injVel) vl
  let vlim := v1 ≠ v0 || vref ≠ v1 + injVel
  -- VC
  let ev := satI 32 (vref - vf)
  let up := if full then satI 32 (sarRound (p.get (AX_KPV i) * ev) 9) else 0
  -- FF
  let uff := if bit blocks 1 then
      satI 32 (sarRound (p.get (AX_KAFF i) * ac) 9 + signI vc * p.geti (AX_TFRIC i)) else 0
  -- RO
  let urc := if auto ∧ bit blocks 2 then p.rcOut i else 0
  let injTrq := injAt 3
  if full then
    -- the preset of R246, before TL
    let (integ, s1, s2) := match x.preset, p.presetGain i blocks with
      | some u0, some g =>
        let xin : Rat := (u0 : Rat) / g
        (satI 32 ((xin + 1 / 2).floor - (up + uff + urc + injTrq)),
          if bit blocks 3 then (p.f1Of i).steady xin else x.f1,
          if bit blocks 4 then (p.f2Of i).steady (if bit blocks 3 then (p.f1Of i).gain * xin else xin) else x.f2)
      | _, _ => (x.integ, x.f1, x.f2)
    -- TL
    let uraw := satI 32 (up + integ + uff + urc + injTrq)
    let (y1, s1) := if bit blocks 3 then (p.f1Of i).step s1 uraw else (uraw, s1)
    let (uf, s2) := if bit blocks 4 then (p.f2Of i).step s2 y1 else (y1, s2)
    let u := p.trqLimit i uf
    let grow : Rat := mkRat (p.get (AX_KIV i) * b.roundNs * ev) (1000000 * 2 ^ 9) + mkRat (p.get (AX_KAW i) * (u - uf)) (2 ^ 31)
    let integ := satL (integ + (grow + 1 / 2).floor) (p.get (AX_ILIM i))
    let b := b.modAx i fun x => { x with vf := vf, integ := integ, f1 := s1, f2 := s2, preset := none }
    (⟨ep, vref, uff, urc, u, injVel, injTrq, u ≠ uf, vlim⟩, b)
  else
    let b := b.modAx i fun x => { x with vf := vf, preset := none }
    let uf := satI 32 (uff + urc + injTrq)
    let u := p.trqLimit i uf
    (⟨ep, vref, uff, urc, u, injVel, injTrq, u ≠ uf, vlim⟩, b)

/-! ### Intake (R230, R231) -/

/-- A position clamped to soft limits that are not both 0 (R302). -/
def softClamp (lo hi p : Int) : Int := if lo = 0 ∧ hi = 0 then p else clampI lo hi p

/-- FI: the inputs of the round; `b` as the task sees it. -/
def Block.lawInputs (b : Block) (i : Nat) (extrap cold : Bool) : LawIn :=
  let n := (b.ax i).node
  match b.axisRec i with
  | some r =>
    if extrap then
      ⟨b.geti (AX_ACTPOS i) + sarRound (b.geti (AX_ACTVEL i) * b.roundNs * 2 ^ 16 / 1000) 16, b.geti (AX_ACTVEL i), false,
        true, cold⟩
    else if 0x10 ≤ r.feedback ∧ r.feedback ≠ 0xFF then
      let c := r.feedback - 0x10
      ⟨b.geti (FB_POS c), b.geti (FB_VEL c), b.flag (FB_STAT_UNCERT c) || b.flag (FB_STAT_FAULT c), false, cold⟩
    else
      ⟨softClamp (b.geti (FB_N_SLO i)) (b.geti (FB_N_SHI i)) n.pos,
        if b.flag (AX_CFG_VSRC i) then b.geti (FB_N_VEL i) else n.vel, n.uncert || b.flag (FB_N_STAT_FAULT i), false, cold⟩
  | none => ⟨0, 0, false, extrap, cold⟩

/-- The intake registers and counters (R231). -/
def Block.takeInputs (b : Block) (i : Nat) (inp : LawIn) : Block :=
  let b := (b.seti (AX_ACTPOS i) inp.x).seti (AX_ACTVEL i) inp.v
  let b := b.put (AX_STAT_EXTRAP i) inp.extrap
  let b := if inp.extrap then b.inc (AX_EXTRAP_CNT i) else b
  let b := b.put (AX_STAT_STANDSTILL i) (b.standstill i)
  b.modAx i fun x => { x with extrapRun := if inp.extrap then x.extrapRun + 1 else 0 }

/-! ### The enable sequence (Table 7.10) -/

/-- AUTO in force follows the committed AUTO when the loops close (R245); a stepper in manual then jogs (Table 7.5). -/
def Block.takeAuto (b : Block) (i : Nat) : Block :=
  let auto := b.flag (AX_CTL_AUTO i)
  (b.put (AX_STAT_AUTO i) auto).modAx i fun x => { x with jog := b.stepper i && !auto }

/-- The loops close (R249, Table 7.6): preset from `u0`, command set to actual, CMODE starts at the next boundary. An
impossible preset refuses the enable (R246). -/
def Block.closeLoops (b : Block) (i blocks : Nat) (u0 : Int) : Block :=
  if (b.ax i).nmode = 1 ∧ ((b.asTask i).presetGain i blocks).isNone then (b.on (AX_STAT_EN_REF i)).stopAxis i
  else
    let b := ((b.on (AX_STAT_ENABLED i)).takeAuto i).followActual i
    b.modAx i fun x => { x with en := .on, preset := some u0, starting := true }

/-- The first valid turn of a node that joined through a claim: the command takes the actual values, and an enabled axis is preset from the
torque the node reports (Table 7.6, 06_thrumlos_start_and_schedules.md R216). -/
def Block.joinAxis (b : Block) (i : Nat) (valid : Bool) : Block :=
  let x := b.ax i
  if ¬ x.joined ∨ ¬ valid then b
  else
    let on := b.flag (AX_STAT_ENABLED i)
    (b.followActual i).modAx i fun y => { y with
      joined := false, preset := if on then some x.node.trq else y.preset, starting := y.starting || on }

/-- The safety word orders the safe stop of the node of axis `i` (15_safety.md R476). -/
def Block.ss1Of (b : Block) (i : Nat) : Bool :=
  (b.axisRec i).any fun r => r.kind ≠ 3 && bit (b.get (SAF_SS1 r.segment)) r.node

/-- What a node's report does to the sequence: STO ends it (R251, R476), READY and the echoed mode power the node, ENABLED
closes the loops, a stopped node is off (DEDUCED, log entry 65). -/
def Block.enableStep (b : Block) (i blocks : Nat) (valid : Bool) : Block :=
  let x := b.ax i
  let st := x.node.status
  let b := if b.ss1Of i ∧ (x.en = .on ∨ x.en = .powering ∨ x.en = .waiting ∨ x.en = .asked) then b.stopAxis i else b
  if ¬ valid then b
  else if bit st 5 ∧ ((b.ax i).en = .on ∨ (b.ax i).en = .powering ∨ (b.ax i).en = .stopping) then
    (((b.off (AX_STAT_ENABLED i)).off (AX_CTL_ENABLE i)).injStop i).modAx i fun x => { x with en := .off, preset := none }
  else match (b.ax i).en with
    | .waiting =>
      if bit st 0 ∧ x.node.mode = x.nmode then b.modAx i fun x => { x with en := .powering } else b
    | .powering => if bit st 1 then b.closeLoops i blocks x.node.trq else b
    | .stopping =>
      if bit st 1 then b
      else (b.off (AX_STAT_ENABLED i)).modAx i fun x => { x with en := .off }
    | _ => b

/-! ### Output (R235, R236, R249) -/

/-- The fault checks of OUT, in the order of Table 7.4, while the axis is enabled; an axis told to disable raises no 0x06. -/
def Block.faultChecks (b : Block) (i : Nat) (inp : LawIn) (ep : Int) : Block :=
  let x := b.ax i
  let p := b.asTask i
  let own := !b.rawAxis i
  if ¬ b.flag (AX_STAT_ENABLED i) then b
  else if own ∧ p.get (AX_FELIM i) ≠ 0 ∧ (p.get (AX_FELIM i) : Int) < ep.natAbs then b.axisFault i 1
  else if own ∧ p.get (AX_VMAX i) ≠ 0 ∧ (p.get (AX_VMAX i) : Int) < inp.v.natAbs then b.axisFault i 2
  else if x.node.err ≠ 0 then b.axisFault i 3
  else if b.feedbackFault i then b.axisFault i 5
  else if x.en = .on ∧ ¬ bit x.node.status 1 then b.axisFault i 6
  else if b.stepper i ∧ bit x.node.status 6 then b.axisFault i 8
  else b

/-- The torque limit magnitude of AUX (R249); 0 where the device reads no torque limits (R253) (DESIGN CHOICE, log entry 108). -/
def Block.auxLimit (b : Block) (i : Nat) : Nat :=
  if b.rawAxis i then 0 else max (b.get (AX_TLIMP i)) (b.get (AX_TLIMN i))

/-- The record of the round, by the state of the enable sequence; `r` is what the law sends while the loops are closed; an axis that
stops sends the command position (R235). -/
def Block.recordOf (b : Block) (i : Nat) (inp : LawIn) (r : SetRec) : SetRec :=
  let x := b.ax i
  let p := b.asTask i
  let aux := if x.nmode = 4 then 0 else p.auxLimit i
  let brake := if p.flag (AX_CFG_BRAKE_AUTO i) then 4 else 0
  match x.en with
  | .off => ⟨0, 0, inp.x, 0, 0, 0⟩
  | .asked => ⟨x.nmode, 2, inp.x, 0, 0, aux⟩
  | .waiting => ⟨x.nmode, 0, inp.x, 0, 0, aux⟩
  | .powering => ⟨x.nmode, 1 + brake, inp.x, 0, 0, aux⟩
  | .on => { r with ctrl := 1 + brake + (if x.inj.isSome then 8 else 0) }
  | .stopping => ⟨5, 1, r.pos, 0, 0, 0⟩

/-- The manual output of Table 7.5 in place of the controller's, as the task sees the manual values. -/
def Block.manual (b : Block) (i : Nat) (r : SetRec) : SetRec :=
  match (b.ax i).nmode with
  | 1 => { r with trq := b.trqLimit i (b.geti (AX_MAN_TRQ i)) }
  | 2 => { r with vel := satL (b.geti (AX_MAN_VEL i)) (b.get (AX_VLIM i)) }
  | 3 => { r with pos := (b.ax i).record.pos + sarRound (b.geti (AX_MAN_VEL i) * b.roundNs * 2 ^ 16 / 1000) 16 }
  | _ => r

/-- A helper that does not run sets the command of the task's round to the actual values just taken (R256). -/
def Block.taskFollows (b : Block) (i : Nat) : Block :=
  (b.followActual i).modAx i fun x => { x with
    views := x.views.map fun v => if v.round = x.taskRound then { v with cmode := 0, gen := x.gen, gear := x.gear } else v }

/-- The law between intake and output for LAW 0 and LAW 1 (Table 7.2); LAW 2 leaves SETTRQ, SETVEL and AUX to its task. -/
def Block.lawMiddle (b : Block) (i : Nat) (inp : LawIn) : SetRec × Block :=
  let g := (b.graphOf i).getD ⟨0, 0, 0, 0, 0⟩
  let b := if b.helperRuns i ∨ (b.ax i).starting then b else b.taskFollows i
  let b := b.injEnd i
  let b := b.injStart i (b.asTask i)
  let p := b.asTask i
  let auto := p.flag (AX_STAT_AUTO i)
  let c := p.cmd i
  let xc := p.shownPos i c.x
  let learn (b : Block) (lim : Bool) (ep : Int) : Block := if g.law = 0 ∧ bit g.blocks 2 then b.rcLearn i inp lim ep else b
  let limits (b : Block) (t v : Bool) : Block := (b.put (AX_STAT_TLIM i) t).put (AX_STAT_VLIM i) v
  if ¬ b.flag (AX_STAT_ENABLED i) then
    let b := limits (learn b false 0) false false
    let b := (b.seti (AX_EPOS i) 0).modAx i fun x => { x with vf := inp.v }
    (⟨(b.ax i).nmode, 0, inp.x, 0, 0, 0⟩, b)
  else
    let (r, b) : SetRec × Block :=
      if g.law = 0 then
        let (o, b) := b.servoLaw i g.blocks inp auto
        let b := limits (learn b o.limited o.ep) o.limited o.vlim
        let b := ((b.seti (AX_EPOS i) o.ep).seti (AX_VREF i) o.vref).seti (AX_URC i) o.urc
        let b := b.seti (AX_INTEG i) (satI 32 (b.ax i).integ)
        let r : SetRec := ⟨(b.ax i).nmode, 0, xc, o.vref, o.u, p.auxLimit i⟩
        (if auto then r else p.manual i r, b)
      else if g.law = 1 then
        let local' := (b.axisRec i).any fun r => 0x10 ≤ r.feedback && r.feedback ≠ 0xFF
        let pos := sarRound xc 16 * 2 ^ 16
        let ep := if local' then Config.stepCounts i pos - inp.x else 0
        (⟨4, 0, pos, 0, p.geti (AX_SCUR i), 0⟩, (limits b false false).seti (AX_EPOS i) ep)
      else (⟨(b.ax i).nmode, 0, xc, 0, 0, 0⟩, (limits b false false).seti (AX_EPOS i) (satI 64 (xc - inp.x)))
    (r, b.modAx i fun x => { x with inj := x.inj.map (·.next) })

/-- OUT: the fault checks, the record of the round and its registers. -/
def Block.lawOutput (b : Block) (i : Nat) (inp : LawIn) (r : SetRec) : Block :=
  let b := b.faultChecks i inp (b.geti (AX_EPOS i))
  let o := b.recordOf i inp r
  let b := b.modAx i fun x => { x with record := o, en := if x.en = .asked then .waiting else x.en }
  b.seti (AX_UOUT i) o.trq

/-! ### Commits on an axis -/

/-- A committed ENABLE = 1 (R250); on a virtual axis, which has no node, it is refused. -/
def Block.commitEnable (b : Block) (i : Nat) : Block :=
  let nm := b.get (AX_CTL_NMODE i)
  let modeOk := if b.stepper i then nm = 4 else 1 ≤ nm ∧ nm ≤ 3
  if (b.ax i).en ≠ .off ∧ (b.ax i).en ≠ .stopping then b
  else if b.get DEV_BOOT_PHASE = 7 ∧ b.nodeInRun i ∧ ¬ b.flag (AX_STAT_FAULT i) ∧ ¬ bit (b.ax i).node.status 5 ∧ modeOk then
    (b.off (AX_STAT_ENABLED i)).modAx i fun x => { x with en := .asked, enAt := b.roundAt, nmode := nm, preset := none }
  else (b.off (AX_CTL_ENABLE i)).on (AX_STAT_EN_REF i)

/-- A committed ENABLE = 0 (R251). -/
def Block.commitDisable (b : Block) (i : Nat) : Block :=
  if b.virtual i ∨ (b.ax i).en = .off then b else b.stopAxis i

/-- A committed AUTO = 1 (R245): command set to actual, integrator preset from the last SETTRQ; an impossible preset leaves
the axis in manual (R246). One committed while the axis is not enabled waits for the loops to close. -/
def Block.commitAuto (b : Block) (i : Nat) : Block :=
  let x := b.ax i
  let blocks := ((b.graphOf i).map (·.blocks)).getD 0
  if ¬ b.flag (AX_STAT_ENABLED i) ∨ b.flag (AX_STAT_AUTO i) then b
  else if x.nmode = 1 ∧ (b.presetGain i blocks).isNone then (b.on (AX_STAT_EN_REF i)).off (AX_CTL_AUTO i)
  else
    let b := (b.on (AX_STAT_AUTO i)).followActual i
    let b := b.modAx i fun x => { x with preset := some x.record.trq, cmode := 0, jog := false }
    (b.startMode i (b.get (AX_MCTL_CMODE i)) 0).showHelper i

/-- A committed AUTO = 0 (R245): the manual values take the last outputs, but for a LAW 2 axis, whose words there are its task's (R253). -/
def Block.commitManual (b : Block) (i : Nat) : Block :=
  let x := b.ax i
  if ¬ b.flag (AX_STAT_ENABLED i) ∨ ¬ b.flag (AX_STAT_AUTO i) then b
  else
    let b := if b.rawAxis i then b else (b.seti (AX_MAN_TRQ i) x.record.trq).seti (AX_MAN_VEL i) x.record.vel
    let b := (b.off (AX_STAT_AUTO i)).injStop i
    if b.stepper i then (b.startJog i).showHelper i else b.followActual i

/-- A committed RC_CLEAR (R243): the round of the commit is the first after it. -/
def Block.commitRcClear (b : Block) (i : Nat) : Block := ((b.off (AX_CTL_RC_CLEAR i)).rcClear i).rcFirst i (b.rcPointNow i)

/-- The enable time-out in ms: AX_ENTO; its reset value on an axis whose word there is its task's (R253) (DESIGN CHOICE, log entry 108). -/
def Block.enableLimit (b : Block) (i : Nat) : Nat := if b.rawAxis i then 200 else b.get (AX_ENTO i)

/-- The enable time-out (R250): ENABLED not reported within AX_ENTO ms of round e. -/
def Block.enableTimeout (b : Block) (i : Nat) : Block :=
  let x := b.ax i
  if (x.en = .asked ∨ x.en = .waiting ∨ x.en = .powering) ∧ x.enAt + b.enableLimit i * 1000000 ≤ b.up then b.axisFault i 4 else b

end Sys2Proof.Machine
end

