-- ==== Sys2Proof/Machine/Feedback.lean ====
section
/-!
DEFINITION. Position and speed feedback (09_position_feedback.md): the incremental decoder, SSI frames, node positions,
edges, speed and standstill, plausibility, feedback faults.
-/

namespace Sys2Proof.Machine

/-! ### Faults and flags of a channel (R303, R305) -/

/-- A feedback fault of channel `c`: only the first cause is recorded (R303); source 128 + c (R305). -/
def Block.chFault (b : Block) (c code : Nat) : Block :=
  let b := b.modCh c fun x => { x with faultNow := true }
  if b.flag (FB_STAT_FAULT c) then b else ((b.on (FB_STAT_FAULT c)).set (FB_STAT_FCODE c) code).irq (128 + c)

/-- UNCERT sets or clears; source 128 + c on a change (R305). -/
def Block.chUncert (b : Block) (c : Nat) (v : Bool) : Block :=
  if b.flag (FB_STAT_UNCERT c) = v then b else (b.put (FB_STAT_UNCERT c) v).irq (128 + c)

/-- A fault of the node-position entry of axis `i` (R303, R305). -/
def Block.entryFault (b : Block) (i code : Nat) : Block :=
  if b.flag (FB_N_STAT_FAULT i) then b else (b.on (FB_N_STAT_FAULT i)).set (FB_N_STAT_FCODE i) code

/-! ### Edges, speed, standstill (R298 to R300) -/

/-- An edge: time, position, direction; `still` is STANDSTILL, `win` is SSWIN in Q48.16. The answer says whether the edge
carried the position out of the window. -/
def Edges.edge (e : Edges) (m : Mark) (fwd still : Bool) (win : Int) : Edges × Bool :=
  let restart := still || e.same = 0 || fwd != e.fwd
  let out := win < (m.p - e.anchor.p).natAbs
  ({ e with
      ref := if restart then m else e.ref, same := if restart then 1 else e.same + 1
      anchor := if out then m else e.anchor, last := m, fwd := fwd }, out)

/-- The evaluation at time `t` (R299): the new speed in Q16.16 counts/µs from the old speed `v`, and STANDSTILL; `q` is
the edge quantum in Q48.16, `ssto` in ns. -/
def Edges.evaluate (e : Edges) (t : Int) (v : Int) (still : Bool) (q ssto : Int) : Edges × Int × Bool :=
  let still := still || decide (ssto ≤ t - e.anchor.t)
  let new := decide (e.seen.t < e.last.t)
  let v' : Int :=
    if still ∨ e.same < 2 then 0
    else if new then
      let base := if e.seen.t < e.ref.t then e.ref else e.seen
      satI 32 (divRound ((e.last.p - base.p) * 1000) (e.last.t - base.t))
    else
      let bound : Int := if t = e.last.t then v.natAbs else divRound (q * 1000) (t - e.last.t)
      let m := min (v.natAbs : Int) bound
      if e.fwd then m else -m
  ({ e with seen := e.last }, v', still)

/-- The first sample sets the records without counting an edge (R298). -/
def Edges.start (m : Mark) : Edges :=
  { ref := m, anchor := m, last := m, seen := m, fwd := true, same := 0, started := true, prev := some m.p }

/-- Every record shifted by the same amount (R291). -/
def Edges.shift (e : Edges) (d : Int) : Edges :=
  let s (m : Mark) : Mark := ⟨m.t, m.p + d⟩
  { e with ref := s e.ref, anchor := s e.anchor, last := s e.last, seen := s e.seen, prev := e.prev.map (· + d) }

/-- SSWIN of channel `c` in Q48.16. -/
def Block.chWin (b : Block) (c : Nat) : Int := b.get (FB_SS_SSWIN c) * 2 ^ 16

/-- SSTO of a channel in ns, within its range of 1 to 60,000 ms (R620). -/
def Block.chSsto (b : Block) (c : Nat) : Int := (clampN 1 60000 (b.get (FB_SS_SSTO c)) : Nat) * 1000000

/-- Counts between index events, within the range of FB_LINES (R620, Table 9.2). -/
def Block.chLines (b : Block) (c : Nat) : Nat := min 0x7FFFFFFF (b.get (FB_LINES c))

/-- The SSI edge quantum of a channel, within the range of FB_NQ (R620, Table 9.2). -/
def Block.chQuantum (b : Block) (c : Nat) : Nat := clampN 1 0x7FFFFFFF (b.get (FB_NQ c))

/-- A recorded edge of channel `c`. -/
def Block.chEdge (b : Block) (c : Nat) (m : Mark) (fwd : Bool) : Block :=
  let (e, out) := (b.ch c).edges.edge m fwd (b.flag (FB_STAT_STANDSTILL c)) (b.chWin c)
  let b := (b.modCh c fun x => { x with edges := e }).put (FB_STAT_DIR c) (!fwd)
  if out then b.off (FB_STAT_STANDSTILL c) else b

/-! ### The reported position (R287, R302) -/

/-- The largest count (R292). -/
def countMax : Int := (2 ^ 47 - 1) * 2 ^ 16

/-- The clamp of R302 acts or ends; its onset is fault 7 with SLFLT. -/
def Block.chClamp (b : Block) (c : Nat) : Block :=
  let p := (b.ch c).count
  let acts := decide (softClamp (b.geti (FB_SLO c)) (b.geti (FB_SHI c)) p ≠ p)
  let onset := acts && !b.flag (FB_STAT_SLIM c)
  let b := b.put (FB_STAT_SLIM c) acts
  if onset ∧ b.flag (FB_CFG_SLFLT c) then b.chFault c 7 else b

/-- The reported position of channel `c`. -/
def Block.chReported (b : Block) (c : Nat) : Int := softClamp (b.geti (FB_SLO c)) (b.geti (FB_SHI c)) (b.ch c).count

/-- The sample of channel `c` is uncertain (R285, R303). -/
def Block.chUnsure (b : Block) (c : Nat) : Bool := b.flag (FB_STAT_UNCERT c) || b.flag (FB_STAT_FAULT c)

/-! ### The incremental decoder (R283 to R292) -/

/-- FILT of channel `c`. -/
def Block.chFilt (b : Block) (c : Nat) : Nat := b.get (FB_CFG_FILT c)

/-- The filtered levels after one sample of a channel's lines: a level is accepted once sampled unchanged FILT + 1 times. -/
def Channel.filter (x : Channel) (filt : Nat) (v : Vector Bool 3) : Channel :=
  let same := Vector.ofFn fun k : Fin 3 => if x.raw[k] = v[k] then min 255 (x.same[k] + 1) else 1
  let acc := Vector.ofFn fun k : Fin 3 => if filt + 1 ≤ same[k] then v[k] else x.acc[k]
  { x with raw := v, same := same, acc := acc, samples := x.samples + 1 }

/-- The quadrature phase of levels A, B: forward is 00, 10, 11, 01 (A leads B). -/
def quadPhase (a b : Bool) : Nat := match a, b with
  | false, false => 0
  | true, false => 1
  | true, true => 2
  | false, true => 3

/-- A double transition (R285, R286): QSKIP, UNCERT, and fault 1 at the fifth within 1,024 samples. -/
def Block.chDouble (b : Block) (c : Nat) : Block :=
  let n := (b.ch c).samples
  let ds := ((b.ch c).doubles ++ [n]).drop ((b.ch c).doubles.length - 4)
  let b := b.modCh c fun x => { x with doubles := ds, sinceIndex := x.sinceIndex + 1 }
  let b := (b.inc (FB_ERR_QSKIP c)).chUncert c true
  if 5 ≤ ds.length ∧ n ≤ ds.headD 0 + 1024 then b.chFault c 1 else b

/-- One count (R284); at its limit the count stays (R292). -/
def Block.chCount (b : Block) (c : Nat) (fwd : Bool) (t : Int) : Block :=
  let p := if ((b.ch c).count.natAbs : Int) = countMax then (b.ch c).count
    else (b.ch c).count + (if fwd then 2 ^ 16 else -(2 ^ 16))
  let q := clampI (-countMax) countMax p
  let b := b.modCh c fun x => { x with count := q }
  if (q.natAbs : Int) = countMax then b.chFault c 5 else b.chEdge c ⟨t, q⟩ fwd

/-- A LOAD of channel `c` commits at the boundary that falls in this nanosecond (R291). -/
def Block.loadDue (b : Block) (c : Nat) : Bool :=
  b.atBoundary && (b.shadow ++ b.due.map fun v => (v.fld, v.value)).any fun v => v.1 = FB_CTL_LOAD c && v.2 = 1

/-- Correct the count at an index (R290); the edge records shift with it (DEDUCED, log entry 74). -/
def Block.chCorrect (b : Block) (c : Nat) (d : Int) : Block :=
  let b := b.modCh c fun x => { x with count := x.count - d * 2 ^ 16, edges := x.edges.shift (-(d * 2 ^ 16)) }
  (b.inc (FB_ERR_ZCORR c)).chUncert c false

/-- An index event (R288 to R290) in the direction of the last count edge (DEDUCED, log entry 74). -/
def Block.chIndex (b : Block) (c : Nat) (fwd : Bool) : Block :=
  let x := b.ch c
  let z := x.count
  let b := (b.seti (FB_ZPOS c) z).on (FB_STAT_ZVALID c)
  let b := if b.flag (FB_CTL_ZIRQ c) then b.irq (128 + c) else b
  let lines : Int := b.chLines c
  let b := match x.index with
    | none => b
    | some (p, pf) =>
      if lines = 0 then b
      else
        let n : Int := if pf = fwd then (if fwd then lines else -lines) else 0
        let d := (z - p) / 2 ^ 16 - n
        let b := b.seti (FB_ZDIFF c) d
        if d.natAbs ≤ b.get (FB_ZTOL c) then b.chUncert c false
        else if b.flag (FB_CFG_ZCORR c) ∧ b.flag (FB_STAT_UNCERT c) ∧ d.natAbs ≤ 2 * x.sinceIndex then
          if b.loadDue c then b else (b.chCorrect c d).seti (FB_ZPOS c) (z - d * 2 ^ 16)
        else b.chFault c 2
  let zp := b.geti (FB_ZPOS c)
  b.modCh c fun x => { x with index := some (zp, fwd), sinceIndex := 0 }

/-- A decoder sample falls in this nanosecond, one every 8 ns of plant time (R283). -/
def Block.sampleDue (b : Block) (c : Nat) : Bool := b.reached 8 0 && (b.ch c).sampled ≠ b.up

/-- One decoder sample (R283 to R290). A double transition is handled before an index event in the same sample. -/
def Block.decode (b : Block) (c : Nat) (a bb z : Bool) : Block :=
  if ¬ b.flag (FB_STAT_ENABLED c) ∨ b.get (FB_CFG_TYPE c) ≠ 0 ∨ ¬ b.sampleDue c then b
  else
    let old := b.ch c
    let x := { old.filter (b.chFilt c) #v[a, bb, z] with sampled := b.up }
    let b := b.modCh c fun _ => x
    let t : Int := (b.up : Int) - 8 * b.chFilt c
    let d := (quadPhase x.acc[0] x.acc[1] + 4 - quadPhase old.acc[0] old.acc[1]) % 4
    let inv := b.flag (FB_CFG_INV c)
    let b := if d = 1 then b.chCount c (!inv) t
      else if d = 3 then b.chCount c inv t
      else if d = 2 then b.chDouble c else b
    let gate := x.acc[2] && (!b.flag (FB_CFG_ZGATE c) || (x.acc[0] && x.acc[1]))
    let fwd := (b.ch c).edges.fwd
    let event := (gate && !old.gate && fwd) || (!gate && old.gate && !fwd)
    let b := b.modCh c fun x => { x with gate := gate }
    (if event then b.chIndex c fwd else b).chClamp c

/-- DECODER_SAMPLE (R283). -/
def execDecoderSample (c : Fin 16) (a bb z : Bool) (s : State) : Outcome := .next (s.onBlk (·.decode c a bb z))

/-- POSITION_LATCH (R287): every 250 ns of plant time the reported position becomes a KIND 1 sample of the line-angle unit. -/
def execPositionLatch (c : Fin 16) (s : State) : Outcome :=
  .next (s.onBlk fun b =>
    if b.flag (FB_STAT_ENABLED c) ∧ b.reached 250 0 then b.anglePosition 1 c (b.chReported c) b.ns (b.chUnsure c) else b)

/-! ### SSI (R293 to R296) -/

/-- Gray code to binary over `w` bits. -/
def fromGray (w g : Nat) : Nat := (List.range w).foldl (fun a k => a ^^^ (g / 2 ^ k)) 0

/-- POSW of a channel, within its range (R620, Table 9.4; at most 47 without UNWRAP, R294). -/
def Block.ssiWidth (b : Block) (c : Nat) : Nat :=
  clampN 8 (if b.flag (FB_SSI_FMT_UNWRAP c) then 48 else 47) (b.get (FB_SSI_FMT_POSW c))

/-- POSLSB of a channel, within its range (R620, Table 9.4). -/
def Block.ssiLsb (b : Block) (c : Nat) : Nat := min 54 (b.get (FB_SSI_FMT_POSLSB c))

/-- BITS of a channel, within its range (R620, Table 9.4). -/
def Block.ssiBits (b : Block) (c : Nat) : Nat := clampN 10 64 (b.get (FB_SSI_FMT_BITS c))

/-- The position field of a received word of BITS bits (R294). -/
def Block.ssiField (b : Block) (c word : Nat) : Nat :=
  let w := b.ssiWidth c
  let f := bits (low (b.ssiBits c) word) (b.ssiLsb c) w
  if b.flag (FB_SSI_FMT_GRAY c) then fromGray w f % 2 ^ w else f

/-- The length of a frame in ns (R293), CLKDIV within its range (R620, Table 9.4). -/
def Block.ssiFrameNs (b : Block) (c : Nat) : Nat :=
  (b.ssiBits c + 2) * 4 * clampN 25 2500 (b.get (FB_SSI_TIM_CLKDIV c)) +
    8 * b.get (FB_SSI_TIM_DCOMP c)

/-- A position sample of a source with quantum `q`: an edge where it differs from the last edge by at least `q` (R298). -/
def Block.chSample (b : Block) (c : Nat) (m : Mark) : Block :=
  let x := b.ch c
  let jump : Int := b.get (FB_JUMP c) * 2 ^ 16
  let b := match x.edges.prev with
    | some p => if jump ≠ 0 ∧ jump < (m.p - p).natAbs then b.chFault c 4 else b
    | none => b
  let b := b.modCh c fun x => { x with count := m.p, edges := { x.edges with prev := some m.p } }
  let b := if ¬ x.edges.started then b.modCh c fun x => { x with edges := Edges.start m }
    else if (b.chQuantum c : Int) ≤ (m.p - x.edges.last.p).natAbs ∧ m.p ≠ x.edges.last.p then b.chEdge c m (decide (x.edges.last.p < m.p))
    else b
  b.chClamp c

/-- A frame of channel `c` ends in this nanosecond (R296): one that began at the boundary or at one of the SUB even parts of the round. -/
def Block.ssiFrameDue (b : Block) (c : Nat) : Bool :=
  let n := 2 ^ b.get (FB_SSI_FMT_SUB c)
  (List.range n).any fun k => b.roundAt + k * b.roundNs / n + b.ssiFrameNs c = b.up

/-- The position that a good frame gives (R294): the field, or, with UNWRAP, the one of the previous field and the change since. -/
def Block.ssiPosition (b : Block) (c f : Nat) : Int :=
  let w := b.ssiWidth c
  match (b.ch c).fieldV with
  | some (o, p) => if b.flag (FB_SSI_FMT_UNWRAP c) then p + sgn w (f + 2 ^ w - o) * 2 ^ 16 else f * 2 ^ 16
  | none => f * 2 ^ 16

/-- The values of channel `c` at the boundary `t`, a time of the time base (R287, R299): speed, standstill, the latched position within the
soft limits in force. -/
def Block.chEvaluate (b : Block) (c : Nat) (t : Int) : Block :=
  let q : Int := if b.get (FB_CFG_TYPE c) = 1 then b.chQuantum c else 2 ^ 16
  let (e, v, still) := (b.ch c).edges.evaluate t (b.geti (FB_VEL c)) (b.flag (FB_STAT_STANDSTILL c)) q (b.chSsto c)
  let b := b.modCh c fun x => { x with edges := e }
  let b := (b.seti (FB_VEL c) v).put (FB_STAT_STANDSTILL c) still
  (b.seti (FB_POS c) (b.chReported c)).chClamp c

/-- SSI_FRAME_END (R295): `word` the bits received, `highBefore` and `lowAfter` the data level before and after the frame,
the latch instant one frame length ago. A failed frame's sample is the previous position extrapolated by the reported speed, a sample
like any other but uncertain. With the frame that the boundary latched come the values of the boundary (R287) (DEDUCED, log entry 75). -/
def execSsiFrameEnd (c : Fin 16) (word : Nat) (highBefore lowAfter : Bool) (s : State) : Outcome :=
  .next (s.onBlk fun b =>
    let t : Int := (b.up : Int) - b.ssiFrameNs c
    let x := b.ch c
    let latched (b : Block) : Block := if t = b.roundAt then b.chEvaluate c t else b
    if ¬ b.flag (FB_STAT_ENABLED c) ∨ b.get (FB_CFG_TYPE c) ≠ 1 ∨ ¬ b.ssiFrameDue c ∨ t ≤ x.sampled then b
    else if highBefore && lowAfter then
      let f := b.ssiField c word
      let p := b.ssiPosition c f
      let b := b.modCh c fun x => { x with fieldV := some (f, p), fails := 0, sampled := t }
      latched ((b.chSample c ⟨t, p⟩).chUncert c false)
    else
      let p := x.count + divRound (b.geti (FB_VEL c) * (t - x.sampled)) 1000
      let b := (b.inc (FB_ERR_SSIERR c)).irq (128 + c)
      let b := (b.on (FB_STAT_UNCERT c)).modCh c fun x => { x with fails := x.fails + 1, sampled := t }
      let b := b.chSample c ⟨t, p⟩
      latched (if 3 ≤ (b.ch c).fails then b.chFault c 3 else b))

/-- INPUT_BELOW_THRESHOLD (R303): a differential input stays below threshold for over 1 µs, or returns. -/
def execInputBelowThreshold (c : Fin 16) (below : Bool) (s : State) : Outcome :=
  .next (s.onBlk fun b =>
    let b := b.modCh c fun x => { x with below := below }
    if below ∧ b.flag (FB_STAT_ENABLED c) then b.chFault c 6 else b)

/-! ### The boundary (R287, R299) -/

/-- Channel `c` at a boundary. -/
def Block.chBoundary (b : Block) (c : Nat) : Block := if b.flag (FB_STAT_ENABLED c) then b.chEvaluate c b.up else b

/-- The boundary's commits have acted: faults of the round that ended no longer hold an acknowledgement up (R304). -/
def Block.chRoundDone (b : Block) (c : Nat) : Block := b.modCh c fun x => { x with faultNow := false }

/-! ### Node-reported positions (R297) -/

/-- SSTO of a node-position entry in ns, within its range (R620). -/
def Block.entrySsto (b : Block) (i : Nat) : Int := (clampN 1 60000 (b.get (FB_N_SS_SSTO i)) : Nat) * 1000000

/-- The sample of round n from the valid turn of an axis with node feedback: sampled at the boundary `tb`; speed is evaluated on its
arrival (R299). -/
def Block.entrySample (b : Block) (i : Nat) (p : Int) (uncert : Bool) (tb : Int) : Block :=
  let x := b.entry i
  let e := x.edges
  let m : Mark := ⟨tb, p⟩
  -- UNCERT onsets (R297)
  let onset := uncert && !x.uncert
  let on := if onset then (x.onsets ++ [b.round]).drop (x.onsets.length - 4) else x.onsets
  let b := b.modEntry i fun x => { x with uncert := uncert, onsets := on }
  let b := b.put (FB_N_STAT_UNCERT i) uncert
  let b := if onset then b.addSat (FB_N_STAT_ONSETS i) 1 else b
  let b := if onset ∧ 5 ≤ on.length ∧ b.roundsSince (on.headD 0) ≤ 1024 then b.entryFault i 1 else b
  -- plausibility (R301)
  let jump : Int := b.get (FB_N_JUMP i) * 2 ^ 16
  let b := match e.prev with
    | some o => if jump ≠ 0 ∧ jump < (p - o).natAbs then b.entryFault i 4 else b
    | none => b
  -- edges (R298)
  let still := b.flag (FB_N_STAT_STANDSTILL i)
  let q : Int := b.get (FB_N_NQ i)
  let win : Int := b.get (FB_N_SS_SSWIN i) * 2 ^ 16
  let (e1, out) :=
    if ¬ e.started then (Edges.start m, false)
    else if q ≤ (p - e.last.p).natAbs ∧ p ≠ e.last.p then e.edge m (decide (e.last.p < p)) still win
    else (e, false)
  let b := if out then b.off (FB_N_STAT_STANDSTILL i) else b
  let (e2, v, still) := { e1 with prev := some p }.evaluate b.up (b.geti (FB_N_VEL i)) (still && !out) q (b.entrySsto i)
  let b := b.modEntry i fun x => { x with edges := e2 }
  let b := (b.seti (FB_N_VEL i) v).put (FB_N_STAT_STANDSTILL i) still
  -- soft limits (R302): the onset of a clamp is always fault 7
  let acts := decide (softClamp (b.geti (FB_N_SLO i)) (b.geti (FB_N_SHI i)) p ≠ p)
  let new := acts && !b.flag (FB_N_STAT_SLIM i)
  let b := b.put (FB_N_STAT_SLIM i) acts
  if new then b.entryFault i 7 else b

/-! ### Commits on a channel -/

/-- The checks of R296 on an SSI enable, but for the critical path: the format is valid, and frame and recovery time fit
into a share of the round. -/
def Block.ssiFits (b : Block) (c : Nat) : Bool :=
  decide ((b.ssiFrameNs c + 1000 * b.get (FB_SSI_TIM_MONO c)) * 2 ^ b.get (FB_SSI_FMT_SUB c) ≤ b.roundNs)

/-- A committed EN (R282, R296); `late` says that R296's second check fails. A TYPE the channel does not have is refused like the enables
R296 refuses (DESIGN CHOICE, log entry 123). -/
def Block.commitChEnable (b : Block) (c : Nat) (late : Bool) : Block :=
  if ¬ b.flag (FB_CTL_EN c) then b.off (FB_STAT_ENABLED c)
  else if b.flag (FB_STAT_ENABLED c) then b
  else
    let ty := b.get (FB_CFG_TYPE c)
    let bad := ty = 2 ∨ ty = 3 ∨ (ty = 1 ∧ (c < 8 ∨ ¬ b.ssiFits c ∨ late))
    if bad then
      let b := b.off (FB_CTL_EN c)
      (b.on (FB_STAT_CFG_ERR c)).irq (128 + c)
    else
      let x := b.ch c
      let b := b.modCh c fun _ => { Reset.channel with
        count := x.count, raw := x.raw, acc := x.acc, same := x.same, below := x.below, sampled := b.up - 1
        edges := if ty = 1 then Reset.edges else Edges.start ⟨b.up, x.count⟩ }
      let b := ((b.on (FB_STAT_ENABLED c)).off (FB_STAT_STANDSTILL c)).seti (FB_VEL c) 0
      let b := (b.seti (FB_POS c) (b.chReported c)).chClamp c
      if x.below then b.chFault c 6 else b

/-- A committed FAULT_ACK (R304). -/
def Block.commitChAck (b : Block) (c : Nat) : Block :=
  let b := b.off (FB_CTL_FAULT_ACK c)
  let code := b.get (FB_STAT_FCODE c)
  let holds := (code = 6 ∧ (b.ch c).below) ∨ (code = 7 ∧ b.flag (FB_STAT_SLIM c)) ∨ (b.ch c).faultNow
  if holds then b else (b.off (FB_STAT_FAULT c)).set (FB_STAT_FCODE c) 0

/-- A committed LOAD (R291). -/
def Block.commitLoad (b : Block) (c : Nat) : Block :=
  let p := b.geti (FB_SETPOS c)
  let d := p - (b.ch c).count
  let b := (b.off (FB_CTL_LOAD c)).seti (FB_ZPOS c) (b.geti (FB_ZPOS c) + d)
  (b.modCh c fun x => { x with
    count := p, edges := x.edges.shift d, index := none, fieldV := x.fieldV.map fun v => (v.1, v.2 + d) }).chClamp c

/-- A committed UNC_CLR (R289). -/
def Block.commitUncClr (b : Block) (c : Nat) : Block :=
  let b := b.off (FB_CTL_UNC_CLR c)
  if b.chLines c = 0 then b.chUncert c false else b

/-- A committed CNT_CLR (R306). -/
def Block.commitChCntClr (b : Block) (c : Nat) : Block := (b.off (FB_CTL_CNT_CLR c)).wr (aFB_ERR c) 0

end Sys2Proof.Machine
end

