-- ==== Sys2Proof/Machine/AxisRows.lean ====
section
/-!
DEFINITION. The rows that are one commit on an axis or a feedback channel, at a boundary (DEDUCED, log entry 15), and the axis
time-outs. Each sets its field and acts as that commit; an axis that does not exist has no helper (R254).
-/

namespace Sys2Proof.Machine

/-- A commit on an axis that exists. -/
def State.onAxis (s : State) (i : Nat) (f : Block → Block) : State := s.onBlk fun b => if b.axisExists i then f b else b

/-- CMODE (R255). -/
def execCmode (i : Fin 256) (mode : Fin 4) (s : State) : Outcome :=
  .next (s.onAxis i fun b => (b.set (AX_MCTL_CMODE i) mode).commitCmode i)

/-- AX_STOP (R257). -/
def execAxStop (i : Fin 256) (s : State) : Outcome := .next (s.onAxis i (·.commitStop i))

/-- GCANCEL (R274). -/
def execGcancel (i : Fin 256) (s : State) : Outcome := .next (s.onAxis i (·.commitGcancel i))

/-- TARGET (R261). -/
def execTarget (i : Fin 256) (v : DWord) (s : State) : Outcome :=
  .next (s.onAxis i fun b => (b.set (AX_TARGET i) v.toNat).commitTarget i)

/-- GANG (R273). -/
def execGang (i : Fin 256) (v : DWord) (s : State) : Outcome :=
  .next (s.onAxis i fun b => (b.set (AX_GANG i) v.toNat).commitGang i)

/-- GRATIO (R274). -/
def execGratio (i : Fin 256) (v : DWord) (s : State) : Outcome :=
  .next (s.onAxis i fun b => (b.set (AX_GRATIO i) v.toNat).commitGratio i)

/-- ENABLE (R250). -/
def execEnable (i : Fin 256) (s : State) : Outcome :=
  .next (s.onAxis i fun b => (b.on (AX_CTL_ENABLE i)).commitEnable i)

/-- DISABLE (R251). -/
def execDisable (i : Fin 256) (s : State) : Outcome :=
  .next (s.onAxis i fun b => (b.off (AX_CTL_ENABLE i)).commitDisable i)

/-- ENABLE_TIMEOUT (R250). -/
def execEnableTimeout (i : Fin 256) (s : State) : Outcome := .next (s.onAxis i (·.enableTimeout i))

/-- AUTOMATIC (R245). -/
def execAutomatic (i : Fin 256) (s : State) : Outcome :=
  .next (s.onAxis i fun b => (b.on (AX_CTL_AUTO i)).commitAuto i)

/-- MANUAL (R245). -/
def execManual (i : Fin 256) (s : State) : Outcome :=
  .next (s.onAxis i fun b => (b.off (AX_CTL_AUTO i)).commitManual i)

/-- AX_FAULT_ACK (R238). -/
def execAxFaultAck (i : Fin 256) (s : State) : Outcome := .next (s.onAxis i (·.commitAck i))

/-- RC_CLEAR (R243). -/
def execRcClear (i : Fin 256) (s : State) : Outcome := .next (s.onAxis i (·.commitRcClear i))

/-- INJECTION (R248). -/
def execInjection (i : Fin 256) (s : State) : Outcome :=
  .next (s.onAxis i fun b => let b := b.on (AX_CTL_INJ_EN i); b.injStart i b)

/-- INJECTION_END (R248). -/
def execInjectionEnd (i : Fin 256) (s : State) : Outcome := .next (s.onAxis i (·.injEnd i))

/-- FB_FAULT_ACK (R304). -/
def execFbFaultAck (c : Fin 16) (s : State) : Outcome := .next (s.onBlk (·.commitChAck c))

/-- LOAD (R291). -/
def execLoad (c : Fin 16) (s : State) : Outcome := .next (s.onBlk (·.commitLoad c))

/-- UNC_CLR (R289). -/
def execUncClr (c : Fin 16) (s : State) : Outcome := .next (s.onBlk (·.commitUncClr c))

/-- FB_CNT_CLR (R306). -/
def execFbCntClr (c : Fin 16) (s : State) : Outcome := .next (s.onBlk (·.commitChCntClr c))

end Sys2Proof.Machine
end

