-- ==== Sys2Proof/Machine/Schedule.lean ====
section
/-!
DEFINITION. Contracts as schedules: layout of a lead frame and of the turn windows (05_thrumlos_link_and_frames.md R160,
R168, R169, R172), fetch times (01_dealer_and_helpers.md R30), the carousel table (06_thrumlos_start_and_schedules.md
R207), and the critical path (R33, Table 1.4). Times in units of 0.1 ns, in which one byte takes 32, unless named ns.
-/

namespace Sys2Proof.Machine

/-- Insert `x` before the first element of a larger key. -/
def insertKey {α : Type} (key : α → Nat) (x : α) : List α → List α
  | [] => [x]
  | y :: t => if key x < key y then x :: y :: t else y :: insertKey key x t

/-- A list in rising order of `key`; equal keys keep their order. -/
def sortKey {α : Type} (key : α → Nat) (l : List α) : List α := l.foldl (fun a x => insertKey key x a) []

/-! ### Contracts of a deck -/

/-- The SEGMENT record of segment `s`. -/
def Deck.segRec (d : Deck) (s : Nat) : Option SegRec := d.segs.find? (·.seg = s)

/-- A segment is used where the deck has its record. -/
def Deck.used (d : Deck) (s : Nat) : Bool := (d.segRec s).isSome

/-- A ring (R150). -/
def Deck.isRing (d : Deck) (s : Nat) : Bool := (d.segRec s).any fun r => bit r.flags 0

/-- Contract `c` of segment `s`. -/
def Deck.contract (d : Deck) (s c : Nat) : Option ContractRec := d.contracts.find? fun r => r.seg = s && r.num = c

/-- The turns of a contract in turn order. -/
def Deck.turnList (d : Deck) (s c : Nat) : List TurnRec :=
  sortKey (·.turn) (d.turns.filter fun t => t.seg = s && t.contract = c)

/-- The rate code of the ROUND record. -/
def Deck.rate (d : Deck) : Nat := (d.rounds.head?.map (·.rate)).getD 0

/-- Round length in ns at a rate code (Table 0.4). -/
def rateNs (r : Nat) : Nat := 125000 / 2 ^ r

/-- Usable time per direction in 0.1 ns (Table 5.9). -/
def usable (r : Nat) : Nat := 36864 / 2 ^ r * 32

/-- Bytes of a node block (R161): header, records, slots, tag, CRC. -/
def TurnRec.blockBytes (t : TurnRec) : Nat := 16 + 24 * t.axes + 12 * t.slots

/-- Length of a turn window (R168): the turn's bytes and 64 ns. -/
def TurnRec.window (t : TurnRec) : Nat := (16 + 32 * t.axes) * 32 + 640

/-- Bytes of a lead frame (R160, R209): lead block, node blocks, kitty blocks. -/
def leadBytes (ts : List TurnRec) (kcount : Nat) : Nat :=
  ts.foldl (fun a t => a + t.blockBytes) 96 + 64 * kcount

/-- Byte at which the block of a position starts, after `a` bytes. -/
def blockStart : List TurnRec → Nat → Nat → Option Nat
  | [], _, _ => none
  | t :: rest, a, pos => if t.pos = pos then some a else blockStart rest (a + t.blockBytes) pos

/-- When a position's window opens, the first one opening at `a`. -/
def windowOpen : List TurnRec → Nat → Nat → Option Nat
  | [], _, _ => none
  | t :: rest, a, pos => if t.pos = pos then some a else windowOpen rest (a + t.window) pos

/-- When the last turn window closes, kitty windows excluded. -/
def windowsEnd (ts : List TurnRec) (a : Nat) : Nat := ts.foldl (fun a t => a + t.window) a

/-- R169 with kitty windows and blocks (R209), and the range of T_OPEN (R168). -/
def ContractRec.fits (c : ContractRec) (ts : List TurnRec) (rate : Nat) : Bool :=
  decide (600 ≤ c.tOpen) && decide (c.tOpen * 10 + usable rate ≤ rateNs rate * 10) &&
    decide (leadBytes ts c.kcount * 32 ≤ usable rate) &&
    decide (windowsEnd ts (c.tOpen * 10) + 2176 * c.kcount ≤ c.tOpen * 10 + usable rate)

/-- The turns in the order the head emits them; reversed when the ring runs reversed (14_partners.md R430). -/
def Block.order (b : Block) (s c : Nat) : List TurnRec :=
  match b.dealt with
  | some d => if bit (b.get PTN_STAT_REV) (s / 2) ∧ d.isRing s then (d.turnList s c).reverse else d.turnList s c
  | none => []

/-- The contract record of a segment. -/
def Block.contract (b : Block) (s c : Nat) : Option ContractRec := b.dealt.bind fun d => d.contract s c

/-- The turn of a position under contract `c`. -/
def Block.turnOf (b : Block) (s c pos : Nat) : Option TurnRec := (b.order s c).find? (·.pos = pos)

/-- The window of a position after the boundary, open and close. -/
def Block.windowOf (b : Block) (s c pos : Nat) : Option (Nat × Nat) :=
  match b.contract s c, b.turnOf s c pos with
  | some k, some t => (windowOpen (b.order s c) (k.tOpen * 10) pos).map fun o => (o, o + t.window)
  | _, _ => none

/-- When the builder fetches the record of axis `i` after a boundary of contract `c` (R30); negative where that is before
the boundary. -/
def Block.fetchAt (b : Block) (i c : Nat) : Option Int :=
  match b.axisRec i with
  | some r =>
    match b.turnOf r.segment c r.node with
    | some t => if r.sub < t.axes then
        (blockStart (b.order r.segment c) 96 r.node).map fun a => ((a + 8 + 24 * r.sub) * 32 : Nat) - (640 : Int)
      else none
    | none => none
  | none => none

/-- The axes of a segment in the order of the lead frame under contract `c` (R327). -/
def Block.slotOrder (b : Block) (s c : Nat) : List Nat :=
  (b.order s c).flatMap fun t => (List.range t.axes).flatMap fun k =>
    (b.axisList.filter fun r => r.kind ≠ 3 && r.segment = s && r.node = t.pos && r.sub = k).map (·.axis)

/-- R172 and R211: every node block, at the node's downstream delay, ends before its next boundary. A position not yet
walked is taken at 6.0 µs. `delay` gives the delay in 0.1 ns. -/
def admissible (ts : List TurnRec) (rate : Nat) (delay : Nat → Nat) : Bool :=
  ts.all fun t => (blockStart ts 96 t.pos).all fun a => decide ((a + t.blockBytes) * 32 + delay t.pos < rateNs rate * 10)

/-! ### Library run times (R228, Table 7.2) -/

/-- Declared run time of a microcode task; 0 for none. -/
def Deck.wcet (d : Deck) (id : Nat) : Nat := ((d.tasks.find? (·.id = id)).map (·.wcet)).getD 0

/-- The run time of a graph in ns. -/
def Deck.graphTime (d : Deck) (g : GraphRec) : Nat :=
  let on (k t : Nat) : Nat := if bit g.blocks k then t else 0
  match g.law with
  | 0 => 300 + on 0 20 + on 1 40 + on 2 180 + on 3 50 + on 4 50 + d.wcet g.h1 + d.wcet g.h2
  | 1 => 200 + d.wcet g.h1
  | _ => 140 + d.wcet g.h2

/-- The library run time of an axis, RUNMAX of its descriptor. -/
def Deck.lawTime (d : Deck) (r : AxisRec) : Nat :=
  ((d.graphs.find? (·.id = r.graph)).map d.graphTime).getD 0

/-! ### Critical path (R33, Table 1.4) -/

/-- A cyclic task in the computation: when its wait ends, its order in one cycle, its engine, its run time in ns, whether
it releases a record. -/
structure PathTask where
  wake : Nat
  rank : Nat
  eng : Nat
  run : Nat
  record : Bool
  deriving DecidableEq, Repr

/-- Run the tasks in order of wake, each engine one at a time: 20 ns placement, 24 ns pre-emption where the engine is
idle, 30 ns entry, 16 ns release. `free` is when each engine is free. Answers whether every record is ready by `lim`. -/
def pathRun (lim : Nat) : List PathTask → List (Nat × Nat) → Bool
  | [], _ => true
  | t :: rest, free =>
    let f := sget (fun _ => 0) free t.eng
    let placed := t.wake + 200
    let fin := (if f ≤ placed then placed + 240 else f) + 300 + t.run * 10
    (!t.record || decide (fin + 160 ≤ lim)) && pathRun lim rest (sput (fun _ => 0) free t.eng fin)

/-- The end of the SSI frame an axis waits for, in ns; 0 where it does not (Table 10.2, R296). -/
def Block.ssiWait (b : Block) (r : AxisRec) (extra : Option Nat) : Nat :=
  if 0x10 ≤ r.feedback ∧ r.feedback ≠ 0xFF then
    let c := r.feedback - 0x10
    if b.get (FB_CFG_TYPE c) = 1 ∧ (b.flag (FB_STAT_ENABLED c) ∨ extra = some c) then b.ssiFrameNs c else 0
  else 0

/-- The tasks of deck `d` under `choice` of contracts, with the engine of each axis, those of `more` added; `judged` names the axes whose
records must be ready. -/
def Block.pathTasks (b : Block) (d : Deck) (choice : Nat → Nat) (hand : Nat → Nat) (extra : Option Nat)
    (judged : AxisRec → Bool) (more : (Nat → Nat) → List PathTask) : List PathTask :=
  let ofAxis (r : AxisRec) : List PathTask :=
    if r.kind = 3 then []
    else
      let c := choice r.segment
      let ts := d.turnList r.segment c
      match (d.contract r.segment c).bind fun k => windowOpen ts (k.tOpen * 10) r.node, ts.find? (·.pos = r.node) with
      | some o, some t =>
        let dataEnd := o + t.window - 320 + 400
        [⟨max dataEnd (b.ssiWait r extra * 10), r.segment * 64 + t.turn, hand r.axis, d.lawTime r, judged r⟩]
      | _, _ => []
  d.axes.flatMap ofAxis ++ more choice

/-- The computation for one choice of contracts. -/
def pathOk (d : Deck) (ts : List PathTask) : Bool :=
  pathRun (rateNs d.rate * 10) (sortKey (fun t => t.wake * 512 + t.rank) ts) []

/-- R33 for a deck: each contract of a segment with the operating contracts of the others (DEDUCED, log entry 78). -/
def Block.criticalOk (b : Block) (d : Deck) (hand : Nat → Nat) (extra : Option Nat)
    (more : (Nat → Nat) → List PathTask) : Bool :=
  let op (s : Nat) : Nat := ((d.segRec s).map (·.op)).getD 0
  d.contracts.all fun k =>
    pathOk d (b.pathTasks d (fun s => if s = k.seg then k.num else op s) hand extra (fun _ => true) more)

/-! ### Hands at dealing (R320) -/

/-- The engine of `pool` with the least load, the lowest number on a tie. -/
def leastLoaded (pool : List Nat) (load : List (Nat × Nat)) : Option Nat :=
  pool.foldl (fun best e => match best with
    | none => some e
    | some x => if sget (fun _ => 0) load e < sget (fun _ => 0) load x then some e else some x) none

/-- Assign each axis in ascending order: its HAND where that engine is in the pool, else the least loaded one. -/
def assignHands (d : Deck) (pool : List Nat) : List AxisRec → List (Nat × Nat) → List (Nat × Nat) → List (Nat × Nat)
  | [], _, hands => hands
  | r :: rest, load, hands =>
    if r.kind = 3 then assignHands d pool rest load hands
    else
      let e := if pool.contains r.hand then some r.hand else leastLoaded pool load
      match e with
      | some e =>
        assignHands d pool rest (sput (fun _ => 0) load e (sget (fun _ => 0) load e + d.lawTime r))
          (sput (fun _ => 0) hands r.axis (e + 1))
      | none => assignHands d pool rest load hands

/-- The hand of each axis, one more than the engine number; 0 for none. -/
def Deck.hands (d : Deck) (pool : List Nat) : List (Nat × Nat) := assignHands d pool (sortKey (·.axis) d.axes) [] []

/-! ### The carousel table (R207) -/

/-- The entry of one contract. -/
def Deck.carouselEntry (d : Deck) (s : Nat) (k : ContractRec) : List Byte :=
  bytesBE 1 k.num ++ bytesBE 1 k.kcount ++ bytesBE 1 k.turns ++ [0] ++ bytesBE 4 k.tOpen ++
    (d.turnList s k.num).flatMap fun t => bytesBE 1 t.pos ++ bytesBE 1 t.axes ++ bytesBE 1 t.slots ++ [0]

/-- The contracts of a segment in order. -/
def Deck.segContracts (d : Deck) (s : Nat) : List ContractRec := sortKey (·.num) (d.contracts.filter (·.seg = s))

/-- The table of segment `s`; `far` gives the far-end delays of a position. -/
def Deck.carousel (d : Deck) (s : Nat) (far : Nat → Nat × Nat) : List Byte :=
  let r := (d.segRec s).getD ⟨s, 0, 0, 0, 0⟩
  let cs := d.segContracts s
  let named := (List.range 64).filter fun p => cs.any fun k => (d.turnList s k.num).any (·.pos = p)
  bytesBE 1 d.rate ++ bytesBE 1 r.hold ++ bytesBE 1 r.miss ++ bytesBE 1 cs.length ++ bytesBE 1 r.op ++ [0, 0, 0] ++
    cs.flatMap (d.carouselEntry s) ++
    (if d.isRing s then named.flatMap fun p => bytesBE 4 (far p).1 ++ bytesBE 4 (far p).2 else [])

end Sys2Proof.Machine
end

