-- ==== Sys2Proof/Machine/Windows.lean ====
section
/-!
DEFINITION. The host FIFO windows (17_host_interface.md R519 to R521) and the flows of background results that fill them
(10_task_dispatch.md R330).
-/

namespace Sys2Proof.Machine

/-- Depth of a window: outbound 2,048, inbound 1,024. -/
def fwDepth (w : Nat) : Nat := if w < 8 then 2048 else 1024

/-- A window's level, ABOVE and its source follow its words (Table 17.7, Table 17.10 source 182) (DEDUCED, log entry 94). -/
def Block.showWindow (b : Block) (w : Fin 16) : Block :=
  let n := b.host.fw[w].length
  let above := decide (b.get (HST_FW_THR w.1) ≤ if w.1 < 8 then n else 1024 - n)
  let rose := above && !b.flag (HST_FW_STAT_ABOVE w.1)
  let b := (b.set (HST_FW_LEVEL w.1) n).put (HST_FW_STAT_ABOVE w.1) above
  let b := if rose then b.set ⟨aHST_FW_IRQ, w.1, 1⟩ 1 else b
  if rose ∧ b.flag ⟨aHST_FW_IEN, w.1, 1⟩ then b.irq 182 else b

/-- A word is pushed into a window; a full one drops it and sets OVER. -/
def Block.fwPush (b : Block) (w : Fin 16) (x : Word) : Block :=
  if fwDepth w.1 ≤ b.host.fw[w].length then b.on (HST_FW_STAT_OVER w.1)
  else { b with host.fw := b.host.fw.set w (b.host.fw[w] ++ [x]) }.showWindow w

/-- Dealing empties every window (R521). -/
def Block.fwClear (b : Block) : Block :=
  (List.finRange 16).foldl (fun b w => { b with host.fw := b.host.fw.set w [] }.showWindow w) b

/-! ### Background results (R330) -/

/-- The window a flow fills. -/
def Block.flowWindow (b : Block) (f : Nat) : Option (Fin 16) :=
  match b.dealt with
  | some d => (d.flows.find? (·.flow = f)).bind fun r => if h : r.window < 16 then some ⟨r.window, h⟩ else none
  | none => none

/-- Words a flow buffers. -/
def Flow.buffered (f : Flow) : Nat := f.results.foldl (fun a r => a + r.words.length) f.out.length

/-- The words a closed result is delivered as: its header and its own (R330). -/
def FlowResult.delivered (r : FlowResult) : List Word :=
  BitVec.ofNat 32 (r.seq % 2 ^ 16 + r.desc % 2 ^ 10 * 2 ^ 16 + b2n r.dropped * 2 ^ 31) :: r.words

/-- Words of a flow move into its window while it has room (17_host_interface.md R519). -/
def Block.moveOut (b : Block) (f : Nat) : Block :=
  match b.flowWindow f with
  | some w =>
    let n := fwDepth w.1 - b.host.fw[w].length
    let ws := (b.flow f).out
    (ws.take n).foldl (fun b x => b.fwPush w x) (b.modFlow f fun x => { x with out := ws.drop n })
  | none => b

/-- Closed results at the head of a flow are delivered whole, in order; at most `n` of them. -/
def Block.drainFlow (b : Block) (f : Nat) : Nat → Block
  | 0 => b
  | n + 1 =>
    match (b.flow f).results with
    | r :: rest =>
      if r.closed then
        ((b.modFlow f fun x => { x with results := rest, out := x.out ++ r.delivered }).inc (DIS_F_REL f)).drainFlow f n
      else b
    | [] => b

/-- A flow delivers what it can. -/
def Block.deliverFlow (b : Block) (f : Nat) : Block := (b.drainFlow f (b.flow f).results.length).moveOut f

/-- A word is popped from a window; an empty one answers 0 and sets UNDER; a flow that waits for room moves on. -/
def Block.fwPop (b : Block) (w : Fin 16) : Word × Block :=
  match b.host.fw[w] with
  | [] => (0, b.on (HST_FW_STAT_UNDER w.1))
  | x :: t =>
    let b := { b with host.fw := b.host.fw.set w t }.showWindow w
    (x, (List.range 16).foldl (fun b f => if b.flowWindow f = some w then b.moveOut f else b) b)

/-- At release a background task takes the next sequence number of its flow. -/
def Block.openResult (b : Block) (f d : Nat) : Nat × Block :=
  let n := (b.flow f).next
  (n, b.modFlow f fun x => { x with
    next := (n + 1) % 2 ^ 16, results := x.results ++ [⟨n, d, b.up, [], false, false⟩] })

/-- A task appends a word to its result; a full buffer, or a result already skipped, drops it (R328, R330). -/
def Block.appendResult (b : Block) (f seq : Nat) (w : Word) : Block :=
  let x := b.flow f
  if x.results.any fun r => r.seq = seq && !r.closed then
    if 1024 ≤ x.buffered then
      ((b.inc (DIS_F_DROP f)).on DIS_FLAGS_DROP).modFlow f fun x => { x with
        results := x.results.map fun r => if r.seq = seq then { r with dropped := true } else r }
    else b.modFlow f fun x => { x with
      results := x.results.map fun r => if r.seq = seq then { r with words := r.words ++ [w] } else r }
  else (b.inc (DIS_F_DROP f)).on DIS_FLAGS_DROP

/-- A result closes, and the flow delivers what it can. -/
def Block.closeResult (b : Block) (f seq : Nat) : Block :=
  (b.modFlow f fun x => { x with
    results := x.results.map fun r => if r.seq = seq then { r with closed := true } else r }).deliverFlow f

/-- FLOW_TO in ns; 0 is taken as 1 µs (R321). -/
def Block.flowTo (b : Block) : Nat := max 1 (b.get DIS_CFG_FLOW_TO) * 1000

/-- The result at the head of flow `f` is not closed in time: it is skipped (R330). -/
def Block.skipResult (b : Block) (f : Nat) : Block :=
  match (b.flow f).results with
  | r :: rest =>
    if ¬ r.closed ∧ r.opened + b.flowTo ≤ b.up then
      ((((b.modFlow f fun x => { x with results := rest }).inc (DIS_F_STALE f)).on DIS_FLAGS_FLOW_TO)).deliverFlow f
    else b
  | [] => b

end Sys2Proof.Machine
end

