-- ==== Sys2Proof/Machine/TaskDispatch.lean ====
section
/-!
DEFINITION. Task dispatch (10_task_dispatch.md): descriptors, the placement pool, placement and hands, pre-emption, the
start of a task with the standard law and its hooks (07_axis_loop_law.md R228, 12_loop_engine_instructions.md R398), and
what leaves an engine when it is frozen.
-/

namespace Sys2Proof.Machine

/-! ### Descriptors (Table 10.1) -/

/-- A field of a descriptor word. -/
def Desc.fld (x : Desc) (w : Fin 8) (lo n : Nat) : Nat := bits x.words[w].toNat lo n
/-- KIND. -/
def Desc.kind (x : Desc) : Nat := x.fld 0 0 3
/-- EN. -/
def Desc.enabled (x : Desc) : Bool := x.fld 0 3 1 = 1
/-- PRIO. -/
def Desc.prio (x : Desc) : Nat := x.fld 0 4 2
/-- PIN. -/
def Desc.pin (x : Desc) : Bool := x.fld 0 6 1 = 1
/-- TASK. -/
def Desc.task (x : Desc) : Nat := x.fld 0 16 16
/-- FLOW. -/
def Desc.flowOf (x : Desc) : Nat := x.fld 1 24 4
/-- HAND. -/
def Desc.hand (x : Desc) : Nat := x.fld 2 0 5
/-- RUNMAX. -/
def Desc.runMax (x : Desc) : Nat := x.words[6].toNat
/-- A cyclic descriptor. -/
def Desc.cyclic (x : Desc) : Bool := 1 ≤ x.kind && x.kind ≤ 3

/-- Descriptors in use, in index order. -/
def Block.used (b : Block) : List Nat := (b.descs.filter fun p => p.2.kind ≠ 0 && !p.2.admitting).map (·.1)

/-- The segment of a cyclic descriptor. -/
def Block.descSeg (b : Block) (d : Nat) : Nat :=
  let x := b.desc d
  if x.kind = 1 then ((b.axisRec (x.fld 1 0 8)).map (·.segment)).getD 0 else x.fld 1 8 3

/-- The node position of a descriptor of kind 1 or 2. -/
def Block.descNode (b : Block) (d : Nat) : Nat :=
  let x := b.desc d
  if x.kind = 1 then ((b.axisRec (x.fld 1 0 8)).map (·.node)).getD 0 else x.fld 1 16 6

/-- The hand of engine `e`, in index order. -/
def Block.handList (b : Block) (e : Nat) : List Nat :=
  (b.descs.filter fun p => p.2.cyclic && p.2.hand = e).map (·.1)

/-- DIS_STAT.USED follows the descriptors. -/
def Block.showUsed (b : Block) : Block := b.set DIS_STAT_USED b.used.length

/-! ### Engines as the dispatcher sees them -/

/-- Fabric address of engine `e`'s memories (R52); X bank at +0x10000, Y bank at +0x20000. -/
def engBase (e : Nat) : Nat := 0x40000000 + 0x40000 * e

/-- A word of the X bank of engine `e`. -/
def Block.xWord (b : Block) (e a : Nat) : Word := Memory.readWord b.mem (engBase e + 0x10000 + a)
/-- The X bank of engine `e` with a word written. -/
def Block.setXWord (b : Block) (e a : Nat) (v : Word) : Block :=
  b.memPut (engBase e + 0x10000 + a) v
/-- Words written from X bank byte `a` on. -/
def Block.setXWords (b : Block) (e : Nat) : Nat → List Word → Block
  | _, [] => b
  | a, w :: t => (b.setXWord e a w).setXWords e (a + 4) t

/-- The domain of engine `e` is powered (R319). -/
def Block.engineOn (b : Block) (e : Nat) : Bool := bit (b.get CPR_PD_STAT_ON) (3 + e / 8)

/-- In the placement pool (R319). -/
def Block.inPool (b : Block) (e : Nat) : Bool :=
  b.engineOn e && !b.frozen (e + 2) && !b.flag (LE_CTL e) && !b.flag (LE_STAT_HALTED e)

/-- The pool, lowest number first. -/
def Block.pool (b : Block) : List Nat := (List.range 32).filter b.inPool

/-- A background task runs. -/
def Block.runsBkg (b : Block) (e : Nat) : Bool := (b.eng e).run.any fun r => (b.desc r.inst.desc).kind = 4

/-- The registers that show an engine (Tables 10.6, 11.8, 11.10). -/
def Block.showEngine (b : Block) (e : Nat) : Block :=
  let x := b.eng e
  let c := min 15 x.cq.length
  let q := min 15 x.bq.length
  let b := ((b.set (DIS_LE_Q_CWAIT e) c).peak (DIS_LE_Q_CPEAK e) c).set (DIS_LE_Q_BWAIT e) q
  let b := (b.peak (DIS_LE_Q_BPEAK e) q).set (DIS_LE_Q_HANDSIZE e) (b.handList e).length
  let b := (b.put (DIS_LE_STAT_POOL e) (b.inPool e)).put (DIS_LE_STAT_FROZEN e) (b.frozen (e + 2))
  let b := (b.put (DIS_LE_STAT_HALTED e) (b.flag (LE_STAT_HALTED e))).put (DIS_LE_STAT_OFF e) (!b.engineOn e)
  let b := (b.put (LE_STAT_CYC e) (x.run.isSome && !b.runsBkg e)).put (LE_STAT_BKG e) (b.runsBkg e)
  let b := (b.put (LE_STAT_HELD e) x.held.isSome).put (LE_PC_VALID e) x.run.isSome
  match x.run with
  | some r => (b.set (LE_PC_PC e) x.regs.pc.toNat).set (LE_PC_DESC e) r.inst.desc
  | none => b.wr (aLE_PC e) 0

/-- The resident slots of engine `e` that descriptors other than `d` hold. -/
def Block.slotsHeld (b : Block) (d e : Nat) : List Nat :=
  b.descs.filterMap fun p => if p.1 ≠ d ∧ p.2.kind = 1 ∧ p.2.hand = e then p.2.slot else none

/-- A descriptor takes engine `e` as its hand; an axis takes the lowest resident slot free there, none where 16 are held
(11_loop_engine_model.md Table 11.3) (DESIGN CHOICE, log entry 111). -/
def Block.setHand (b : Block) (d e : Nat) : Block :=
  let old := (b.desc d).hand
  let held := b.slotsHeld d e
  let b := b.modDesc d fun x => { x with
    words := x.words.set 2 (BitVec.ofNat 32 (setBits x.words[2].toNat 0 5 e))
    slot := if x.kind = 1 then (List.range 16).find? fun k => !held.contains k else none }
  ((b.set (DIS_D_HAND_HAND d) e).showEngine old).showEngine e

/-- The bytes of memory at `src` copied to `dst`, word by word. -/
def Block.copyWords (b : Block) (src dst n : Nat) : Block :=
  b.each n fun b k => b.memPut (dst + 4 * k) (Memory.readWord b.mem (src + 4 * k))

/-- The engine that holds a descriptor's axis state writes it back to shared axis memory, X slot and Y slot (01_dealer_and_helpers.md
R23, R322) (DESIGN CHOICE, log entry 111). -/
def Block.writeBack (b : Block) (d : Nat) : Block :=
  let x := b.desc d
  match x.slot with
  | some k =>
    let home := 0x20000000 + Config.slotArea (x.fld 1 0 8)
    (b.copyWords (engBase x.hand + 0x10000 + 0x400 * k) home 256).copyWords (engBase x.hand + 0x20000 + 0x400 * k) (home + 0x400) 256
  | none => b

/-- A descriptor moves to engine `e` with the copy of R322. -/
def Block.rehand (b : Block) (d e : Nat) : Block := (b.writeBack d).setHand d e

/-- A cause of R336: its DIS_FLAGS bit, and source 48 + `e` where it is enabled. -/
def Block.cause (b : Block) (f : Fld) (k e : Nat) : Block :=
  let b := b.on f
  if bit (b.get DIS_IRQ_EN) k then b.irq (48 + e) else b

/-! ### Starting a task -/

/-- The turn number of a node under the contract in force; 0 where it has none. -/
def Block.turnNo (b : Block) (s pos : Nat) : Nat := ((b.turnOf s (b.get (SEG_STAT_CONTRACT s)) pos).map (·.turn)).getD 0

/-- The contract in force at the next boundary (R327, Table 10.4). -/
def Block.nextContract (b : Block) (s : Nat) : Nat :=
  if (b.sg s).switchAt = some (b.roundIn 1) then b.get (SEG_STAT_NEXT s) else b.get (SEG_STAT_CONTRACT s)

/-- The entry block of Table 10.3 (R326). -/
def Block.entryBlock (b : Block) (e : Nat) (n : Inst) : Block :=
  let x := b.desc n.desc
  let i := x.fld 1 0 8
  let s := b.descSeg n.desc
  let w5 := if x.kind = 1 then b.turnNo s (b.descNode n.desc) else if x.kind = 4 then n.seq else 0
  let w6 := if x.kind = 1 then (((b.fetchAt i (b.nextContract s)).getD 0) / 10).toNat else 0
  b.setXWords e 0xFFE0
    [BitVec.ofNat 32 (n.desc + x.kind * 2 ^ 16), x.words[1], BitVec.ofNat 32 n.round, BitVec.ofNat 32 (n.round / 2 ^ 32),
      x.words[7], BitVec.ofNat 32 w5, BitVec.ofNat 32 w6, BitVec.ofNat 32 (b2n n.extrap + 2 * b2n n.cold)]

/-- The entry address of a TASK record. -/
def Block.taskEntry (b : Block) (id : Nat) : Nat :=
  match b.dealt with
  | some d => ((d.tasks.find? (·.id = id)).map (·.entry)).getD 0
  | none => 0

/-- Change the run of engine `e`. -/
def Block.modRun (b : Block) (e : Nat) (f : Run → Run) : Block := b.modEng e fun x => { x with run := x.run.map f }

/-- Call a hook (R398): its frame in X 0xBFC0, the registers, one return address, which stands for the standard law and
is 0 (DESIGN CHOICE, log entry 16). -/
def Block.callHook (b : Block) (e i task : Nat) (st : Stage) (inp : LawIn) (mid : SetRec) : Block :=
  let p := b.asTask i
  let c := p.cmd i
  let xc := wrapN 64 (p.shownPos i c.x)
  let x := wrapN 64 inp.x
  let th := p.get ANG_ROUND
  let w (n : Nat) : Word := BitVec.ofNat 32 n
  let wi (n : Int) : Word := BitVec.ofNat 32 (wrapN 32 n)
  let r := if st = .hook2 then mid else ⟨0, 0, 0, 0, 0, 0⟩
  let b := b.setXWords e 0xBFC0
    [w x, w (x / 2 ^ 32), wi inp.v, w (b2n inp.extrap + 2 * b2n inp.uncert + 4 * b2n inp.cold), w xc, w (xc / 2 ^ 32),
      wi (satI 32 (sarRound c.v 32)), wi (satI 32 (sarRound c.a 32)), w th, w (th / 2 ^ 32), wi r.trq, wi r.vel,
      w r.aux, 0, 0, 0]
  let b := b.modEng e fun y => { y with
    regs := { Reset.eregs with
      g := Reset.eregs.g.set 0 (w i), p := Reset.eregs.p.set 3 0xBFC0,
      fa := (Reset.eregs.fa.set 0 (Config.hookArea i)).set 1 (w (0x100C0100 + 0x400 * i)), rets := [0],
      pc := BitVec.ofNat 16 (b.taskEntry task), extrap := y.regs.extrap, cold := y.regs.cold } }
  b.modRun e fun y => { y with stage := st, inputs := inp, mid := mid }

/-- The law after H2: OUT, and the record is ready (R399). -/
def Block.afterHook2 (b : Block) (e i : Nat) (inp : LawIn) (r : SetRec) : Block :=
  (b.lawOutput i inp r).modRun e fun y => { y with stage := .law }

/-- The law after FI, CI and H1: its stages up to OUT, with H2 where the graph has it (Table 7.2). -/
def Block.afterHook1 (b : Block) (e i : Nat) (inp : LawIn) : Block :=
  let g := (b.graphOf i).getD ⟨0, 0, 0, 0, 0⟩
  let (r, b) := b.lawMiddle i inp
  if g.h2 ≠ 0 ∧ g.law ≠ 1 then b.callHook e i g.h2 .hook2 inp r else b.afterHook2 e i inp r

/-- The law of axis `i` begins: FI, CI, then H1 where the graph has it (Table 7.2). -/
def Block.lawStart (b : Block) (e i : Nat) (n : Inst) : Block :=
  let g := (b.graphOf i).getD ⟨0, 0, 0, 0, 0⟩
  let b := b.modAx i fun x => { x with engine := e, taskRound := n.round }
  let inp := (b.asTask i).lawInputs i n.extrap n.cold
  let b := ((b.takeInputs i inp).joinAxis i (!n.extrap)).enableStep i g.blocks (!n.extrap)
  if g.h1 ≠ 0 ∧ g.law ≠ 2 then b.callHook e i g.h1 .hook1 inp ⟨0, 0, 0, 0, 0, 0⟩ else b.afterHook1 e i inp

/-- A task starts on an idle engine: entry block, registers of R365, statistics, and for an axis its law. -/
def Block.startTask (b : Block) (e : Nat) (n : Inst) : Block :=
  let x := b.desc n.desc
  let b := ((b.entryBlock e n).modDesc n.desc fun y => { y with out := [] }).modEng e fun y => { y with
    regs := { Reset.eregs with
      pc := if x.kind = 1 then 0 else BitVec.ofNat 16 (b.taskEntry x.task), extrap := n.extrap, cold := n.cold,
      bkg := x.kind = 4 }
    run := some ⟨n, if x.kind = 1 then .law else .code, b.up, 0, ⟨0, 0, false, false, false⟩, ⟨0, 0, 0, 0, 0, 0⟩⟩
    loads := y.loads.filter (·.held) }
  let b := (b.peak (DIS_D_WAITMAX n.desc) (b.up - n.woken)).set (DIS_D_HAND_ENG n.desc) e
  let b := b.set (DIS_D_LAST n.desc) (b.round % 2 ^ 32)
  let b := if x.kind = 1 then b.lawStart e (x.fld 1 0 8) n else b
  b.showEngine e

/-- The background context returns (R369); it waits for fabric loads of the held task (R368). -/
def Block.restore (b : Block) (e : Nat) : Block :=
  match (b.eng e).held with
  | some (r, n, ws) =>
    if (b.eng e).loads.any (·.held) then b
    else
      ((b.setXWords e 0xFFE0 ws).modEng e fun x => { x with
        regs := r, run := some { n with since := b.up }, held := none }).showEngine e
  | none => b

/-- An idle engine takes its next task: cyclic queue, then the held background task, then the background queue (R324). -/
def Block.nextTask (b : Block) (e : Nat) : Block :=
  let x := b.eng e
  if x.run.isSome ∨ b.frozen (e + 2) ∨ b.flag (LE_STAT_HALTED e) ∨ ¬ b.engineOn e then b.showEngine e
  else match x.cq with
    | n :: t => (b.modEng e fun x => { x with cq := t }).startTask e n
    | [] =>
      if x.held.isSome then (b.restore e).showEngine e
      else match x.bq with
        | n :: t => (b.modEng e fun x => { x with bq := t }).startTask e n
        | [] => b.showEngine e

/-- Time on engine `e` since `t` counts as busy in this round (Table 10.6). -/
def Block.busy (b : Block) (e t : Nat) (bkg : Bool) : Block :=
  let dt := b.up - max t b.roundAt
  b.modEng e fun x => if bkg then { x with bkg := x.bkg + dt } else { x with cyc := x.cyc + dt }

/-- The running background task is pre-empted: its context and entry block are saved (R367, Table 11.6). -/
def Block.preempt (b : Block) (e : Nat) : Block :=
  match (b.eng e).run with
  | some r =>
    let ws := (List.range 8).map fun k => b.xWord e (0xFFE0 + 4 * k)
    let b := b.busy e r.since true
    let b := b.modEng e fun x => { x with
      held := some (x.regs, { r with busy := r.busy + (b.up - r.since) }, ws), run := none,
      loads := x.loads.map fun l => { l with held := true } }
    b.inc (DIS_LE_PREEMPT e)
  | none => b

/-- A cyclic task enters the queue of engine `e`, which starts it when it may. -/
def Block.pushCyclic (b : Block) (e : Nat) (n : Inst) : Block :=
  let b := b.modEng e fun x => { x with cq := x.cq ++ [n] }
  let b := if b.runsBkg e then b.preempt e else b
  (b.showEngine e).nextTask e

/-! ### Placement (R321 to R323, R63) -/

/-- The engine with the fewest waiting cyclic tasks; ties to the smallest cyclic load of the last round, then the lowest
number (R321). -/
def Block.bestEngine (b : Block) (es : List Nat) : Option Nat :=
  es.foldl (fun best e => match best with
    | none => some e
    | some x =>
      let we := (b.eng e).cq.length
      let wx := (b.eng x).cq.length
      if we < wx ∨ (we = wx ∧ b.get (DIS_LE_CYC e) < b.get (DIS_LE_CYC x)) then some e else some x) none

/-- QMAX in force (R321). -/
def Block.qmax (b : Block) : Nat := max 1 (b.get DIS_CFG_QMAX)
/-- BQMAX in force (R321). -/
def Block.bqmax (b : Block) : Nat := max 1 (b.get DIS_CFG_BQMAX)

/-- The loop state of an axis is lost: preset from the latest feedback and the last released setpoint (R64, R373); the
repetitive-controller table is cleared where `rc` says so (DEDUCED, log entry 67). -/
def Block.loseState (b : Block) (i : Nat) (rc : Bool) : Block :=
  let b := if (b.ax i).en = .on then b.modAx i fun x => { x with preset := some x.sent.trq } else b
  if rc then b.rcClear i else b

/-- The axis of a descriptor of kind 1 loses its state. -/
def Block.loseDesc (b : Block) (d : Nat) (rc : Bool) : Block :=
  let x := b.desc d
  if x.kind = 1 then b.loseState (x.fld 1 0 8) rc else b

/-- Place an instance of a cyclic task (R321): on its hand while fewer than QMAX tasks wait there, else, unless PIN, on a
new hand with COLD set (R322). A task whose hand is frozen runs elsewhere, its state lost (R63). With no engine to run
it the wake is lost (DEDUCED, log entry 17) (DEDUCED, log entry 77). -/
def Block.place (b : Block) (n : Inst) : Block :=
  let x := b.desc n.desc
  let h := x.hand
  let n := { n with cold := n.cold || x.cold }
  let b := b.modDesc n.desc fun y => { y with cold := false }
  let others := b.pool.filter (· ≠ h)
  if b.inPool h ∧ ((b.eng h).cq.length < b.qmax ∨ x.pin ∨ others.isEmpty) then b.pushCyclic h n
  else match b.bestEngine others with
    | none => b
    | some e =>
      if b.frozen (h + 2) then (b.loseDesc n.desc true).pushCyclic e { n with cold := true }
      else if x.pin then b
      else
        let b := ((b.rehand n.desc e).inc (DIS_LE_OVR e)).cause DIS_FLAGS_OVERRIDE 3 e
        b.pushCyclic e { n with cold := true }

/-- The previous instance of a descriptor is queued, running or held. -/
def Block.live (b : Block) (d : Nat) : Bool :=
  b.engines.any fun p =>
    p.2.cq.any (·.desc = d) || p.2.bq.any (·.desc = d) || p.2.run.any (·.inst.desc = d) || p.2.held.any (·.2.1.inst.desc = d)

/-- The rounds of the unfinished instances of the task of axis `i`. -/
def Block.liveRounds (b : Block) (i : Nat) : List Nat :=
  let mine (n : Inst) : Bool := (b.desc n.desc).kind = 1 && (b.desc n.desc).fld 1 0 8 = i
  let insts := b.engines.flatMap (fun p => p.2.cq ++ (p.2.run.map (·.inst)).toList) ++ b.descs.filterMap (·.2.deferred)
  (insts.filter mine).map (·.round)

/-- A boundary comes: unfinished tasks go on with the values of their round (07_axis_loop_law.md R229). -/
def Block.keepViews (b : Block) : Block := b.axisList.foldl (fun b r => b.keepView r.axis (b.liveRounds r.axis)) b

/-- A cyclic descriptor is woken (R316). -/
def Block.wakeDesc (b : Block) (d : Nat) (extrap : Bool) : Block :=
  let n : Inst := ⟨d, extrap, false, b.round, b.up, 0⟩
  let b := b.modDesc d fun x => { x with armed := false }
  if b.live d then
    let b := if (b.desc d).deferred.isSome then b.inc (DIS_D_OVR d) else b
    (b.on DIS_FLAGS_DEFER).modDesc d fun x => { x with deferred := some n }
  else b.place n

/-- A release of background descriptor `d` is skipped (R318, R325). -/
def Block.skipRelease (b : Block) (d : Nat) : Block :=
  (b.inc (DIS_D_HAND_SKIPPED d)).cause DIS_FLAGS_SKIP 4 (b.get (DIS_D_HAND_ENG d))

/-- Insert into a background queue in order of PRIO, then of release (R324). -/
def Block.insertBkg (b : Block) (n : Inst) : List Inst → List Inst
  | [] => [n]
  | m :: t => if (b.desc m.desc).prio < (b.desc n.desc).prio then n :: m :: t else m :: b.insertBkg n t

/-- The engine with the fewest waiting background tasks, the lowest number on a tie (R325). -/
def Block.bestBkg (b : Block) (es : List Nat) : Option Nat :=
  es.foldl (fun best e => match best with
    | none => some e
    | some x => if (b.eng e).bq.length < (b.eng x).bq.length then some e else some x) none

/-- Release background descriptor `d` (R317, R318, R325, R330). -/
def Block.release (b : Block) (d : Nat) : Block :=
  let x := b.desc d
  let mask := x.words[3].toNat
  let ok := b.pool.filter fun e => mask = 0 || bit mask e
  if b.live d then b.skipRelease d
  else
    let e := if ok.contains x.hand ∧ (b.eng x.hand).bq.length < b.bqmax then some x.hand else b.bestBkg ok
    match e with
    | none => b.skipRelease d
    | some e =>
      let (q, b) := if x.flowOf = 0 then (0, b) else b.openResult x.flowOf d
      let n : Inst := ⟨d, false, false, b.round, b.up, q⟩
      let b := b.modEng e fun y => { y with bq := b.insertBkg n y.bq }
      (b.showEngine e).nextTask e

/-- A hand moves, one descriptor at a time in index order, under the rule of R321 (R323); from a frozen engine the state
of its axes is lost (R64). -/
def Block.moveHand (b : Block) (e : Nat) (lost : Bool) : Block :=
  (b.handList e).foldl (fun b d => match b.bestEngine (b.pool.filter (· ≠ e)) with
    | none => b
    | some h =>
      let b := (if lost then b.setHand d h else b.rehand d h).modDesc d fun x => { x with cold := true }
      if lost then b.loseDesc d true else b) b

/-! ### Freeze and loss of an engine (R62, R331) -/

/-- Engine `e` loses everything at once: the running task is abandoned, background tasks are skipped, outstanding loads complete without
it (R58); answers the cyclic tasks that waited. -/
def Block.dropEngine (b : Block) (e : Nat) : List Inst × Block :=
  let x := b.eng e
  let bkg := x.bq ++ (x.held.map (·.2.1.inst)).toList ++
    (x.run.toList.filterMap fun r => if (b.desc r.inst.desc).kind = 4 then some r.inst else none)
  let b := match x.run with
    | some r => b.busy e r.since (b.runsBkg e)
    | none => b
  let b := b.modEng e fun y => { y with
    run := none, held := none, cq := [], bq := [], loads := [], dropped := y.dropped ++ y.loads, regs := Reset.eregs, leftAt := some b.up }
  (x.cq, (bkg.foldl (fun b n => b.skipRelease n.desc) b).showEngine e)

/-- Engine `e` is frozen: waiting cyclic tasks are placed again at once, started cold (R63, R331). Its bit is set already. -/
def Block.freezeEngine (b : Block) (e : Nat) : Block :=
  let run := (b.eng e).run
  let (waiting, b) := (b.on (LE_STAT_FROZEN e)).dropEngine e
  let b := match run with
    | some r => if (b.desc r.inst.desc).cyclic then b.modDesc r.inst.desc fun x => { x with cold := true } else b
    | none => b
  let again := (run.toList.filterMap fun r => (b.desc r.inst.desc).deferred).filter fun n => (b.desc n.desc).cyclic
  let b := again.foldl (fun b n => b.modDesc n.desc fun x => { x with deferred := none }) b
  (waiting ++ again).foldl (fun b n => b.place n) b

end Sys2Proof.Machine
end

