-- ==== Sys2Proof/Machine/Capture.lean ====
section
/-!
DEFINITION. Trigger and capture (13_capture.md): per-round values, records and reductions, arms, triggers, multi-unit
arm and fire, streaming, readout. Times in 2^-32 ns unless named.
-/

namespace Sys2Proof.Machine

/-! ### Access -/

/-- Capture channel `c`. -/
def Block.cc (b : Block) (c : Nat) : CapChan := sget (fun _ => Reset.capChan) b.cap.chans c
/-- The block with a capture channel changed. -/
def Block.modCc (b : Block) (c : Nat) (f : CapChan → CapChan) : Block :=
  { b with cap.chans := sput (fun _ => Reset.capChan) b.cap.chans c (f (b.cc c)) }
/-- Capture group `g`. -/
def Block.cg (b : Block) (g : Nat) : CapGroup := sget (fun _ => Reset.capGroup) b.cap.groups g
/-- The block with a capture group changed. -/
def Block.modCg (b : Block) (g : Nat) (f : CapGroup → CapGroup) : Block :=
  { b with cap.groups := sput (fun _ => Reset.capGroup) b.cap.groups g (f (b.cg g)) }

/-- The enabled channels of a group. -/
def Block.capMembers (b : Block) (g : Nat) : List Nat :=
  (List.range 64).filter fun c => b.flag (CAP_C_CFG_EN c) && b.get (CAP_C_CFG_GROUP c) = g

/-- A channel is 64 bits wide (Table 13.1). -/
def Block.capWide (b : Block) (c : Nat) : Bool :=
  let sel := b.get (CAP_C_CFG_SEL c)
  match b.get (CAP_C_CFG_KIND c) with
  | 1 => sel = 0 || sel = 2 || sel = 4
  | 2 => sel = 0
  | 3 => true
  | 5 => b.flag (CAP_C_CFG_W64 c)
  | _ => false

/-- W64 shows the width of a channel whose kind sets it; only for kind 5 is it written (Table 13.6). -/
def Block.showWide (b : Block) (c : Nat) : Block := b.put (CAP_C_CFG_W64 c) (b.capWide c)

/-- DEC_LOG2 of a channel, at most 16 (R404, R620). -/
def Block.capDec (b : Block) (c : Nat) : Nat := min 16 (b.get (CAP_C_CFG_DEC_LOG2 c))

/-- Bytes of a record (R404). -/
def Block.capBytes (b : Block) (c : Nat) : Nat := if b.capWide c then 36 else 20

/-- Set a group's state and its ARMED bit. -/
def Block.capState (b : Block) (g st : Nat) : Block :=
  (b.set (CAP_G_STAT_STATE g) st).put ⟨aCAP_STAT, g, 1⟩ (st = 1 || st = 2 || st = 5)

/-! ### Records (Table 13.2) -/

/-- Fabric address of record slot `k` of a channel. -/
def Block.capSlot (b : Block) (c k : Nat) : Nat := 0x30000000 + b.get (CAP_C_BASE c) + k * b.capBytes c

/-- The words of a value of a channel, low word first. -/
def Block.capValueWords (b : Block) (c : Nat) (v : Int) : List Word :=
  if b.capWide c then
    let x := wrapN 64 v
    [BitVec.ofNat 32 x, BitVec.ofNat 32 (x / 2 ^ 32)]
  else [BitVec.ofNat 32 (wrapN 32 v)]

/-- Words written to memory from address `a` on. -/
def Block.memWords (b : Block) : Nat → List Word → Block
  | _, [] => b
  | a, w :: t => (b.memPut a w).memWords (a + 4) t

/-- Write a record into slot `k`. -/
def Block.capWrite (b : Block) (c k round dlog type : Nat) (unc : Bool) (vs : List Int) : Block :=
  b.memWords (b.capSlot c k)
    (BitVec.ofNat 32 (round % 2 ^ 16 + dlog * 2 ^ 16 + type * 2 ^ 21 + b2n unc * 2 ^ 24) ::
      vs.flatMap (b.capValueWords c))

/-- The buffer length of a channel, at least 1. -/
def Block.capLen (b : Block) (c : Nat) : Nat := max 1 (b.get (CAP_C_LEN c))

/-- Streaming: records unread (CAP_C_FILL). -/
def Block.capFill (b : Block) (c : Nat) : Nat := (b.cc c).written - (b.cc c).freed

/-- A record is stored after the `written` ones. -/
def Block.capPut (b : Block) (c round dlog type : Nat) (unc : Bool) (vs : List Int) : Block :=
  let b := b.capWrite c ((b.cc c).written % b.capLen c) round dlog type unc vs
  b.modCc c fun x => { x with written := x.written + 1 }

/-- The log2 of the decimation of the record being gathered. -/
def Block.capDlog (b : Block) (c : Nat) : Nat :=
  let x := b.cc c
  let post := x.trig.any fun t => t < x.written
  b.capDec c +
    (if (b.cg (b.get (CAP_C_CFG_GROUP c))).streams ∨ post then x.f else 0)

/-- The four values of a gathered record (R404). -/
def Block.capReduced (b : Block) (c : Nat) : List Int :=
  let x := b.cc c
  [x.sample, x.mn, x.mx, if b.get (CAP_C_CFG_KIND c) = 4 then x.sum else sarRound x.sum (b.capDlog c)]

/-- The channel's rate is halved once more when its fill passes the next threshold (R418). -/
def Block.capDouble (b : Block) (c g : Nat) : Block :=
  let x := b.cc c
  let dec := b.capDec c
  if x.want < 4 ∧ dec + x.want < 16 ∧ (4 + x.want) * (b.capLen c - 1) ≤ 8 * b.capFill c then
    let b := b.modCc c fun x => { x with want := x.want + 1 }
    let b := (b.on (CAP_C_STAT_RATE_REDUCED c)).on CAP_STAT_RATE_REDUCED
    b.peak (CAP_G_STAT_DOUBLINGS g) (x.want + 1)
  else b

/-- Streaming: store a gathered record, or stop on a full buffer (R417 to R419). -/
def Block.capStream (b : Block) (c g round : Nat) : Block :=
  let x := b.cc c
  if b.capLen c - 1 ≤ b.capFill c then
    let b := b.capWrite c (x.written % b.capLen c) round (b.capDlog c) 3 false [0, 0, 0, 0]
    let b := b.modCc c fun x => { x with stopped := true }
    let b := ((b.on (CAP_C_STAT_STOPPED c)).on CAP_STAT_STREAM_OVF).irq (120 + g)
    if (b.capMembers g).all fun c => (b.cc c).stopped then (b.capState g 6).modCg g fun y => { y with streams := false }
    else b.set (CAP_G_STAT_STATE g) 6
  else
    let b := (b.capPut c round (b.capDlog c) 0 x.unc (b.capReduced c)).capDouble c g
    let b := b.set (CAP_C_FILL c) (b.capFill c)
    if b.capLen c - 1 ≤ 2 * b.capFill c ∧ ¬ (b.cc c).halfSeen then
      (b.irq (120 + g)).modCc c fun y => { y with halfSeen := true }
    else b

/-- A rate mark before the first record at a new rate (R418). -/
def Block.capMark (b : Block) (c g round : Nat) : Block :=
  let x := b.cc c
  let dec := b.capDec c
  if x.f < x.want ∧ round % 2 ^ (dec + x.want) = 0 then
    let b := (b.modCc c fun x => { x with f := x.want }).set (CAP_C_STAT_F_LOG2 c) x.want
    if b.capLen c - 1 ≤ b.capFill c then b
    else ((b.capPut c round (dec + x.want) 2 false [0, 0, 0, 0]).capDouble c g).irq (120 + g)
  else b

/-- A gathered record ends. -/
def Block.capEnd (b : Block) (c g round : Nat) : Block :=
  let x := b.cc c
  let d := b.capDlog c
  let b := if (b.cg g).streams then b.capStream c g round
    else
      let isTrig := x.trig = some x.written
      let b := b.capPut c round d (if isTrig then 1 else 0) x.unc (b.capReduced c)
      match x.trig with
      | some t => b.set (CAP_C_POST c) (x.written - t)
      | none => b
  b.modCc c fun x => { x with first := none, n := 0 }

/-- Whether channel `c` still gathers records. -/
def Block.capGathers (b : Block) (c : Nat) : Bool :=
  let x := b.cc c
  !x.stopped && !(x.trig.any fun t => t + x.goal < x.written)

/-- The value of round `k` joins the record being gathered (R404, R409). -/
def Block.capGather (b : Block) (c g k : Nat) (v : Int) (unc : Bool) : Block :=
  if ¬ b.capGathers c then b
  else
    let b := if (b.cc c).first.isNone ∧ (b.cg g).streams then b.capMark c g k else b
    let x := b.cc c
    let d := b.capDlog c
    let free := x.trig.any fun t => t < x.written
    let w4 := b.get (CAP_C_CFG_KIND c) = 4
    match x.first with
    | none =>
      if free ∨ k % 2 ^ d = 0 then
        let b := b.modCc c fun x => { x with
          first := some k, n := 1, sample := v, mn := v, mx := v, sum := v, unc := unc }
        if d = 0 then b.capEnd c g k else b
      else b
    | some r =>
      let b := b.modCc c fun x => { x with
        n := x.n + 1
        mn := if w4 then ((x.mn.toNat &&& v.toNat : Nat) : Int) else min x.mn v
        mx := if w4 then ((x.mx.toNat ||| v.toNat : Nat) : Int) else max x.mx v
        sum := if w4 then v else x.sum + v
        unc := x.unc || unc }
      if (b.cc c).n = 2 ^ d then b.capEnd c g r else b

/-! ### Triggers (R411 to R413, R416) -/

/-- A round in 2^-32 ns. -/
def Block.roundT (b : Block) : Int := (b.roundNs * 2 ^ 32 : Nat)

/-- The plant time of the last boundary. -/
def Block.lastT (b : Block) : Int := b.cap.times[0]

/-- The round in force, counted on from the round in which group `g` was armed, so that it does not wrap (R4). -/
def Block.capNow (b : Block) (g : Nat) : Nat := (b.cg g).since + b.roundsSince (b.cg g).since

/-- The first round whose boundary lies at or after time `t`, counted as `capNow` counts. -/
def Block.roundAtOrAfter (b : Block) (g : Nat) (t : Int) : Int :=
  let d := t - b.lastT
  (b.capNow g : Int) + (if d % b.roundT = 0 then d / b.roundT else d / b.roundT + 1)

/-- The trigger record of a channel is fixed: its number, index and fraction, the pre records kept; records stored past
it are gathered again where the post rate differs (R409, R413). A trigger before the first record leaves the part before it short, whatever
CAP_G_PRE is (Table 13.4). -/
def Block.capTrigChan (b : Block) (g c : Nat) (t : Int) : Block :=
  let x := b.cc c
  let d := b.capDec c
  let r := b.roundAtOrAfter g t - x.start
  let n : Nat := if r ≤ 0 then 0 else ((r + 2 ^ d - 1) / 2 ^ d).toNat
  let pre := (b.get (CAP_G_PRE g) + 2 ^ d - 1) / 2 ^ d
  let tb := b.lastT + ((x.start + n * 2 ^ d : Nat) - (b.capNow g : Int)) * b.roundT
  let ta := tb - 2 ^ d * b.roundT
  let b := (b.set (CAP_C_TRIDX c) (n % b.capLen c)).set (CAP_C_PRE c) (min n pre)
  let b := b.set (CAP_C_FRAC c) (wrapN 16 ((t - ta) * 2 ^ 16 / (2 ^ d * b.roundT)))
  let before := t < b.lastT + ((x.start : Int) - b.capNow g) * b.roundT
  let b := if n < pre ∨ before then b.on (CAP_G_STAT_PRE_SHORT g) else b
  let b := b.modCc c fun x => { x with trig := some n }
  if n < x.written then
    let a := b.capSlot c (n % b.capLen c)
    let w := setBits (Memory.readWord b.mem a).toNat 21 3 1
    let b := b.memPut a (BitVec.ofNat 32 w)
    if x.f = 0 then b.set (CAP_C_POST c) (x.written - n - 1)
    else
      let from' := x.start + (n + 1) * 2 ^ d
      let again := (b.cc c).recent.filter fun p => from' ≤ p.1
      let b := b.modCc c fun x => { x with written := n + 1, first := none, n := 0 }
      again.foldl (fun b p => b.capGather c g p.1 p.2.1 p.2.2) b
  else b

/-- A group completes when every channel has stored its post records (R409). -/
def Block.capComplete (b : Block) (g : Nat) : Block :=
  if b.get (CAP_G_STAT_STATE g) = 2 ∧
      (b.capMembers g).all fun c => (b.cc c).trig.any fun t => t + (b.cc c).goal < (b.cc c).written then
    (b.capState g 3).irq (112 + g)
  else b

/-- A trigger is latched in an armed group (R411, R413, R416): `own` for a trigger it detected itself, which fires the
other units. -/
def Block.capTrigger (b : Block) (g : Nat) (t : Int) (angle : Nat) (own : Bool) : Block :=
  if b.get (CAP_G_STAT_STATE g) ≠ 1 then b
  else
    let tn := wrapN 96 t
    let b := (b.set (CAP_G_TTIME g) (tn / 2 ^ 32)).set (CAP_G_TTIME_F g) (tn % 2 ^ 32)
    let b := (b.set (CAP_G_TANG g) angle).modCg g fun x => { x with trig := some tn }
    let b := (b.capState g 2).irq (112 + g)
    let b := (b.capMembers g).foldl (fun b c => b.capTrigChan g c t) b
    let mu := b.get (CAP_G_CFG_MU g)
    let due := (b.up : Int) + (t - b.time) / 2 ^ 32 + 8 * b.get CAP_FIRE_DLY
    let b := if own ∧ bit mu 0 then b.modCg g fun x => { x with fireAt := some due.toNat } else b
    let b := if own ∧ bit mu 1 then b.ptnSend 4 (captureWords 3 g tn) else b
    b.capComplete g

/-- The angle at an earlier instant: Θ − ω̂ × elapsed (Table 13.3, Fire). -/
def Block.angleBack (b : Block) (dt : Int) : Nat :=
  wrapN 96 ((b.ang.th : Int) - (b.ang.w * dt) / 2 ^ 32) / 2 ^ 32

/-- A fire received with trigger time `t` (R416). -/
def Block.capFire (b : Block) (g : Nat) (t : Int) : Block := b.capTrigger g t (b.angleBack (b.time - t)) false

/-- The threshold and hysteresis of a group in its channel's format (R426) (DEDUCED, log entry 137). -/
def Block.capThr (b : Block) (g c : Nat) : Int × Int :=
  if b.capWide c then (b.geti (CAP_G_THR g), b.geti (CAP_G_HYST g))
  else (sgn 32 (b.get (CAP_G_THR g)), sgn 32 (b.get (CAP_G_HYST g)))

/-- The level trigger on the value of round `k` (R412); `back` is 1 where that value is taken at the next boundary. -/
def Block.capLevelTrig (b : Block) (g c k : Nat) (v : Int) (back : Bool) : Block :=
  if b.get (CAP_G_STAT_STATE g) ≠ 1 ∨ b.get (CAP_G_CFG_TKIND g) ≠ 1 ∨ b.get (CAP_G_CFG_TCH g) ≠ c ∨
      k ≤ (b.cg g).since then b
  else
    let x := b.cc c
    let (thr, hyst) := b.capThr g c
    let e := b.get (CAP_G_CFG_EDGE g)
    match x.prev with
    | none => b
    | some p =>
      let up := decide (p < thr) && decide (thr ≤ v) && x.low && bit e 0
      let down := decide (thr < p) && decide (v ≤ thr) && x.high && bit e 1
      if up ∨ down then
        let phi := (thr - p) * 2 ^ 16 / (v - p)
        let i0 : Nat := if back then b.cap.times[2] else b.cap.times[1]
        let a0 : Nat := if back then b.cap.angles[2] else b.cap.angles[1]
        let a1 : Nat := if back then b.cap.angles[1] else b.cap.angles[0]
        let th := wrapN 64 ((a0 : Int) + sgn 64 (a1 + 2 ^ 64 - a0) * phi / 2 ^ 16)
        b.capTrigger g (i0 + phi * b.roundT / 2 ^ 16) th true
      else b

/-- The value of round `k` reaches a channel: trigger, record, history. -/
def Block.capFeed (b : Block) (c k : Nat) (v : Int) (unc back : Bool) : Block :=
  let g := b.get (CAP_C_CFG_GROUP c)
  let st := b.get (CAP_G_STAT_STATE g)
  let run := st = 1 || st = 2 || (b.cg g).streams
  if ¬ run ∨ k < (b.cg g).since then b
  else
    let b := b.modCc c fun x => { x with recent := (k, v, unc) :: x.recent.take 63 }
    let b := b.capGather c g k v unc
    let b := b.capLevelTrig g c k v back
    let (thr, hyst) := b.capThr g c
    let seen := decide ((b.cg g).since < k)
    let b := b.modCc c fun x => { x with
      prev := some v, low := x.low || (seen && decide (v ≤ thr - hyst)),
      high := x.high || (seen && decide (thr + hyst ≤ v)) }
    b.capComplete g

/-! ### Per-round values (Table 13.1) -/

/-- Uncertain feedback of an axis (R401). -/
def Block.feedbackUncert (b : Block) (i : Nat) : Bool :=
  (b.axisRec i).any fun r => r.kind ≠ 3 && r.feedback ≠ 0xFF &&
    (if 0x10 ≤ r.feedback then b.flag (FB_STAT_UNCERT (r.feedback - 0x10)) else b.flag (FB_N_STAT_UNCERT i))

/-- The value of a hardware-tapped channel and its mark; kind 1 is read from the block before the boundary. -/
def Block.capValue (b before : Block) (c : Nat) : Option (Int × Bool) :=
  let i := b.get (CAP_C_CFG_INDEX c)
  let sel := b.get (CAP_C_CFG_SEL c)
  match b.get (CAP_C_CFG_KIND c) with
  | 1 =>
    let v : Int := match sel with
      | 0 => before.geti (AX_ACTPOS i)
      | 1 => before.geti (AX_ACTVEL i)
      | 2 => before.geti (AX_CMDPOS i)
      | 3 => before.geti (AX_CMDVEL i)
      | 4 => before.geti (AX_EPOS i)
      | 5 => before.geti (AX_VREF i)
      | 6 => before.geti (AX_UOUT i)
      | 7 => before.geti (AX_ACTTRQ i)
      | 8 => before.geti (AX_INTEG i)
      | 9 => before.geti (AX_URC i)
      | _ => 0
    let slot := (before.ax i).nxt.st
    let unc := before.flag (AX_STAT_EXTRAP i) || before.feedbackUncert i || slot = .waiting || slot = .stale
    some (v, unc)
  | 2 => some (if sel = 0 then b.geti (FB_POS i) else b.geti (FB_VEL i), b.chUnsure i)
  | 3 => some (if sel = 0 then sgn 64 (b.get ANG_ROUND) else b.ang.w, false)
  | 4 => some ((if sel = 0 then b.field.accepted else b.get FLD_DOUT : Nat), false)
  | _ => none

/-! ### Arm and disarm (R407, R408, R415) -/

/-- The smallest f with ceil(post / (D × 2^f)) ≤ avail and D × 2^f ≤ 65,536 (R408). -/
def capReduce (post dec avail : Nat) : Nat → Option Nat
  | 0 => none
  | n + 1 =>
    let f := 16 - dec - n
    if (post + 2 ^ (dec + f) - 1) / 2 ^ (dec + f) ≤ avail then some f else capReduce post dec avail n

/-- The bank bits a buffer reaches; bit 4 for bytes past the 32 MiB. -/
def Block.capBanks (b : Block) (c : Nat) : Nat :=
  let lo := b.get (CAP_C_BASE c)
  let hi := lo + b.get (CAP_C_LEN c) * b.capBytes c
  (List.range 5).foldl (fun a k =>
    if lo < (k + 1) * 2 ^ 23 ∧ k * 2 ^ 23 < hi ∨ (k = 4 ∧ 2 ^ 25 < hi) then a + 2 ^ k else a) 0

/-- Two enabled channels share bytes of capture memory. -/
def Block.capOverlap (b : Block) (c : Nat) : Bool :=
  let lo (c : Nat) : Nat := b.get (CAP_C_BASE c)
  let hi (c : Nat) : Nat := lo c + b.get (CAP_C_LEN c) * b.capBytes c
  (List.range 64).any fun k => k ≠ c && b.flag (CAP_C_CFG_EN k) && decide (lo c < hi k) && decide (lo k < hi c)

/-- The reason an arm is refused; 0 for none (R407, in the order of the table but for 7) (DEDUCED, log entry 82). -/
def Block.capReason (b : Block) (g : Nat) : Nat :=
  let ms := b.capMembers g
  let single := !b.flag (CAP_G_CFG_MODE g)
  let dec (c : Nat) : Nat := b.capDec c
  let pre (c : Nat) : Nat := (b.get (CAP_G_PRE g) + 2 ^ dec c - 1) / 2 ^ dec c
  let avail (c : Nat) : Nat := b.get (CAP_C_LEN c) - pre c - 1
  let post := b.get (CAP_G_POST g)
  let st := b.get (CAP_G_STAT_STATE g)
  if st = 1 ∨ st = 2 ∨ (b.cg g).streams then 7
  else if single ∧ ms.any fun c => decide (b.get (CAP_C_LEN c) < pre c + 1) || (decide (0 < post) && avail c < 1) then 1
  else if single ∧ ms.any fun c => (capReduce post (dec c) (avail c) (17 - dec c)).isNone then 2
  else if ms.isEmpty then 3
  else if single ∧ b.get (CAP_G_CFG_TKIND g) = 1 ∧ ¬ ms.contains (b.get (CAP_G_CFG_TCH g)) then 4
  else if ms.any fun c => b.capOverlap c || (b.capBanks c &&& b.cap.banks) ≠ b.capBanks c then 5
  else if single ∧ bit (b.get (CAP_G_CFG_MU g)) 0 ∧ 8 * b.get CAP_FIRE_DLY < 2 * b.roundNs + 1000 then 6
  else 0

/-- An arm is refused. -/
def Block.capRefuse (b : Block) (g reason : Nat) : Block :=
  ((b.set (CAP_G_STAT_ARM_REASON g) reason).on CAP_STAT_ARM_ERR).irq (112 + g)

/-- A group is asked to arm: refused at once while it is armed (Table 13.4), else due at the next boundary. -/
def Block.capAsk (b : Block) (g : Nat) : Block :=
  if bit (b.get CAP_STAT_ARMED) g then b.capRefuse g 7 else b.modCg g fun x => { x with pend := true }

/-- Group `g` arms at a boundary, or refuses (R407, R408); a frozen capture engine writes nothing more (Table 2.7). -/
def Block.capArm (b : Block) (g : Nat) : Block :=
  let b := b.modCg g fun x => { x with pend := false }
  let r := b.capReason g
  if b.frozen 35 then b
  else if r ≠ 0 then b.capRefuse g r
  else
    let str := b.flag (CAP_G_CFG_MODE g)
    let b := b.wr (aCAP_G_STAT g) 0
    let b := b.modCg g fun _ => { Reset.capGroup with since := b.round, streams := str }
    let one (b : Block) (c : Nat) : Block :=
      let d := b.capDec c
      let avail := b.get (CAP_C_LEN c) - (b.get (CAP_G_PRE g) + 2 ^ d - 1) / 2 ^ d - 1
      let post := b.get (CAP_G_POST g)
      let f := if str then 0 else (capReduce post d avail (17 - d)).getD 0
      let b := b.modCc c fun _ => { Reset.capChan with
        start := (b.round + 2 ^ d - 1) / 2 ^ d * 2 ^ d, f := f, goal := (post + 2 ^ (d + f) - 1) / 2 ^ (d + f) }
      let b := (((b.wr (aCAP_C_STAT c) 0).set (CAP_C_STAT_F_LOG2 c) f).wr (aCAP_C_TRIDX c) 0).wr (aCAP_C_PRE c) 0
      let b := ((b.wr (aCAP_C_POST c) 0).wr (aCAP_C_FILL c) 0).wr (aCAP_C_FRAC c) 0
      if f = 0 then b else (b.on (CAP_C_STAT_RATE_REDUCED c)).on CAP_STAT_RATE_REDUCED
    let b := (b.capMembers g).foldl one b
    let b := b.capState g (if str then 5 else 1)
    if b.flag (CAP_G_CFG_MU_MASTER g) ∧ bit (b.get (CAP_G_CFG_MU g)) 1 then
      b.ptnSend 4 (captureWords 1 g 0)
    else b

/-- Group `g` is disarmed: records stay readable (Table 13.4, R410). -/
def Block.capDisarm (b : Block) (g : Nat) : Block :=
  let b := b.modCg g fun x => { x with pend := false, fireAt := none }
  if bit (b.get CAP_STAT_ARMED) g ∨ (b.cg g).streams then
    let b := (b.capState g 6).modCg g fun x => { x with streams := false }
    if b.flag (CAP_G_CFG_MU_MASTER g) ∧ bit (b.get (CAP_G_CFG_MU g)) 1 then
      b.ptnSend 4 (captureWords 2 g 0)
    else b
  else b

/-- TRIG_ARM as this unit drives it: low while a wired master is armed or in its post-trigger part (R415). -/
def Block.drivesArm (b : Block) : Bool :=
  (List.range 8).any fun g =>
    b.flag (CAP_G_CFG_MU_MASTER g) && bit (b.get (CAP_G_CFG_MU g)) 0 && bit (b.get CAP_STAT_ARMED) g

/-- A frozen capture engine disarms every group and lets go of TRIG_ARM and TRIG_FIRE (R423); source 112 + g for each that was armed
(R427). -/
def Block.capFreeze (b : Block) : Block :=
  ((List.range 8).foldl (fun (b : Block) g =>
    if bit (b.get CAP_STAT_ARMED) g ∨ (b.cg g).streams then (b.capDisarm g).irq (112 + g) else b.capDisarm g)
    ({ b with cap.fireUntil := 0 })).on CAP_STAT_FROZEN

/-- A write of FORCE (Table 13.3): ignored unless armed. -/
def Block.capForce (b : Block) (g : Nat) : Block := b.capTrigger g b.time b.angle true

/-- What a boundary does in the capture engine; `before` is the block before the boundary, `read` serves a kind 5 read. A group arms at
the first boundary after it was asked to, so a bit of CAP_B_ARM committed at this boundary waits for the next (R407). -/
def Block.capBoundary (b before : Block) (read : Block → Nat → Bool → Option Int × Block) : Block :=
  let c := b.cap
  let b := { b with
    cap.angles := #v[b.angle, c.angles[0], c.angles[1]], cap.times := #v[b.time, c.times[0], c.times[1]] }
  let b := (List.range 8).foldl (fun b g => if (b.cg g).pend ∧ (before.cg g).pend then b.capArm g else b) b
  (List.range 64).foldl (fun b c =>
    let g := b.get (CAP_C_CFG_GROUP c)
    let now := b.capNow g
    if ¬ b.flag (CAP_C_CFG_EN c) then b
    else if b.get (CAP_C_CFG_KIND c) = 5 then
      if bit (b.get CAP_STAT_ARMED) g ∨ (b.cg g).streams then
        let (v, b) := read b (b.get (CAP_C_ADDR c)) (b.capWide c)
        match v with
        | some v => b.capFeed c now v false false
        | none =>
          let b := (b.on (CAP_C_STAT_LATE c)).on CAP_STAT_LATE
          b.capFeed c now ((b.cc c).prev.getD 0) true false
      else b
    else
      let back := b.get (CAP_C_CFG_KIND c) = 1
      match b.capValue before c with
      | some (v, unc) => if back ∧ now = (b.cg g).since then b else b.capFeed c (now - b2n back) v unc back
      | none => b) b

/-! ### Readout (R421, R422) -/

/-- How many records a channel offers, and the number of the first. -/
def Block.capReadable (b : Block) (c : Nat) : Nat × Nat :=
  let x := b.cc c
  match x.trig with
  | some t =>
    let lo := t - b.get (CAP_C_PRE c)
    (lo, x.written - lo)
  | none => (x.written - min x.written (b.capLen c), min x.written (b.capLen c))

/-- The words of record number `n`, as a readout selects them, with whether each met an error that cannot be corrected and so reads 0
(R422). -/
def Block.capRecordWords (b : Block) (c n red : Nat) (hdr : Bool) : List (Word × Bool) :=
  let a := b.capSlot c (n % b.capLen c)
  let k := if b.capWide c then 2 else 1
  let word (a : Nat) : Word × Bool := if 1 < b.eccAt a then (0, true) else (Memory.readWord b.mem a, false)
  let val (i : Nat) : List (Word × Bool) := (List.range k).map fun j => word (a + 4 + 4 * (i * k + j))
  (if hdr then [word a] else []) ++ (List.range 4).flatMap fun i => if bit red i then val i else []

/-- The readout registers follow the readout. -/
def Block.rdShow (b : Block) : Block :=
  match b.cap.rd with
  | some r => (b.set CAP_RD_STAT_READY (min 0xFFFF r.words.length)).put CAP_RD_STAT_BUSY (0 < r.left || !r.words.isEmpty)
  | none => (b.set CAP_RD_STAT_READY 0).off CAP_RD_STAT_BUSY

/-- Fetch the next record of a readout when its words are gone; one that is not complete ends it with ERR (Table 13.4). -/
def Block.rdFill (b : Block) : Block :=
  match b.cap.rd with
  | some r =>
    if ¬ r.words.isEmpty then b.rdShow
    else if r.left = 0 then ({ b with cap.rd := none }.on CAP_RD_STAT_DONE).rdShow
    else
      let str := b.flag (CAP_G_CFG_MODE (b.get (CAP_C_CFG_GROUP r.chan)))
      let (lo, n) := if str then ((b.cc r.chan).freed, b.capFill r.chan) else b.capReadable r.chan
      let i := if str then 0 else r.next
      let ws := b.capRecordWords r.chan (lo + i) r.red r.hdr
      if i < n ∧ ¬ ws.isEmpty then
        { b with cap.rd := some { r with next := r.next + 1, left := r.left - 1, words := ws } }.rdShow
      else (({ b with cap.rd := none }.on CAP_RD_STAT_DONE).on CAP_RD_STAT_ERR).rdShow
  | none => b.rdShow

/-- CAP_RD_CTL.START (R421). -/
def Block.rdStart (b : Block) (v : Nat) : Block :=
  if ¬ bit v 16 then b
  else
    let b := (b.off CAP_RD_STAT_DONE).off CAP_RD_STAT_ERR
    { b with cap.rd := some ⟨bits v 0 6, bits v 8 4, bit v 12, b.get CAP_RD_FIRST, b.get CAP_RD_COUNT, []⟩ }.rdFill

/-- The next word of a readout met an error that cannot be corrected. -/
def Block.rdBad (b : Block) : Bool := (b.cap.rd.bind (·.words.head?)).any (·.2)

/-- A read of CAP_RD_DATA (R422); a streaming record is freed with its last word. -/
def Block.rdPop (b : Block) : Word × Block :=
  match b.cap.rd with
  | some r =>
    match r.words with
    | (w, bad) :: t =>
      let b := if bad then b.on CAP_STAT_ECC_ERR else b
      let b := { b with cap.rd := some { r with words := t } }
      let str := b.flag (CAP_G_CFG_MODE (b.get (CAP_C_CFG_GROUP r.chan)))
      let b := if t.isEmpty ∧ str then
          let b := b.modCc r.chan fun x => { x with freed := x.freed + 1, halfSeen := false }
          b.set (CAP_C_FILL r.chan) (b.capFill r.chan)
        else b
      (w, b.rdFill)
    | [] => (0, b.on CAP_RD_STAT_ERR)
  | none => (0, b.on CAP_RD_STAT_ERR)

/-! ### Dealing (R424, R425) -/

/-- The channel and group registers take their dealt values. -/
def Block.capLoad (b : Block) : Block :=
  match b.dealt.bind (·.capture) with
  | some s =>
    let b := s.chans.foldl (fun b r =>
      (((b.wr (aCAP_C_CFG r.chan) (BitVec.ofNat 32 r.cfg)).wr (aCAP_C_ADDR r.chan) (BitVec.ofNat 32 r.addr)).wr
        (aCAP_C_BASE r.chan) (BitVec.ofNat 32 r.base)).wr (aCAP_C_LEN r.chan) (BitVec.ofNat 32 r.len)) b
    let b := s.chans.foldl (fun b r => b.showWide r.chan) b
    let b := s.groups.foldl (fun b r =>
      let b := (b.wr (aCAP_G_CFG r.group) (BitVec.ofNat 32 r.cfg)).wr (aCAP_G_PRE r.group) (BitVec.ofNat 32 r.pre)
      let b := (b.wr (aCAP_G_POST r.group) (BitVec.ofNat 32 r.post)).set (CAP_G_THR r.group) r.thr
      (b.set (CAP_G_HYST r.group) r.hyst).set (CAP_G_KEY r.group) r.key) b
    s.fires.foldl (fun b f => (b.set CAP_FIRE_DLY f.1).set CAP_FIRE_WIRE f.2) b
  | none => b

/-- Definitions as dealt: cleared, then loaded (R423, R424). -/
def Block.capDefs (b : Block) : Block :=
  let b := (List.range 64).foldl (fun b c =>
    (((b.wr (aCAP_C_CFG c) 0).wr (aCAP_C_ADDR c) 0).wr (aCAP_C_BASE c) 0).wr (aCAP_C_LEN c) 0) b
  let b := (List.range 8).foldl (fun b g =>
    ((((b.wr (aCAP_G_CFG g) 0).wr (aCAP_G_PRE g) 0).wr (aCAP_G_POST g) 0).set (CAP_G_THR g) 0).set (CAP_G_HYST g) 0
      |>.set (CAP_G_KEY g) 0) b
  (b.wr aCAP_FIRE 0).capLoad

/-- Dealing disarms every group, forgets every record, loads the section and powers the banks it needs (R405, R424). -/
def Block.capDealt (b : Block) : Block :=
  let b := ((List.range 8).foldl (fun b g => (b.capDisarm g).wr (aCAP_G_STAT g) 0) b)
  let b := (List.range 64).foldl (fun b c => (((((b.wr (aCAP_C_STAT c) 0).wr (aCAP_C_TRIDX c) 0).wr (aCAP_C_PRE c) 0).wr
    (aCAP_C_POST c) 0).wr (aCAP_C_FILL c) 0).wr (aCAP_C_FRAC c) 0) b
  let b : Block := { b with cap.chans := [], cap.groups := [], cap.rd := none }
  let b := b.capDefs
  let step (a c : Nat) : Nat := if b.get (CAP_C_LEN c) = 0 then a else a ||| b.capBanks c
  let n := (List.range 64).foldl step 0
  { b with cap.banks := n % 16 }.rdShow

/-! ### The commands -/

/-- TRIG_ARM_EDGE (R415): on a falling edge wired followers are asked to arm, on a rising edge those not triggered
disarm. -/
def execTrigArmEdge (low : Bool) (s : State) : Outcome :=
  .next (s.onBlk fun b =>
    (List.range 8).foldl (fun b g =>
      if b.flag (CAP_G_CFG_MU_MASTER g) ∨ ¬ bit (b.get (CAP_G_CFG_MU g)) 0 ∨ b.frozen 35 then b
      else if low then b.capAsk g
      else if b.get (CAP_G_STAT_STATE g) = 2 ∨ b.get (CAP_G_STAT_STATE g) = 3 then b
      else b.capDisarm g) { b with cap.armLow := low })

/-- TRIG_FIRE_EDGE (R416): a falling edge triggers wired groups with t_trig recovered. -/
def execTrigFireEdge (low : Bool) (s : State) : Outcome :=
  .next (s.onBlk fun b =>
    let t : Int := (b.time : Int) - ((8 * b.get CAP_FIRE_DLY + b.get CAP_FIRE_WIRE) * 2 ^ 32 : Nat)
    (List.range 8).foldl (fun b g =>
      if low ∧ bit (b.get (CAP_G_CFG_MU g)) 0 then b.capFire g t else b) { b with cap.fireLow := low })

/-- FIRE_PULSE (R416): TRIG_FIRE is pulled low for 1 µs where TRIG_ARM is low and TRIG_FIRE high. -/
def execFirePulse (g : Fin 8) (s : State) : Outcome :=
  .next (s.onBlk fun b =>
    match (b.cg g).fireAt with
    | some t =>
      let ok := (b.drivesArm || b.cap.armLow) && !(b.cap.fireLow || decide (b.up < b.cap.fireUntil))
      if b.up < t then b
      else
        let b := b.modCg g fun x => { x with fireAt := none }
        if ok then { b with cap.fireUntil := b.up + 1000 } else b
    | none => b)

end Sys2Proof.Machine
end

