-- ==== Sys2Proof/Machine/FieldIo.lean ====
section
/-!
DEFINITION. Field inputs and outputs (16_field_io.md): the 50 µs sample, output sets, trips, the watchdog, the common
fault bit.
-/

namespace Sys2Proof.Machine

/-! ### Sets of outputs (R493) -/

/-- PAR of quad `q` in force; 3 is outside the range and acts as 2 (R620). -/
def Block.parOf (b : Block) (q : Nat) : Nat := min 2 (bits (b.get (FLD_OGCFG_PAR (q / 2))) (2 * (q % 2)) 2)

/-- The leader of the set output `n` belongs to. -/
def Block.leaderOf (b : Block) (n : Nat) : Nat :=
  let p := b.parOf (n / 4)
  if p = 0 then n else if p = 1 then n / 2 * 2 else n / 4 * 4

/-- A word of outputs in which every bit reads as its leader's bit. -/
def Block.leaders (b : Block) (v : Nat) : Nat :=
  (List.range 16).foldl (fun a n => setBits a n 1 (b2n (bit v (b.leaderOf n)))) 0

/-! ### The safe state (R496) -/

/-- Start-up or a stopped state (R39): DEV_BOOT.PHASE is neither 0x6 nor 0x7. -/
def Block.notOperating (b : Block) : Bool := b.get DEV_BOOT_PHASE ≠ 6 && b.get DEV_BOOT_PHASE ≠ 7

/-- The unit is the dummy of a pair (PTN_STAT.ROLE, 14_partners.md R459). -/
def Block.isDummy (b : Block) : Bool := b.get PTN_STAT_ROLE = 2

/-- A condition that holds every output off. -/
def Block.heldAll (b : Block) : Bool :=
  b.notOperating || b.field.linkLost || b.isDummy || b.field.hot || b.field.clockFail

/-- Output group `h` is held off: disabled, or its supply below 17.0 V. -/
def Block.heldGroup (b : Block) (h : Nat) : Bool := !bit (b.get FLD_GEN_DOUT) h || bit b.field.voLow h

/-- The watchdog keeps output `n` off: named by WDMASK while the watchdog is on and not armed (R497). -/
def Block.heldByWdog (b : Block) (n : Nat) : Bool :=
  b.get FLD_WDCFG_WDTIME ≠ 0 && bit (b.get FLD_WDCFG_WDMASK) n && !b.field.wdArmed

/-- A set is tripped while its leader's condition holds (R495). -/
def Block.setTripped (b : Block) (n : Nat) : Bool := bit b.field.tripped (b.leaderOf n)

/-- Whether the switch of output `n` is on: all switches of a set follow its leader's committed bit; one that the watchdog turned off waits
for its bit to clear (R497). -/
def Block.switchOn (b : Block) (n : Nat) : Bool :=
  bit (b.get FLD_DOUT) (b.leaderOf n) && !b.heldAll && !b.heldGroup (n / 8) && !b.heldByWdog (b.leaderOf n) &&
    !b.setTripped n && !bit b.field.wdClear (b.leaderOf n)

/-- Switch states and HELD follow the conditions; a change of HELD asserts source 159 (R496, Table 16.6). -/
def Block.refreshOutputs (b : Block) : Block :=
  let on := (List.range 16).foldl (fun a n => setBits a n 1 (b2n (b.switchOn n))) 0
  let held := b.heldAll || b.heldGroup 0 || b.heldGroup 1
  let b := b.set FLD_DOUT_ST on
  if b.flag FLD_STAT_HELD = held then b else (b.put FLD_STAT_HELD held).irq 159

/-- What a boundary's commit does to FLD_DOUT: 0 while dummy (R496), bits the watchdog cleared, leaders only
(R493, R497); a commit of 0 for a leader ends its trip (R495). -/
def Block.commitOutputs (b : Block) : Block :=
  let v := if b.isDummy then 0 else b.get FLD_DOUT
  let v := v - (v &&& b.field.wdClear)
  let v := b.leaders v
  let trip := (List.range 16).foldl (fun a n => if bit v (b.leaderOf n) then a else setBits a n 1 0) b.field.tripped
  ({ b with field.wdClear := 0, field.tripped := trip }.set FLD_DOUT v).refreshOutputs

/-- The levels of enabled inputs at a boundary; an input of a disabled group reads 0 (R491). -/
def Block.latchInputs (b : Block) : Block :=
  let on := (List.range 32).foldl (fun a n => setBits a n 1 (b2n (bit b.field.accepted n && bit (b.get FLD_GEN_DIN) (n / 8)))) 0
  (({ b with field.accepted := on } : Block).set FLD_DIN on).set FLD_DIN_NOW on

/-! ### One sample (R491, R492, R495, R498) -/

/-- FILT of group `g` in force, at least 1 (R620). -/
def Block.dinFilt (b : Block) (g : Nat) : Nat := max 1 (b.get (FLD_DGCFG_FILT g))

/-- An accepted edge of DIN `n`: its edge bit, and its group's source where enabled. -/
def Block.dinEdge (b : Block) (n : Nat) (v : Bool) : Block :=
  let b := { b with field.accepted := setBits b.field.accepted n 1 (b2n v) }
  let b := (b.set FLD_DIN_EDGE (setBits (b.get FLD_DIN_EDGE) n 1 1)).set FLD_DIN_NOW b.field.accepted
  if bit (b.get FLD_DIN_IRQ) n then b.irq (152 + n / 8) else b

/-- One input on one sample: a level sampled unchanged FILT times is accepted; an input of a disabled group reads 0. -/
def Block.sampleDin (b : Block) (x : FieldIn) (n : Fin 32) : Block :=
  let g := n.1 / 8
  let lv := bit x.din.toNat n.1
  if ¬ bit (b.get FLD_GEN_DIN) g then
    let acc := setBits b.field.accepted n.1 1 0
    { b with field.accepted := acc, field.same := b.field.same.set n 0 }.set FLD_DIN_NOW acc
  else
    let k := if bit b.field.level n.1 = lv then b.field.same[n] + 1 else 1
    let b := { b with
      field.level := setBits b.field.level n.1 1 (b2n lv), field.same := b.field.same.set n (min k 255) }
    if b.dinFilt g ≤ k ∧ bit b.field.accepted n.1 ≠ lv then b.dinEdge n.1 lv else b

/-- The wire-break condition of one input (R492): 10 ms is 200 samples. -/
def Block.sampleWire (b : Block) (x : FieldIn) (n : Fin 32) : Block :=
  let lo := bit x.dinLow.toNat n.1
  let k := if lo then min 200 (b.field.wbLow[n] + 1) else 0
  let j := if lo then 0 else min 200 (b.field.wbHigh[n] + 1)
  let zero := !bit b.field.accepted n.1
  let was := bit b.field.wireBreak n.1
  let now := bit (b.get (FLD_DGCFG_WB (n.1 / 8))) (n.1 % 8) && zero && ((!was && 200 ≤ k) || (was && j < 200))
  { b with
    field.wbLow := b.field.wbLow.set n k, field.wbHigh := b.field.wbHigh.set n j,
    field.wireBreak := setBits b.field.wireBreak n.1 1 (b2n now) }

/-- The open-load condition of one output (R495). -/
def Block.sampleLoad (b : Block) (x : FieldIn) (n : Fin 16) : Block :=
  let lo := bit x.outLow.toNat n.1
  let on := b.switchOn n.1
  let k := if lo && on then min 200 (b.field.openLow[n] + 1) else 0
  let j := if lo then 0 else min 200 (b.field.openHigh[n] + 1)
  let was := bit b.field.openLoad n.1
  let now := bit (b.get (FLD_OGCFG_OLD (n.1 / 8))) (n.1 % 8) && on && ((!was && 200 ≤ k) || (was && j < 200))
  { b with
    field.openLow := b.field.openLow.set n k, field.openHigh := b.field.openHigh.set n j,
    field.openLoad := setBits b.field.openLoad n.1 1 (b2n now) }

/-- Supplies and temperature with their hystereses (R496, Table 16.2). -/
def Block.sampleSupplies (b : Block) (x : FieldIn) : Block :=
  let lowV := x.vfield < 17000 || (b.field.vLow && x.vfield ≤ 18000)
  let hot := 1250 < x.temp || (b.field.hot && 1150 ≤ x.temp)
  let vo := b2n (x.vout0 < 17000) + 2 * b2n (x.vout1 < 17000)
  let b := { b with field.vLow := lowV, field.hot := hot, field.voLow := vo, field.padOff := x.vfield < 16000 }
  if x.vfield < 17000 then b.off FLD_STAT_VFIELD_OK
  else if 18000 ≤ x.vfield then b.on FLD_STAT_VFIELD_OK else b

/-- The 52 conditions of Table 16.2 in force. -/
def Block.conditionsNow (b : Block) : Nat :=
  let f := b.field
  let group (h : Nat) : Nat := b2n (bit f.voLow h && bit (b.get FLD_GEN_DOUT) h)
  f.wireBreak + (f.tripped ||| f.openLoad) * 2 ^ 32 + b2n f.vLow * 2 ^ 48 + group 0 * 2 ^ 49 + group 1 * 2 ^ 50 +
    b2n f.hot * 2 ^ 51

/-- FAULT, FAULT_SEEN and MPEND on this evaluation (R498, R499): source 156 when a condition begins on an unmasked
source, source 157 when FAULT falls for a reason other than a mask write. -/
def Block.evalFault (b : Block) : Block :=
  let mask := b.get FLD_FMASK_LO + b.get FLD_FMASK_HI * 2 ^ 32
  let now := b.conditionsNow
  let begun := (List.range 52).any fun n => bit now n && !bit b.field.conditions n && !bit mask n
  let fault := (List.range 52).any fun n => bit now n && !bit mask n
  let stillOld := (List.range 52).any fun n => bit now n && !bit b.field.mask n
  let fell := b.flag FLD_STAT_FAULT && !fault && !stillOld
  let b := { b with field.conditions := now, field.mask := mask }
  let b := (b.put FLD_STAT_FAULT fault).off FLD_STAT_MPEND
  let b := if begun then (b.on FLD_STAT_FAULT_SEEN).irq 156 else b
  if fell then b.irq 157 else b

/-- FIELD_SAMPLE (R491) (DEDUCED, log entry 91). -/
def execFieldSample (x : FieldIn) (s : State) : Outcome :=
  .next (s.onBlk fun b =>
    let b := (List.finRange 32).foldl (fun b n => (b.sampleDin x n).sampleWire x n) b
    let b := (List.finRange 16).foldl (fun b n => b.sampleLoad x n) b
    ((b.sampleSupplies x).refreshOutputs).evalFault)

/-! ### Trips, retries, the watchdog -/

/-- TRIP (R495): the whole set of an output that is on turns off; the leader's and the output's own conditions hold. -/
def execTrip (n : Fin 16) (s : State) : Outcome :=
  .next (s.onBlk fun b =>
    if b.switchOn n.1 then
      let t := setBits (setBits b.field.tripped n.1 1 1) (b.leaderOf n.1) 1 1
      { b with
        field.tripped := t
        field.tripAt := Vector.ofFn fun k => if k.1 = b.leaderOf n.1 then b.up else b.field.tripAt[k] }.refreshOutputs
    else b)

/-- When a trip of the set of output `n` ends by itself (R495); none while RETRY is 0. -/
def Block.retryAt (b : Block) (n : Nat) : Option Nat :=
  let r := b.get (FLD_OGCFG_RETRY (n / 8))
  if r = 0 then none else some (b.field.tripAt.toList.getD (b.leaderOf n) 0 + r * 10000000)

/-- RETRY (R495): RETRY × 10 ms after its trip a set may switch on again. -/
def execRetry (n : Fin 16) (s : State) : Outcome :=
  .next (s.onBlk fun b =>
    if b.setTripped n.1 ∧ (b.retryAt n.1).any (· ≤ b.up) then
      let t := (List.range 16).foldl (fun a k => if b.leaderOf k = b.leaderOf n.1 then setBits a k 1 0 else a)
        b.field.tripped
      { b with field.tripped := t }.refreshOutputs
    else b)

/-- A write of FLD_WDOG arms or restarts the watchdog (R497). -/
def Block.wdogWrite (b : Block) : Block := { b with field.wdArmed := true, field.wdAt := b.up }.refreshOutputs

/-- WATCHDOG_EXPIRY (R497), WDTIME ms after the last write: outputs of WDMASK turn off, their committed bits clear at the next boundary. -/
def execWatchdogExpiry (s : State) : Outcome :=
  .next (s.onBlk fun b =>
    if b.field.wdArmed ∧ b.get FLD_WDCFG_WDTIME ≠ 0 ∧ b.field.wdAt + b.get FLD_WDCFG_WDTIME * 1000000 ≤ b.up then
      let b := { b with field.wdArmed := false, field.wdClear := b.get FLD_WDCFG_WDMASK }
      ((b.on FLD_STAT_WDOG_EXP).irq 158).refreshOutputs
    else b)

/-- A mask write (R498): MPEND until the next evaluation. -/
def Block.maskWrite (b : Block) (hi : Bool) (v : Nat) : Block :=
  (if hi then b.set FLD_FMASK_HI v else b.set FLD_FMASK_LO v).on FLD_STAT_MPEND

/-- FIELD_OVERTEMP (R496): above 125 °C every DOUT is off. -/
def execFieldOvertemp (s : State) : Outcome :=
  .next (s.onBlk fun b => { b with field.hot := true }.refreshOutputs)

/-- FIELD_CLOCK_FAILURE (R496): every DOUT is off through logic that needs no clock. -/
def execFieldClockFailure (s : State) : Outcome :=
  .next (s.onBlk fun b => { b with field.clockFail := true }.refreshOutputs)

end Sys2Proof.Machine
end

