-- ==== Sys2Proof/Machine/Keys.lean ====
section
/-!
DEFINITION. Key derivation and sealing (02_trust.md R41, R42, R45, R48, Tables 2.1 to 2.3).
-/

namespace Sys2Proof.Machine

/-- ASCII bytes. -/
def ascii (s : String) : List Byte := s.toList.map fun c => BitVec.ofNat 8 c.toNat

/-! ### The key derivation function (R41) -/

/-- Block `i` of the output over the pseudorandom function `prf`. -/
def kdfBlock (prf : List Byte → BitVec 128) (label : String) (context : List Byte) (bits i : Nat) : BitVec 128 :=
  prf (bytesBE 1 i ++ ascii label ++ [0] ++ context ++ bytesBE 2 bits)

/-- The blocks, concatenated and truncated to `bits` bits. -/
def kdf (prf : List Byte → BitVec 128) (label : String) (context : List Byte) (bits : Nat) : Nat :=
  let n := (bits + 127) / 128
  (List.range n).foldl (fun a j => a * 2 ^ 128 + (kdfBlock prf label context bits (j + 1)).toNat) 0 / 2 ^ (128 * n - bits)

/-! ### Device keys (Table 2.1) -/

/-- The order of the P-384 group (PRESUMED, log entry 112). -/
def p384Order : Nat :=
  0xFFFFFFFFFFFFFFFFFFFFFFFFFFFFFFFFFFFFFFFFFFFFFFFFC7634D81F4372DDF581A0DB248B0A77AECEC196ACCC52973

/-- A key derived from the device unique key over the serial. -/
def Otp.derive (o : Otp) (label : String) (bits : Nat) : Nat :=
  kdf (Config.cmac256 (Config.puf o.puf)) label (bytesBE 8 o.serial.toNat) bits

/-- K_WRAP. -/
def Otp.kWrap (o : Otp) : BitVec 256 := BitVec.ofNat 256 (o.derive "WRAP" 256)

/-- The attestation key d. -/
def Otp.attestKey (o : Otp) : Nat := o.derive "ATTK" 384 % (p384Order - 1) + 1

/-- Bytes under a key stream: the same call seals and opens. -/
def xorStream (stream : Nat → Byte) (bs : List Byte) : List Byte := bs.zipIdx.map fun p => p.1 ^^^ stream p.2

/-- K_DECK wrapped with a nonce: 12-byte nonce, ciphertext, tag, 4 bytes reserved (R45, Table 2.2); no associated data (DESIGN CHOICE,
DESIGN CHOICE, log entry 135). -/
def Otp.wrapKey (o : Otp) (key : BitVec 256) (nonce : BitVec 96) : BitVec 512 :=
  let iv := bytesBE 12 nonce.toNat
  let c := xorStream (Config.stream256 o.kWrap iv) (bytesBE 32 key.toNat)
  BitVec.ofNat 512 (ofBytesBE (iv ++ c ++ bytesBE 16 (Config.tag256 o.kWrap iv [] c).toNat ++ bytesBE 4 0))

/-- K_DECK as the wrapped key gives it. -/
def Otp.kDeck (o : Otp) : BitVec 256 :=
  let bs := bytesBE 64 o.wrapped.toNat
  BitVec.ofNat 256 (ofBytesBE (xorStream (Config.stream256 o.kWrap (bs.take 12)) ((bs.drop 12).take 32)))

/-! ### Segment and partner keys (Table 2.3) -/

/-- K_N of a node serial. -/
def Block.nodeKey (b : Block) (serial : Nat) : BitVec 128 :=
  let root : BitVec 128 := (b.dealt.bind (·.kMnr)).getD 0
  BitVec.ofNat 128 (kdf (Config.cmac root) "NODE" (bytesBE 8 serial) 128)

/-- K_S. -/
def Block.sessionKey (b : Block) (s serial epoch : Nat) (nh nn : BitVec 128) : BitVec 128 :=
  BitVec.ofNat 128 (kdf (Config.cmac (b.nodeKey serial)) "SESS"
    (bytesBE 16 nh.toNat ++ bytesBE 16 nn.toNat ++ bytesBE 1 s ++ bytesBE 4 epoch) 128)

/-- The PAIR record; none where the deck has no MIRROR section. -/
def Block.pair (b : Block) : Option PairRec := b.dealt.bind fun d => d.mirror.bind (·.pairs.head?)

/-- K_P, from the two serials of the PAIR record. -/
def Block.partnerKey (b : Block) : BitVec 128 :=
  let root : BitVec 128 := (b.dealt.bind (·.kPr)).getD 0
  let p := b.pair.getD ⟨0, 0, 0, 0⟩
  BitVec.ofNat 128 (kdf (Config.cmac root) "PTNR" (bytesBE 8 p.lower ++ bytesBE 8 p.higher) 128)

end Sys2Proof.Machine
end

