-- ==== Sys2Proof/Machine/Wire.lean ====
section
/-!
DEFINITION. Frames as bytes (05_thrumlos_link_and_frames.md R159 to R167): their CRC, tag and header, the management messages of
06_thrumlos_start_and_schedules.md R202, and the blocks a head emits.
-/

namespace Sys2Proof.Machine

/-! ### Reading a frame -/

/-- Byte `k` of the frame, byte 1 the first. -/
def Frame.byte (x : Frame) (k : Nat) : Nat := (x.bytes.getD (k - 1) 0).toNat

/-- `n` bytes from byte `k` as a number, most significant first (R159). -/
def Frame.num (x : Frame) (k n : Nat) : Nat := ofBytesBE ((x.bytes.drop (k - 1)).take n)

/-- `n` bytes of the payload from its byte `k`. -/
def Frame.pay (x : Frame) (k n : Nat) : Nat := x.num (8 + k) n

/-- Header bytes 1 to 7, payload and tag: all but the CRC. -/
def Frame.covered (x : Frame) : List Byte := x.bytes.take (x.bytes.length - 4)

/-- No K30.7, and the CRC matches (R165, R167). -/
def Frame.crcOk (x : Frame) : Bool :=
  !x.poison && decide (15 ≤ x.bytes.length) && crc32 x.covered = ofBytesLE (x.bytes.drop (x.bytes.length - 4))

/-- TYPE, VER, TURN, LEN and ROUND16 are those asked for (R167). -/
def Frame.isA (x : Frame) (type turn len round : Nat) : Bool :=
  x.byte 1 / 32 = type && x.byte 1 % 16 = 1 && x.num 2 2 = turn && x.num 4 2 = round % 2 ^ 16 && x.byte 6 = len &&
    x.bytes.length = 15 + 4 * len

/-- The nonce of Table 5.7. -/
def tagNonce (up : Bool) (p s round turn : Nat) : List Byte :=
  bytesBE 1 (128 * b2n up + 64 * (p % 2) + s % 8) ++ [0, 0, 0] ++ bytesBE 6 round ++ bytesBE 2 turn

/-- A tag (R166): the associated data under a key, cut to 32 bits (DESIGN CHOICE, log entry 55). -/
def frameTag (k : BitVec 128) (nonce aad : List Byte) : Nat := (Config.gcmTag k nonce aad).toNat / 2 ^ 96

/-- The tag of a frame of segment `s` matches under a key (R166). -/
def Frame.tagged (x : Frame) (k : BitVec 128) (up : Bool) (s round : Nat) : Bool :=
  let n := 7 + 4 * x.byte 6
  frameTag k (tagNonce up (x.byte 1 / 16 % 2) s round (x.num 2 2)) (x.bytes.take n) = x.num (n + 1) 4

/-! ### Building a frame -/

/-- Header bytes 1 to 7 of a downstream block (Table 5.2). -/
def headerBytes (type p turn round len : Nat) : List Byte :=
  bytesBE 1 (32 * type + 16 * p + 1) ++ bytesBE 2 turn ++ bytesBE 2 round ++ bytesBE 1 len ++ [0]

/-- A frame from header byte 1 on: what the tag covers, the tag, the CRC in Ethernet order (R165, R166). -/
def sealFrame (k : BitVec 128) (nonce aad : List Byte) : List Byte :=
  let x := aad ++ bytesBE 4 (frameTag k nonce aad)
  x ++ bytesLE 4 (crc32 x)

/-- A downstream block of segment `s` in the device's present round. -/
def Block.downBlock (b : Block) (s : Nat) (k : BitVec 128) (type turn : Nat) (payload : List Byte) : List Byte :=
  let p := b.get PTN_STAT_P
  sealFrame k (tagNonce false p s b.round turn) (headerBytes type p turn b.round (payload.length / 4) ++ payload)

/-- A payload filled with zeros to `n` bytes (R202). -/
def padTo (n : Nat) (bs : List Byte) : List Byte := (bs ++ List.replicate n 0).take n

/-- A management message (Table 6.4). -/
def MgmtMsg.bytes : MgmtMsg → List Byte
  | .none => [0]
  | .invite => [1]
  | .enum pos => [2] ++ bytesBE 1 pos
  | .place pos serial down up => [3] ++ bytesBE 1 pos ++ [0, 0] ++ bytesBE 8 serial ++ bytesBE 2 down ++ bytesBE 2 up
  | .auth1 _ nh => padTo 16 [0x11] ++ bytesBE 16 nh.toNat
  | .auth3 _ d wk hp => [0x13, 0, 0, 0] ++ bytesBE 12 d.toNat ++ bytesBE 16 wk.toNat ++ bytesBE 12 hp.toNat

/-- A downstream axis record (Table 5.4). -/
def SetRec.bytes (r : SetRec) (stale : Bool) : List Byte :=
  bytesBE 8 (wrapN 64 r.pos) ++ bytesBE 4 (wrapN 32 r.vel) ++ bytesBE 4 (wrapN 32 r.trq) ++ bytesBE 4 r.aux ++ bytesBE 2 r.ctrl ++
    bytesBE 1 r.mode ++ bytesBE 1 (b2n stale)

/-- A command slot (Table 5.4). -/
def CmdItem.bytes (x : CmdItem) : List Byte := bytesBE 1 x.code ++ [0] ++ bytesBE 2 x.round16 ++ bytesBE 4 x.ofs ++ bytesBE 4 x.arg

/-- The payload of a lead block (Tables 5.3, 6.7). -/
def Lead.payload (x : Lead) : List Byte :=
  bytesBE 6 x.round ++ bytesBE 1 (x.contract % 8 + x.next % 8 * 8) ++ bytesBE 1 x.switch ++ bytesBE 4 x.epoch ++
    bytesBE 8 x.ptime ++ bytesBE 1 x.ring ++ bytesBE 1 x.close ++ bytesBE 2 x.bofs ++
    bytesBE 1 (x.phase % 8 + x.log2r % 4 * 8 + x.kcount % 8 * 32) ++ bytesBE 1 (x.grantK % 4 + 4 * b2n x.grant) ++ [0, 0] ++
    bytesBE 4 x.arg ++ [x.safeA, x.safeB].flatMap fun w => bytesBE 1 w.byte0 ++ bytesBE 1 w.byte1 ++ bytesBE 2 w.scnt ++
      bytesBE 8 w.permit ++ bytesBE 8 w.ss1 ++ bytesBE 4 w.scrc

/-! ### The lead frame under way -/

/-- A block joins the lead frame, `start` after its K29.7. -/
def Block.sendBlock (b : Block) (s start : Nat) (bytes : List Byte) : Block :=
  b.modSg s fun x => { x with frame := insertKey (·.1) (start, bytes) x.frame }

/-- The key of a position's block and frames. -/
def Block.nodeTagKey (b : Block) (s p : Nat) : BitVec 128 := let n := b.sn s p; if n.hasKs then n.ks else Config.noKey s p

/-- The axis of a node with a given SUB. -/
def Block.axisAt (b : Block) (s p k : Nat) : Option Nat :=
  (b.axisList.find? fun r => r.kind ≠ 3 && r.segment = s && r.node = p && r.sub = k).map (·.axis)

/-- The axes of a node. -/
def Block.nodeAxes (b : Block) (s p : Nat) : List Nat :=
  (b.axisList.filter fun r => r.kind ≠ 3 && r.segment = s && r.node = p).map (·.axis)

/-- The axes whose records a node block carries. -/
def Block.turnAxes (b : Block) (s : Nat) (t : TurnRec) : List Nat := (List.range t.axes).filterMap (b.axisAt s t.pos)

/-- The payload of a node block (R161 to R163): the records by SUB, that of a SUB without an axis zero and stale, then the command slots,
empty ones zero (DESIGN CHOICE, log entry 120). -/
def Block.nodePayload (b : Block) (s : Nat) (t : TurnRec) : List Byte :=
  let items := (((b.sg s).lead.bind fun l => l.slots.find? (·.1 = t.turn)).map (·.2)).getD []
  ((List.range t.axes).flatMap fun k => match b.axisAt s t.pos k with
    | some i => (b.ax i).cur.data.bytes (b.ax i).cur.stale
    | none => SetRec.bytes ⟨0, 0, 0, 0, 0, 0⟩ true) ++
  (List.range t.slots).flatMap fun k => match items[k]? with
    | some x => x.bytes
    | none => List.replicate 12 0

/-- The node block of a turn joins the frame once the last of its records has been fetched (R30, R160). -/
def Block.sendNode (b : Block) (s : Nat) (t : TurnRec) : Block :=
  if (b.turnAxes s t).any fun i => (b.ax i).cur.unfetched then b
  else
    let ts := b.order s (b.get (SEG_STAT_CONTRACT s))
    b.sendBlock s ((blockStart ts 96 t.pos).getD 0 * 32) (b.downBlock s (b.nodeTagKey s t.pos) 1 t.turn (b.nodePayload s t))

/-- When the kitty blocks begin, after the last node block (R209). -/
def Block.kittyStart (b : Block) (s k : Nat) : Nat := (leadBytes (b.order s (b.get (SEG_STAT_CONTRACT s))) k) * 32

end Sys2Proof.Machine
end

