-- ==== Sys2Proof/Machine/PartnerLink.lean ====
section
/-!
DEFINITION. The partner link (14_partners.md R433 to R436): frames sealed and opened under K_P, and the order in which they are sent.
-/

namespace Sys2Proof.Machine

/-- The nonce of a partner frame (R434). -/
def partnerNonce (p round seq : Nat) : List Byte := bytesBE 1 p ++ [0, 0, 0] ++ bytesBE 6 round ++ bytesBE 2 seq

/-- A partner frame from header byte 1 on (R433, R434, Table 14.1); words travel most significant byte first (DESIGN CHOICE, log entry
121). -/
def sealPartner (key : BitVec 128) (p round seq : Nat) (x : TxFrame) : List Byte :=
  let header := bytesBE 1 (16 * x.type + 8 * p) ++ bytesBE 2 seq ++ bytesBE 6 round ++ bytesBE 2 x.words.length
  let nonce := partnerNonce p round seq
  let c := xorStream (Config.stream128 key nonce) (x.words.flatMap fun w => bytesBE 4 w.toNat)
  let y := header ++ c ++ bytesBE 16 (Config.tag128 key nonce header c).toNat
  y ++ bytesLE 4 (crc32 y)

/-- TYPE of a partner frame. -/
def Frame.ptnType (x : Frame) : Nat := x.byte 1 / 16
/-- P of its sender. -/
def Frame.ptnP (x : Frame) : Nat := x.byte 1 / 8 % 2
/-- SEQ. -/
def Frame.ptnSeq (x : Frame) : Nat := x.num 2 2
/-- ROUND. -/
def Frame.ptnRound (x : Frame) : Nat := x.num 4 6
/-- LEN, payload words. -/
def Frame.ptnLen (x : Frame) : Nat := x.num 10 2
/-- The ciphertext. -/
def Frame.ptnCipher (x : Frame) : List Byte := (x.bytes.drop 11).take (4 * x.ptnLen)

/-- No K30.7, LEN in its range, CRC and tag right (R433, R434). -/
def Frame.ptnOk (x : Frame) (key : BitVec 128) : Bool :=
  x.crcOk && x.ptnLen ≤ 256 && x.bytes.length = 31 + 4 * x.ptnLen &&
    (Config.tag128 key (partnerNonce x.ptnP x.ptnRound x.ptnSeq) (x.bytes.take 11) x.ptnCipher).toNat = x.num (12 + 4 * x.ptnLen) 16

/-- The payload words. -/
def Frame.ptnWords (x : Frame) (key : BitVec 128) : List Word :=
  let bs := xorStream (Config.stream128 key (partnerNonce x.ptnP x.ptnRound x.ptnSeq)) x.ptnCipher
  (List.range x.ptnLen).map fun k => BitVec.ofNat 32 (ofBytesBE ((bs.drop (4 * k)).take 4))

/-- The HELLO of this unit: the running role is 1 for a declarer, alone or paired, 2 for a dummy, 3 for a held unit, 0 before step 4 has
ended (DESIGN CHOICE, log entry 121). -/
def Block.ownHello (b : Block) : Hello :=
  let p := b.pair.getD ⟨0, 0, 0, 0⟩
  let role := b.get PTN_STAT_ROLE
  { serial := if b.flag PTN_STAT_P then p.higher else p.lower, hash := (b.dealt.map (·.digest)).getD 0
    secver := (b.dealt.map (·.header.secver)).getD 0, role := if ¬ b.boot.step4 then 0 else if role = 0 then 1 else role
    epoch := b.get PTN_EPOCH, boot := (b.rd aDEV_BOOT).toNat }

/-- A HELLO is to be sent. -/
def Block.sendHello (b : Block) : Block := b.ptnSend 5 b.ownHello.toWords

/-- HELLO every 100 µs until the partner's has come (R436). -/
def Block.helloTick (b : Block) : Block :=
  match b.partner.helloAt with
  | some t =>
    if b.up < t then b
    else { b.sendHello with partner.helloAt := if b.partner.hello.isNone then some (t + 100000) else none }
  | none => b

/-- A heartbeat carries the plant time of its departure (Table 14.4). -/
def Block.stampTx (b : Block) (x : TxFrame) : TxFrame :=
  if x.type = 1 then
    let h := heartbeatOf x.words
    { x with words := Heartbeat.toWords { h with departs := b.time } }
  else x

/-- The link is free and the frame of highest priority starts (R435): SEQ counts the frames of the round. A frame takes 32 bytes and its
payload, 3.2 ns each. With nothing left to send, a declarer's transfer has ended (R456). -/
def Block.transmit (b : Block) : Block :=
  let b := b.helloTick
  let p := b.partner
  if b.up * 10 < p.lineFree then b
  else match nextTx p.tx with
    | some x =>
      let seq := if p.txRound = b.round then p.txSeq else 0
      let y := b.stampTx x
      { b with
        partner.tx := p.tx.erase x, partner.txRound := b.round, partner.txSeq := seq + 1
        partner.line := some (b.up, sealPartner b.partnerKey (b.get PTN_STAT_P) b.round seq y)
        partner.lineFree := b.up * 10 + 32 * (32 + 4 * y.words.length) }
    | none =>
      if b.get PTN_STAT_ROLE = 1 ∧ b.flag PTN_STAT_XFER ∧ ¬ p.bulkDue then b.off PTN_STAT_XFER else b

end Sys2Proof.Machine
end

