-- ==== Sys2Proof/Machine/Plant.lean ====
section
/-!
DEFINITION. Plant time and the plant ports (18_plant_time.md): the servo, PTP messages, launch queues, line-angle
messages, MDIO. Times are in 2^-32 ns. What IEEE 1588 and 802.1AS say of delays and rate ratios is taken from those
standards (PRESUMED, log entry 9).
-/

namespace Sys2Proof.Machine

/-! ### Thresholds in force (R620) -/

/-- PLT_JUMP_TH in force, ns. -/
def Block.jumpTh (b : Block) : Nat := clampN 100 1000000000 (b.get PLT_JUMP_TH)
/-- PLT_LOCK_TH in force, ns. -/
def Block.lockTh (b : Block) : Nat := clampN 10 10000 (b.get PLT_LOCK_TH)
/-- PLT_SLEW in force, ppm. -/
def Block.slewPpm (b : Block) : Nat := clampN 1 500 (b.get PLT_SLEW)

/-- A number of ppm in units of 2^-40. -/
def ppm40 (n : Nat) : Int := ((n * 2 ^ 40 / 1000000 : Nat) : Int)

/-! ### The clock (R536) -/

/-- Plant time after one nanosecond of its time base. -/
def Block.tick (b : Block) : Block := { b with time := wrapN 96 ((b.time : Int) + b.tickStep), up := b.up + 1 }

/-- The Sync interval of a port, ns: logSyncInterval is −7 to 0 (Table 18.2, R620). -/
def Block.syncNs (b : Block) (p : Nat) : Int := 1000000000 * 2 ^ (min 7 (b.get (PLT_P_CFG_LOGSYNC p))) / 128

/-- RXTO in force, 2 to 15 Sync intervals (R533, R620), ns. -/
def Block.receiptNs (b : Block) (p : Nat) : Nat := max 2 (b.get (PLT_P_CFG_RXTO p)) * (b.syncNs p).toNat

/-- Replace the PTP engine of a port. -/
def Block.setPort (b : Block) (p : Fin 2) (x : PtpPort) : Block := { b with plant.ports := b.plant.ports.set p x }

/-- PLT_RATE set, saturating at 500 ppm (R536). -/
def Block.setPltRate (b : Block) (r : Int) : Block := b.seti PLT_RATE (clampI (-(ppm40 500)) (ppm40 500) r)

/-- Change the servo state (Table 18.3): each change asserts source 160, and the rate is nominal in ACQUIRE. -/
def Block.setServo (b : Block) (st : Nat) : Block :=
  if b.get PLT_STAT_STATE = st then b
  else
    let b := if st = 1 then b.setPltRate 0 else b
    { b with plant.inRange := 0, plant.outRange := 0, plant.backRange := 0 }.set PLT_STAT_STATE st |>.irq 160

/-- Enter HOLDOVER: the rate frozen at the mean over the last 16 measurements (Table 18.3; DEDUCED, log entry 10). -/
def Block.holdover (b : Block) : Block :=
  let rs := b.plant.rates
  let b := if rs.isEmpty then b else b.setPltRate (rs.foldl (· + ·) 0 / rs.length)
  (b.inc PLT_HO_CNT).setServo 4

/-- The servo of R537 on a measurement `o` (2^-32 ns) with Sync interval `s` ns. -/
def Block.steer (b : Block) (o s : Int) : Block :=
  let q := if s = 0 then 0 else o * 2 ^ 8 / s
  let ri := b.plant.ri + sar q (b.get PLT_SERVO_KI_SHIFT)
  let lim := ppm40 b.slewPpm
  let b := { b with plant.ri := ri }.setPltRate (ri + clampI (-lim) lim (sar q (b.get PLT_SERVO_KP_SHIFT)))
  { b with plant.rates := (b.geti PLT_RATE :: b.plant.rates).take 16 }

/-- The lock counts of Table 18.3 after a measurement. -/
def Block.countLock (b : Block) (near : Bool) : Block :=
  let b := if near then { b with plant.inRange := b.plant.inRange + 1, plant.outRange := 0 }
    else { b with plant.outRange := b.plant.outRange + 1, plant.inRange := 0 }
  if b.get PLT_STAT_STATE = 2 ∧ 8 ≤ b.plant.inRange then b.setServo 3
  else if b.get PLT_STAT_STATE = 3 ∧ 8 ≤ b.plant.outRange then b.setServo 2
  else b

/-- The handling of a jump (Table 18.4). -/
def Block.jump (b : Block) (o : Int) : Block :=
  let b := b.irq 161
  if b.flag PLT_MODE then
    ((b.seti PLT_JOFS (b.geti PLT_JOFS + sar o 32)).on PLT_STAT_JREF).inc PLT_JREF_CNT
  else (b.on PLT_STAT_JUMP).holdover

/-- One offset measurement reaches the servo (R537 to R541). -/
def Block.measure (b : Block) (o0 s : Int) : Block :=
  let o := if b.flag PLT_MODE then o0 - b.geti PLT_JOFS * 2 ^ 32 else o0
  let b := b.seti PLT_OFS (satI 32 (sar o 32))
  let st := b.get PLT_STAT_STATE
  if st = 1 then
    if b.get DEV_BOOT_PHASE = 7 then b.on PLT_STAT_ACQ_HELD
    else
      let k := divRound o ((b.roundNs : Int) * 2 ^ 32)
      { b with plant.step := some (b.plant.step.getD k) }.off PLT_STAT_ACQ_HELD
  else if st = 2 ∨ st = 3 then
    if (b.jumpTh : Int) * 2 ^ 32 < o.natAbs then b.jump o
    else (b.steer o s).countLock (decide ((o.natAbs : Int) ≤ (b.lockTh : Int) * 2 ^ 32))
  else if st = 4 then
    let n := if (o.natAbs : Int) ≤ (b.jumpTh : Int) * 2 ^ 32 then b.plant.backRange + 1 else 0
    let b := { b with plant.backRange := n }
    if 4 ≤ n then b.setServo 2 else b
  else b

/-! ### Launch queues and steps (R540, R544, R545) -/

/-- Frame slot `k` becomes busy or free (R544). -/
def Block.slotBusy (b : Block) (k : Nat) (v : Bool) : Block := b.put ⟨aPLT_SLOT_BUSY, k, 1⟩ v

/-- The entries of a queue, and its count. -/
def Block.setQueue (b : Block) (q : Fin 8) (l : List QEntry) : Block :=
  { b with plant.queues := b.plant.queues.set q l }.set (PLT_Q_STAT_N q.1) l.length

/-- An entry or push of a queue is dropped: counted, source 167 + 6p. -/
def Block.queueDrop (b : Block) (q : Fin 8) : Block :=
  (b.inc (PLT_Q_STAT_DROPS q.1)).irq (167 + 6 * b.get (PLT_Q_CFG_PORT q.1))

/-- An entry whose launch time lies more than LATE_TOL in the past (R548). -/
def Block.lateEntry (b : Block) (q : Fin 8) (e : QEntry) : Bool := e.lt ≠ 0 && e.lt + 1000 * b.get (PLT_Q_CFG_LATE_TOL q.1) < b.ns

/-- The late entries of a queue are dropped (R540). -/
def Block.dropLate (b : Block) (q : Fin 8) : Block :=
  let (gone, kept) := b.plant.queues[q].partition (b.lateEntry q)
  if gone.isEmpty then b else gone.foldl (fun b e => (b.slotBusy e.slot false).queueDrop q) (b.setQueue q kept)

/-- Plant time steps by `d` (2^-32 ns); the delay list's due times step with it, and launch entries now late are dropped (R540). -/
def Block.stepTime (b : Block) (d : Int) : Block :=
  let b := { b with
    time := wrapN 96 ((b.time : Int) + d)
    descs := b.descs.map fun p =>
      if bits p.2.words[0].toNat 0 3 = 4 then (p.1, { p.2 with due := wrapN 64 ((p.2.due : Int) + sar d 32) }) else p }
  (List.finRange 8).foldl Block.dropLate b

/-- PLANT_TIME_STEP (R539): at a round boundary plant time advances by k rounds, the servo enters TRACK, the step is recorded. -/
def execPlantTimeStep (s : State) : Outcome :=
  .next (s.onBlk fun b =>
    match b.plant.step with
    | none => b
    | some k =>
      if ¬ b.atPhase then b
      else if b.get PLT_STAT_STATE ≠ 1 then { b with plant.step := none }
      else if b.get DEV_BOOT_PHASE = 7 then b.on PLT_STAT_ACQ_HELD
      else
        let b := { b with plant.step := none }.stepTime (k * b.roundNs * 2 ^ 32)
        let b := ((b.setServo 2).on PLT_STAT_STEPPED).irq 162
        b.event 0x60 1 (wrapN 32 k) (wrapN 32 (sar k 32)))

/-- The servo follows the ports' configuration: FREE without an enabled TIME_RECEIVER port, ACQUIRE when one is
enabled (Table 18.3). -/
def Block.plantRoles (b : Block) : Block :=
  let rx := (List.range 2).any fun p => b.flag (PLT_P_CFG_EN p) && b.get (PLT_P_CFG_ROLE p) = 1
  if rx then (if b.get PLT_STAT_STATE = 0 then b.setServo 1 else b)
  else if b.flag PLT_STAT_PARTNER then b
  else ({ b with plant.ri := 0, plant.step := none }.setPltRate 0).setServo 0

/-- PLT_CTL.REALIGN or a committed PLT_B_CTL.REALIGN (R542): refused in PHASE 0x7. -/
def Block.realign (b : Block) : Block :=
  if b.get DEV_BOOT_PHASE = 7 then (b.on PLT_STAT_REAL_REF).irq 162
  else
    let b := { b with plant.step := none }.set PLT_JOFS 0
    if b.get PLT_STAT_STATE = 0 then b else b.setServo 1

/-! ### Frames received (R533, R534) -/

/-- Every received frame asserts the frame-start source of its port (R534). -/
def Block.frameStart (b : Block) (p : Fin 2) : Block := b.irq (164 + 6 * p.1)

/-- A frame that is not handled is dropped and counted (R533, Table 18.1). -/
def Block.dropFrame (b : Block) (p : Fin 2) : Block := (b.inc (PLT_P_RX_DROP p.1)).irq (169 + 6 * p.1)

/-- The ingress stamp: this instant less PLT_P_RXLAT (R534). -/
def Block.ingress (b : Block) (p : Fin 2) : Int := (b.time : Int) - b.get (PLT_P_RXLAT p.1) * 2 ^ 24

/-- The instant a frame started now leaves the PHY: plus PLT_P_TXLAT (R535). -/
def Block.egress (b : Block) (p : Fin 2) : Int := (b.time : Int) + b.get (PLT_P_TXLAT p.1) * 2 ^ 24

/-- A port in a role, enabled. -/
def Block.portRole (b : Block) (p : Fin 2) (role : Nat) : Bool :=
  b.flag (PLT_P_CFG_EN p.1) && b.get (PLT_P_CFG_ROLE p.1) = role

/-- Whether a port runs the 802.1AS profile. -/
def Block.port8021as (b : Block) (p : Fin 2) : Bool := b.get (PLT_P_CFG_PROFILE p.1) = 2

/-- The domain of a port: 0 under 802.1AS (R533). -/
def Block.portDomain (b : Block) (p : Fin 2) : Nat := if b.port8021as p then 0 else b.get (PLT_P_CFG_DOMAIN p.1)

/-- An interval of `n` ns has passed since `t`; the first of a series may start at any time. -/
def Block.intervalDue (b : Block) (t : Option Nat) (n : Nat) : Bool := t.all fun t => t + n ≤ b.up

/-- What a port sends. -/
def Block.send (b : Block) (p : Fin 2) (x : TxMsg) : Block :=
  let q := b.plant.ports[p]
  b.setPort p { q with lastTx := some x, seq := q.seq + 1 }

/-- An offset measurement of a port: shown in PLT_P_OFS, and given to the servo unless it follows the partner
(R543). -/
def Block.portMeasure (b : Block) (p : Fin 2) (o : Int) : Block :=
  let b := b.seti (PLT_P_OFS p.1) (satI 32 (sar o 32))
  if b.flag PLT_STAT_PARTNER then b else b.measure o (b.syncNs p.1)

/-- A Sync's times are known: `diff` is ingress minus the grandmaster's time of sending (R537). -/
def Block.syncTimes (b : Block) (p : Fin 2) (diff : Int) : Block :=
  let q := b.plant.ports[p]
  let b := b.setPort p { q with syncDiff := diff, twoStep := none }
  b.portMeasure p ((b.get (PLT_P_MPD p.1) : Int) * 2 ^ 24 - diff)

/-- SYNC (R533, R537): accepted by a TIME_RECEIVER port in its domain from the source it obeys; a one-step Sync
measures at once, a two-step one awaits its Follow_Up; a 1588 port then sends a Delay_Req. `origin` carries the
correction, in 2^-32 ns. -/
def execSync (p : Fin 2) (source domain : Nat) (twoStep : Bool) (seq : Nat) (origin : Int) (s : State) : Outcome :=
  .next (s.onBlk fun b =>
    let b := b.frameStart p
    let q := b.plant.ports[p]
    let mine := match q.source with
      | none => true
      | some x => x = source
    if b.portRole p 1 ∧ domain = b.portDomain p ∧ mine = true then
      let t := b.ingress p
      let b := (b.setPort p { q with source := some source, heardAt := b.up }).on (PLT_P_STAT_SYNC_OK p.1)
      let b := if twoStep then b.setPort p { b.plant.ports[p] with twoStep := some (seq, t) }
        else b.syncTimes p (t - origin)
      if b.port8021as p then b
      else
        let e := b.egress p
        (b.setPort p { b.plant.ports[p] with reqSent := some e }).send p (.delayReq e)
    else b.dropFrame p)

/-- FOLLOW_UP (R533): completes the two-step Sync of its source and sequence. -/
def execFollowUp (p : Fin 2) (source seq : Nat) (origin : Int) (s : State) : Outcome :=
  .next (s.onBlk fun b =>
    let b := b.frameStart p
    let q := b.plant.ports[p]
    match q.twoStep with
    | some (n, t) => if n = seq ∧ q.source = some source then b.syncTimes p (t - origin) else b.dropFrame p
    | none => b.dropFrame p)

/-- DELAY_REQ (R533): a 1588 TIME_TRANSMITTER port answers with the ingress time. -/
def execDelayReq (p : Fin 2) (source : Nat) (s : State) : Outcome :=
  .next (s.onBlk fun b =>
    let b := b.frameStart p
    if b.portRole p 2 ∧ ¬ b.port8021as p then b.send p (.delayResp source (b.ingress p)) else b.dropFrame p)

/-- DELAY_RESP (R537): the mean path delay from the four times, shown in PLT_P_MPD. -/
def execDelayResp (p : Fin 2) (source : Nat) (received : Int) (s : State) : Outcome :=
  .next (s.onBlk fun b =>
    let b := b.frameStart p
    let q := b.plant.ports[p]
    match q.reqSent with
    | some t3 =>
      if b.portRole p 1 ∧ ¬ b.port8021as p ∧ q.source = some source then
        let d := (q.syncDiff + (received - t3)) / 2
        (b.setPort p { q with reqSent := none }).seti (PLT_P_MPD p.1) (sar d 24)
      else b.dropFrame p
    | none => b.dropFrame p)

/-- PDELAY_REQ (R533): answered one-step with the turnaround time; the launch is planned, so the turnaround is a
free value (DESIGN CHOICE, log entry 2). -/
def execPdelayReq (p : Fin 2) (source : Nat) (s : State) : Outcome :=
  .next (s.onBlk fun b =>
    let b := b.frameStart p
    if b.flag (PLT_P_CFG_EN p.1) ∧ b.get (PLT_P_CFG_ROLE p.1) ≠ 0 ∧ b.port8021as p then
      let (n, b) := b.take
      b.send p (.pdelayResp source (Config.freeNat n))
    else b.dropFrame p)

/-- The neighbour delay from a completed exchange: half of the round trip, scaled by the rate ratio, less the
turnaround (R533; PRESUMED, log entry 9). -/
def Block.neighbourDelay (b : Block) (p : Fin 2) (trip turn : Int) : Block :=
  let scaled := trip + trip * b.geti (PLT_P_NRR p.1) / 2 ^ 40
  b.seti (PLT_P_MPD p.1) (sar ((scaled - turn) / 2) 24)

/-- PDELAY_RESP (R537): one-step carries the turnaround in `value`; two-step carries the request's receipt time and
awaits its follow-up. -/
def execPdelayResp (p : Fin 2) (twoStep : Bool) (value : Int) (s : State) : Outcome :=
  .next (s.onBlk fun b =>
    let b := b.frameStart p
    let q := b.plant.ports[p]
    match q.pdSent with
    | some t1 =>
      if ¬ b.port8021as p then b.dropFrame p
      else
        let t4 := b.ingress p
        if twoStep then b.setPort p { q with pdResp := some (value, t4) }
        else (b.setPort p { q with pdSent := none }).neighbourDelay p (t4 - t1) value
    | none => b.dropFrame p)

/-- PDELAY_RESP_FOLLOW_UP (R533): completes a two-step response and gives the neighbour's rate ratio from two
exchanges. -/
def execPdelayRespFollowUp (p : Fin 2) (sent : Int) (s : State) : Outcome :=
  .next (s.onBlk fun b =>
    let b := b.frameStart p
    let q := b.plant.ports[p]
    match q.pdSent, q.pdResp with
    | some t1, some (t2, t4) =>
      let b := match q.ratioAt with
        | some (x3, x4) =>
          if t4 = x4 then b
          else b.seti (PLT_P_NRR p.1) (satI 32 (divRound (((sent - x3) - (t4 - x4)) * 2 ^ 40) (t4 - x4)))
        | none => b
      let b := b.setPort p { q with pdSent := none, pdResp := none, ratioAt := some (sent, t4) }
      b.neighbourDelay p (t4 - t1) (sent - t2)
    | _, _ => b.dropFrame p)

/-- ANNOUNCE (R533): counted; the port's state does not change. -/
def execAnnounce (p : Fin 2) (s : State) : Outcome :=
  .next (s.onBlk fun b =>
    let b := b.frameStart p
    let q := b.plant.ports[p]
    b.setPort p { q with announces := q.announces + 1 })

/-- SYNC_TRANSMIT (R533, R535): every Sync interval a TIME_TRANSMITTER port sends a one-step Sync with the time it leaves the PHY. -/
def execSyncTransmit (p : Fin 2) (s : State) : Outcome :=
  .next (s.onBlk fun b =>
    let q := b.plant.ports[p]
    if b.portRole p 2 ∧ b.intervalDue q.syncAt (b.syncNs p).toNat then
      (b.setPort p { q with syncAt := some b.up }).send p (.sync (b.egress p) q.seq) else b)

/-- The clockIdentity: the MAC address with 0xFFFE after its third byte (R532). -/
def Block.clockIdentity (b : Block) (p : Fin 2) : Nat :=
  let mac := b.get (PLT_P_MAC_HI p.1) * 2 ^ 32 + b.get (PLT_P_MAC_LO p.1)
  mac / 2 ^ 24 * 2 ^ 40 + 0xFFFE * 2 ^ 24 + mac % 2 ^ 24

/-- ANNOUNCE_TRANSMIT (R532, R533): a grandmaster of its own, once per second. -/
def execAnnounceTransmit (p : Fin 2) (s : State) : Outcome :=
  .next (s.onBlk fun b =>
    let q := b.plant.ports[p]
    if b.portRole p 2 ∧ b.intervalDue q.announceAt 1000000000 then
      (b.setPort p { q with announceAt := some b.up }).send p (.announce (b.clockIdentity p) 0 248 0xFE 0xFFFF (b.get (PLT_P_CFG_PRIO1 p.1)) 255 0xA0)
    else b)

/-- PDELAY_REQ_TRANSMIT (R533): once per second an 802.1AS port asks for the neighbour delay. -/
def execPdelayReqTransmit (p : Fin 2) (s : State) : Outcome :=
  .next (s.onBlk fun b =>
    let q := b.plant.ports[p]
    if b.flag (PLT_P_CFG_EN p.1) ∧ b.get (PLT_P_CFG_ROLE p.1) ≠ 0 ∧ b.port8021as p ∧ b.intervalDue q.pdelayAt 1000000000 then
      let e := b.egress p
      (b.setPort p { q with pdSent := some e, pdelayAt := some b.up }).send p (.pdelayReq e)
    else b)

/-- SYNC_RECEIPT_TIMEOUT (R541), RXTO Sync intervals after the last Sync (R533): source 166 + 6p; the port obeys a new source; TRACK or
LOCKED enters HOLDOVER. -/
def execSyncReceiptTimeout (p : Fin 2) (s : State) : Outcome :=
  .next (s.onBlk fun b =>
    let q := b.plant.ports[p]
    if ¬ b.portRole p 1 ∨ b.up < q.heardAt + b.receiptNs p then b
    else
      let b := ((b.setPort p { q with source := none, twoStep := none, heardAt := b.up }).off (PLT_P_STAT_SYNC_OK p.1)).irq (166 + 6 * p.1)
      let st := b.get PLT_STAT_STATE
      if (st = 2 ∨ st = 3) ∧ ¬ b.flag PLT_STAT_PARTNER then b.holdover else b)

/-- RECEIVED_FRAME_DROPPED (R533): frame start, drop and count. -/
def execReceivedFrameDropped (p : Fin 2) (s : State) : Outcome :=
  .next (s.onBlk fun b => (b.frameStart p).dropFrame p)

/-! ### Launch queues (R544 to R548) -/

/-- A write of PLT_Q_PUSH (R545). -/
def Block.queuePush (b : Block) (q : Fin 8) (v : Nat) : Block :=
  let k := bits v 0 5
  let l := b.plant.queues[q]
  if 16 ≤ l.length ∨ ¬ b.flag (PLT_Q_CFG_EN q.1) ∨ b.flag ⟨aPLT_SLOT_BUSY, k, 1⟩ then b.queueDrop q
  else (b.setQueue q (l ++ [⟨k, b.get (PLT_Q_LT q.1), bit v 5, bits v 16 11⟩])).slotBusy k true

/-- The head of a queue is due: plant time has come to its launch time less TXLAT (R546). -/
def Block.headDue (b : Block) (q : Fin 8) : Option QEntry :=
  match b.plant.queues[q] with
  | [] => none
  | e :: _ => if e.lt = 0 ∨ (e.lt : Int) * 2 ^ 32 ≤ b.egress (if b.get (PLT_Q_CFG_PORT q.1) = 1 then 1 else 0) then some e else none

/-- The frame a slot holds without its FCS: word 0 its length, 60 to 1,514, the bytes from word 1 (R544, R620). -/
def Block.slotFrame (b : Block) (k : Nat) : List Byte :=
  let n := clampN 60 1514 (b.rd (aPLT_SLOT k 0)).toNat
  ((List.range ((n + 3) / 4)).flatMap fun i => bytesBE 4 (b.rd (aPLT_SLOT k (i + 1))).toNat).take n

/-- The 10-byte PTP Timestamp of an instant (R547). -/
def ptpStamp (t : Int) : List Byte :=
  let ns := (wrapN 96 t) / 2 ^ 32
  bytesBE 6 (ns / 1000000000) ++ bytesBE 4 (ns % 1000000000)

/-- Bytes overwritten at an offset. -/
def overlay (bs : List Byte) (ofs : Nat) (x : List Byte) : List Byte :=
  bs.take ofs ++ x.take (bs.length - ofs) ++ bs.drop (ofs + x.length)

/-- A frame with the FCS that the device appends (R544), that of IEEE 802.3 (PRESUMED, log entry 9). -/
def withFcs (bs : List Byte) : List Byte := bs ++ bytesLE 4 (crc32 bs)

/-- A due head is launched, or dropped as late or with the link down (R546 to R548). -/
def Block.launchHead (b : Block) (q : Fin 8) (p : Fin 2) (e : QEntry) : Block :=
  let b' := (b.setQueue q ((b.plant.queues[q]).drop 1)).slotBusy e.slot false
  if b.lateEntry q e ∨ ¬ b.flag (PLT_P_STAT_LINK p.1) then b'.queueDrop q
  else
    let f := b.slotFrame e.slot
    b'.send p (.frame (withFcs (if e.stamp then overlay f e.ofs (ptpStamp (b.egress p)) else f)))

/-- The queue whose due head a port starts next: 7 down to 0 (R546). -/
def Block.dueQueue (b : Block) (p : Fin 2) : Option (Fin 8 × QEntry) :=
  [7, 6, 5, 4, 3, 2, 1, 0].findSome? fun (q : Fin 8) =>
    if b.get (PLT_Q_CFG_PORT q.1) = p.1 then (b.headDue q).map fun e => (q, e) else none

/-- LAUNCH (R546, R548): the port's next due head is launched or dropped. -/
def execLaunch (p : Fin 2) (s : State) : Outcome :=
  .next (s.onBlk fun b =>
    match b.dueQueue p with
    | some (q, e) => b.launchHead q p e
    | none => b)

/-! ### Line-angle messages (R549, R550) -/

/-- Bytes 0 to 51 of a line-angle message (Table 18.5). -/
def LaMsg.bytes (x : LaMsg) : List Byte :=
  bytesBE 2 x.magic ++ bytesBE 1 x.ver ++ bytesBE 1 x.flags ++ bytesBE 8 x.serial ++ bytesBE 4 x.salt ++
    bytesBE 8 x.seq ++ bytesBE 8 x.time ++ bytesBE 4 x.tfrac ++ bytesBE 8 x.angle ++ bytesBE 8 x.rate

/-- The tag of a message under a key, nonce SALT and SEQ. -/
def LaMsg.tag (x : LaMsg) (key : BitVec 128) : BitVec 128 :=
  Config.gcmTag key (bytesBE 4 x.salt ++ bytesBE 8 x.seq) x.bytes

/-- The LARX record that names a sender on a port. -/
def Block.larx (b : Block) (p serial : Nat) : Option LarxRec :=
  match b.dealt with
  | some d => d.plant.larx.find? fun r => r.port = p && r.serial = serial
  | none => none

/-- The TIME of the last message accepted from a sender. -/
def Plant.lastOf (x : Plant) (serial : Nat) : Option Nat := (x.laLast.find? (·.1 = serial)).map (·.2)

/-- LINE_ANGLE_MESSAGE (R550): a KIND 4 sample when tag, sender, order, PLOCK and the own lock all hold; otherwise
discarded and counted. -/
def execLineAngleMessage (p : Fin 2) (x : LaMsg) (tag : BitVec 128) (s : State) : Outcome :=
  .next (s.onBlk fun b =>
    let b := b.frameStart p
    let ok := match b.larx p.1 x.serial with
      | some r =>
        x.magic = 0x4C41 && x.ver = 1 && x.tag r.key = tag && bit x.flags 3 && b.get PLT_STAT_STATE = 3 &&
          (match b.plant.lastOf x.serial with
            | some t => t < x.time
            | none => true)
      | none => false
    if ok then
      let b := { b with plant.laLast := (x.serial, x.time) :: b.plant.laLast.filter (·.1 ≠ x.serial) }
      b.angleSample 4 p.1 x.angle x.time false
    else (b.inc (PLT_P_LA_DROP p.1)).irq (168 + 6 * p.1))

/-- The message that describes this boundary (R549); `serial` is the device's. -/
def Block.laMessage (b : Block) (serial : Nat) : LaMsg :=
  { magic := 0x4C41, ver := 1,
    flags := b.get ANG_STAT_LOCKED + 2 * b.get ANG_STAT_LOST + 4 * b2n b.ang.resyncSince +
      8 * b2n (b.get PLT_STAT_STATE = 3),
    serial := serial, salt := b.plant.laSalt, seq := b.plant.laSeq, time := b.ns, tfrac := b.frac,
    angle := b.get ANG_ROUND, rate := wrapN 64 b.ang.w }

/-- The LATX record: where line-angle messages go, and K_LA. -/
def Block.latx (b : Block) : LatxRec := ((b.dealt.bind fun d => d.plant.latx.head?)).getD ⟨0, 0, 0, 0, 0⟩

/-- At a boundary whose round number is a multiple of RATE_DIV the line-angle message is sent; with the link down it
cannot start, is dropped, and source 163 asserts (R549). -/
def Block.laTransmit (b : Block) (serial : Nat) : Block :=
  let p : Fin 2 := if b.flag PLT_LA_CTL_LAPORT then 1 else 0
  if b.flag PLT_LA_CTL_EN ∧ b.round % (b.get PLT_LA_CTL_RATE_DIV + 1) = 0 then
    if b.flag (PLT_P_STAT_LINK p.1) then
      let x := b.laMessage serial
      { b with plant.laSeq := b.plant.laSeq + 1, ang.resyncSince := false }.send p
        (.lineAngle b.latx.mac b.latx.udp x (x.tag b.latx.key))
    else b.irq 163
  else b

/-! ### MDIO, links, counters -/

/-- A write of PLT_MDIO starts an MDIO frame (R531). -/
def Block.mdioWrite (b : Block) (v : Nat) : Block := b.wr aPLT_MDIO (BitVec.ofNat 32 (bits v 0 29 + 2 ^ 31))

/-- MDIO_DONE (R531): BUSY clears; a read puts what the PHY returned into DATA. -/
def execMdioDone (data : BitVec 16) (s : State) : Outcome :=
  .next (s.onBlk fun b =>
    if b.flag PLT_MDIO_BUSY then
      let b := b.off PLT_MDIO_BUSY
      if 2 ≤ b.get PLT_MDIO_OP then b.set PLT_MDIO_DATA data.toNat else b
    else b)

/-- PLANT_LINK_CHANGE (R553): LINK and AN_DONE take their values; a change asserts source 165 + 6p. -/
def execPlantLinkChange (p : Fin 2) (link anDone : Bool) (s : State) : Outcome :=
  .next (s.onBlk fun b =>
    if b.flag (PLT_P_STAT_LINK p.1) = link ∧ b.flag (PLT_P_STAT_AN_DONE p.1) = anDone then b
    else ((b.put (PLT_P_STAT_LINK p.1) link).put (PLT_P_STAT_AN_DONE p.1) anDone).irq (165 + 6 * p.1))

/-- PLT_CTL.CNT_CLR clears the plant counters (R552). -/
def Block.plantCntClr (b : Block) : Block :=
  let b := (b.set PLT_JREF_CNT 0).set PLT_HO_CNT 0
  let b := b.each 2 fun b p => (b.set (PLT_P_RX_DROP p) 0).set (PLT_P_LA_DROP p) 0
  b.each 8 fun b q => b.set (PLT_Q_STAT_DROPS q) 0

/-- A write of PLT_CTL (Table 18.7). -/
def Block.pltCtl (b : Block) (v : Nat) : Block :=
  let b := if bit v 0 then b.realign else b
  if bit v 1 then b.plantCntClr else b

/-- A write to a frame slot: ignored while the slot is busy, which sets SLOT_WR (R544). -/
def Block.slotWrite (b : Block) (a : Nat) (v : Word) : Block :=
  if b.flag ⟨aPLT_SLOT_BUSY, (a - 0x34000) / 0x600, 1⟩ then b.on PLT_STAT_SLOT_WR else b.wr a v

end Sys2Proof.Machine
end

