-- ==== Sys2Proof/Machine/SafetyUnit.lean ====
section
/-!
DEFINITION. The safety functions (15_safety.md): two channels with their inputs, functions, stops, outputs, safety
words, faults and lockout. Channel A evaluates on its 50 µs grid, channel B at each round boundary (Table 15.1).
-/

namespace Sys2Proof.Machine

/-! ### The SAFETY section in force -/

/-- The SAFETY section of the dealt deck. -/
def Block.safSect (b : Block) : SafetySect := (b.dealt.map (·.safety)).getD ⟨[], [], [], [], []⟩
/-- The SAFID record. -/
def Block.safid (b : Block) : SafidRec := b.safSect.safids.headD ⟨0, 0, 0, 0, 0, 0, 0⟩
/-- SFILT in ns. -/
def Block.sfilt (b : Block) : Nat := b.safid.sfilt * 100000

/-- The INPUT record that configures SDI `i`, and whether `i` is the second input of its pair (R467). -/
def Block.inputOf (b : Block) (i : Nat) : Option (InputRec × Bool) :=
  match b.safSect.inputs.find? (fun r => r.sdi = i && r.mode ≠ 0) with
  | some r => some (r, false)
  | none => match b.safSect.inputs.find? (fun r => r.sdi + 1 = i && (r.mode = 2 || r.mode = 3)) with
    | some r => some (r, true)
    | none => none

/-- The TPS an input is assigned to; none when unpulsed. -/
def Block.tpsOf (b : Block) (i : Nat) : Option Nat :=
  match b.inputOf i with
  | some (r, false) => if r.tps = 0xF then none else some r.tps
  | some (r, true) => if r.tpsPair = 0xF then none else some r.tpsPair
  | none => none

/-! ### Showing the state (Table 15.7, Table 15.8) -/

/-- An input fault of SDI `i` in force: some TPS pulse last found it (R468). -/
def Safety.inputFault (x : Safety) (i : Nat) : Bool := x.faultNow.toList.any (bit · i)

/-- An input that reads demand for want of a sound signal (R468, R470). -/
def Safety.heldDemand (x : Safety) (i : Fin 16) : Bool :=
  x.inputFault i || bit x.faultHeld i || x.disc[i] != .none

/-- A fault lockout is in force in either channel (R464). -/
def Safety.flock (x : Safety) : Bool := x.a.fault ≠ 0 || x.b.fault ≠ 0

/-- Lockout (R483): after start-up, and while a manual function or event holds a stop. -/
def Safety.lockout (x : Safety) : Bool := x.startLock || (x.a.stops ++ x.b.stops).any (!·.auto)

/-- A safety interrupt source with its scorepad record (R488). -/
def Block.safIrq (b : Block) (n : Nat) : Block := (b.irq n).event 0x50 3 n (b.rd aSAF_FAULT).toNat

/-- Whether both channels may permit anything: operating (R39, R462), tested, no fault lockout, past the lockout since
start-up (R37). -/
def Block.safRuns (b : Block) : Bool :=
  (b.get DEV_BOOT_PHASE = 6 || b.get DEV_BOOT_PHASE = 7) && b.dealt.isSome && b.safety.a.tested && b.safety.b.tested &&
    !b.safety.flock && !b.safety.startLock

/-- The SOUT halves a channel switches on: permitted pairs (R471, R478); channel A's also need the die-to-die links (R17). -/
def Block.halvesOf (b : Block) (c : Chan) (linkOk : Bool) : Nat :=
  if ¬ b.safRuns ∨ ¬ linkOk then 0
  else (List.range 8).foldl (fun a p => setBits a p 1 (b2n (!c.stops.any fun s => s.removed && bit s.sout p))) 0

/-- A bit per function for which `f` holds of some stop in either channel. -/
def Safety.funcMap (x : Safety) (f : Stop → Bool) : Nat :=
  (x.a.stops ++ x.b.stops).foldl (fun a s => match s.src with
    | .func n => if f s then setBits a n 1 1 else a
    | .event _ _ => a) 0

/-- The safety page and DEV_BOOT.PHASE follow the channels: entering or leaving lockout asserts source 145; PHASE is 6 in
lockout and 7 when motion is permitted (R483). -/
def Block.showSafety (b : Block) : Block :=
  let x := b.safety
  let ha := b.halvesOf x.a (!b.field.linkLost)
  let hb := b.halvesOf x.b true
  let b := { b with safety.a.halves := ha, safety.b.halves := hb }
  let b := (b.set SAF_SOUT_A ha).set SAF_SOUT_B hb
  let b := (b.set SAF_SDI_A x.a.sdi).set SAF_SDI_B x.b.sdi
  let faults := (List.range 16).foldl (fun a i => setBits a i 1 (b2n (x.inputFault i || bit x.faultHeld i))) 0
  let discs := (List.finRange 16).foldl (fun a (i : Fin 16) => setBits a i.1 1 (b2n (x.disc[i] != .none))) 0
  let b := (b.set SAF_SDI_ERR_FAULT faults).set SAF_SDI_ERR_DISC discs
  let b := (b.set SAF_FUNC_STOP (x.funcMap fun _ => true)).set SAF_FUNC_LOCK (x.funcMap (!·.auto))
  let b := (b.put SAF_STAT_FLOCK x.flock).put SAF_STAT_A_OK (x.a.tested && x.a.exch)
  let b := (b.put SAF_STAT_B_OK (x.b.tested && x.b.exch)).put SAF_STAT_SS1_RUN
    ((x.a.stops ++ x.b.stops).any fun s => s.ss1 && !s.removed)
  let lock := x.lockout
  let operating := b.get DEV_BOOT_PHASE = 6 || b.get DEV_BOOT_PHASE = 7
  let permitted := operating && !lock && !x.flock
  let b := b.put SAF_STAT_PERMITTED permitted
  let b := if b.flag SAF_STAT_LOCKOUT = lock then b else (b.put SAF_STAT_LOCKOUT lock).safIrq 145
  if operating then b.setPhase (if permitted then 7 else 6) else b

/-! ### Fault lockout (R464, Table 15.5) -/

/-- A safety fault raised by channel A, channel B or both: fault lockout, source 146; the first code stays. -/
def Block.safFault (b : Block) (code : Nat) (byA byB : Bool) : Block :=
  let first := !b.safety.flock
  let b := if first then ((b.set SAF_FAULT_FCODE code).put SAF_FAULT_A byA).put SAF_FAULT_B byB else b
  let b := { b with
    safety.a.fault := if b.safety.a.fault = 0 then code else b.safety.a.fault
    safety.b.fault := if b.safety.b.fault = 0 then code else b.safety.b.fault }
  (if first then b.safIrq 146 else b).showSafety

/-! ### Inputs (R467, R470) -/

/-- The filtered levels of a channel: a new level is accepted when it has held for SFILT. -/
def Block.filterSdi (b : Block) (sdi : Nat) : Nat :=
  (List.finRange 16).foldl (fun a (i : Fin 16) =>
    if b.safety.changed[i] + b.sfilt ≤ b.up then setBits a i.1 1 (b2n (bit b.safety.raw i)) else a) sdi

/-- An input reads demand in a channel's filtered levels: low, and high for the second input of an antivalent pair; an input
that is off never does (R467). -/
def Block.reads (b : Block) (sdi i : Nat) : Bool :=
  match b.inputOf i with
  | some (r, true) => if r.mode = 3 then bit sdi i else !bit sdi i
  | some (_, false) => !bit sdi i
  | none => false

/-- The input or pair that begins at SDI `i` demands (R468, R470). -/
def Block.demands (b : Block) (sdi i : Nat) : Bool :=
  let held (k : Nat) : Bool := if h : k < 16 then b.safety.heldDemand ⟨k, h⟩ else false
  match b.inputOf i with
  | some (r, _) =>
    if r.mode = 2 ∨ r.mode = 3 then b.reads sdi i || b.reads sdi (i + 1) || held i || held (i + 1)
    else b.reads sdi i || held i
  | none => false

/-- The pair that begins at SDI `i` has two meanings in either channel (R470). -/
def Block.pairApart (b : Block) (i : Nat) : Bool :=
  match b.inputOf i with
  | some (r, false) =>
    let differs (sdi : Nat) : Bool := b.reads sdi i != b.reads sdi (i + 1)
    (r.mode = 2 || r.mode = 3) && (differs b.safety.a.sdi || differs b.safety.b.sdi)
  | _ => false

/-- How long each pair has had two meanings, and a discrepancy's way to its end: both inputs demand together, then neither, in both
channels (R470). -/
def Block.discStep (b : Block) : Block :=
  let since := Vector.ofFn fun i : Fin 16 => if b.pairApart i then some (b.safety.apart[i].getD b.up) else none
  let b := { b with safety.apart := since }
  (List.finRange 16).foldl (fun b (i : Fin 16) =>
    let both (v : Bool) : Bool :=
      b.reads b.safety.a.sdi i = v && b.reads b.safety.a.sdi (i + 1) = v && b.reads b.safety.b.sdi i = v &&
        b.reads b.safety.b.sdi (i + 1) = v
    if i.1 % 2 = 0 then
      match b.safety.disc[i] with
      | .raised => if both true then { b with safety.disc := b.safety.disc.set i .bothDemand } else b
      | .bothDemand => if both false then { b with safety.disc := b.safety.disc.set i .clearing } else b
      | _ => b
    else b) b

/-! ### Stops (R477 to R481) -/

/-- The axes whose nodes a stop targets. -/
def Block.axesOf (b : Block) (nodes : List Nat) : List Nat :=
  (b.axisList.filter fun r => r.kind ≠ 3 && bit (nodes.getD r.segment 0) r.node).map (·.axis)

/-- The node masks of axes. -/
def Block.nodesOf (b : Block) (axes : List Nat) : List Nat :=
  (List.range 8).map fun s => (b.axisList.filter fun r => axes.contains r.axis && r.kind ≠ 3 && r.segment = s).foldl
    (fun a r => setBits a r.node 1 1) 0

/-- The masks of every node. -/
def everyNode : List Nat := List.replicate 8 (2 ^ 64 - 1)

/-- The stop that a demand of a function starts: an STO removes torque at once, an SS1 at its end (R478) (DEDUCED, log entry 90). -/
def Block.stopOf (b : Block) (f : FunctionRec) : Stop :=
  { src := .func f.func, nodes := f.nodes, sout := f.sout, ss1 := bit f.flags 0, ss1T := f.ss1T, decMin := f.decMin,
    vtol := f.vtol, t0 := b.up, v0 := (b.axesOf f.nodes).map fun i => (i, (b.geti (AX_ACTVEL i)).natAbs),
    removed := !bit f.flags 0, auto := bit f.flags 1, demand := true }

/-- One function in one channel's list of stops: a demand starts its stop; an auto stop that has removed torque ends once
the input reads no demand (R477). The answer says whether anything began or ended. -/
def Block.evalFunc (b : Block) (sdi : Nat) (stops : List Stop) (f : FunctionRec) : List Stop × Bool :=
  let d := b.demands sdi f.sdi
  match stops.find? (·.src = .func f.func) with
  | none => if d then (stops ++ [b.stopOf f], true) else (stops, false)
  | some s =>
    if ¬ d ∧ s.auto ∧ s.removed then (stops.filter (·.src ≠ .func f.func), true)
    else (stops.map fun s => if s.src = .func f.func then { s with demand := d } else s, false)

/-- Every function in one channel. -/
def Block.evalFuncs (b : Block) (sdi : Nat) (stops : List Stop) : List Stop × Bool :=
  b.safSect.functions.foldl (fun (l, c) f => let (l', c') := b.evalFunc sdi l f; (l', c || c')) (stops, false)

/-- Channel A evaluates (R477). -/
def Block.evalA (b : Block) : Block :=
  let sdi := b.filterSdi b.safety.a.sdi
  let b := { b with safety.a.sdi := sdi }.discStep
  let (l, ch) := b.evalFuncs sdi b.safety.a.stops
  let b := { b with safety.a.stops := l }
  (if ch then b.safIrq 144 else b).showSafety

/-! ### Channel B: events and the SS1 monitor (R480, R482) -/

/-- The condition of an event still stands: an axis fault of the code, or a lost line-angle source. -/
def Block.eventHolds (b : Block) (code : Nat) (axes : List Nat) : Bool :=
  if code ≤ 8 then axes.any fun i => b.flag (AX_STAT_FAULT i) && b.get (AX_STAT_FCODE i) = code
  else code = 0x10 && b.flag ANG_STAT_LOST

/-- The reaction to an event: SS1 or not, restart, targets, the function named (R482, Table 15.3). -/
def Block.reaction (b : Block) (code : Nat) (axes : List Nat) : Option (Bool × Bool × List Nat × Option FunctionRec) :=
  if code = 0x20 then some (true, false, everyNode, none)
  else if code = 0x21 then some (true, false, b.nodesOf axes, none)
  else
    match b.safSect.events.find? (·.code = code) with
    | some r =>
      if r.reaction = 0 then none
      else
        let f := b.safSect.functions.find? (·.func = r.func)
        let nodes := match f with
          | some f => f.nodes
          | none => if axes.isEmpty then everyNode else b.nodesOf axes
        some (r.reaction = 1, r.auto, nodes, f)
    | none => none

/-- The stop that an event starts. The manual gives an SS1 without a named function no time and no bound: these are free
values (DESIGN CHOICE, log entry 14). -/
def Block.eventStop (b : Block) (code : Nat) (axes : List Nat) (ss1 auto : Bool) (nodes : List Nat)
    (f : Option FunctionRec) : Stop × Block :=
  let s : Stop :=
    { src := .event code axes, nodes := nodes, sout := 0, ss1 := ss1, ss1T := 0, decMin := 0, vtol := 0, t0 := b.up,
      v0 := (b.axesOf nodes).map fun i => (i, (b.geti (AX_ACTVEL i)).natAbs), removed := !ss1, auto := auto,
      demand := true }
  match f with
  | some f => ({ s with ss1T := f.ss1T, decMin := f.decMin, vtol := f.vtol }, b)
  | none =>
    let (n, b) := b.take
    ({ s with
      ss1T := Config.freeNat (3 * n), decMin := Config.freeNat (3 * n + 1), vtol := Config.freeNat (3 * n + 2) }, b)

/-- Channel B takes the device events raised since its last evaluation. -/
def Block.takeEvents (b : Block) : Block :=
  let evs := b.safety.events
  let b := { b with safety.events := [] }
  let b := evs.foldl (fun b (code, axes) =>
    match b.reaction code axes with
    | some (ss1, auto, nodes, f) =>
      if b.safety.b.stops.any (·.src = .event code axes) then b
      else
        let (s, b) := b.eventStop code axes ss1 auto nodes f
        (({ b with safety.b.stops := b.safety.b.stops ++ [s] }.on SAF_FLAGS_EVT).safIrq 151)
    | none => b) b
  -- an auto event that has removed torque ends once its condition is gone (R477, R482)
  let keep (s : Stop) : Bool := match s.src with
    | .event code axes => !(s.auto && s.removed && !b.eventHolds code axes)
    | .func _ => true
  { b with safety.b.stops := b.safety.b.stops.filter keep }

/-- The SS1 monitor of one stop (R480): whether torque is removed now, and whether an axis broke the bound. -/
def Block.monitor (b : Block) (s : Stop) : Bool × Bool :=
  let t := b.up - s.t0
  let v (i : Nat) : Nat := (b.geti (AX_ACTVEL i)).natAbs
  let axes := b.axesOf s.nodes
  let still := axes.all fun i => v i ≤ b.safid.ssv
  let broke := axes.any fun i =>
    match s.v0.find? (·.1 = i) with
    | some (_, v0) => ((v0 + s.vtol : Nat) : Int) * 1000000 < v i * 1000000 + s.decMin * t
    | none => false
  let lost := axes.any fun i => 4 ≤ (b.ax i).extrapRun
  (still || broke || lost || decide (s.ss1T * 1000000 ≤ t), broke)

/-- Channel B runs the monitor over its stops: a broken bound raises DECEL, the function's lockout, and event 0x22, an STO of
the function's nodes with manual restart (Table 15.3). -/
def Block.monitorStops (b : Block) : Block :=
  b.safety.b.stops.foldl (fun b s =>
    if s.ss1 ∧ ¬ s.removed then
      let (gone, broke) := b.monitor s
      let upd (x : Stop) : Stop :=
        if x.src = s.src then { x with removed := x.removed || gone, auto := x.auto && !broke } else x
      let b := { b with safety.b.stops := b.safety.b.stops.map upd }
      if broke then
        let sto : Stop := { s with
          src := .event 0x22 (b.axesOf s.nodes), ss1 := false, sout := 0, removed := true, auto := false }
        (({ b with safety.b.stops := b.safety.b.stops ++ [sto] }.on SAF_FLAGS_DECEL).on SAF_FLAGS_EVT).safIrq 151
      else b
    else b) b

/-- Channel B evaluates, at a boundary. -/
def Block.evalB (b : Block) : Block :=
  let sdi := b.filterSdi b.safety.b.sdi
  let b := { b with safety.b.sdi := sdi }.discStep
  let (l, ch) := b.evalFuncs sdi b.safety.b.stops
  let b := { b with safety.b.stops := l }
  let b := if ch then b.safIrq 144 else b
  (b.takeEvents.monitorStops).showSafety

/-! ### Safety words (R472, R473) -/

/-- PERMIT of a channel's word for segment `s`: none in contract 0 or while nothing may be permitted; else every position
but those of stops that removed torque. -/
def Block.permitOf (b : Block) (c : Chan) (s : Nat) : Nat :=
  if ¬ b.safRuns ∨ b.get (SEG_STAT_CONTRACT s) = 0 then 0
  else c.stops.foldl (fun a x => if x.removed then a - (a &&& x.nodes.getD s 0) else a) (2 ^ 64 - 1)

/-- SS1 of a channel's word for segment `s`: targets of a running SS1. -/
def Chan.ss1Of (c : Chan) (s : Nat) : Nat :=
  c.stops.foldl (fun a x => if x.ss1 ∧ ¬ x.removed then a ||| x.nodes.getD s 0 else a) 0

/-- The words for the next boundary are built from the state at this one (R473). -/
def Block.buildWords (b : Block) : Block :=
  let f (c : Chan) : Chan := { c with
    permit := Vector.ofFn fun k => b.permitOf c k.1, ss1 := Vector.ofFn fun k => c.ss1Of k.1 }
  { b with safety.a := f b.safety.a, safety.b := f b.safety.b }

/-- CRC-32C of R472. -/
def crc32c (bs : List Byte) : Nat :=
  let sh (c : Nat) : Nat := if c % 2 = 1 then (c / 2) ^^^ 0x82F63B78 else c / 2
  (bs.foldl (fun c b => (List.range 8).foldl (fun c _ => sh c) (c ^^^ b.toNat)) 0xFFFFFFFF) ^^^ 0xFFFFFFFF

/-- PERMIT as a channel sends it now: the one built a boundary ago (R473), and STO for every node in start-up, in a stopped state, while
a deck is dealt and in contract 0 (01_dealer_and_helpers.md R39, 03_deck.md R96). -/
def Block.permitNow (b : Block) (c : Chan) (s : Fin 8) : Nat :=
  let ph := b.get DEV_BOOT_PHASE
  if (ph ≠ 6 ∧ ph ≠ 7) ∨ b.boot.dealing ∨ b.get (SEG_STAT_CONTRACT s) = 0 then 0 else c.permit[s]

/-- A channel's word for segment `s` (Table 15.2). -/
def Block.safeWord (b : Block) (c : Chan) (isB : Bool) (s : Fin 8) : SafeWord :=
  let permit := b.permitNow c s
  let w : SafeWord :=
    { byte0 := 0x10 + (if isB then 8 else 0) + s.1
      byte1 := b.get PTN_STAT_P + 2 * b2n b.safety.lockout
      scnt := c.scnt[s], permit := permit, ss1 := c.ss1[s], scrc := 0 }
  let body := bytesBE 4 b.safid.saddr ++ bytesBE 1 w.byte0 ++ bytesBE 1 w.byte1 ++ bytesBE 2 w.scnt ++ bytesBE 8 w.permit ++
    bytesBE 8 w.ss1
  { w with scrc := crc32c body }

/-- Both channels' counters of segment `s` advance, once per segment round (Table 15.2), in a dummy too (R484). -/
def Block.countWords (b : Block) (s : Fin 8) : Block :=
  let x := b.safety
  { b with
    safety.a.scnt := x.a.scnt.set s ((x.a.scnt[s] + 1) % 2 ^ 16)
    safety.b.scnt := x.b.scnt.set s ((x.b.scnt[s] + 1) % 2 ^ 16) }

/-- Segment `s` emits a lead frame: both counters advance, and the page shows what the words carry (Table 15.7). -/
def Block.emitWords (b : Block) (s : Fin 8) : Block :=
  let x := b.safety
  let b := b.countWords s
  (b.set (SAF_PERMIT s) (b.permitNow x.a s &&& b.permitNow x.b s)).set (SAF_SS1 s) (x.a.ss1[s] ||| x.b.ss1[s])

/-! ### The commands -/

/-- SDI_EDGE (R467): the raw level changes now. -/
def execSdiEdge (i : Fin 16) (level : Bool) (s : State) : Outcome :=
  .next (s.onBlk fun b =>
    if bit b.safety.raw i = level then b
    else { b with
      safety.raw := setBits b.safety.raw i 1 (b2n level), safety.changed := b.safety.changed.set i b.up })

/-- EVALUATION_CYCLE (R477). -/
def execEvaluationCycle (s : State) : Outcome := .next (s.onBlk Block.evalA)

/-- Both channels tested, exchanging, and channel A's cause gone: channel A leaves fault lockout (R465), and the field die's clock, which
is its own, has not failed (R496) (DEDUCED, log entry 91). -/
def Block.leaveFault (b : Block) : Block :=
  if b.safety.a.tested ∧ b.safety.b.tested ∧ b.safety.b.fault = 0 ∧ b.safety.a.exch then
    { b with safety.a.fault := 0, field.clockFail := false } else b

/-- SAFETY_EXCHANGE (R466): an exchange that is valid at A, at B; `clockOk` says that neither finds the other's clock outside
±5 % (Table 15.5), a fault that switches the field outputs off as well (R496). -/
def execSafetyExchange (toA toB clockOk : Bool) (s : State) : Outcome :=
  .next (s.onBlk fun b =>
    let b := { b with
      safety.a.exch := b.safety.a.exch || toA, safety.b.exch := b.safety.b.exch || toB
      safety.a.exchAt := if toA then some b.up else b.safety.a.exchAt
      safety.b.exchAt := if toB then some b.up else b.safety.b.exchAt }.leaveFault
    let differ := b.safety.a.sdi ^^^ b.safety.b.sdi
    let since := Vector.ofFn fun i : Fin 16 =>
      if bit differ i ∧ (b.inputOf i).isSome then some (b.safety.mismatch[i].getD b.up) else none
    let b := { b with safety.mismatch := since }
    let late := since.toList.any fun t => match t with
      | some t => t + 2 * b.sfilt < b.up
      | none => false
    let b := if late ∧ (toA ∨ toB) then b.safFault 4 toA toB else b
    if clockOk then b.showSafety else ({ b.safFault 8 true true with field.clockFail := true }.refreshOutputs).showSafety)

/-- EXCHANGE_TIMEOUT (R466): a channel received no valid exchange for 1 ms. -/
def execExchangeTimeout (channelA : Bool) (s : State) : Outcome :=
  .next (s.onBlk fun b =>
    let early := match (if channelA then b.safety.a else b.safety.b).exchAt with
      | some t => decide (b.up < t + 1000000)
      | none => false
    if early then b else
    let b := if channelA then { b with safety.a.exch := false } else { b with safety.b.exch := false }
    b.safFault 5 channelA (!channelA))

/-- TEST_PULSE (R468): the off-pulse of TPS `j`; `fell` the inputs that fell during it; `driverOk` the driver's readback. -/
def execTestPulse (j : Fin 4) (fell : BitVec 16) (driverOk : Bool) (s : State) : Outcome :=
  .next (s.onBlk fun b =>
    let bad := (List.range 16).foldl (fun a i =>
      let closed := bit b.safety.a.sdi i && bit b.safety.b.sdi i
      let wrong := match b.tpsOf i with
        | some k => if k = j.1 then closed && !bit fell.toNat i else bit fell.toNat i
        | none => false
      setBits a i 1 (b2n wrong)) 0
    let new := bad - (bad &&& b.safety.faultHeld)
    let b := { b with
      safety.faultNow := b.safety.faultNow.set j bad, safety.faultHeld := b.safety.faultHeld ||| bad }
    let b := if new ≠ 0 then (b.on SAF_FLAGS_XSHORT).safIrq 148 else b
    (if driverOk then b else b.safFault 7 true true).showSafety)

/-- DISCREPANCY (R470): the pair that begins at SDI `i` did not reach the same meaning within DISC. -/
def execDiscrepancy (i : Fin 16) (s : State) : Outcome :=
  .next (s.onBlk fun b =>
    match b.inputOf i, b.safety.apart[i] with
    | some (r, false), some t =>
      if t + r.disc * 10000000 ≤ b.up ∧ b.safety.disc[i] = .none then
        (({ b with safety.disc := b.safety.disc.set i .raised }.on SAF_FLAGS_DISC).safIrq 147).showSafety
      else b
    | _, _ => b)

/-- SOUT_DARK_TEST (R471): each channel switches its half of a pair with TEST off and reads back both; a half that reads on
is fault 0x06 (DEDUCED, log entry 88). -/
def execSoutDarkTest (p : Fin 8) (stuckA stuckB : Bool) (s : State) : Outcome :=
  .next (s.onBlk fun b =>
    if (b.safSect.souts.any fun r => r.pair = p.1 && r.test) ∧ (stuckA ∨ stuckB) then
      let b := b.set SAF_SOUT_STUCK (setBits (b.get SAF_SOUT_STUCK) p.1 1 1)
      ((b.on SAF_FLAGS_SOUT_ERR).safIrq 149).safFault 6 true true
    else b)

/-- SS1_T_EXPIRY (R479): channel A removes torque SS1_T after its decision. -/
def execSs1TExpiry (f : Fin 32) (s : State) : Outcome :=
  .next (s.onBlk fun b =>
    let upd (x : Stop) : Stop :=
      if x.src = .func f.1 ∧ x.ss1 ∧ x.t0 + x.ss1T * 1000000 ≤ b.up then { x with removed := true } else x
    { b with safety.a.stops := b.safety.a.stops.map upd }.showSafety)

/-- A lockout reset is refused (R483) (DEDUCED, log entry 89). -/
def Block.refuseReset (b : Block) : Block := (b.on SAF_STAT_RESET_REF).safIrq 145

/-- A debug unlock with write access is in force (02_trust.md R72). -/
def Trust.writeUnlock (t : Trust) : Bool := t.unlock.any fun s => bit s 1 || bit s 3 || bit s 6

/-- LOCKOUT_RESET (R483): SRST_IN falls after the widths, in ms, that the channels measured. -/
def execLockoutReset (widthA widthB : Nat) (s : State) : Outcome :=
  .next (s.onBlk fun b =>
    let w := min widthA widthB
    let b := b.set SAF_SRST_WIDTH (min w 65535)
    if 5000 < widthA ∨ 5000 < widthB then b
    else
      if w < 100 then (if 10 ≤ w then b.refuseReset else b)
      else
        -- a demand of the same evaluation cycle stands (R481)
        let sa := b.filterSdi b.safety.a.sdi
        let sb := b.filterSdi b.safety.b.sdi
        let reads := (List.range 16).any fun i => b.reads sa i || b.reads sb i
        let faulty := (List.finRange 16).any fun i =>
          b.safety.inputFault i || b.safety.disc[i] == .raised || b.safety.disc[i] == .bothDemand
        let apart := 20 < (max widthA widthB) - w
        let operating := b.get DEV_BOOT_PHASE = 6 ∨ b.get DEV_BOOT_PHASE = 7
        if reads ∨ faulty ∨ b.safety.flock ∨ apart ∨ b.trust.writeUnlock ∨ ¬ operating then b.refuseReset
        else
          let keep (x : Stop) : Bool := x.auto || !x.removed
          let b := { b with
            safety.startLock := false, safety.faultHeld := 0, safety.disc := Vector.replicate 16 .none
            safety.a.stops := b.safety.a.stops.filter keep, safety.b.stops := b.safety.b.stops.filter keep }
          (b.off SAF_STAT_RESET_REF).showSafety)

/-- SRST_LONG (R483): SRST_IN has been high for 5 s. -/
def execSrstLong (s : State) : Outcome :=
  .next (s.onBlk fun b => ((b.on SAF_FLAGS_SRST_LONG).addSat SAF_SRST_LONG 1).safIrq 150)

/-- Channel A's self-test ends (R462, R465). -/
def execChannelASelfTest (pass : Bool) (s : State) : Outcome :=
  .next (s.onBlk fun b =>
    let b := { b with safety.a.tested := pass }
    (if pass then b.leaveFault else b.safFault 1 true false).showSafety)

/-! ### Dealing and reset -/

/-- After distribution each channel shows the PCRC it computes over its copy; a difference from the record is fault 0x03 (R463). The
device is then in lockout. -/
def Block.safDealt (b : Block) (d : Deck) (pcrcA pcrcB : Nat) : Block :=
  let b := (b.set SAF_PCRC_A pcrcA).set SAF_PCRC_B pcrcB
  let b := { b with
    safety.startLock := true, safety.a.stops := [], safety.b.stops := [], safety.events := []
    safety.disc := Vector.replicate 16 .none, safety.apart := Vector.replicate 16 none
    safety.faultNow := Vector.replicate 4 0, safety.faultHeld := 0 }
  let rec' := (d.safety.safids.headD ⟨0, 0, 0, 0, 0, 0, 0⟩).pcrc
  let b := if pcrcA ≠ rec' ∨ pcrcB ≠ rec' then b.safFault 3 (pcrcA ≠ rec') (pcrcB ≠ rec') else b
  b.showSafety

end Sys2Proof.Machine
end

