-- ==== Sys2Proof/Machine/Trust.lean ====
section
/-!
DEFINITION. The trust unit (02_trust.md): violations and freezes (R55 to R65), challenges and tokens (R66 to R74), the
attestation quote (R75), the TRU_FIFO window (R76).
-/

namespace Sys2Proof.Machine

/-! ### Violations and freezes -/

/-- Set or clear the freeze bit of a master; FROZEN_ANY follows. -/
def Block.setFreeze (b : Block) (m : Nat) (v : Bool) : Block :=
  let b := if m < 32 then b.put ⟨aTRU_FRZ_LO, m, 1⟩ v else b.put ⟨aTRU_FRZ_HI, m - 32, 1⟩ v
  b.put TRU_STAT_FROZEN_ANY (b.get TRU_FRZ_LO ≠ 0 || b.get TRU_FRZ_HI ≠ 0)

/-- Any debug unlock ends (R73): source 5, record 0x0012 with scope 0. -/
def Block.endUnlock (b : Block) : Block :=
  if b.trust.unlock.isSome then
    ((({ b with trust.unlock := none }).off TRU_STAT_DBG_UNLOCKED).irq 5).event 0x12 1 0 0
  else b

/-- What a freeze does to its master (Table 2.7) (DEDUCED, log entry 41). -/
def Block.freezeEffect (b : Block) (m : Nat) : Block :=
  if 2 ≤ m ∧ m ≤ 33 then (b.irq (80 + (m - 2))).freezeEngine (m - 2)
  else if m = 35 then b.capFreeze
  else if m = 37 then b.endUnlock
  else b

/-- Master `m` makes an access the checker does not allow (R57 to R60): a frozen master's attempt is counted; the
dispatcher's is an internal fault; any other master is frozen. -/
def Block.violate (b : Block) (m fa : Nat) (write : Bool) : Block :=
  let b := b.inc TRU_VIOL_CNT
  if b.frozen m then b
  else
    let b := (((b.set TRU_VIOL_MASTER_MASTER m).put TRU_VIOL_MASTER_WRITE write).set TRU_VIOL_ADDR fa).irq 4
    if m = 34 then (b.event 0x14 3 fa 0).safEvent 0x20 []
    else ((b.setFreeze m true).event 0x10 2 (m + 256 * b2n write) fa).freezeEffect m

/-- A locked debug port has no path to the fabric (R70). -/
def Block.onFabric (b : Block) (m : Nat) : Bool := m ≠ 37 || b.trust.unlock.isSome

/-- The access reaches the checker and does not pass it (R55, R60). -/
def Block.offends (b : Block) (x : Access) : Bool :=
  b.onFabric x.m.1 && !(b.allowed x.m.1 x.addr x.len x.write x.cyclic && !b.barred x.m.1 x.addr)

/-- An offending access: it is dropped, a read answers 0 (R58). -/
def Block.drop (b : Block) (x : Access) : Block :=
  let b := b.violate x.m.1 x.addr x.write
  if x.write then b else { b with readData := b.readData.set x.m.1 0 x.m.2 }

/-- VIOLATION (R55, R58, R60): the accesses of one fabric cycle are judged together, and those that offend act in ascending master
order. An access the checker allows is none, and leaves the state as it is. -/
def execViolation (m : Fin 39) (addr len : Nat) (write : Bool) (beside : Beside) (s : State) : Outcome :=
  .next (s.onBlk fun b =>
    let xs : List Access := ⟨m, addr, len, write, beside.cyclic⟩ :: beside.others
    (List.range 39).foldl (fun c m => (xs.filter fun x => x.m.1 = m && b.offends x).foldl Block.drop c) b)

/-! ### Challenges (R67) -/

/-- The eight words of 32 random bytes, first byte in bits [31:24] of the first. -/
def randomWords (x : BitVec 256) : List Word := (List.range 8).map fun j => BitVec.ofNat 32 (x.toNat / 2 ^ (32 * (7 - j)))

/-- A write of CHAL_NEW makes the host port's challenge new. -/
def Block.chalNew (b : Block) : Block :=
  let (k, b) := b.take
  let ws := randomWords (Config.random k)
  let b := (List.range 8).foldl (fun b j => b.wr (aTRU_CHAL j) (ws.getD j 0)) b
  { b with trust.hostChal := some b.up }

/-- DEBUG_PORT_CHALLENGE (R67, R70). -/
def execDebugPortChallenge (s : State) : Outcome :=
  .next (s.onBlk fun b =>
    let (k, b) := b.take
    { b with trust.dbgChal := some (randomWords (Config.random k), b.up), trust.tap := .challenge })

/-- What the selected data register of the TAP holds, a locked TAP's alone (R70); BYPASS, and a token not yet shifted in, hold no word. -/
def Block.tapData (b : Block) : List Word :=
  match b.trust.tap with
  | .idcode => [Config.idcode]
  | .challenge => (b.trust.dbgChal.map (·.1)).getD []
  | .bypass => []
  | .token => []

/-- CHALLENGE_EXPIRY (R67): a challenge is void 60 s after it was made. -/
def execChallengeExpiry (debug : Bool) (s : State) : Outcome :=
  .next (s.onBlk fun b =>
    if debug then
      match b.trust.dbgChal with
      | some (_, t) => if t + 60000000000 ≤ b.up then { b with trust.dbgChal := none } else b
      | none => b
    else
      match b.trust.hostChal with
      | some t => if t + 60000000000 ≤ b.up then { b with trust.hostChal := none } else b
      | none => b)

/-! ### TRU_FIFO (R76) -/

/-- A word is pushed. -/
def Block.truPush (b : Block) (w : Word) : Block := { b with trust.fifo := b.trust.fifo ++ [w] }

/-- A word is popped; QUOTE_READY clears with the last word of a quote. An empty window returns a word the manual does not
give. -/
def Block.truPop (b : Block) : Word × Block :=
  match b.trust.fifo with
  | [] => let (k, b) := b.take; (Config.freeWord k, b)
  | w :: t =>
    let n := b.trust.quoteLeft
    let b : Block := { b with trust.fifo := t, trust.quoteLeft := n - 1 }
    (w, if n = 1 then b.off TRU_STAT_QUOTE_READY else b)

/-- FIFO_CLR empties the window; a quote in it is gone. -/
def Block.truClear (b : Block) : Block := ({ b with trust.fifo := [], trust.quoteLeft := 0 }).off TRU_STAT_QUOTE_READY

/-- Take the first `n` words of the window; words that were not written are free (DESIGN CHOICE, log entry 2). -/
def Block.truTake (b : Block) : Nat → List Word × Block
  | 0 => ([], b)
  | n + 1 =>
    let (w, b) := b.truPop
    let (ws, b) := b.truTake n
    (w :: ws, b)

/-! ### Tokens (R66 to R74) -/

/-- A token is presented: its port's challenge is used up, and verification runs. A presentation while another token is
being verified is ignored (DEDUCED, log entry 18). -/
def Block.present (b : Block) (ws : List Word) (chal : Option (List Word)) : Block :=
  ({ b with trust.token := some (ws, chal) }).on TRU_STAT_TOKEN_BUSY

/-- TOKEN_GO takes 40 token words and 25 key words from TRU_FIFO (R77). TRU_CHAL goes on showing a challenge that has been used or has
expired (DESIGN CHOICE, log entry 125). -/
def Block.tokenGo (b : Block) : Block :=
  if b.flag TRU_STAT_TOKEN_BUSY then b
  else
    let chal := b.trust.hostChal.map fun _ => (List.range 8).map fun j => b.rd (aTRU_CHAL j)
    let n := min 65 b.trust.fifo.length
    let (ws, b) := b.truTake n
    { b with trust.hostChal := none }.present ws chal

/-- DEBUG_TOKEN (R70): the token data register presents its words against the debug port's challenge. -/
def execDebugToken (words : List Word) (s : State) : Outcome :=
  .next (s.onBlk fun b =>
    let b : Block := { b with trust.tap := .token }
    if b.flag TRU_STAT_TOKEN_BUSY then b
    else
      let chal := b.trust.dbgChal.map (·.1)
      { b with trust.dbgChal := none }.present words chal)

/-- The bytes of words, first byte in bits [31:24]. -/
def wordBytes (ws : List Word) : List Byte := ws.flatMap fun w => bytesBE 4 w.toNat

/-- Fields of a token (Table 2.8). -/
structure Token where
  magic : Nat
  version : Nat
  type : Nat
  serial : Nat
  challenge : List Word
  slot : Nat
  arg : Nat
  viol : Nat
  reserved : Nat
  sigR : Nat
  sigS : Nat
  key : Nat
  pad : Nat
  deriving DecidableEq, Repr

/-- The number in words `i` to `i + n - 1`. -/
def wordsNat (ws : List Word) (i n : Nat) : Nat := ofBytesBE (wordBytes ((ws.drop i).take n))

/-- A token and its key, parsed; none where words are missing. -/
def parseToken (ws : List Word) : Option Token :=
  if ws.length < 65 then none
  else
    some { magic := wordsNat ws 0 1, version := wordsNat ws 1 1 / 2 ^ 16, type := wordsNat ws 1 1 % 2 ^ 16,
           serial := wordsNat ws 2 2, challenge := (ws.drop 4).take 8, slot := wordsNat ws 12 1, arg := wordsNat ws 13 1,
           viol := wordsNat ws 14 1, reserved := wordsNat ws 15 1, sigR := wordsNat ws 16 12, sigS := wordsNat ws 28 12,
           key := ofBytesBE ((wordBytes ((ws.drop 40).take 25)).take 97), pad := wordsNat ws 64 1 % 2 ^ 24 }

/-- The key hash a token's SLOT names, with the flags of the slot; none for an empty or unknown slot. -/
def Otp.tokenSlot (o : Otp) (slot : Nat) : Option (BitVec 384 × Nat × Bool) :=
  if slot = 0xFFFFFFFF then some (o.rootHash, 0, true)
  else match o.slots.toList[slot]? with
    | some k => if k.hash = 0 then none else some (k.hash, k.flags, false)
    | none => none

/-- The permission a token needs: DEBUG for an unlock, RELEASE for a release, the root key for a return unlock (R68, R71,
R74). -/
def tokenPermitted (type flags : Nat) (root : Bool) : Bool :=
  if type = 3 then root else !root && !bit flags 3 && bit flags (if type = 1 then 2 else 1)

/-- Well-formed by Table 2.8. -/
def Token.formatOk (t : Token) : Bool :=
  t.magic = 0x4C58544B && t.version = 1 && 1 ≤ t.type && t.type ≤ 3 && t.reserved = 0 && t.pad = 0 &&
    (t.slot ≤ 3 || t.slot = 0xFFFFFFFF) && (t.type ≠ 3 || t.arg = 0) && (t.type = 2 || t.viol = 0)

/-- The debug scope a token asks for (R71, R74). ARG bits above 6 of an unlock are ignored (DESIGN CHOICE, log entry 128). -/
def Token.scope (t : Token) : Nat := if t.type = 3 then 0x7F else t.arg % 2 ^ 7

/-- The first check of R68 and R71 to R74 that fails, by its code of Table 2.12 (DEDUCED, log entry 39). A key whose hash is not the one
the slot holds gives 0x01, as a failed signature does (DESIGN CHOICE, log entry 128). -/
def Block.tokenReason (b : Block) (o : Otp) (ws : List Word) (chal : Option (List Word)) : Nat :=
  match parseToken ws with
  | none => 8
  | some t =>
    if ¬ t.formatOk then 8
    else match o.tokenSlot t.slot with
      | none => 2
      | some (hash, flags, root) =>
        if Config.sha384 (bytesBE 97 t.key) ≠ hash ∨ ¬ Config.ecdsaOk (BitVec.ofNat 776 t.key)
            (Config.sha384 ((wordBytes ws).take 64)) (BitVec.ofNat 384 t.sigR) (BitVec.ofNat 384 t.sigS) then 1
        else if ¬ tokenPermitted t.type flags root then 2
        else if t.serial ≠ o.serial.toNat then 3
        else if chal ≠ some t.challenge then 4
        else if t.type = 2 then
          if 38 < t.arg ∨ ¬ b.frozen t.arg then 5 else if t.viol ≠ b.get TRU_VIOL_CNT then 6 else 0
        else if (bit t.scope 1 ∨ bit t.scope 3 ∨ bit t.scope 6) ∧ b.get DEV_BOOT_PHASE = 7 then 7
        else 0

/-- The program memory of an engine takes the dealt image (R89, Table 2.9): the standard loop law, as unwritten bytes read, and the
customer's microcode. -/
def Block.loadProgram (b : Block) (e : Nat) : Block :=
  let base := engBase e
  let b := b.memClear base (base + 0x10000)
  match b.dealt with
  | some d => d.images.foldl (fun b r =>
      { b with mem := Memory.writeBytes b.mem (base + r.addr) (r.words.flatMap fun w => bytesLE 4 w.toNat) }) b
  | none => b

/-- Engine `e` leaves its freeze (Table 2.9): program reloaded, banks zeroed, in the pool with no hand. -/
def Block.releaseEngine (b : Block) (e : Nat) : Block :=
  let b := (b.moveHand e true).loadProgram e
  let b := b.memClear (engBase e + 0x10000) (engBase e + 0x30000)
  (b.off (LE_STAT_FROZEN e)).modEng e fun y => { Reset.engine with dropped := y.dropped, stores := y.stores }

/-- READY changes: source 7 (14_partners.md R450, R460). -/
def Block.setReady (b : Block) (v : Bool) : Block :=
  if b.flag PTN_STAT_READY = v then b else (b.put PTN_STAT_READY v).irq 7

/-- A dummy asks for a new transfer, and is not ready until the whole of it has come (14_partners.md R456); a declarer seeds every axis
afresh. -/
def Block.askTransfer (b : Block) : Block :=
  if b.get PTN_STAT_ROLE = 2 then
    let b := ({ b with partner.xferDone := false, partner.held := [], partner.digests := 0 }.on PTN_STAT_XFER).setReady false
    b.ptnSend 6 bulkRequest
  else { b with partner.seedAll := true }

/-- Master `m` is released (R69, Table 2.9). -/
def Block.releaseMaster (b : Block) (m : Nat) : Block :=
  let b :=
    if 2 ≤ m ∧ m ≤ 33 then b.releaseEngine (m - 2)
    else if m = 35 then (((List.range 8).foldl (fun b g => b.capDisarm g) b).capDefs).off CAP_STAT_FROZEN
    else if m = 38 then b.askTransfer
    else b
  let b := (b.setFreeze m false).event 0x11 0 m 0
  if 2 ≤ m ∧ m ≤ 33 then b.showEngine (m - 2) else b

/-- A debug unlock begins (R71, R73). -/
def Block.unlockDebug (b : Block) (scope : Nat) : Block :=
  ((({ b with trust.unlock := some scope }).on TRU_STAT_DBG_UNLOCKED).irq 5).event 0x12 1 scope 0

/-- TOKEN_VERIFIED (R68 to R74): the token's action, or TOKEN_ERR and REASON; source 3. A return unlock programs KILL
first. -/
def execTokenVerified (s : State) : Outcome :=
  match s.blk.trust.token with
  | none => .next s
  | some (ws, chal) =>
    let r := s.blk.tokenReason s.nv.otp ws chal
    let b := ({ s.blk with trust.token := none }).off TRU_STAT_TOKEN_BUSY
    if r ≠ 0 then .next { s with blk := ((b.on TRU_STAT_TOKEN_ERR).set TRU_STAT_REASON r).irq 3 }
    else match parseToken ws with
      | none => .next { s with blk := b.irq 3 }
      | some t =>
        if t.type = 2 then .next { s with blk := (b.releaseMaster t.arg).irq 3 }
        else if t.type = 1 then .next { s with blk := (b.unlockDebug t.scope).irq 3 }
        else
          .next { s with
            nv := { s.nv with otp := { s.nv.otp with kill := true } }
            blk := ((b.on TRU_STAT_KILL).unlockDebug t.scope).irq 3 }

/-! ### Attestation (R75) -/

/-- The bytes of a policy block (R53, Table 2.6). -/
def PolicyBlock.bytes (p : PolicyBlock) : List Byte :=
  bytesBE 1 p.master ++ bytesBE 1 p.entries.length ++ bytesBE 2 p.reserved ++
    p.entries.flatMap fun e => bytesBE 4 e.base ++ bytesBE 4 e.limit ++ bytesBE 4 e.w2 ++ bytesBE 4 e.w3

/-- QUOTE_REQ takes the nonce from TRU_FIFO (DEDUCED, log entry 40). -/
def Block.quoteReq (b : Block) : Block :=
  let (ws, b) := b.truTake 8
  { b with trust.nonce := some ws, trust.quoteBody := [] }

/-- Bytes 0 to 207 of the quote of Table 2.10. Without a deck the digest, version and slot are 0, and the policy tables are hashed as
their blocks stand in the POLICY section (DESIGN CHOICE, log entry 129). -/
def Block.quoteBytes (b : Block) (o : Otp) (nonce : List Word) : List Byte :=
  let (digest, secver, slot) : Nat × Nat × Nat := match b.dealt with
    | some d => (d.digest.toNat, d.header.secver, d.header.slot)
    | none => (0, 0, 0)
  bytesBE 4 0x4C584151 ++ bytesBE 2 1 ++ bytesBE 2 0x130 ++ bytesBE 4 (b.get DEV_ID) ++
    bytesBE 4 Config.romVersion.toNat ++ bytesBE 8 o.serial.toNat ++ bytesBE 48 digest ++ bytesBE 4 secver ++
    bytesBE 4 slot ++ bytesBE 48 (Config.sha384 (b.trust.policy.flatMap PolicyBlock.bytes)).toNat ++
    bytesBE 8 (b.get TRU_FRZ_HI * 2 ^ 32 + b.get TRU_FRZ_LO) ++
    bytesBE 4 (b.trust.unlock.getD 0 + 2 ^ 31 * b2n (b.flag TRU_STAT_KILL)) ++ bytesBE 4 (b.get PTN_EPOCH) ++
    bytesBE 8 b.round ++ bytesBE 8 b.ns ++ bytesBE 4 b.frac ++ bytesBE 12 0 ++ wordBytes nonce

/-- At a boundary the values of a requested quote are fixed. -/
def Block.quoteBoundary (b : Block) (o : Otp) : Block :=
  match b.trust.nonce with
  | some n => if b.trust.quoteBody.isEmpty then { b with trust.quoteBody := b.quoteBytes o n } else b
  | none => b

/-- The words of bytes, four to a word, first byte in bits [31:24]. -/
def bytesWords : Nat → List Byte → List Word
  | 0, _ => []
  | n + 1, bs => BitVec.ofNat 32 (ofBytesBE (bs.take 4)) :: bytesWords n (bs.drop 4)

/-- QUOTE_READY (R75): the quote, signed with d, stands in TRU_FIFO; source 3. -/
def execQuoteReady (s : State) : Outcome :=
  .next (s.onBlk fun b =>
    if b.trust.quoteBody.isEmpty then b
    else
      let body := b.trust.quoteBody
      let (r, q) := Config.ecdsaSign s.nv.otp.attestKey (Config.sha384 body)
      let ws := bytesWords 76 (body ++ bytesBE 48 r.toNat ++ bytesBE 48 q.toNat)
      (({ b with trust.fifo := ws, trust.quoteLeft := 76, trust.nonce := none, trust.quoteBody := [] }).on
        TRU_STAT_QUOTE_READY).irq 3)

/-- The requests of TRU_CTL (Table 2.13). -/
def Block.truCtl (b : Block) (v : Nat) : Block :=
  let b := if bit v 0 then b.chalNew else b
  let b := if bit v 1 then b.tokenGo else b
  let b := if bit v 2 then b.quoteReq else b
  let b := if bit v 3 then b.endUnlock else b
  if bit v 4 then b.truClear else b

end Sys2Proof.Machine
end

