-- ==== Sys2Proof/Machine/TaskEnd.lean ====
section
/-!
DEFINITION. Task dispatch, second part (10_task_dispatch.md): ordered flows of setpoint records (R327, R328, R31), the end
and the faults of a task (R397, R372, R373), the boundary (R313, R332, R333), the delay list (R317), the descriptor commands
(R310 to R312, R323, R333), halts (R376).
-/

namespace Sys2Proof.Machine

/-! ### Ordered flows of setpoint records (R327) -/

/-- The slots of a segment's flow in the order they are released: this lead frame, then the next. -/
def Block.slotSeq (b : Block) (s : Nat) : List (Nat × Bool) :=
  (b.slotOrder s (b.get (SEG_STAT_CONTRACT s))).map (·, false) ++ (b.slotOrder s (b.nextContract s)).map (·, true)

/-- The slot of an axis in this lead frame or the next. -/
def Axis.slot (x : Axis) (nxt : Bool) : Slot := if nxt then x.nxt else x.cur

/-- Change a slot. -/
def Axis.setSlot (x : Axis) (nxt : Bool) (v : Slot) : Axis := if nxt then { x with nxt := v } else { x with cur := v }

/-- When the builder fetches the record of a slot, ns of the time base (R30). -/
def Block.fetchTime (b : Block) (i s : Nat) (nxt : Bool) : Int :=
  let c := if nxt then b.nextContract s else b.get (SEG_STAT_CONTRACT s)
  (b.roundAt + (if nxt then b.roundNs else 0) : Nat) + ((b.fetchAt i c).getD 0) / 10

/-- A complete record is released within 16 ns (R327); the slack to its fetch (Table 10.7). -/
def Block.releaseSlot (b : Block) (s i : Nat) (nxt : Bool) : Block :=
  let sl := (b.ax i).slot nxt
  let t := b.up + 16
  let slack := b.fetchTime i s nxt - t
  let b := b.modAx i fun x => { x.setSlot nxt { sl with st := .released, rel := t, prev := x.sent } with sent := sl.data }
  (b.inc (DIS_F_REL s)).modFlow s fun f => { f with slack := some (match f.slack with
    | some m => min m slack
    | none => slack) }

/-- Release every complete record before which no slot still waits. -/
def releaseWalk (s : Nat) : List (Nat × Bool) → Block → Block
  | [], b => b
  | (i, n) :: t, b => match ((b.ax i).slot n).st with
    | .waiting => b
    | .complete => releaseWalk s t (b.releaseSlot s i n)
    | _ => releaseWalk s t b

/-- The flow of segment `s` releases what it can. -/
def Block.releaseFrom (b : Block) (s : Nat) : Block := releaseWalk s (b.slotSeq s) b

/-- `n` words of flow `f` are ignored and counted (R328). -/
def Block.flowDrop (b : Block) (f n : Nat) : Block := (b.addSat (DIS_F_DROP f) n).on DIS_FLAGS_DROP

/-- The record of axis `i` from an instance woken in `round` is complete: into its slot, or dropped (R327, R328). -/
def Block.deliver (b : Block) (i round : Nat) (r : SetRec) : Block :=
  let s := ((b.axisRec i).map (·.segment)).getD 0
  if b.roundsSince round ≤ 1 then
    let n := decide (round = b.round)
    let sl := (b.ax i).slot n
    match sl.st with
    | .waiting => (b.modAx i fun x => x.setSlot n { sl with st := .complete, data := r }).releaseFrom s
    | .stale => b.flowDrop s 1
    | _ => b.flowDrop s 6
  else b.flowDrop s 1

/-- The axis of a descriptor. -/
def Block.descAxis (b : Block) (d : Nat) : Nat := (b.desc d).fld 1 0 8

/-- The builder has come to the record of axis `i`: its instant is here, and the records before it in turn order have been fetched
(R30). -/
def Block.fetchDue (b : Block) (i : Nat) : Bool :=
  let seg := ((b.axisRec i).map (·.segment)).getD 0
  decide (b.fetchTime i seg false ≤ b.up) &&
    ((b.slotOrder seg (b.get (SEG_STAT_CONTRACT seg))).takeWhile (· ≠ i)).all fun j => !(b.ax j).cur.unfetched

/-- The record of axis `i` is fetched (R30, R31, R162): the one released by the fetch, or a repeat of the last one released, which goes
out stale, and the flow moves past its slot (DEDUCED, log entry 61). -/
def Block.fetchRecord (b : Block) (i seg : Nat) : Block :=
  let x := b.ax i
  let sl := x.cur
  if sl.st = .released ∧ (sl.rel : Int) ≤ b.fetchTime i seg false then b.modAx i fun x => { x with cur := { sl with st := .none } }
  else
    let b := b.modAx i fun x =>
      { x with cur := { sl with st := .stale, data := if sl.st = .released then sl.prev else x.sent } }
    let b := b.inc (DIS_D_STALE i)
    let b := ((b.inc (DIS_F_STALE seg)).on DEV_STAT_STALE).cause DIS_FLAGS_STALE 1 (b.desc i).hand
    b.releaseFrom seg

/-- BUILDER_FETCH (R30, R31): the record of an axis goes out, and with the last one of a node its block. None before its instant
(DEDUCED, log entry 61). -/
def execBuilderFetch (i : Fin 256) (s : State) : Outcome :=
  .next (s.onBlk fun b =>
    match b.axisRec i.1 with
    | none => b
    | some r =>
      if ¬ (b.ax i.1).cur.unfetched ∨ ¬ b.fetchDue i.1 then b
      else
        let b := b.fetchRecord i.1 r.segment
        match b.turnOf r.segment (b.get (SEG_STAT_CONTRACT r.segment)) r.node with
        | some t => b.sendNode r.segment t
        | none => b)

/-! ### The end of a task -/

/-- The record of six words, in the byte order of Table 5.4 (DEDUCED, log entry 19): position, velocity, torque, AUX, CTRL and MODE. -/
def recordOf (ws : List Word) : SetRec :=
  let w (k : Nat) : Nat := (ws.getD k 0).toNat
  { mode := bits (w 5) 8 8, ctrl := bits (w 5) 16 16, pos := sgn 64 (w 0 * 2 ^ 32 + w 1), vel := sgn 32 (w 2),
    trq := sgn 32 (w 3), aux := w 4 }

/-- The fabric address of word `k` of flow `f`'s input port. -/
def flowPort (f k : Nat) : Nat := 0x50000000 + 0x1000 * f + 4 * k

/-- The law of axis `i` on engine `e` delivers its record: six stores to its flow, each checked (R327, R328); after words the
task wrote itself the law's words pass the sixth. -/
def Block.lawDeliver (b : Block) (e i : Nat) (r : Run) : Block :=
  let s := ((b.axisRec i).map (·.segment)).getD 0
  match (List.range 6).find? fun k => !b.allowed (e + 2) (flowPort s k) 4 true true with
  | some k => b.violate (e + 2) (flowPort s k) true
  | none =>
    let n := (b.desc r.inst.desc).out.length
    if n = 0 then b.deliver i r.inst.round (b.ax i).record else b.flowDrop s n

/-- A descriptor is removed. -/
def Block.removeDesc (b : Block) (d : Nat) : Block :=
  let h := (b.desc d).hand
  ((b.modDesc d fun _ => Reset.desc).showUsed).showEngine h

/-- An instance of descriptor `d` has ended: a pending delete takes effect, or the deferred wake is placed (R312, R316). -/
def Block.ended (b : Block) (d : Nat) : Block :=
  let x := b.desc d
  if x.deleting then b.removeDesc d
  else match x.deferred with
    | some n => (b.modDesc d fun y => { y with deferred := none }).place n
    | none => b

/-- Run statistics of an instance that ends (Table 10.8, R34). -/
def Block.countRun (b : Block) (e : Nat) (r : Run) : Block :=
  let d := r.inst.desc
  let x := b.desc d
  let t := r.busy + (b.up - r.since)
  let b := b.busy e r.since (x.kind = 4)
  let b := ((b.set (DIS_D_RUN d) (min t (2 ^ 32 - 1))).peak (DIS_D_RUNMAX d) t)
  if x.runMax < t ∨ (x.cyclic ∧ r.inst.round ≠ b.round) then
    ((b.inc (DIS_D_OVR d)).on DEV_STAT_OVERRUN).cause DIS_FLAGS_OVERRUN 2 e
  else b

/-- A store of the instance is outstanding. -/
def Block.storing (b : Block) (d q : Nat) : Bool := b.engines.any fun p => p.2.stores.any fun t => t.desc = d && t.seq = q

/-- A background result closes once the last store of its task has been accepted (R397). -/
def Block.closeWhenStored (b : Block) (d q : Nat) : Block :=
  let f := (b.desc d).flowOf
  if f = 0 ∨ b.storing d q then b else b.closeResult f q

/-- The task on engine `e` ends (R366, R397): statistics, its record or result, then the next task. -/
def Block.finish (b : Block) (e : Nat) : Block :=
  match (b.eng e).run with
  | none => b
  | some r =>
    let d := r.inst.desc
    let x := b.desc d
    let b := b.countRun e r
    let b := if x.kind = 1 ∧ r.stage = .law then b.lawDeliver e (b.descAxis d) r else b
    if b.frozen (e + 2) then b
    else
      let b := b.modEng e fun y => { y with run := none, regs := Reset.eregs }
      let b := if x.kind = 4 then b.closeWhenStored d r.inst.seq else b
      (b.ended d).nextTask e

/-- What an engine fault shows (R372). -/
def Block.faultShown (b : Block) (e code pc d : Nat) : Block :=
  let b := ((b.on (LE_STAT_FAULT e)).set (LE_STAT_FCODE e) code).set (LE_FLT_INFO_PC e) pc
  let b := ((b.set (LE_FLT_INFO_DESC e) d).inc (LE_FLT_CNT e)).irq (80 + e)
  b.event 0x31 2 (e + d * 2 ^ 16) (pc + code * 2 ^ 16)

/-- An engine fault (R372, R373): the task is abandoned, an axis restarts cold, a background result closes; after fault
0x06 the engine halts and what waited for it is placed elsewhere. -/
def Block.engineFault (b : Block) (e code : Nat) : Block :=
  match (b.eng e).run with
  | none => b
  | some r =>
    let d := r.inst.desc
    let x := b.desc d
    let b := (b.faultShown e code (b.eng e).regs.pc.toNat d).busy e r.since (x.kind = 4)
    let b := b.modEng e fun y => { y with
      run := none, regs := Reset.eregs, loads := y.loads.filter (·.held), dropped := y.dropped ++ y.loads.filter (!·.held) }
    let b := if x.kind = 1 then (b.modDesc d fun y => { y with cold := true }).loseDesc d false else b
    let b := if x.kind = 4 then b.closeWhenStored d r.inst.seq else b
    if code = 6 then
      let (waiting, b) := (b.on (LE_STAT_HALTED e)).dropEngine e
      ((waiting.foldl (fun b n => b.place n) b).ended d).showEngine e
    else (b.ended d).nextTask e

/-! ### Round boundaries (R313, R332, R333) -/

/-- The statistics of the round that ends, before its start time is replaced. -/
def Block.dispatchStats (b : Block) : Block :=
  let b := b.each 32 fun b e =>
    let b := match (b.eng e).run with
      | some r => b.busy e r.since (b.runsBkg e)
      | none => b
    let x := b.eng e
    let b := ((b.set (DIS_LE_CYC e) x.cyc).set (DIS_LE_BKG e) x.bkg).peak (DIS_LE_PEAK e) x.cyc
    b.modEng e fun x => { x with cyc := 0, bkg := 0 }
  b.each 8 fun b f => (b.seti (DIS_F_SLACK f) ((b.flow f).slack.getD 0)).modFlow f fun x => { x with slack := none }

/-- A node holds a session and takes part in rounds (R315): it is in Run or missing. -/
def Block.nodeJoined (b : Block) (s p : Nat) : Bool := let st := b.get (SEG_NSTAT_STATE s p); st = 3 || st = 4

/-- The cyclic class of a segment runs (R332). -/
def Block.segRuns (b : Block) (s : Nat) : Bool := bit (b.get DIS_STAT_SEGRUN) s && b.get (SEG_STAT_STATE s) = 6

/-- Whether a boundary arms the wait of descriptor `d` (R313, R315). -/
def Block.arms (b : Block) (d : Nat) : Bool :=
  let x := b.desc d
  let s := b.descSeg d
  x.cyclic && x.enabled && x.live && !x.deleting && b.segRuns s &&
    (x.kind = 3 || (b.nodeJoined s (b.descNode d) && (b.turnOf s (b.get (SEG_STAT_CONTRACT s)) (b.descNode d)).isSome))

/-- The slots of a boundary: the next frame's become this frame's, and new ones open for the frame after (R327). -/
def Block.newSlots (b : Block) (s : Nat) : Block :=
  let blank : Slot := ⟨.none, ⟨0, 0, 0, 0, 0, 0⟩, 0, ⟨0, 0, 0, 0, 0, 0⟩⟩
  let mine := (b.axisList.filter fun r => r.kind ≠ 3 && r.segment = s).map (·.axis)
  let now := if b.segRuns s then b.slotOrder s (b.get (SEG_STAT_CONTRACT s)) else []
  let next := if b.segRuns s then b.slotOrder s (b.nextContract s) else []
  let b := mine.foldl (fun b i => b.modAx i fun x =>
    { x with
      cur := if now.contains i then (if x.nxt.st = .none then { blank with st := .waiting } else x.nxt) else blank
      nxt := if next.contains i then { blank with st := .waiting } else blank }) b
  b.releaseFrom s

/-- What a boundary does in the dispatcher, after contracts and segment states have changed: rehomes, creations, waits and
slots. -/
def Block.dispatchBoundary (b : Block) : Block :=
  let b := b.used.foldl (fun b d =>
    let x := b.desc d
    let b := match x.rehome with
      | some e =>
        let b := b.modDesc d fun y => { y with rehome := none }
        if b.inPool e then (b.rehand d e).modDesc d fun y => { y with cold := true } else b
      | none => b
    if x.cyclic then b.modDesc d fun y => { y with live := true } else b) b
  let b := b.used.foldl (fun b d => b.modDesc d fun y => { y with armed := b.arms d }) b
  b.each 8 fun b s => b.newSlots s

/-- The cyclic class of a segment starts (R332). -/
def Block.startSegTasks (b : Block) (s : Nat) : Block := b.on ⟨aDIS_STAT, 8 + s, 1⟩

/-- A segment leaves state 6: waits are dropped, its flow releases nothing (Table 10.4). -/
def Block.stopSegTasks (b : Block) (s : Nat) : Block :=
  let blank : Slot := ⟨.none, ⟨0, 0, 0, 0, 0, 0⟩, 0, ⟨0, 0, 0, 0, 0, 0⟩⟩
  let b := b.off ⟨aDIS_STAT, 8 + s, 1⟩
  let b := (b.used.filter fun d => (b.desc d).cyclic && b.descSeg d = s).foldl (fun b d =>
    b.modDesc d fun x => { x with armed := false, deferred := none }) b
  (b.axisList.filter fun r => r.kind ≠ 3 && r.segment = s).foldl (fun b r =>
    b.modAx r.axis fun x => { x with cur := blank, nxt := blank }) b

/-! ### Wakes (R313, R314) -/

/-- The end of the frame that a local SSI channel latched at the boundary, ns after it (R296); 0 for other feedback. -/
def Block.ssiEnd (b : Block) (i : Nat) : Nat :=
  match b.axisRec i with
  | some r =>
    if 0x10 ≤ r.feedback ∧ r.feedback < 0x20 ∧ b.get (FB_CFG_TYPE (r.feedback - 0x10)) = 1 then b.ssiFrameNs (r.feedback - 0x10) else 0
  | none => 0

/-- When the wait of descriptor `d` ends without a turn, 0.1 ns after the boundary (Table 10.2): 64 ns after its node's turn window, or
after the last turn window for kind 3, and not before the frame of a local SSI channel ends. -/
def Block.waitEnd (b : Block) (d : Nat) : Nat :=
  let s := b.descSeg d
  let c := b.get (SEG_STAT_CONTRACT s)
  if (b.desc d).kind = 3 then ((b.contract s c).map fun k => windowsEnd (b.order s c) (k.tOpen * 10) + 640).getD 0
  else
    let w := ((b.windowOf s c (b.descNode d)).map fun w => w.2 + 640).getD 0
    if (b.desc d).kind = 1 then max w (10 * b.ssiEnd (b.descAxis d)) else w

/-- That instant has come. -/
def Block.waitOver (b : Block) (d : Nat) : Bool := decide (b.roundAt * 10 + b.waitEnd d ≤ b.up * 10)

/-- When a wake of a node's turn takes effect, 0.1 ns after the boundary: 40 ns after the end of the turn's data, which ends 32 ns before
its window, and for local SSI feedback not before its frame ends (R313, Table 10.2). -/
def Block.wakeAt (b : Block) (d : Nat) : Nat :=
  let s := b.descSeg d
  let w := ((b.windowOf s (b.get (SEG_STAT_CONTRACT s)) (b.descNode d)).map fun w => w.2 - 320 + 400).getD 0
  if (b.desc d).kind = 1 then max w (10 * b.ssiEnd (b.descAxis d)) else w

/-- The event of Table 10.2 has come: a valid turn in this round, and the instant of its wake; the close of the last window for kind
3. -/
def Block.woken (b : Block) (d : Nat) : Bool :=
  if (b.desc d).kind = 3 then b.waitOver d
  else (b.sn (b.descSeg d) (b.descNode d)).lastValid = some b.round && decide (b.roundAt * 10 + b.wakeAt d ≤ b.up * 10)

/-- WAKE: the event of Table 10.2 ends the wait of descriptor `d`. -/
def execWake (d : Fin 1024) (s : State) : Outcome :=
  .next (s.onBlk fun b =>
    let x := b.desc d.1
    if x.armed ∧ b.woken d.1 then b.wakeDesc d.1 false else b)

/-- WAIT_TIMEOUT (R314); a turn whose wake has come by then wins. -/
def execWaitTimeout (d : Fin 1024) (s : State) : Outcome :=
  .next (s.onBlk fun b =>
    let x := b.desc d.1
    -- the tasks of a node that joined in Run wait for its first valid turn (06_thrumlos_start_and_schedules.md R216)
    if x.armed ∧ x.kind ≠ 3 ∧ ¬ (b.sn (b.descSeg d.1) (b.descNode d.1)).first ∧ b.waitOver d.1 then
      if b.woken d.1 then b.wakeDesc d.1 false
      else (((b.inc (DIS_D_TO d.1)).cause DIS_FLAGS_TIMEOUT 0 x.hand)).wakeDesc d.1 true
    else b)

/-! ### The delay list (R317, R318) -/

/-- Release a due descriptor: its next due time is PERIOD later; a single release clears EN. -/
def Block.releaseDue (b : Block) (d : Nat) : Block :=
  let x := b.desc d
  let p := x.words[4].toNat
  let b := b.release d
  b.modDesc d fun y =>
    if p = 0 then { y with words := y.words.set 0 (BitVec.ofNat 32 (setBits y.words[0].toNat 3 1 0)) }
    else { y with due := (x.due + 1000 * p) % 2 ^ 64 }

/-- A due time, plant time in ns modulo 2^64, has come. -/
def Block.dueBy (b : Block) (t : Nat) : Bool := !laterThan 64 t b.ns

/-- DELAY_LIST_TICK (R317, R332): at a tick, each µs of plant time, the background class runs from the first one after dealing;
descriptors due, and those kicked, are released in order of due time and then of index. -/
def execDelayListTick (s : State) : Outcome :=
  .next (s.onBlk fun b =>
    if b.boot.dealing ∨ b.dealt.isNone ∨ ¬ b.reached 1000 0 then b
    else
      let b := b.on DIS_STAT_BKG_RUN
      let bkg := b.used.filter fun d => (b.desc d).kind = 4 && !(b.desc d).deleting
      let b := bkg.foldl (fun b d => b.modDesc d fun y => { y with live := true }) b
      (sortKey (fun d => ((b.desc d).due + 2 ^ 63 - b.ns % 2 ^ 64) % 2 ^ 64) bkg).foldl (fun b d =>
        let x := b.desc d
        let b := if x.enabled ∧ b.dueBy x.due then b.releaseDue d else b
        if x.kick then (b.modDesc d fun y => { y with kick := false }).release d else b) b)

/-- FLOW_TIMEOUT (R330). -/
def execFlowTimeout (f : Fin 16) (s : State) : Outcome := .next (s.onBlk (·.skipResult f.1))

/-! ### Descriptor commands (Table 10.5) -/

/-- The command ends with a result. -/
def Block.disResult (b : Block) (result index : Nat) : Block :=
  ((b.off DIS_RES_BUSY).set DIS_RES_RESULT result).set DIS_RES_INDEX index

/-- The staged descriptor. -/
def Block.stagedDesc (b : Block) : Vector Word 8 := Vector.ofFn fun j : Fin 8 => b.rd (aDIS_DESC j.1)

/-- The TASK record of a descriptor. -/
def Block.taskRec (b : Block) (id : Nat) : Option TaskRec := b.dealt.bind fun d => d.tasks.find? (·.id = id)

/-- The fields of a staged descriptor are valid (Table 10.1, R309): those that do not apply to its KIND are 0. -/
def Block.validDesc (b : Block) (x : Desc) : Bool :=
  let w (k : Fin 8) : Nat := x.words[k].toNat
  let seg := x.fld 1 8 3
  let segOk := (b.dealt.map fun d => d.used seg && !(seg % 2 = 1 && d.isRing (seg - 1))).getD false
  let common := x.fld 0 7 9 = 0 && x.fld 2 5 27 = 0
  if x.kind = 2 then
    common && x.prio = 0 && segOk && w 1 = seg * 2 ^ 8 + x.fld 1 16 6 * 2 ^ 16 && w 3 = 0 && w 4 = 0 && w 5 = 0
  else if x.kind = 3 then common && x.prio = 0 && segOk && w 1 = seg * 2 ^ 8 && w 3 = 0 && w 4 = 0 && w 5 = 0
  else if x.kind = 4 then
    common && !x.pin && w 1 = x.flowOf * 2 ^ 24 && (x.flowOf = 0 || 9 ≤ x.flowOf)
  else false

/-- The hand of a new cyclic descriptor (R320): its HAND where in the pool, else the pool engine with the least summed
RUNMAX. -/
def Block.newHand (b : Block) (h : Nat) : Nat :=
  if b.inPool h then h
  else
    let loads := b.pool.foldl (fun a e =>
      sput (fun _ => 0) a e ((b.handList e).foldl (fun s d => s + (b.desc d).runMax) 0)) []
    (leastLoaded b.pool loads).getD h

/-- First due time of a background descriptor: DUE is plant time in µs modulo 2^32, 0 the next tick; of the instants it names the one
nearest to now (DESIGN CHOICE, log entry 11). -/
def Block.firstDue (b : Block) (due : Nat) : Nat :=
  if due = 0 then b.ns
  else
    let us := b.ns / 1000
    wrapN 64 (1000 * ((us : Int) + sgn 32 (wrapN 32 ((due : Int) - us))))

/-- Create at `i` (R310, R311): a background descriptor at once, to take effect at the next tick; a node or segment
descriptor waits for the Dealer. -/
def Block.disCreate (b : Block) (i : Nat) : Block :=
  let x := { Reset.desc with words := b.stagedDesc }
  if i < 256 ∨ (b.desc i).kind ≠ 0 then b.disResult 1 i
  else if ¬ b.validDesc x then b.disResult 2 i
  else match b.taskRec x.task with
    | none => b.disResult 4 i
    | some t =>
      let ws := x.words.set 6 (BitVec.ofNat 32 t.wcet)
      if x.kind = 4 then
        ((b.modDesc i fun _ => { x with words := ws, due := b.firstDue ws[5].toNat }).showUsed).disResult 0 i
      else
        let h := b.newHand x.hand
        let b := b.modDesc i fun _ => { x with words := ws, admitting := true }
        ((b.setHand i h).on DIS_RES_BUSY).set DIS_RES_INDEX i

/-- Remove the queued instances of a descriptor from every engine. -/
def Block.unqueue (b : Block) (d : Nat) : Block :=
  b.each 32 fun b e =>
    if (b.eng e).cq.any (·.desc = d) ∨ (b.eng e).bq.any (·.desc = d) then
      (b.modEng e fun x => { x with cq := x.cq.filter (·.desc ≠ d), bq := x.bq.filter (·.desc ≠ d) }).showEngine e
    else b

/-- Delete `i` (R312): a queued instance goes without running; a running one completes first. -/
def Block.disDelete (b : Block) (i : Nat) : Block :=
  if i < 256 then b.disResult 5 i
  else if (b.desc i).kind = 0 then b.disResult 2 i
  else
    let b := b.unqueue i
    let b := if b.live i then b.modDesc i fun x => { x with deleting := true, armed := false, deferred := none }
      else b.removeDesc i
    b.disResult 0 i

/-- Clear the statistics of a descriptor (R333). -/
def Block.clearDesc (b : Block) (d : Nat) : Block :=
  let b := ((b.set (DIS_D_WAITMAX d) 0).set (DIS_D_RUNMAX d) 0).set (DIS_D_TO d) 0
  ((b.set (DIS_D_STALE d) 0).set (DIS_D_OVR d) 0).set (DIS_D_HAND_SKIPPED d) 0

/-- STATCLR (R333): one descriptor, or everything. -/
def Block.statClr (b : Block) (i : Nat) (all : Bool) : Block :=
  if all then
    let b := b.each 1024 fun b d => b.clearDesc d
    let b := b.each 32 fun b e =>
      ((((b.set (DIS_LE_PEAK e) 0).set (DIS_LE_Q_CPEAK e) 0).set (DIS_LE_Q_BPEAK e) 0).set (DIS_LE_PREEMPT e) 0).set
        (DIS_LE_OVR e) 0
    b.each 16 fun b f => ((b.set (DIS_F_REL f) 0).set (DIS_F_STALE f) 0).set (DIS_F_DROP f) 0
  else b.clearDesc i

/-- A write of DIS_CMD (Table 10.5) (DEDUCED, log entry 76). -/
def Block.disCmd (b : Block) (v : Nat) : Block :=
  let i := bits v 16 10
  let x := b.desc i
  if b.flag DIS_RES_BUSY then b.set DIS_RES_RESULT 2
  else match bits v 0 3 with
    | 0 => ((List.finRange 8).foldl (fun b j => b.wr (aDIS_DESC j.1) x.words[j]) b).disResult 0 i
    | 1 => b.disCreate i
    | 2 => b.disDelete i
    | 3 => if x.kind = 4 then (b.modDesc i fun y => { y with kick := true }).disResult 0 i else b.disResult 2 i
    | 4 =>
      let e := bits v 6 5
      if x.cyclic ∧ b.inPool e then (b.modDesc i fun y => { y with rehome := some e }).disResult 0 i
      else b.disResult 2 i
    | 5 => (b.statClr i (bit v 11)).disResult 0 i
    | _ => b.disResult 2 i

/-! ### The Dealer's computation with node and segment tasks (R33, R311) -/

/-- The engine of an axis. -/
def Block.handOf (b : Block) (i : Nat) : Nat := (b.desc i).hand

/-- The node and segment descriptors in the critical-path computation. -/
def Block.pathMore (b : Block) (d : Deck) (choice : Nat → Nat) : List PathTask :=
  (b.descs.filter fun p => p.2.kind = 2 || p.2.kind = 3).filterMap fun p =>
    let s := b.descSeg p.1
    let c := choice s
    let ts := d.turnList s c
    (d.contract s c).bind fun k =>
      if p.2.kind = 3 then some ⟨windowsEnd ts (k.tOpen * 10) + 640, s * 64 + 63, p.2.hand, p.2.runMax, false⟩
      else
        let n := b.descNode p.1
        match windowOpen ts (k.tOpen * 10) n, ts.find? (·.pos = n) with
        | some o, some t => some ⟨o + t.window - 320 + 400, s * 64 + t.turn, p.2.hand, p.2.runMax, false⟩
        | _, _ => none

/-- R33 for the dealt deck with the descriptors as they stand. -/
def Block.pathCheck (b : Block) (extra : Option Nat) : Bool :=
  match b.dealt with
  | some d => b.criticalOk d b.handOf extra (b.pathMore d)
  | none => true

/-- The second check of 09_position_feedback.md R296: with contract `c` of segment `s` where `next` names them, and the contracts in force
elsewhere, no axis that `judged` names releases its record after its boundary. -/
def Block.ssiPathOk (b : Block) (extra : Option Nat) (next : Option (Nat × Nat)) (judged : AxisRec → Bool) : Bool :=
  match b.dealt with
  | some d =>
    let choice (s : Nat) : Nat := match next with
      | some (t, c) => if s = t then c else b.get (SEG_STAT_CONTRACT s)
      | none => b.get (SEG_STAT_CONTRACT s)
    pathOk d (b.pathTasks d choice b.handOf extra judged (b.pathMore d))
  | none => true

/-- DESCRIPTOR_ADMISSION (R311): the check admits the new descriptor, or refuses it with result 3. -/
def execDescriptorAdmission (s : State) : Outcome :=
  .next (s.onBlk fun b =>
    match b.descs.find? (·.2.admitting) with
    | none => b
    | some (i, _) =>
      if b.pathCheck none then ((b.modDesc i fun x => { x with admitting := false }).showUsed).disResult 0 i
      else (b.removeDesc i).disResult 3 i)

/-! ### Engines that leave the pool (R63, R65, R323, R376) -/

/-- At least 2 µs since the engine left the pool. -/
def Block.leftLongAgo (b : Block) (e : Nat) : Bool := (b.eng e).leftAt.any fun t => t + 2000 ≤ b.up

/-- FROZEN_HAND_MOVE (R63 to R65): at a round boundary the hand moves with its state lost, or, where a record would then miss its boundary,
channel B gets SS1 on its axes, as where no engine is left to run them. -/
def execFrozenHandMove (e : Fin 32) (s : State) : Outcome :=
  .next (s.onBlk fun b =>
    if b.frozen (e.1 + 2) ∧ b.leftLongAgo e.1 ∧ b.atPhase then
      let moved := b.moveHand e.1 true
      let axes := ((b.handList e.1).filter fun d => (b.desc d).kind = 1).map b.descAxis
      let b := if (moved.handList e.1).isEmpty && moved.pathCheck none then moved else b.safEvent 0x21 axes
      b.modEng e.1 fun x => { x with leftAt := none }
    else b)

/-- HAND_MOVE (R323): at a round boundary after a halt, or when the domain is switched off, the hand moves with a copy of its state. -/
def execHandMove (e : Fin 32) (s : State) : Outcome :=
  .next (s.onBlk fun b =>
    if ¬ b.frozen (e.1 + 2) ∧ ¬ b.inPool e.1 ∧ b.leftLongAgo e.1 ∧ b.atPhase then
      (b.moveHand e.1 false).modEng e.1 fun x => { x with leftAt := none }
    else b)

/-- What a committed LE_CTL does (R376); a frozen engine stays frozen. -/
def Block.commitHalt (b : Block) (e : Nat) : Block :=
  if b.frozen (e + 2) then b
  else if b.flag (LE_CTL e) then
    if (b.eng e).leftAt.isNone ∧ ¬ b.flag (LE_STAT_HALTED e) then
      (b.modEng e fun x => { x with leftAt := some b.up }).showEngine e
    else b
  else
    let b := ((b.moveHand e false).off (LE_STAT_HALTED e)).openGate e
    ((b.modEng e fun x => { x with leftAt := none }).showEngine e).nextTask e

/-- HALT (R376): LE_CTL.HALT = 1 commits. -/
def execHalt (e : Fin 32) (s : State) : Outcome := .next (s.onBlk fun b => (b.on (LE_CTL e.1)).commitHalt e.1)

/-- HALT_CLEAR (R376): LE_CTL.HALT = 0 commits. -/
def execHaltClear (e : Fin 32) (s : State) : Outcome := .next (s.onBlk fun b => (b.off (LE_CTL e.1)).commitHalt e.1)

/-- HALT_DONE (R376, R377): nothing is queued or running any more, and the engine halts. -/
def execHaltDone (e : Fin 32) (s : State) : Outcome :=
  .next (s.onBlk fun b =>
    let x := b.eng e.1
    if b.flag (LE_CTL e.1) ∧ ¬ b.flag (LE_STAT_HALTED e.1) ∧ ¬ b.frozen (e.1 + 2) ∧ x.run.isNone ∧ x.held.isNone ∧
        x.cq.isEmpty ∧ x.bq.isEmpty then
      (((b.on (LE_STAT_HALTED e.1)).irq (80 + e.1)).showEngine e.1).wantGate e.1
    else b)

end Sys2Proof.Machine
end

