-- ==== Sys2Proof/Machine/Segment.lean ====
section
/-!
DEFINITION. Segment controllers: start-up, walk, authentication, contracts and the lead frame
(06_thrumlos_start_and_schedules.md R187 to R213, R223 to R225; 05_thrumlos_link_and_frames.md R159 to R168). The commands
of a segment boundary are sent just before ROUND_BOUNDARY of that boundary (DEDUCED, log entry 20).
-/

namespace Sys2Proof.Machine

/-! ### States and sources -/

/-- Source `k` of a segment (Table 6.15). -/
def Block.segIrq (b : Block) (s k : Nat) : Block := b.irq (16 + 4 * s + k)

/-- A segment controller changes its state; its first round begins at the next segment boundary (Table 6.1). -/
def Block.segState (b : Block) (s st : Nat) : Block :=
  let old := b.get (SEG_STAT_STATE s)
  let b := b.modSg s fun x => { x with fresh := true, k := 0 }
  if old = st then b
  else
    let b := if old = 6 then b.stopSegTasks s else b
    (b.set (SEG_STAT_STATE s) st).segIrq s 0

/-- The deck uses segment `s`. -/
def Block.segUsed (b : Block) (s : Nat) : Bool := b.dealt.any (·.used s)

/-- Segment `s` is a ring. -/
def Block.segRing (b : Block) (s : Nat) : Bool := b.dealt.any (·.isRing s)

/-- Rate code of the dealt deck. -/
def Block.rateCode (b : Block) : Nat := (b.dealt.map (·.rate)).getD 0

/-- The operating contract of a segment. -/
def Block.segOp (b : Block) (s : Nat) : Nat := ((b.dealt.bind (·.segRec s)).map (·.op)).getD 0

/-- MISS of a segment. -/
def Block.segMiss (b : Block) (s : Nat) : Nat := ((b.dealt.bind (·.segRec s)).map (·.miss)).getD 2

/-- Device round `r` falls on a segment boundary: every one in state 6, else those of contract 0 (R190). -/
def Block.onGrid (b : Block) (s r : Nat) : Bool :=
  let st := b.get (SEG_STAT_STATE s)
  st = 6 || st = 7 || (1 ≤ st && st ≤ 5 && r % 2 ^ b.rateCode = 0)

/-- The coming boundary is a segment boundary. -/
def Block.segDue (b : Block) (s : Nat) : Bool := b.onGrid s (b.roundIn 1)

/-- A SESSION item for the dummy (14_partners.md R447). -/
def Block.tellSession (b : Block) (x : SessItem) : Block :=
  if b.get PTN_STAT_ROLE = 1 ∧ b.flag PTN_STAT_PAIRED then b.ptnSend 3 x.toWords else b

/-- Nodes placed and with a session (Table 6.12). -/
def Block.showCounts (b : Block) (s : Nat) : Block :=
  let ps := List.range 64
  let b := b.set (SEG_STAT_PLACED s) (ps.filter fun p => b.get (SEG_NSTAT_STATE s p) ≠ 0).length
  b.set (SEG_STAT_SESSIONS s) (ps.filter fun p => (b.sn s p).session).length

/-- Everything of a start is forgotten: placed nodes, sessions, keys, switch, kitty, ring state. A STOP stays asked for (R224). -/
def Block.segForget (b : Block) (s : Nat) : Block :=
  let b := (List.range 64).foldl (fun b p =>
    let b := if (b.sn s p).session then b.tellSession (.ended s p) else b
    ((b.set (SEG_NSTAT_STATE s p) 0).off (SEG_NSTAT_LATE s p)).set (SEG_NSTAT_NSTAT s p) 0) b
  let b := b.modSg s fun x => { Reset.seg with listen := x.listen, fresh := true, stop := x.stop }
  let b := (((b.set (SEG_STAT_CONTRACT s) 0).set (SEG_STAT_NEXT s) 0).off (SEG_OPENER_VALID s)).set (SEG_KITTY_GRANTED s) 0
  let ring := b.flag (SEG_STAT_SPLIT s) || b.flag (SEG_STAT_OPEN s) || b.flag (SEG_STAT_CLOSING s)
  let b := ((b.off (SEG_STAT_SPLIT s)).off (SEG_STAT_OPEN s)).off (SEG_STAT_CLOSING s)
  (if ring then b.segIrq s 0 else b).showCounts s

/-- The segment starts in Listen, and the count of R188 begins. -/
def Block.segListen (b : Block) (s : Nat) : Block := (b.segState s 1).segForget s

/-- START (R224): ignored unless the segment is stopped. -/
def Block.segStart (b : Block) (s : Nat) : Block :=
  if b.segUsed s ∧ b.get (SEG_STAT_STATE s) = 0 then b.segListen s else b

/-- STOP takes effect at the next segment boundary (R224). -/
def Block.segStop (b : Block) (s : Nat) : Block :=
  if b.segUsed s ∧ b.get (SEG_STAT_STATE s) ≠ 0 then b.modSg s fun x => { x with stop := true } else b

/-- A committed RESTART restarts the segment and reads 0 again (Table 6.11). -/
def Block.segRestart (b : Block) (s : Nat) : Block :=
  let b := b.off (SEG_B_REQ_RESTART s)
  if b.segUsed s then b.segListen s else b

/-! ### Contract switches (R211, R213) -/

/-- Admissible in one orientation (R172, R211): positions not yet walked count 6.0 µs. -/
def Block.admissibleIn (b : Block) (s c : Nat) (rev : Bool) : Bool :=
  match b.dealt with
  | some d =>
    let ts := d.turnList s c
    let delay (p : Nat) : Nat :=
      if b.get (SEG_NSTAT_STATE s p) = 0 then 60000 else if rev then (b.sn s p).farDown else b.get (SEG_NDLY_DOWN s p)
    (d.contract s c).isSome && admissible (if rev then ts.reverse else ts) d.rate delay
  | none => false

/-- A contract the head may announce: in a pair, admissible in both orientations (14_partners.md R431), and with every axis on a local SSI
channel in time (09_position_feedback.md R296). -/
def Block.switchable (b : Block) (s c : Nat) : Bool :=
  let pair := b.dealt.any (·.mirror.isSome)
  b.ssiPathOk none (some (s, c)) (fun r => b.ssiWait r none ≠ 0) &&
  b.admissibleIn s c (bit (b.get PTN_STAT_REV) (s / 2)) &&
    (!pair || b.admissibleIn s c !(bit (b.get PTN_STAT_REV) (s / 2)))

/-- A switch is refused or ignored: its flag, and source 18 + 4s. -/
def Block.switchFlag (b : Block) (s : Nat) (f : Fld) : Block := (b.on f).segIrq s 2

/-- A switch to `c` is requested (R211, R213) (DEDUCED, log entry 58). -/
def Block.segWant (b : Block) (s c : Nat) : Block :=
  if ¬ b.segUsed s then b
  else if b.get (SEG_STAT_STATE s) ≠ 6 ∨ (b.sg s).switchAt.isSome ∨ (b.sg s).want.isSome then
    b.switchFlag s (SEG_FLAGS_SW_IGN s)
  else b.modSg s fun x => { x with want := some c }

/-- A committed SEG_B_REQ.CONTRACT (Table 6.11): a value that differs from the contract in force starts a switch when none is
pending. -/
def Block.segRequest (b : Block) (s : Nat) : Block :=
  let c := b.get (SEG_B_REQ_CONTRACT s)
  if c = b.get (SEG_STAT_CONTRACT s) then b else b.segWant s c

/-- Contract `c` is announced: 16 segment rounds to C (Table 6.8). -/
def Block.announce (b : Block) (s c : Nat) : Block :=
  let step := if b.get (SEG_STAT_STATE s) = 6 then 1 else 2 ^ b.rateCode
  (b.set (SEG_STAT_NEXT s) c).modSg s fun x => { x with
    switchAt := some (b.roundIn (16 * step)), announced := b.round, nack := false, want := none }

/-- Segment rounds to C. -/
def Block.switchCount (b : Block) (s : Nat) : Nat :=
  let step := if b.get (SEG_STAT_STATE s) = 6 then 1 else 2 ^ b.rateCode
  match (b.sg s).switchAt with
  | some c => b.roundsTo c / step
  | none => 0

/-- SWITCH_DECISION at s + 8 (Table 6.8): a NACK cancels the switch. -/
def execSwitchDecision (s : Fin 8) (st : State) : Outcome :=
  .next (st.onBlk fun b =>
    let x := b.sg s.1
    let step := if b.get (SEG_STAT_STATE s.1) = 6 then 1 else 2 ^ b.rateCode
    if x.switchAt.isSome ∧ b.roundsSince x.announced + 1 = 8 * step ∧ x.nack then
      ((b.set (SEG_STAT_NEXT s.1) (b.get (SEG_STAT_CONTRACT s.1))).modSg s.1 fun x =>
        { x with switchAt := none, nack := false, aborted := true }).switchFlag s.1 (SEG_FLAGS_SW_ABORT s.1)
    else b)

/-- Whether position `p` has a turn in the contract in force, or before Run in the operating contract. -/
def Block.hasTurn (b : Block) (s p : Nat) : Bool :=
  let c := if b.get (SEG_STAT_STATE s) = 6 then b.get (SEG_STAT_CONTRACT s) else b.segOp s
  (b.turnOf s c p).isSome

/-- A placed position without a session (Table 6.14). -/
def Block.idleState (b : Block) (s p : Nat) : Nat := if b.hasTurn s p then 1 else 6

/-- The exchange with a position ends without a session; a refused position stays refused (R206). -/
def Block.dropExchange (b : Block) (s p : Nat) : Block :=
  let b := b.modSn s p fun n => { n with auth := .none, claimed := false }
  if b.get (SEG_NSTAT_STATE s p) = 2 then b.set (SEG_NSTAT_STATE s p) (b.idleState s p) else b

/-- Placed positions show whether the contract in force gives them a turn (Table 6.14) (DEDUCED, log entry 133). -/
def Block.showTurns (b : Block) (s : Nat) : Block :=
  (List.range 64).foldl (fun b p =>
    let st := b.get (SEG_NSTAT_STATE s p)
    if st = 6 ∧ b.hasTurn s p then b.set (SEG_NSTAT_STATE s p) (if (b.sn s p).session then 3 else 1)
    else if (st = 1 ∨ st = 3) ∧ ¬ b.hasTurn s p then b.set (SEG_NSTAT_STATE s p) 6 else b) b

/-- Kitty exchanges end and their windows are free. -/
def Block.dropKitty (b : Block) (s : Nat) (ks : List Kitty) : Block :=
  let b := ks.foldl (fun b k => (b.dropExchange s k.pos).off ⟨aSEG_KITTY s, k.window, 1⟩) b
  b.modSg s fun x => { x with kitty := x.kitty.filter fun k => !ks.contains k }

/-- CONTRACT_SWITCH at C (Table 6.8): the announced contract comes into force; a start ends in Run (R187). Kitty exchanges
whose window it does not have are dropped (R213). -/
def execContractSwitch (s : Fin 8) (st : State) : Outcome :=
  .next (st.onBlk fun b =>
    if (b.sg s.1).switchAt = some (b.roundIn 1) then
      let c := b.get (SEG_STAT_NEXT s.1)
      let b := (b.set (SEG_STAT_CONTRACT s.1) c).modSg s.1 fun x => { x with switchAt := none }
      let b := if b.get (SEG_STAT_STATE s.1) = 6 then b else (b.segState s.1 6).startSegTasks s.1
      let kc := ((b.contract s.1 c).map (·.kcount)).getD 0
      ((b.dropKitty s.1 ((b.sg s.1).kitty.filter fun k => kc ≤ k.window)).showTurns s.1).segIrq s.1 2
    else b)

/-- CONTRACT_REQUEST (Table 6.11): CONTRACT commits. -/
def execContractRequest (s c : Fin 8) (st : State) : Outcome :=
  .next (st.onBlk fun b => if b.segUsed s.1 then (b.set (SEG_B_REQ_CONTRACT s.1) c.1).segRequest s.1 else b)

/-- SEGMENT_RESTART (Table 6.11): RESTART = 1 commits. -/
def execSegmentRestart (s : Fin 8) (st : State) : Outcome := .next (st.onBlk fun b => b.segRestart s.1)

/-! ### Listen, cold start, walk (R187 to R200) -/

/-- LISTEN_END (R187): four segment rounds of Listen have passed; the segment goes cold with a new K_L (Table 2.3). -/
def execListenEnd (s : Fin 8) (st : State) : Outcome :=
  .next (st.onBlk fun b =>
    let x := b.sg s.1
    if b.get (SEG_STAT_STATE s.1) = 1 ∧ b.get PTN_STAT_ROLE ≠ 2 ∧ ¬ x.fresh ∧ x.listen ≤ x.k + 1 ∧ b.segDue s.1 then
      let (n, b) := b.take
      let kl : BitVec 128 := BitVec.ofNat 128 (Config.random n).toNat
      let b := (b.segState s.1 2).modSg s.1 fun x => { x with kl := kl, hasKl := true, walkerP := b.get PTN_STAT_P }
      (b.off ⟨aPTN_STAT, 16 + s.1 / 2, 1⟩).tellSession (.lead s.1 kl)
    else b)

/-- COLD_TIMEOUT (R187): eight rounds without a valid CALL (DEDUCED, log entry 60). -/
def execColdTimeout (s : Fin 8) (st : State) : Outcome :=
  .next (st.onBlk fun b =>
    let x := b.sg s.1
    if b.get (SEG_STAT_STATE s.1) = 2 ∧ ¬ x.fresh ∧ x.call.isNone ∧ 8 ≤ x.k + 1 ∧ b.segDue s.1 then b.segState s.1 1
    else b)

/-- The number of the segment round under way (R190). -/
def Block.segRound (b : Block) (s : Nat) : Nat :=
  if b.get (SEG_STAT_STATE s) = 6 ∨ b.get (SEG_STAT_STATE s) = 7 then b.round else b.round - b.round % 2 ^ b.rateCode

/-- A frame as a management frame of this segment round but for its tag: CRC, header and MSG (R167, R202). -/
def Block.mgmtForm (b : Block) (s : Nat) (x : Frame) (msg len : Nat) (head : Nat × Nat) : Bool :=
  x.crcOk && x.isA head.1 head.2 len (b.segRound s) && x.pay 0 1 = msg

/-- Its tag matches under a key (R204). -/
def Block.mgmtTag (b : Block) (s : Nat) (x : Frame) (k : BitVec 128) : Bool := x.tagged k true s (b.segRound s)

/-- A valid frame in the walk window, tagged under K_0 (Table 6.2, R204); its start symbol arrives in units of 0.4 ns. -/
def Block.walkFrame (b : Block) (s arrival : Nat) (x : Frame) (msg : Nat) : Bool :=
  decide (10000 ≤ 4 * arrival ∧ 4 * arrival ≤ 200000) && b.mgmtForm s x msg 8 (5, 0xFFFE) && b.mgmtTag s x 0

/-- CALL (R195): the first valid one names the opener; state 3 begins at the next segment boundary. -/
def execCall (s : Fin 8) (arrival : Nat) (x : Frame) (st : State) : Outcome :=
  .next (st.onBlk fun b =>
    let y := b.sg s.1
    if b.get (SEG_STAT_STATE s.1) = 2 ∧ ¬ y.fresh ∧ y.call.isNone ∧ b.walkFrame s.1 arrival x 0x81 then
      b.modSg s.1 fun y => { y with call := some (x.pay 4 4, x.pay 8 8) }
    else b)

/-- INTEGRATE_END (R187): four rounds of Integrate. -/
def execIntegrateEnd (s : Fin 8) (st : State) : Outcome :=
  .next (st.onBlk fun b =>
    let x := b.sg s.1
    if b.get (SEG_STAT_STATE s.1) = 3 ∧ ¬ x.fresh ∧ 4 ≤ x.k + 1 ∧ b.segDue s.1 then
      (b.segState s.1 4).modSg s.1 fun x => { x with walk := none, chunk := 0 }
    else b)

/-- The link in front of position `p`, 0.1 ns (R198) (DEDUCED, log entry 57). -/
def Block.linkOf (b : Block) (s p : Nat) : Int :=
  if p = 0 then b.get (SEG_NDLY_DOWN s 0)
  else (b.get (SEG_NDLY_DOWN s p) : Int) - b.get (SEG_NDLY_DOWN s (p - 1)) - b.get (SEG_NLAT_LD s (p - 1))

/-- Far-end delays of the positions below `p + 1`, from those of position `p` on (R201). -/
def Block.farWalk (b : Block) (s : Nat) : Nat → Int → Int → Block
  | p, d, u =>
    let b := b.modSn s p fun n => { n with farDown := d.toNat, farUp := u.toNat }
    match p with
    | 0 => b
    | q + 1 =>
      b.farWalk s q (d + b.get (SEG_NLAT_LU s (q + 1)) + b.linkOf s (q + 1))
        (u + b.get (SEG_NLAT_LD s (q + 1)) + b.linkOf s (q + 1))

/-- The delays through port 2k+1, once the walk has ended and the return time is known (R201); a far end beyond 6.0 µs sets
FAR_LIM (14_partners.md R429). -/
def Block.farDelays (b : Block) (s : Nat) : Block :=
  let n := b.get (SEG_STAT_PLACED s)
  match (b.sg s).returnAt with
  | some t =>
    if b.segRing s ∧ 0 < n ∧ 5 ≤ b.get (SEG_STAT_STATE s) then
      let link : Int := t - b.get (SEG_NDLY_DOWN s (n - 1)) - b.get (SEG_NLAT_LD s (n - 1))
      let b := b.farWalk s (n - 1) link link
      if b.dealt.any (·.mirror.isSome) ∧ (List.range n).any fun p =>
          60000 < (b.sn s p).farDown ∨ 60000 < (b.sn s p).farUp then b.raise PTN_FLAGS_FAR_LIM 7
      else b
    else b
  | none => b

/-- The walk ends: state 5; the opener's position is reported (R195, R200). -/
def Block.endWalk (b : Block) (s : Nat) : Block :=
  let b := (b.segState s 5).modSg s fun x => { x with walk := none }
  let b := match (b.sg s).call with
    | some (_, serial) =>
      match (List.range 64).find? fun p =>
          b.get (SEG_NSTAT_STATE s p) ≠ 0 && b.get (SEG_NID_LO s p) + b.get (SEG_NID_HI s p) * 2 ^ 32 = serial with
      | some p => (b.set (SEG_OPENER_POS s) p).on (SEG_OPENER_VALID s)
      | none => b
    | none => b
  b.farDelays s

/-- A node is refused (R206): its flag, source 17 + 4s, record 0x0021. -/
def Block.refuseNode (b : Block) (s p : Nat) (idErr : Bool) : Block :=
  let b := (b.modSn s p fun n => { n with auth := .none }).set (SEG_NSTAT_STATE s p) 5
  let b := (b.on (if idErr then SEG_FLAGS_ID_ERR s else SEG_FLAGS_AUTH_ERR s)).segIrq s 1
  b.event 0x21 2 (s + p * 2 ^ 8) (if idErr then 1 else 2)

/-- ENUM_R (R198): a valid answer to the ENUM of this round, stamped in 0.4 ns after the boundary. Delays in 0.1 ns; a half
rounds up. A node beyond 6.0 µs ends the walk (R200). -/
def enumAnswer (s : Fin 8) (arrival : Nat) (x : Frame) (st : State) : Outcome :=
  .next (st.onBlk fun b =>
    match (b.sg s.1).walk with
    | none => b
    | some w =>
      if b.get (SEG_STAT_STATE s.1) ≠ 4 ∨ w.placing ∨ w.answered ∨ ¬ b.walkFrame s.1 arrival x 0x82 then b
      else
        let p := w.pos
        let bofs : Int := (((b.sg s.1).lead.map (·.bofs)).getD 0 : Nat)
        let rtt : Int := (arrival * 4 : Nat) - bofs - 12000
        let prev := (b.sn s.1 (p - 1)).rtt
        let pld : Int := b.get (SEG_NLAT_LD s.1 (p - 1))
        let plu : Int := b.get (SEG_NLAT_LU s.1 (p - 1))
        let link : Int := if p = 0 then (rtt + 1) / 2 else (rtt - prev - pld - plu + 1) / 2
        let down : Int := if p = 0 then link else b.get (SEG_NDLY_DOWN s.1 (p - 1)) + pld + link
        let up : Int := if p = 0 then link else b.get (SEG_NDLY_UP s.1 (p - 1)) + plu + link
        if 60000 < down ∨ 60000 < up then (b.on (SEG_FLAGS_WALK_LIM s.1)).endWalk s.1
        else
          let b := ((b.seti (SEG_NDLY_DOWN s.1 p) down).seti (SEG_NDLY_UP s.1 p) up).set (SEG_NLAT_LD s.1 p) (x.pay 2 2)
          let b := (b.set (SEG_NLAT_LU s.1 p) (x.pay 4 2)).wr (aSEG_NID_LO s.1 p) (BitVec.ofNat 32 (x.pay 12 4))
          let b := (b.wr (aSEG_NID_HI s.1 p) (BitVec.ofNat 32 (x.pay 8 4))).modSn s.1 p fun n => { n with rtt := rtt }
          b.modSg s.1 fun y => { y with walk := some { w with answered := true } })

/-- ENUM_R: the frame as its bytes up to the tag and its CRC. -/
def execEnumR (s : Fin 8) (arrival : Nat) (poison : Bool) (body crc : List Byte) (st : State) : Outcome :=
  enumAnswer s arrival ⟨poison, body ++ crc⟩ st

/-- ENUM_UNANSWERED (R200): one ENUM without an answer; two in a row for one position end the walk. -/
def execEnumUnanswered (s : Fin 8) (st : State) : Outcome :=
  .next (st.onBlk fun b =>
    match (b.sg s.1).walk with
    | none => b
    | some w =>
      if b.get (SEG_STAT_STATE s.1) ≠ 4 ∨ w.placing ∨ w.answered ∨ ¬ b.segDue s.1 then b
      else if 1 ≤ w.missed then b.endWalk s.1
      else b.modSg s.1 fun x => { x with walk := some { w with missed := w.missed + 1 } })

/-- START_TIMEOUT (R188): the count reaches 256; START_ERR, and the segment returns to Listen (R38). -/
def execStartTimeout (s : Fin 8) (st : State) : Outcome :=
  .next (st.onBlk fun b =>
    let x := b.sg s.1
    let n := b.get (SEG_STAT_STATE s.1)
    if 1 ≤ n ∧ n ≤ 5 ∧ x.switchAt.isNone ∧ 256 ≤ x.sr ∧ b.segDue s.1 then
      let b := (b.set (SEG_START_RND s.1) 256).on (SEG_FLAGS_START_ERR s.1)
      let b := ((b.devErr DEV_STAT_SEG_START_ERR).event 0x20 2 s.1 256).segIrq s.1 0
      -- step 5 has failed for this segment, which retries (01_dealer_and_helpers.md R38)
      let b := if b.get DEV_BOOT_PHASE = 4 ∨ b.get DEV_BOOT_PHASE = 5 then b.event 6 2 5 (b.rd aDEV_BOOT).toNat else b
      b.segListen s.1
    else b)

/-! ### Authentication (R202 to R206) -/

/-- CMAC12 of R203. -/
def cmac12 (k : BitVec 128) (bs : List Byte) : BitVec 96 := BitVec.ofNat 96 ((Config.cmac k bs).toNat / 2 ^ 32)

/-- The serial of a position. -/
def Block.nodeSerial (b : Block) (s p : Nat) : Nat := b.get (SEG_NID_LO s p) + b.get (SEG_NID_HI s p) * 2 ^ 32

/-- The carousel table of a segment as it stands (R207). -/
def Block.carouselTable (b : Block) (s : Nat) : List Byte :=
  match b.dealt with
  | some d => d.carousel s fun p => ((b.sn s p).farDown, (b.sn s p).farUp)
  | none => []

/-- D of R203. -/
def Block.carouselDigest (b : Block) (s : Nat) : BitVec 96 :=
  BitVec.ofNat 96 ((Config.sha384 (b.carouselTable s)).toNat / 2 ^ 288)

/-- TYPE and TURN of the blocks and frames of an exchange: those of the position before Run (Table 6.2), those of its kitty window in Run
(R216); none without a window. -/
def Block.mgmtHead (b : Block) (s p : Nat) : Option (Nat × Nat) :=
  if b.get (SEG_STAT_STATE s) = 6 then
    ((b.sg s).kitty.find? (·.pos = p)).map fun k => (4 + Config.mgmtType k.window % 4, Config.kittyTurn k.window p % 2 ^ 16)
  else some (4, p)

/-- A frame of an exchange but for its tag. -/
def Block.authForm (b : Block) (s p : Nat) (x : Frame) (msg : Nat) : Bool := (b.mgmtHead s p).any fun h => b.mgmtForm s x msg 8 h

/-- AUTH2 (R204 to R206): the head derives K_S, checks the tag and NP, and will answer with AUTH3. -/
def auth2Frame (s : Fin 8) (p : Fin 64) (x : Frame) (st : State) : Outcome :=
  .next (st.onBlk fun b =>
    let n := b.sn s.1 p.1
    match n.auth with
    | .sent1 _ =>
      let nn : BitVec 128 := BitVec.ofNat 128 (x.pay 4 16)
      let serial := b.nodeSerial s.1 p.1
      let ks := b.sessionKey s.1 serial (b.get PTN_EPOCH) n.nh nn
      let proof := cmac12 ks (ascii "NPRF" ++ bytesBE 8 serial ++ bytesBE 1 s.1 ++ bytesBE 1 p.1 ++
        bytesBE 2 (b.get (SEG_NDLY_DOWN s.1 p.1)) ++ bytesBE 2 (b.get (SEG_NDLY_UP s.1 p.1)) ++ bytesBE 16 n.nh.toNat ++
        bytesBE 16 nn.toNat)
      if ¬ b.authForm s.1 p.1 x 0x92 then b
      else if ¬ b.mgmtTag s.1 x ks ∨ proof.toNat ≠ x.pay 20 12 then b.refuseNode s.1 p.1 false
      else b.modSn s.1 p.1 fun n => { n with nn := nn, ks := ks, hasKs := true, auth := .due3 }
    | _ => b)

/-- AUTH2: the frame as its bytes up to the tag and its CRC. -/
def execAuth2 (s : Fin 8) (p : Fin 64) (poison : Bool) (body crc : List Byte) (st : State) : Outcome :=
  auth2Frame s p ⟨poison, body ++ crc⟩ st

/-- A session begins (R205). After a claim the node is late, its kitty window is free, and in Run its axes restart with its first valid
turn (R216). -/
def Block.beginSession (b : Block) (s p : Nat) : Block :=
  let n := b.sn s p
  let first := n.claimed && b.get (SEG_STAT_STATE s) = 6
  let b := b.modSn s p fun n => { n with
    session := true, auth := .none, claimed := false, first := first, missRun := 0, lastOutcome := some b.round }
  let b := (b.set (SEG_NSTAT_STATE s p) (if b.hasTurn s p then 3 else 6)).showCounts s
  let b := b.tellSession (.node s p (b.nodeSerial s p) n.ks)
  let b := b.dropKitty s ((b.sg s).kitty.filter (·.pos = p))
  let b := if first then (b.nodeAxes s p).foldl (fun b i => b.modAx i fun x => { x with joined := true }) b else b
  if n.claimed then (b.on (SEG_NSTAT_LATE s p)).segIrq s 3 else b.off (SEG_NSTAT_LATE s p)

/-- A session ends. -/
def Block.endSession (b : Block) (s p : Nat) : Block :=
  if (b.sn s p).session then
    let b := b.modSn s p fun n => { n with session := false, first := false }
    ((b.set (SEG_NSTAT_STATE s p) (b.idleState s p)).showCounts s).tellSession (.ended s p)
  else b

/-- AUTH4 (R205): NC correct under K_S over the D sent in AUTH3, and the session begins; a wrong tag refuses the node (R206)
(DEDUCED, log entry 56). -/
def auth4Frame (s : Fin 8) (p : Fin 64) (x : Frame) (st : State) : Outcome :=
  .next (st.onBlk fun b =>
    let n := b.sn s.1 p.1
    match n.auth with
    | .sent3 _ =>
      if ¬ b.authForm s.1 p.1 x 0x94 then b
      else if ¬ b.mgmtTag s.1 x n.ks then b.refuseNode s.1 p.1 false
      else if x.pay 4 12 = (cmac12 n.ks (ascii "NCNF" ++ bytesBE 12 n.d.toNat ++ bytesBE 16 n.nh.toNat)).toNat then
        b.beginSession s.1 p.1
      else b
    | _ => b)

/-- AUTH4: the frame as its bytes (DEDUCED, log entry 56). -/
def execAuth4 (s : Fin 8) (p : Fin 64) (poison : Bool) (bytes : List Byte) (st : State) : Outcome :=
  auth4Frame s p ⟨poison, bytes⟩ st

/-- AUTH4_NAK (R205): D did not match; the exchange ends without a session. -/
def execAuth4Nak (s : Fin 8) (p : Fin 64) (x : Frame) (st : State) : Outcome :=
  .next (st.onBlk fun b =>
    let n := b.sn s.1 p.1
    match n.auth with
    | .sent3 _ =>
      if ¬ b.authForm s.1 p.1 x 0x95 then b
      else if ¬ b.mgmtTag s.1 x n.ks then b.refuseNode s.1 p.1 false
      else b.dropExchange s.1 p.1
    | _ => b)

/-- AUTH_TIMEOUT (R205): no AUTH2 within 4 segment rounds, or no AUTH4 within 12; the node is late. -/
def execAuthTimeout (s : Fin 8) (p : Fin 64) (st : State) : Outcome :=
  .next (st.onBlk fun b =>
    let late : Bool := match (b.sn s.1 p.1).auth with
      | .sent1 n => decide (4 ≤ n)
      | .sent3 n => decide (12 ≤ n)
      | _ => false
    if late ∧ b.segDue s.1 then b.dropExchange s.1 p.1 else b)

/-! ### The lead frame (R160, R210) -/

/-- The command slots of node `n` under the contract in force; none without a turn. -/
def Block.slotsOf (b : Block) (s n : Nat) : Nat :=
  (((b.order s (b.get (SEG_STAT_CONTRACT s))).find? (·.pos = n)).map (·.slots)).getD 0

/-- Items whose node has no command slots are dropped and counted (R163). -/
def Block.dropUnslotted (b : Block) : Block :=
  let (gone, kept) := b.ang.items.partition fun x => b.slotsOf x.seg x.node = 0
  ({ b with ang.items := kept } : Block).countLate (gone.filter (!·.late)).length

/-- The items a lead frame carries, by command time: at most 16, and no more of a node than its slots (R142, R163). -/
def takeItems (slots : Nat → Nat) : List CmdItem → List CmdItem → List CmdItem
  | acc, [] => acc
  | acc, x :: t =>
    if acc.length < 16 ∧ (acc.filter (·.node = x.node)).length < slots x.node then takeItems slots (acc ++ [x]) t
    else takeItems slots acc t

/-- The command slots by turn; the items they take leave the queue. -/
def Block.takeSlots (b : Block) (s : Nat) : List (Nat × List CmdItem) × Block :=
  let ts := b.order s (b.get (SEG_STAT_CONTRACT s))
  let xs := takeItems (b.slotsOf s) [] (sortKey (fun x : CmdItem => x.tc.toNat) (b.ang.items.filter (·.seg = s)))
  let out := (ts.filter (0 < ·.slots)).map fun t => (t.turn, xs.filter (·.node = t.pos))
  (out, { b with ang.items := xs.foldl List.erase b.ang.items })

/-- The carousel chunk of this segment round, states 4 and 5 (R207). -/
def Block.carouselChunk (b : Block) (s : Nat) : Option (Nat × Nat × List Byte) :=
  let t := b.carouselTable s
  let n := (t.length + 251) / 252
  if n = 0 then none else some ((b.sg s).chunk % n, n, (t.drop ((b.sg s).chunk % n * 252)).take 252)

/-- ARG of Table 6.7. -/
def Block.leadArg (b : Block) (s : Nat) : Nat :=
  let x := b.sg s
  if b.switchCount s ≠ 0 then
    match b.dealt, b.contract s (b.get (SEG_STAT_NEXT s)) with
    | some d, some k => (Config.sha384 (d.carouselEntry s k)).toNat / 2 ^ 352
    | _, _ => 0
  else match x.grant with
    | some (_, id) => id
    | none => if b.get (SEG_STAT_STATE s) = 3 then ((x.call.map (·.1)).getD 0) else 0

/-- The position a message of an exchange is for. -/
def MgmtMsg.pos : MgmtMsg → Nat
  | .auth1 p _ => p
  | .auth3 p _ _ _ => p
  | _ => 0

/-- The key that tags a message (R204): K_0, and K_S for AUTH3. -/
def Block.msgKey (b : Block) (s : Nat) : MgmtMsg → BitVec 128
  | .auth3 p _ _ _ => (b.sn s p).ks
  | _ => 0

/-- The blocks of contract 0 after the lead block in their slots (Table 6.2): walk block, carousel block, management blocks. -/
def Block.emitStart (b : Block) (s : Nat) (walk : MgmtMsg) (msgs : List MgmtMsg) : Block :=
  let st := b.get (SEG_STAT_STATE s)
  let chunk := if st = 4 ∨ st = 5 then b.carouselChunk s else none
  let b := if walk = .none then b else b.sendBlock s 3072 (b.downBlock s 0 5 0xFFFE (padTo 32 walk.bytes))
  let b := match chunk with
    | some (i, n, bs) => b.sendBlock s 4608 (b.downBlock s 0 6 0xFFFD (padTo 256 (bytesBE 2 i ++ bytesBE 2 n ++ bs)))
    | none => b
  msgs.foldl (fun b m => b.sendBlock s (13312 + 2048 * m.pos) (b.downBlock s (b.msgKey s m) 4 m.pos (padTo 48 m.bytes))) b

/-- The blocks of Run that wait for no record: nodes without axes, and the messages of kitty exchanges in their kitty blocks
(R160, R209, R216). -/
def Block.emitRun (b : Block) (s : Nat) (msgs : List MgmtMsg) : Block :=
  let b := (b.order s (b.get (SEG_STAT_CONTRACT s))).foldl (fun b t => if (b.turnAxes s t).isEmpty then b.sendNode s t else b) b
  msgs.foldl (fun b m => match (b.sg s).kitty.find? (·.pos = m.pos), b.mgmtHead s m.pos with
    | some k, some h => b.sendBlock s (b.kittyStart s k.window) (b.downBlock s (b.msgKey s m) h.1 h.2 (padTo 48 m.bytes))
    | _, _ => b) b

/-- The lead frame of this boundary begins (R160, R183): the lead block, with its tag under K_L (R166), and the blocks that follow at
once. -/
def Block.emitLead (b : Block) (s : Fin 8) (walk : MgmtMsg) (msgs : List MgmtMsg) : Block :=
  let st := b.get (SEG_STAT_STATE s.1)
  let x := b.sg s.1
  let (n, b) := b.take
  let b := b.emitWords s
  let (slots, b) := if st = 6 then b.takeSlots s.1 else ([], b)
  let split := b.flag (SEG_STAT_SPLIT s.1)
  let l : Lead := {
    round := b.round, p := b.get PTN_STAT_P, contract := b.get (SEG_STAT_CONTRACT s.1), next := b.get (SEG_STAT_NEXT s.1)
    switch := b.switchCount s.1, epoch := b.get PTN_EPOCH, ptime := b.ns
    ring := b2n (b.segRing s.1) + 2 * b2n split + 4 * b2n (b.flag (SEG_STAT_CLOSING s.1))
    close := match x.closeAt with
      | some c => b.roundsTo c
      | none => 0
    bofs := Config.freeNat n % 32, phase := st - 1, log2r := if st = 6 then 0 else b.rateCode
    kcount := if st = 6 then ((b.contract s.1 (b.get (SEG_STAT_CONTRACT s.1))).map (·.kcount)).getD 0 else 0
    grantK := ((x.grant.map (·.1)).getD 0), grant := x.grant.isSome, arg := b.leadArg s.1
    safeA := b.safeWord b.safety.a false s, safeB := b.safeWord b.safety.b true s
    both := split && (x.noticeAt.all fun t => t + 200 ≤ b.up)
    slots := slots }
  let b := b.modSg s.1 fun y => { y with lead := some l, frame := [] }
  let b := b.sendBlock s.1 0 (b.downBlock s.1 x.kl 0 0xFFFF l.payload)
  let b := if st = 6 then b.emitRun s.1 msgs else b.emitStart s.1 walk msgs
  b.modSg s.1 fun y => { y with chunk := y.chunk + 1 }

/-! ### The segment boundary -/

/-- The walk advances (R197, R199): the message of the walk block. -/
def Block.walkStep (b : Block) (s : Nat) : MgmtMsg × Block :=
  let start (b : Block) (p : Nat) : MgmtMsg × Block :=
    (.enum p, b.modSg s fun x => { x with walk := some ⟨p, false, 0, false⟩ })
  match (b.sg s).walk with
  | none => start b 0
  | some w =>
    if w.placing then
      -- position w.pos is placed from this boundary (R199)
      let p := w.pos
      let want := ((b.dealt.bind fun d => d.nodeIds.find? fun r => r.seg = s && r.pos = p).map (·.serial)).getD 0
      let b := b.set (SEG_NSTAT_STATE s p) 1
      let b := if b.hasTurn s p then b
        else ((b.set (SEG_NSTAT_STATE s p) 6).on (SEG_FLAGS_EXTRA s)).segIrq s 3
      let b := if want ≠ 0 ∧ want ≠ b.nodeSerial s p then b.refuseNode s p true
        else b.modSn s p fun n => { n with auth := .due1 }
      let b := b.showCounts s
      if p = 63 then (.none, b.endWalk s) else start b (p + 1)
    else if w.answered then
      (.place w.pos (b.nodeSerial s w.pos) (b.get (SEG_NDLY_DOWN s w.pos)) (b.get (SEG_NDLY_UP s w.pos)),
        b.modSg s fun x => { x with walk := some { w with placing := true } })
    else (.enum w.pos, b)

/-- The messages of the exchanges due at this boundary (R205). -/
def Block.authStep (b : Block) (s : Nat) : List MgmtMsg × Block :=
  (List.range 64).foldl (fun (ms, b) p =>
    let n := b.sn s p
    match n.auth with
    | .none => (ms, b)
    | .due1 =>
      let (k, b) := b.take
      let nh : BitVec 128 := BitVec.ofNat 128 (Config.random k).toNat
      let b := if b.get (SEG_NSTAT_STATE s p) = 1 then b.set (SEG_NSTAT_STATE s p) 2 else b
      (ms ++ [.auth1 p nh], b.modSn s p fun n => { n with nh := nh, auth := .sent1 0 })
    | .sent1 k => (ms, b.modSn s p fun n => { n with auth := .sent1 (k + 1) })
    | .due3 =>
      let d := b.carouselDigest s
      let wk := Config.aes n.ks (b.sg s).kl
      let hp := cmac12 n.ks (ascii "HPRF" ++ bytesBE 12 d.toNat ++ bytesBE 16 wk.toNat ++ bytesBE 16 n.nn.toNat)
      (ms ++ [.auth3 p d wk hp], b.modSn s p fun n => { n with d := d, auth := .sent3 0 })
    | .sent3 k => (ms, b.modSn s p fun n => { n with auth := .sent3 (k + 1) })) ([], b)

/-- Every placed node has a session, is refused or has timed out (R187). -/
def Block.settled (b : Block) (s : Nat) : Bool :=
  (List.range 64).all fun p => b.get (SEG_NSTAT_STATE s p) = 0 || (b.sn s p).auth = .none

/-- Settle announces the operating contract once every node is settled (R187, R211). -/
def Block.settleStep (b : Block) (s : Nat) : Block :=
  let x := b.sg s
  if x.switchAt.isSome ∨ x.aborted ∨ ¬ b.settled s then b
  else if b.switchable s (b.segOp s) then (b.set (SEG_START_RND s) (x.sr - 1)).announce s (b.segOp s)
  else (b.modSg s fun x => { x with aborted := true }).switchFlag s (SEG_FLAGS_SW_ABORT s)

/-- A requested switch is announced or refused, never while a closure counts down (R211, R213). -/
def Block.wantStep (b : Block) (s : Nat) : Block :=
  match (b.sg s).want with
  | none => b
  | some c =>
    if b.flag (SEG_STAT_CLOSING s) ∨ (b.sg s).switchAt.isSome then b
    else if b.switchable s c then b.announce s c
    else (b.modSg s fun x => { x with want := none }).switchFlag s (SEG_FLAGS_SW_ABORT s)

/-- Kitty windows (R213, R215, R216): AUTH1 follows a grant by one round; of the claims of the round, the one in the lowest free
window is granted, none while a switch is announced. -/
def Block.kittyStep (b : Block) (s : Nat) : Block :=
  let x := b.sg s
  let b := (x.kitty.filter (·.rounds = 0)).foldl (fun b k => b.modSn s k.pos fun n => { n with auth := .due1, claimed := true }) b
  let b := b.modSg s fun x => { x with
    kitty := x.kitty.map (fun k => { k with rounds := k.rounds + 1 }), claims := [], grant := none }
  let free := x.claims.filter fun c => !(x.kitty.any (·.window = c.window))
  match (sortKey (·.window) free).head? with
  | some c =>
    if x.switchAt.isSome then b
    else
      let b := b.modSg s fun x => { x with kitty := x.kitty ++ [⟨c.window, c.pos, 0⟩], grant := some (c.window, c.id) }
      ((b.on ⟨aSEG_KITTY s, c.window, 1⟩).inc (SEG_KITTY_GRANTS s)).segIrq s 3
  | none => b

/-- A head port as an end of a broken link (R185): in lock again since the break for at least 10 ms (DEDUCED, log entry 59). -/
def Block.portHealed (b : Block) (s : Nat) : Nat :=
  let notice := (b.sg s).noticeAt.getD 0
  ((List.range 2).filter fun k => ((b.ports.toList.getD (s + k) none).any fun t => notice ≤ t && t + 10000000 ≤ b.up)).length

/-- The count of rounds in which both ends of a split ring report HEAL, and the choice of a closure boundary 16 rounds ahead; an end that
loses lock during the countdown cancels it, a round without its turn does not (R185). -/
def Block.healStep (b : Block) (s : Nat) : Block :=
  if ¬ b.flag (SEG_STAT_SPLIT s) then b
  else
    let ends (f : SegNode → Bool) : Nat := ((List.range 64).filter fun p => f (b.sn s p)).length + b.portHealed s
    if b.flag (SEG_STAT_CLOSING s) then
      if 2 ≤ ends fun n => n.lastHeal.isSome && n.lastHeal = n.lastValid then b
      else ((b.modSg s fun x => { x with heal := 0, closeAt := none }).off (SEG_STAT_CLOSING s)).segIrq s 0
    else if (ends fun n => n.lastHeal.any fun r => b.roundsSince r = 1) < 2 then b.modSg s fun x => { x with heal := 0 }
    else
      let n := (b.sg s).heal + 1
      let b := b.modSg s fun x => { x with heal := n }
      if 64 ≤ n ∧ (b.sg s).switchAt.isNone then
        ((b.modSg s fun x => { x with closeAt := some (b.roundIn 16) }).on (SEG_STAT_CLOSING s)).segIrq s 0
      else b

/-- What a round boundary does in segment controller `s`: a stop, the CALL heard, the walk and the exchanges, announcements,
grants, ring closure, and the lead frame. The round number has advanced already. -/
def Block.segBoundary (b : Block) (s : Fin 8) : Block :=
  let st := b.get (SEG_STAT_STATE s.1)
  if ¬ b.segUsed s.1 ∨ ¬ b.onGrid s.1 b.round then b
  else if (b.sg s.1).stop then (((b.modSg s.1 fun x => { x with stop := false }).segState s.1 0).segForget s.1)
  else if st = 7 then (b.countWords s).modSg s.1 fun x => { x with lead := none, frame := [] }
  else
    let b := if st = 2 ∧ (b.sg s.1).call.isSome then b.segState s.1 3 else b
    let st := b.get (SEG_STAT_STATE s.1)
    let b := b.modSg s.1 fun x => { x with
      fresh := false, k := if x.fresh then 0 else x.k + 1, sr := if st ≤ 5 ∧ x.switchAt.isNone then x.sr + 1 else x.sr }
    if st = 1 then b.modSg s.1 fun x => { x with lead := none, frame := [] }
    else
      let (m, b) := if st = 4 then b.walkStep s.1 else (if st = 2 then .invite else .none, b)
      let b := if b.get (SEG_STAT_STATE s.1) = 6 then ((b.wantStep s.1).kittyStep s.1).healStep s.1 else b
      let (ms, b) := b.authStep s.1
      let b := if b.get (SEG_STAT_STATE s.1) = 5 then
          (b.modSg s.1 fun x => { x with fresh := false, claims := [] }).settleStep s.1 else b
      b.emitLead s m ms

end Sys2Proof.Machine
end

