-- ==== Sys2Proof/Machine/SegTurns.lean ====
section
/-!
DEFINITION. Turns and their outcomes (06_thrumlos_start_and_schedules.md R217 to R219), kitty turns (R214 to R216), rings and
receiver lock (05_thrumlos_link_and_frames.md R153, R180 to R186).
-/

namespace Sys2Proof.Machine

/-! ### Turns -/

/-- TYPE, VER, LEN, ROUND16 and TURN of a turn as the contract and the round ask (R167). -/
def Frame.turnOk (x : Frame) (t : TurnRec) (round : Nat) : Bool := x.isA 1 t.turn (8 * t.axes) round

/-- The outcome of a turn whose start symbol lies `ofs` off its due time, in 0.4 ns (R217); 32.0 ns to 33.6 ns off it may be clipped or
not (R178), as `clip` says (DESIGN CHOICE, log entry 54). -/
def Frame.outcome (x : Frame) (ofs : Int) (ks : BitVec 128) (s : Nat) (t : TurnRec) (round : Nat) (clip : Bool) : TurnOutcome :=
  let d := ofs.natAbs
  if 84 < d ∨ (80 < d ∧ clip) then .clipped
  else if ¬ x.crcOk then .crc
  else if ¬ x.turnOk t round then .format
  else if ¬ x.tagged ks true s round then .tag
  else if 20 < d then .edge
  else .nominal

/-- Count an outcome, per node and per segment. -/
def Block.countOutcome (b : Block) (s p : Nat) (o : TurnOutcome) : Block :=
  match o with
  | .empty => (b.inc (SEG_EMPTY_CNT s p)).inc (SEG_EMPTY_TOT s)
  | .clipped => (b.inc (SEG_CLIP_CNT s p)).inc (SEG_CLIP_TOT s)
  | .crc => (b.inc (SEG_CRC_CNT s p)).inc (SEG_CRC_TOT s)
  | .format => (b.inc (SEG_FMT_CNT s p)).inc (SEG_FMT_TOT s)
  | .tag => (b.inc (SEG_TAG_CNT s p)).inc (SEG_TAG_TOT s)
  | .edge => (b.inc (SEG_EDGE_CNT s p)).inc (SEG_EDGE_TOT s)
  | .nominal => b

/-- A turn without a valid record. -/
def Block.badTurn (b : Block) (s p : Nat) (o : TurnOutcome) : Block :=
  (b.countOutcome s p o).modSn s p fun n => { n with lastOutcome := some b.round, missRun := n.missRun + 1 }

/-- Consecutive Edge outcomes (R218). -/
def Block.countEdge (b : Block) (s p : Nat) (o : TurnOutcome) (ofs : Int) : Block :=
  let b := b.seti (SEG_EDGE_OFS_OFS s p) ofs
  if o = .nominal then b.set (SEG_EDGE_OFS_CONSEC s p) 0
  else
    let n := min 16 (b.get (SEG_EDGE_OFS_CONSEC s p) + 1)
    let reached := decide (n = 16 ∧ b.get (SEG_EDGE_OFS_CONSEC s p) < 16)
    let b := b.set (SEG_EDGE_OFS_CONSEC s p) n
    if reached then ((b.on (SEG_NSTAT_EDGE_FLAG s p)).on (SEG_FLAGS_EDGE s)).segIrq s 1 else b

/-- The record of one axis of a valid turn reaches its axis (Table 5.5): what the node reports, the position sample of R297,
the angle sample of a KIND 2 source, which sees the clamped value (R302). -/
def Block.takeRecord (b : Block) (i : Nat) (r : List Byte) (nstat : Nat) : Block :=
  let w (k n : Nat) : Nat := ofBytesBE ((r.drop k).take n)
  let uncert := bit (w 31 1) 0
  let n : NodeAxis := ⟨w 30 1, w 20 4, w 24 4, sgn 64 (w 0 8), sgn 32 (w 8 4), sgn 32 (w 12 4), uncert, w 16 4, bit (w 31 1) 1⟩
  let b := b.modAx i fun x => { x with node := n }
  let b := ((b.seti (AX_ACTTRQ i) n.trq).set (AX_NSTATUS i) n.status).set (AX_NERR i) n.err
  let b := b.put (AX_STAT_NODE_SAFE i) (bit nstat 7)
  if (b.axisRec i).any (·.feedback = 0) then
    let b := b.entrySample i n.pos uncert b.roundAt
    let p := softClamp (b.geti (FB_N_SLO i)) (b.geti (FB_N_SHI i)) n.pos
    b.anglePosition 2 i p (b.cap.times[0] / 2 ^ 32 % 2 ^ 64) uncert
  else b

/-- A valid turn (R217 to R219): counted, a missing node returns, its records reach their axes. -/
def Block.goodTurn (b : Block) (s p : Nat) (t : TurnRec) (o : TurnOutcome) (ofs : Int) (far : Bool) (x : Frame) : Block :=
  let nstat := x.byte 7
  let b := (b.countOutcome s p o).countEdge s p o ofs
  let b := b.set (SEG_NSTAT_NSTAT s p) nstat
  let b := if bit nstat 0 then b else b.inc (SEG_NLEAD_CNT s p)
  let b := b.modSn s p fun n => { n with
    lastOutcome := some b.round, lastValid := some b.round, far := far, first := false, missRun := 0
    lastHeal := if bit nstat 5 then some b.round else n.lastHeal }
  let b := if b.get (SEG_NSTAT_STATE s p) = 4 then (b.set (SEG_NSTAT_STATE s p) 3).segIrq s 1 else b
  (List.range t.axes).foldl (fun b k => match b.axisAt s p k with
    | some i => b.takeRecord i ((x.bytes.drop (7 + 32 * k)).take 32) nstat
    | none => b) b

/-- The turn of a position whose outcome of this round is still open: its node holds a session and has a turn (R217). -/
def Block.openTurn (b : Block) (s p : Nat) : Option TurnRec :=
  if b.get (SEG_STAT_STATE s) = 6 ∧ (b.sn s p).session ∧ (b.sn s p).lastOutcome ≠ some b.round then
    b.turnOf s (b.get (SEG_STAT_CONTRACT s)) p
  else none

/-- The outcome of an invalid copy of this round's turn (R183). -/
def Block.badCopy (b : Block) (s p : Nat) : Option TurnOutcome :=
  (b.sn s p).bad.bind fun x => if x.1 = b.round then some x.2 else none

/-- A turn without a valid copy so far: on a split ring the other port may still deliver it valid (R183), and its first outcome is kept
(DEDUCED, log entry 62). -/
def Block.failTurn (b : Block) (s p : Nat) (o : TurnOutcome) : Block :=
  match b.badCopy s p with
  | some o => b.badTurn s p o
  | none => if b.flag (SEG_STAT_SPLIT s) then b.modSn s p fun n => { n with bad := some (b.round, o) } else b.badTurn s p o

/-- UPSTREAM_TURN (R217, R183): exactly one outcome per round; `far` says that it came by port 2k+1, which takes turns while the ring is
split (DEDUCED, log entry 62). -/
def execUpstreamTurn (seg : Fin 8) (p : Fin 64) (far : Bool) (ofs : Int) (x : Frame) (s : State) : Outcome :=
  .next (s.onBlk fun b =>
    match b.openTurn seg.1 p.1 with
    | none => b
    | some t =>
      if far ∧ ¬ b.flag (SEG_STAT_SPLIT seg.1) then b
      else
        let (k, b) := b.take
        match x.outcome ofs (b.sn seg.1 p.1).ks seg.1 t b.round (Config.freeBool k) with
        | .edge => b.goodTurn seg.1 p.1 t .edge ofs far x
        | .nominal => b.goodTurn seg.1 p.1 t .nominal ofs far x
        | o => b.failTurn seg.1 p.1 o)

/-- The turn window of a position has closed. -/
def Block.windowClosed (b : Block) (s p : Nat) : Bool :=
  (b.windowOf s (b.get (SEG_STAT_CONTRACT s)) p).any fun w => decide (b.roundAt * 10 + w.2 ≤ b.up * 10)

/-- TURN_WINDOW_CLOSE (R217): no start symbol in the window, or no valid copy. The nodes beyond a break that closes have no turn in round C
(Table 5.11). -/
def execTurnWindowClose (seg : Fin 8) (p : Fin 64) (s : State) : Outcome :=
  .next (s.onBlk fun b =>
    if (b.openTurn seg.1 p.1).isNone ∨ ¬ b.windowClosed seg.1 p.1 then b
    else if (b.sg seg.1).closedAt = some b.round ∧ (b.sn seg.1 p.1).far then
      b.modSn seg.1 p.1 fun n => { n with lastOutcome := some b.round }
    else b.badTurn seg.1 p.1 ((b.badCopy seg.1 p.1).getD .empty))

/-- NODE_MISSING (R219): no valid turn in MISS consecutive rounds; its axes fault (Table 7.4). -/
def execNodeMissing (seg : Fin 8) (p : Fin 64) (s : State) : Outcome :=
  .next (s.onBlk fun b =>
    if b.get (SEG_NSTAT_STATE seg.1 p.1) = 3 ∧ b.segMiss seg.1 ≤ (b.sn seg.1 p.1).missRun then
      let b := ((b.set (SEG_NSTAT_STATE seg.1 p.1) 4).on (SEG_FLAGS_MISS seg.1)).segIrq seg.1 1
      (b.nodeAxes seg.1 p.1).foldl (fun b i => b.axisFault i 7) b
    else b)

/-- A valid NACK of the contract announced, in place of the turn of position `p` (R211, Table 6.4). -/
def Block.nackOk (b : Block) (s p : Nat) (x : Frame) : Bool :=
  let form := if b.get (SEG_STAT_STATE s) = 6 then
      (b.turnOf s (b.get (SEG_STAT_CONTRACT s)) p).any fun t =>
        b.mgmtForm s x 0x96 (8 * t.axes) (4 + Config.mgmtType 4 % 4, t.turn)
    else b.mgmtForm s x 0x96 8 (4, p)
  form && b.mgmtTag s x (b.sn s p).ks && x.pay 1 1 = b.get (SEG_STAT_NEXT s)

/-- NACK (R211): a node refuses the contract announced. Any other frame of this kind has the outcome its bytes give it (R217). -/
def execNack (seg : Fin 8) (p : Fin 64) (x : Frame) (s : State) : Outcome :=
  .next (s.onBlk fun b =>
    let n := b.sn seg.1 p.1
    if n.session ∧ (b.sg seg.1).switchAt.isSome ∧ b.nackOk seg.1 p.1 x then
      (b.modSg seg.1 fun y => { y with nack := true }).modSn seg.1 p.1 fun n =>
        { n with lastOutcome := some b.round, missRun := 0 }
    else match b.openTurn seg.1 p.1 with
      | some _ => b.failTurn seg.1 p.1 (if x.crcOk then .format else .crc)
      | none => b)

/-! ### Claims (R214 to R216) -/

/-- A valid CLAIM of position `p` (R204, Table 6.4): of the node the walk found there (DEDUCED, log entry 133). -/
def Block.claimOk (b : Block) (s p : Nat) (x : Frame) (head : Nat × Nat) : Bool :=
  b.mgmtForm s x 0x83 8 head && b.mgmtTag s x 0 && x.pay 8 8 = b.nodeSerial s p

/-- CLAIM: in Settle in the position window `window`, answered with AUTH1; in Run in kitty window `window` − 64, granted at the next
boundary at the earliest. It ends the session of its node. A claim of a position without a turn sets EXTRA; one of a refused position is
ignored (R215). -/
def claimFrame (seg : Fin 8) (window : Fin 68) (x : Frame) (s : State) : Outcome :=
  .next (s.onBlk fun b =>
    let st := b.get (SEG_STAT_STATE seg.1)
    let p := x.pay 1 1
    let n := b.get (SEG_NSTAT_STATE seg.1 p)
    if 64 ≤ p ∨ n = 5 ∨ n = 0 then b
    else if window.1 < 64 then
      if st = 5 ∧ window.1 = p ∧ b.claimOk seg.1 p x (4, p) then
        (b.endSession seg.1 p).modSn seg.1 p fun n => { n with auth := .due1, claimed := true }
      else b
    else
      let k := window.1 - 64
      let kc := ((b.contract seg.1 (b.get (SEG_STAT_CONTRACT seg.1))).map (·.kcount)).getD 0
      if st ≠ 6 ∨ kc ≤ k ∨ (b.sg seg.1).kitty.any (·.window = k) ∨
          ¬ b.claimOk seg.1 p x (4 + Config.mgmtType k % 4, Config.kittyTurn k p % 2 ^ 16) then b
      else
        let b := b.endSession seg.1 p
        if ¬ b.hasTurn seg.1 p then (b.on (SEG_FLAGS_EXTRA seg.1)).segIrq seg.1 3
        else b.modSg seg.1 fun y => { y with claims := y.claims ++ [⟨k, p, x.pay 4 4, x.pay 8 8⟩] })

/-- CLAIM: the frame as its bytes. -/
def execClaim (seg : Fin 8) (window : Fin 68) (poison : Bool) (bytes : List Byte) (s : State) : Outcome :=
  claimFrame seg window ⟨poison, bytes⟩ s

/-- KITTY_TIMEOUT (R216): eight rounds after a grant its window is free again. -/
def execKittyTimeout (seg : Fin 8) (window : Fin 4) (s : State) : Outcome :=
  .next (s.onBlk fun b =>
    let late := (b.sg seg.1).kitty.filter fun k => k.window = window.1 && decide (8 ≤ k.rounds)
    if late.isEmpty then b else ((b.dropKitty seg.1 late).on (SEG_FLAGS_KITTY_TO seg.1)).segIrq seg.1 3)

/-! ### Rings (R183 to R185) -/

/-- A break notice is valid (R164, R166, R167): TYPE 2, LEN 0, and the tag under K_S of the node whose TURN it names. -/
def Block.noticeOk (b : Block) (g : Nat) (x : Frame) : Bool :=
  x.crcOk && (b.order g (b.get (SEG_STAT_CONTRACT g))).any fun t =>
    x.isA 2 t.turn 0 b.round && (b.sn g t.pos).session && x.tagged (b.sn g t.pos).ks true g b.round

/-- BREAK_NOTICE (R183): a valid notice on port 2k+1 splits ring k. -/
def execBreakNotice (n : Notice) (s : State) : Outcome :=
  .next (s.onBlk fun b =>
    let g := 2 * n.ring.1
    if b.segRing g ∧ b.get (SEG_STAT_STATE g) = 6 ∧ ¬ b.flag (SEG_STAT_SPLIT g) ∧ b.noticeOk g n.frame then
      ((b.on (SEG_STAT_SPLIT g)).modSg g fun y => { y with noticeAt := some b.up, heal := 0 }).segIrq g 0
    else b)

/-- RING_CLOSURE (Table 5.11): boundary C ends the split. -/
def execRingClosure (ring : Fin 4) (s : State) : Outcome :=
  .next (s.onBlk fun b =>
    let g := 2 * ring.1
    if (b.sg g).closeAt = some (b.roundIn 1) then
      let b := ((b.off (SEG_STAT_SPLIT g)).off (SEG_STAT_CLOSING g)).off (SEG_STAT_OPEN g)
      (b.modSg g fun x => { x with closeAt := none, closedAt := x.closeAt, noticeAt := none, heal := 0 }).segIrq g 0
    else b)

/-- PTN_STAT.LINK changes: source 7 (14_partners.md R460). -/
def Block.setLink (b : Block) (v : Bool) : Block :=
  if b.flag PTN_STAT_LINK = v then b else (b.put PTN_STAT_LINK v).irq 7

/-- RECEIVER_LOCK (R153): a receiver comes into lock; port 8 is the partner link. Port 2k+1 back in lock ends a ring's open
state where it is not split. -/
def execReceiverLock (port : Fin 9) (s : State) : Outcome :=
  .next (s.onBlk fun b =>
    if b.ports[port].isSome then b
    else
      let b : Block := { b with ports := b.ports.set port (some b.up) }
      if port.1 = 8 then b.setLink true
      else
        let g := port.1 / 2 * 2
        if port.1 % 2 = 1 ∧ b.flag (SEG_STAT_OPEN g) ∧ ¬ b.flag (SEG_STAT_SPLIT g) then
          (b.off (SEG_STAT_OPEN g)).segIrq g 0
        else b)

/-- LOSS_OF_LOCK (R153, R183): on port 2k+1 of a ring in Run without a notice, the ring is open between its last node and that
port. -/
def execLossOfLock (port : Fin 9) (s : State) : Outcome :=
  .next (s.onBlk fun b =>
    if b.ports[port].isNone then b
    else
      let b : Block := { b with ports := b.ports.set port none }
      if port.1 = 8 then b.setLink false
      else
        let g := port.1 / 2 * 2
        if port.1 % 2 = 1 ∧ b.segRing g ∧ b.get (SEG_STAT_STATE g) = 6 ∧ ¬ b.flag (SEG_STAT_SPLIT g) ∧
            ¬ b.flag (SEG_STAT_OPEN g) then (b.on (SEG_STAT_OPEN g)).segIrq g 0
        else b)

end Sys2Proof.Machine
end

