-- ==== Sys2Proof/Machine/Election.lean ====
section
/-!
DEFINITION. Partner pairs (14_partners.md): frames, election, heartbeats and path A, readiness, switch-over, planned handover and
deposition. The mirror set is applied in Mirror.lean.
-/

namespace Sys2Proof.Machine

/-! ### Roles and status -/

/-- ROLE changes: source 6 (R460). -/
def Block.setRole (b : Block) (r : Nat) : Block :=
  if b.get PTN_STAT_ROLE = r then b else ((b.set PTN_STAT_ROLE r).irq 6).refreshOutputs

/-- DEGRADED changes: source 7 (R440, R460). -/
def Block.setDegraded (b : Block) (v : Bool) : Block :=
  if b.flag PTN_STAT_DEGRADED = v then b else (b.put PTN_STAT_DEGRADED v).irq 7


/-- Scorepad record 0x0040 (Table 19.4). -/
def Block.roleRecord (b : Block) : Block := b.event 0x40 1 (b.get PTN_STAT_ROLE) (b.get PTN_EPOCH)


/-- The rings of a pair: their even segments, used (R428). -/
def Block.rings (b : Block) : List Nat := [0, 2, 4, 6].filter b.segRing

/-- Step 5 begins once steps 2 and 4 have ended (Table 1.6): every segment that starts at dealing enters Listen. A held unit
runs none (R436). -/
def Block.startSegments (b : Block) : Block :=
  if b.boot.step2 ∧ b.boot.step4 ∧ b.get DEV_BOOT_PHASE = 3 ∧ b.get PTN_STAT_ROLE ≠ 3 then
    (b.setPhase 4).each 8 fun b s =>
      if (b.dealt.bind (·.segRec s)).any fun r => bit r.flags 1 then b.segStart s else b
  else b

/-- Step 4 ends with a role (R436): source 6 asserts, and step 5 may begin. A unit alone or unpaired runs as declarer under
ROLE 0; with P = 1 it listens 32 rounds longer (Table 14.3). -/
def Block.endElection (b : Block) (role epoch : Nat) (paired : Bool) : Block :=
  let b : Block := { b with partner.electing := none, boot.step4 := true }
  let b := ((b.set PTN_EPOCH epoch).put PTN_STAT_PAIRED paired).set PTN_STAT_ROLE role
  let long := role = 0 && b.flag PTN_STAT_P
  let b := b.each 8 fun b s => b.modSg s fun x => { x with listen := if long then 36 else 4 }
  ((b.irq 6).refreshOutputs).startSegments

/-- A dummy follows the declarer's clock and numbers and asks for the whole transfer (R437, R456; 18_plant_time.md R543). -/
def Block.asDummy (b : Block) (round : Nat) : Block :=
  let b : Block := { b with
    partner.xferDone := false, partner.stepTime := true, partner.metB := 0, partner.missA := 0, partner.missB := 0
    partner.digests := 0, partner.wasReady := false, partner.outA := none, partner.outB := none, partner.yieldAt := none }
  (((b.set DEV_ROUND round).on PTN_STAT_XFER).on PLT_STAT_PARTNER).ptnSend 6 bulkRequest

/-- A declarer with a new dummy: the pair is degraded until it is ready, and the transfer runs from the next boundary (R440, R456). -/
def Block.asDeclarer (b : Block) : Block :=
  (({ b with partner.metB := 0, partner.missB := 0, partner.outB := none, partner.bulkDue := true }.on PTN_STAT_XFER).off
    PTN_STAT_READY).setDegraded true

/-- Used rings in Run stop emitting and are listened to (R454, R455). -/
def Block.stopEmitting (b : Block) : Block :=
  b.rings.foldl (fun b g => if b.get (SEG_STAT_STATE g) = 6 then b.segState g 7 else b) b

/-! ### Election (Table 14.3) -/

/-- ELECTION (R436): step 4 starts once a deck is dealt, unless start-up is stopped (R38); P follows the PAIR record. A unit without a
MIRROR section runs alone at once. -/
def execElection (s : State) : Outcome :=
  .next (s.onBlk fun b =>
    if ¬ b.boot.step3 ∨ b.boot.step4 ∨ b.partner.electing.isSome ∨ b.boot.dealing ∨ b.get DEV_BOOT_PHASE = 14 then b
    else
      let b := b.setPhase 3
      match b.pair with
      | none => (b.off PTN_STAT_P).endElection 0 1 false
      | some r =>
        let p := r.higher = s.nv.otp.serial.toNat
        let b := (b.put PTN_STAT_P p).set PTN_PEER (if p then r.lower else r.higher)
        { b with partner.electing := some b.up, partner.hello := none, partner.helloAt := some b.up, partner.rxFrame := none })

/-- What has come of a mirror item that goes on in the next frame: nothing at a new round, no more once a frame of the round is missing. -/
def Partner.partAfter (p : Partner) (round seq : Nat) : Option (List Word) :=
  if p.rxFrame.any fun r => r.1 = round && r.2 + 1 ≠ seq then none
  else if p.rxFrame.any (·.1 = round) then p.rxPart
  else some []

/-- A frame of TYPE `type` is accepted (R434): it is sound under K_P, names this round or the last, and SEQ rises within its round. HELLO
frames are spared the round check, for a unit that starts has its own numbers (DEDUCED, log entry 83). A frame discarded is counted. -/
def Block.acceptFrame (b : Block) (f : Frame) (type : Nat) : Bool × Block :=
  let p := b.partner
  let fresh := p.rxFrame.all fun r => r.1 ≠ f.ptnRound || r.2 < f.ptnSeq
  if f.ptnOk b.partnerKey && f.ptnType = type && fresh && (type = 5 || b.roundsSince f.ptnRound ≤ 1) then
    (true, { b with
      partner.rxFrame := some (f.ptnRound, f.ptnSeq), partner.rxPart := p.partAfter f.ptnRound f.ptnSeq })
  else (false, b.inc PTN_LINK_ERR)

/-- The payload words of a partner frame. -/
def Block.frameWords (b : Block) (f : Frame) : List Word := f.ptnWords b.partnerKey

/-- The roles of Table 14.3, by its first row that applies, once the partner's HELLO is there. -/
def Block.elect (b : Block) (h : Hello) (round : Nat) : Block :=
  let lower := !b.flag PTN_STAT_P
  if (b.dealt.map (·.digest)).getD 0 ≠ h.hash then
    if lower ∧ (h.role = 0 ∨ h.role = 3) then b.endElection 0 1 false
    else ((b.on PTN_FLAGS_DECK_DIFF).endElection 3 (b.get PTN_EPOCH) false).roleRecord
  else if h.role = 1 then (b.asDummy round).endElection 2 h.epoch true
  else if lower then (b.endElection 1 1 true).asDeclarer
  else (b.asDummy round).endElection 2 1 true

/-- A running declarer without a partner hears one (Table 14.3, R456). -/
def Block.joined (b : Block) (h : Hello) (round : Nat) : Block :=
  let own := b.get PTN_EPOCH
  let lower := !b.flag PTN_STAT_P
  if (b.dealt.map (·.digest)).getD 0 ≠ h.hash then b.on PTN_FLAGS_DECK_DIFF
  else if h.role = 1 then
    let b := b.on PTN_STAT_PAIRED
    if laterThan 32 own h.epoch ∨ (own = h.epoch ∧ lower) then (b.setRole 1).asDeclarer
    else
      let b := ((b.set PTN_EPOCH h.epoch).on PTN_FLAGS_DEPOSED).stopEmitting
      ((b.setRole 2).asDummy round).roleRecord
  else ((b.on PTN_STAT_PAIRED).setRole 1).asDeclarer

/-- HELLO (R436): a valid one of the partner decides step 4, or forms the pair of a unit that runs unpaired; a unit that runs answers the
HELLO of one that does not (DEDUCED, log entry 83) (DESIGN CHOICE, log entry 103). -/
def helloFrame (f : Frame) (s : State) : Outcome :=
  .next (s.onBlk fun b =>
    if b.pair.isNone then b
    else
      let (ok, b) := b.acceptFrame f 5
      let h := helloOf (b.frameWords f)
      if ¬ ok ∨ h.serial ≠ b.get PTN_PEER then b
      else
        let b : Block := { b with partner.hello := some h }
        if b.partner.electing.isSome then b.elect h f.ptnRound
        else if ¬ b.boot.step4 then b
        else
          let b := if h.role = 0 then b.sendHello else b
          if b.get PTN_STAT_ROLE = 0 then b.joined h f.ptnRound else b)

/-- HELLO: the frame as its bytes (DEDUCED, log entry 83) (DESIGN CHOICE, log entry 103). -/
def execHello (poison : Bool) (bytes : List Byte) (s : State) : Outcome :=
  helloFrame ⟨poison, bytes⟩ s

/-- HELLO_TIMEOUT (R436): no valid HELLO within 4 ms of the start of step 4. -/
def execHelloTimeout (s : State) : Outcome :=
  .next (s.onBlk fun b => if (b.partner.electing.any fun t => t + 4000000 ≤ b.up) ∧ b.partner.hello.isNone then b.endElection 0 1 false else b)

/-! ### Heartbeats (R437 to R440) -/

/-- The offset to the declarer's clock steers the dummy's: a whole step at election, by any amount, then the servo
(R437; 18_plant_time.md R543). `delay` is the link delay of the HELLO exchange; both in 2^-32 ns (DEDUCED, log entry 84). -/
def Block.followClock (b : Block) (departs delay : Nat) : Block :=
  let o : Int := (departs : Int) + delay - b.time
  if b.partner.stepTime then
    let b : Block := { b with partner.stepTime := false }.stepTime o
    if b.get PLT_STAT_STATE = 0 ∨ b.get PLT_STAT_STATE = 1 then b.setServo 2 else b
  else b.measure o b.roundNs

/-- HEARTBEAT (R438): path B of the round is met by a valid heartbeat of that round in time. -/
def heartbeatFrame (f : Frame) (delay : Nat) (s : State) : Outcome :=
  .next (s.onBlk fun b =>
    if ¬ b.flag PTN_STAT_PAIRED then b
    else
      let (ok, b) := b.acceptFrame f 1
      let h := heartbeatOf (b.frameWords f)
      if ¬ ok then b
      else
        let inTime : Bool := decide (f.ptnRound = b.round ∧ b.up ≤ b.roundAt + 4000) && b.partner.outB.all (·.1 ≠ b.round)
        let b : Block := if inTime then { b with
            partner.outB := some (b.round, true), partner.metB := b.partner.metB + 1, partner.missB := 0 }.on PTN_STAT_PATH_B
          else b
        if b.get PTN_STAT_ROLE = 1 then
          let b : Block := if b.flag PTN_STAT_READY && !h.ready then { b with partner.seedAll := true } else b
          let b := b.setReady h.ready
          if inTime then b.setDegraded (!h.ready) else b
        else if b.get PTN_STAT_ROLE = 2 then
          let b := b.set PTN_BACKLOG h.backlog
          let b := if laterThan 32 h.epoch (b.get PTN_EPOCH) then b.set PTN_EPOCH h.epoch else b
          let ahead16 := (h.round16 + 2 ^ 16 - b.round % 2 ^ 16) % 2 ^ 16
          let b : Block := { b with partner.yieldAt := if h.yield then some (b.roundIn ahead16) else none }
          b.followClock h.departs delay
        else b)

/-- HEARTBEAT: the frame as its bytes, and the link delay of the HELLO exchange. -/
def execHeartbeat (poison : Bool) (bytes : List Byte) (delay : Nat) (s : State) : Outcome :=
  heartbeatFrame ⟨poison, bytes⟩ delay s

/-! ### Switch-over (R451, R452, R455) -/

/-- The axes of the used rings. -/
def Block.ringAxes (b : Block) : List Nat :=
  (b.axisList.filter fun r => r.kind ≠ 3 && b.rings.contains r.segment).map (·.axis)

/-- An axis restarts at a takeover: enabled as the last record seen on path A says, u_0 its SETTRQ, the command continuing; the
table is kept when its RC items were mirrored (Table 14.6). -/
def Block.restartAxis (b : Block) (i : Nat) : Block :=
  let x := b.ax i
  let r := x.sent
  let on := bit r.ctrl 0 && r.mode ≠ 0 && r.mode ≠ 5
  let b := b.modAx i fun x => { x with
    en := if on then .on else if r.mode = 5 then .stopping else .off
    nmode := if on then r.mode else x.nmode, preset := if on then some r.trq else none, record := r }
  let b := b.put (AX_STAT_ENABLED i) on
  let b := if on then b.takeAuto i else b
  let b := if on ∧ (b.ax i).jog then (b.startJog i).showHelper i else b
  if b.rcMirrored i then b else b.rcClear i

/-- Every cyclic descriptor starts cold. -/
def Block.allCold (b : Block) : Block :=
  b.used.foldl (fun b d => if (b.desc d).cyclic then b.modDesc d fun x => { x with cold := true } else b) b

/-- A used ring under the new declarer: Run under the contract in force, its walk's orientation shown, a closure countdown
abandoned, kitty exchanges dropped (Table 14.6). -/
def Block.takeRing (b : Block) (g : Nat) : Block :=
  if b.get (SEG_STAT_STATE g) ≠ 7 then b
  else
    let b := (b.segState g 6).startSegTasks g
    let b := b.put ⟨aPTN_STAT, 16 + g / 2, 1⟩ ((b.sg g).walkerP ≠ b.get PTN_STAT_P)
    let b := b.modSg g fun x => { x with closeAt := none, kitty := [], grant := none, claims := [], heal := 0 }
    (b.off (SEG_STAT_CLOSING g)).set (SEG_KITTY_GRANTED g) 0

/-- The dummy becomes declarer with the next epoch; `h` is the takeover boundary (Table 14.6) (DEDUCED, log entry 87). -/
def Block.takeover (b : Block) (h : Nat) : Block :=
  let b := b.set PTN_EPOCH (wrapInc 32 (b.get PTN_EPOCH))
  let b := ((b.set PTN_STAT_ROLE 1).on PTN_FLAGS_TAKEOVER).irq 6
  let b := b.rings.foldl Block.takeRing b
  let b := (b.ringAxes.foldl Block.restartAxis b).allCold
  let b := (b.inc PTN_SW_CNT).set PTN_SW_RND h
  let b : Block := { b with
    partner.yieldAt := none, partner.missA := 0, partner.missB := 0, partner.seedAll := false, partner.queue := [] }
  let b := ((b.off PLT_STAT_PARTNER).off PTN_STAT_XFER).plantRoles
  ((b.setReady false).setDegraded true).roleRecord.refreshOutputs

/-- Both paths missed in two rounds running: a dummy that was ready takes over, another one reports HB_LOST (R451). -/
def Block.judgeSilence (b : Block) : Block :=
  if b.get PTN_STAT_ROLE = 2 ∧ 2 ≤ b.partner.missA ∧ 2 ≤ b.partner.missB then
    if b.partner.wasReady then b.takeover (b.roundIn 1) else b.raise PTN_FLAGS_HB_LOST 7
  else b

/-- PATH_B_MISS (R438, R440): no valid heartbeat within 4 µs of the boundary; two in a row degrade a declarer. -/
def execPathBMiss (s : State) : Outcome :=
  .next (s.onBlk fun b =>
    if ¬ b.flag PTN_STAT_PAIRED ∨ b.partner.outB.any (·.1 = b.round) ∨ b.up < b.roundAt + 4000 then b
    else
      let b : Block := { b with
        partner.outB := some (b.round, false), partner.missB := b.partner.missB + 1, partner.metB := 0 }
      let b := (b.off PTN_STAT_PATH_B).inc PTN_MISS_B
      if b.get PTN_STAT_ROLE = 1 then
        (if 2 ≤ b.partner.missB then (b.setDegraded true).raise PTN_FLAGS_HB_LOST 7 else b)
      else b.judgeSilence)

/-- PATH_A_MISS (R439, R451): no valid lead block within 8 µs of the boundary on any used ring. -/
def execPathAMiss (s : State) : Outcome :=
  .next (s.onBlk fun b =>
    if b.get PTN_STAT_ROLE ≠ 2 ∨ b.partner.outA.any (·.1 = b.round) ∨ b.up < b.roundAt + 8000 then b
    else
      let b : Block := { b with partner.outA := some (b.round, false), partner.missA := b.partner.missA + 1 }
      ((b.off PTN_STAT_PATH_A).inc PTN_MISS_A).judgeSilence)

/-! ### Lead blocks received (R189, R201, R439, R454) -/

/-- The fields of a lead block (Table 5.3). -/
def Frame.leadRound (x : Frame) : Nat := x.pay 0 6
/-- EPOCH. -/
def Frame.leadEpoch (x : Frame) : Nat := x.pay 8 4
/-- P of the emitting head (Table 5.2). -/
def Frame.leadP (x : Frame) : Nat := x.byte 1 / 16 % 2
/-- BOFS. -/
def Frame.leadBofs (x : Frame) : Nat := x.pay 22 2 % 2 ^ 5
/-- Rounds to a contract switch. -/
def Frame.leadSwitch (x : Frame) : Nat := x.pay 7 1
/-- Rounds to a ring closure. -/
def Frame.leadClose (x : Frame) : Nat := x.pay 21 1

/-- A downstream axis record as read (Table 5.4). -/
def setRecOf (bs : List Byte) : SetRec :=
  let w (k n : Nat) : Nat := ofBytesBE ((bs.drop k).take n)
  { mode := w 22 1, ctrl := w 20 2, pos := sgn 64 (w 0 8), vel := sgn 32 (w 8 4), trq := sgn 32 (w 12 4), aux := w 16 4 }

/-- The records of a valid node block (R161, R167), by axis. -/
def Block.blockRecords (b : Block) (g c : Nat) (x : Frame) : List (Nat × SetRec) :=
  (b.order g c).flatMap fun t =>
    if x.crcOk ∧ x.isA 1 t.turn (6 * t.axes + 3 * t.slots) b.round ∧ x.tagged (b.nodeTagKey g t.pos) false g b.round then
      (List.range t.axes).filterMap fun k =>
        (b.axisAt g t.pos k).map fun i => (i, setRecOf ((x.bytes.drop (7 + 24 * k)).take 24))
    else []

/-- What a dummy keeps from a valid lead block and the node blocks that follow it (R439): the records, CONTRACT, SWITCH and RING. -/
def Block.keepLead (b : Block) (g : Nat) (x : Frame) (blocks : List Frame) : Block :=
  let c := x.pay 6 1 % 8
  let b := (blocks.flatMap (b.blockRecords g c)).foldl (fun b r => b.modAx r.1 fun y => { y with sent := r.2 }) b
  let b := (b.set (SEG_STAT_CONTRACT g) c).set (SEG_STAT_NEXT g) (x.pay 6 1 / 8)
  let b := (b.put (SEG_STAT_SPLIT g) (bit (x.pay 20 1) 1)).put (SEG_STAT_CLOSING g) (bit (x.pay 20 1) 2)
  b.modSg g fun y => { y with
    switchAt := if x.leadSwitch = 0 then none else some (b.roundIn x.leadSwitch)
    closeAt := if x.leadClose = 0 then none else some (b.roundIn x.leadClose) }

/-- A lead block is valid for a head without K_L (R189): its CRC, TYPE, VER, TURN and LEN; it shares no round with the sender (DESIGN
CHOICE, log entry 55). -/
def Frame.leadForm (x : Frame) : Bool := x.crcOk && x.isA 0 0xFFFF 20 (x.num 4 2)

/-- A lead block is valid (R166, R167). -/
def Block.leadOk (b : Block) (g : Nat) (x : Frame) : Bool :=
  x.leadForm && x.num 4 2 = b.segRound g % 2 ^ 16 && (b.sg g).hasKl && x.tagged (b.sg g).kl false g x.leadRound

/-- LEAD_BLOCK_RECEIVED on port 2k, or with `far` on port 2k+1, of port pair k: `ofs` is the arrival of its K29.7 after the boundary in
0.1 ns; `blocks` are the node blocks behind it. In Listen the head does not cold-start (R189); an own block back on port 2k+1 gives the
return time of R201, for a declarer the stamp of its dummy, which a dummy takes at its port 2k (R429) (DESIGN CHOICE, log entry 139); a
dummy meets path A (R439); a declarer yields to a later epoch (R454). -/
def execLeadBlockReceived (ring : Fin 4) (far : Bool) (ofs : Nat) (x : Frame) (blocks : List Frame) (s : State) : Outcome :=
  .next (s.onBlk fun b =>
    let port := 2 * ring.1 + b2n far
    let g := if b.segRing (2 * ring.1) then 2 * ring.1 else port
    let role := b.get PTN_STAT_ROLE
    if ¬ x.leadForm ∨ ¬ b.segUsed g then b
    else if b.get (SEG_STAT_STATE g) = 1 then
      if role = 2 then b.segState g 7
      else ((b.on (SEG_FLAGS_FOREIGN g)).segIrq g 0).modSg g fun y => { y with fresh := true, k := 0 }
    else if ¬ b.leadOk g x then b
    else if role = 2 then
      if x.leadP = b.get PTN_STAT_P ∨ x.leadEpoch ≠ b.get PTN_EPOCH ∨ x.leadRound ≠ b.round then b
      else
        let b := if b.get (SEG_STAT_STATE g) = 7 then b.keepLead g x blocks else b
        let b : Block := if far then b else { b with partner.stamps := sput (fun _ => 0) b.partner.stamps ring.1 ofs }
        if b.up ≤ b.roundAt + 8000 ∧ b.partner.outA ≠ some (b.round, false) then
          { b with
            partner.outA := some (b.round, true), partner.missA := 0
            partner.ringsA := g :: b.partner.ringsA.filter (· ≠ g) }.on PTN_STAT_PATH_A
        else b
    else if laterThan 32 x.leadEpoch (b.get PTN_EPOCH) then
      { b with partner.stopAt := some (b.partner.stopAt.getD (b.up + 2000)) }
    else if b.segRing g ∧ port = g + 1 ∧ x.leadP = b.get PTN_STAT_P ∧ x.leadEpoch = b.get PTN_EPOCH then
      ((b.modSg g fun y => { y with returnAt := some ((ofs : Int) - x.leadBofs) }).set (SEG_RETURN g) ofs).farDelays g
    else b)

/-! ### At a boundary -/

/-- Every used ring's K_L and every session's K_S are held (R450). -/
def Block.keysHeld (b : Block) : Bool :=
  b.rings.all fun g => (b.sg g).hasKl && (List.range 64).all fun p =>
    let st := b.get (SEG_NSTAT_STATE g p)
    (st ≠ 3 && st ≠ 4) || (b.sn g p).session

/-- No node of a used ring lies beyond the far-end limit (R429, R450). -/
def Block.farOk (b : Block) : Bool :=
  b.rings.all fun g => (List.range 64).all fun p => decide ((b.sn g p).farDown ≤ 60000 ∧ (b.sn g p).farUp ≤ 60000)

/-- A dummy's readiness (R450). -/
def Block.readiness (b : Block) : Bool :=
  let p := b.partner
  b.flag PTN_STAT_LINK && decide (8 ≤ p.metB) && b.rings.all p.ringsA.contains && b.keysHeld && p.xferDone &&
    b.get PTN_BACKLOG = 0 && decide (16 ≤ p.digests) && decide ((b.geti PTN_ANG_DIFF).natAbs ≤ b.get PTN_ANG_TOL) &&
    b.farOk && !b.frozen 38 && b.get DEV_BOOT_PHASE = 7

/-- The digest of R445: CRC-32 over x_c of every existing axis in axis order. -/
def Block.digest (b : Block) : Nat :=
  crc32 ((sortKey id (b.axisList.map (·.axis))).flatMap fun i => bytesBE 8 (b.get (AX_CMDPOS i)))

/-- The digest of the last mirror header is compared once the items of its boundary are applied (R445) (DEDUCED, log entry 86). -/
def Block.settleDigest (b : Block) : Block :=
  match b.partner.digest with
  | none => b
  | some d =>
    let b : Block := { b with partner.digest := none }
    if d = b.digest then { b with partner.digests := b.partner.digests + 1 }
    else (({ b with partner.digests := 0 } : Block).raise PTN_FLAGS_CRC_MISMATCH 7).setReady false

/-- A dummy judges the round that ends: its digest, its readiness, and READY as R451 remembers it. -/
def Block.judgeRound (b : Block) : Block :=
  if b.get PTN_STAT_ROLE ≠ 2 then b
  else
    let b := b.settleDigest
    let b := b.setReady b.readiness
    let met := b.partner.outA = some (b.round, true) || b.partner.outB = some (b.round, true)
    { b with
      partner.wasReady := if met then b.flag PTN_STAT_READY else b.partner.wasReady
      partner.ringsA := [] }

/-- A declarer that heard a later epoch at least 2 µs ago stops emitting and becomes dummy (R454). -/
def Block.depose (b : Block) : Block :=
  match b.partner.stopAt with
  | none => b
  | some t =>
    if b.up < t then b
    else
      let b : Block := { b with partner.stopAt := none, partner.wasReady := false, partner.queue := [] }
      let b := (((b.on PTN_FLAGS_DEPOSED).stopEmitting).setReady false).setRole 2
      (b.asDummy b.round).roleRecord

/-- A planned handover is asked for (R455): four boundaries ahead, refused unless a dummy is ready. -/
def Block.askHandover (b : Block) : Block :=
  if b.get PTN_STAT_ROLE = 1 ∧ b.flag PTN_STAT_READY then
    { b with partner.yieldAt := some (b.partner.yieldAt.getD (b.roundIn 4)) }
  else b.on PTN_FLAGS_HO_REF

/-- A committed PTN_B_REQ.HANDOVER reads 0 again (R459). -/
def Block.commitHandover (b : Block) : Block := (b.off PTN_B_REQ).askHandover

/-- HANDOVER (R455). -/
def execHandover (s : State) : Outcome := .next (s.onBlk Block.askHandover)

/-- HANDOVER_BOUNDARY (R455): at h the dummy takes over and the old declarer becomes dummy. -/
def execHandoverBoundary (s : State) : Outcome :=
  .next (s.onBlk fun b =>
    if b.partner.yieldAt ≠ some (b.roundIn 1) ∨ ¬ b.atBoundary then b
    else if b.get PTN_STAT_ROLE = 2 then b.takeover (b.roundIn 1)
    else if b.get PTN_STAT_ROLE = 1 then
      let b : Block := { b with partner.yieldAt := none, partner.queue := [] }
      let b := (b.stopEmitting.setReady false).setRole 2
      (((b.asDummy b.round).inc PTN_SW_CNT).set PTN_SW_RND (b.roundIn 1)).roleRecord
    else b)

/-- PTN_CTL.RESYNC (R456): a dummy asks for a new transfer. -/
def Block.resync (b : Block) : Block :=
  if b.get PTN_STAT_ROLE = 2 then b.askTransfer else b

/-- PTN_RESYNC (R456). -/
def execPtnResync (s : State) : Outcome := .next (s.onBlk Block.resync)

/-- The heartbeat sent at a boundary (Table 14.4). -/
def Block.heartbeat (b : Block) : Heartbeat :=
  { role := b.get PTN_STAT_ROLE, ready := b.get PTN_STAT_ROLE = 2 && b.flag PTN_STAT_READY
    yield := b.get PTN_STAT_ROLE = 1 && b.partner.yieldAt.isSome, stopped := b.get DEV_BOOT_PHASE = 14
    leadOk := b.partner.ringsA.foldl (fun a g => setBits a (g / 2) 1 1) 0, epoch := b.get PTN_EPOCH
    round16 := if b.get PTN_STAT_ROLE = 1 then ((b.partner.yieldAt.map (· % 2 ^ 16)).getD 0) else 0
    departs := b.time, backlog := b.get PTN_BACKLOG }

/-- SESSION (R447): K_L, K_S or a session's end reach the dummy. A frozen partner link blocks inbound mirror writes (Table 2.7). -/
def Block.takeSession (b : Block) (x : SessItem) : Block :=
  match x with
  | .lead g k => b.modSg g fun y => { y with kl := k, hasKl := true, walkerP := 1 - b.get PTN_STAT_P }
  | .node g p serial k =>
    let b := (b.wr (aSEG_NID_LO g p) (BitVec.ofNat 32 serial)).wr (aSEG_NID_HI g p) (BitVec.ofNat 32 (serial / 2 ^ 32))
    ((b.modSn g p fun n => { n with session := true, ks := k, hasKs := true }).set (SEG_NSTAT_STATE g p) 3).showCounts g
  | .ended g p => ((b.modSn g p fun n => { n with session := false }).set (SEG_NSTAT_STATE g p) 1).showCounts g

/-- SESSION (R447). -/
def sessionFrame (f : Frame) (s : State) : Outcome :=
  .next (s.onBlk fun b =>
    if b.get PTN_STAT_ROLE ≠ 2 ∨ b.frozen 38 then b
    else
      let (ok, b) := b.acceptFrame f 3
      let ws := b.frameWords f
      if ok then ((cutItems itemLen ws.length ws).1.filterMap sessItemOf).foldl Block.takeSession b else b)

/-- SESSION: the frame as its bytes. -/
def execSession (poison : Bool) (bytes : List Byte) (s : State) : Outcome :=
  sessionFrame ⟨poison, bytes⟩ s

end Sys2Proof.Machine
end

