-- ==== Sys2Proof/Machine/Scorepad.lean ====
section
/-!
DEFINITION. The scorepad (19_scorepad.md): records and their seal, the counter block, recovery, host records and
readout.
-/

namespace Sys2Proof.Machine

/-- The slot that holds sequence number `q` (R556). -/
def slotOf (q : Nat) : Nat := if q < 2048 then q else 2048 + (q - 2048) % 14336

/-- Bytes 0 to 51 of a record (Table 19.1). -/
def ScpEvent.head (e : ScpEvent) (q : Nat) : List Byte :=
  let flags := b2n e.timeOk + 2 * b2n e.angOk + 4 * b2n e.host + 8 * b2n e.delayed
  bytesBE 2 e.code ++ bytesBE 1 e.level ++ bytesBE 1 0 ++ bytesBE 6 q ++ bytesBE 2 flags ++ bytesBE 4 e.opsec ++
    bytesBE 4 e.pcyc ++ bytesBE 6 e.round ++ bytesBE 2 0 ++ bytesBE 8 e.ptime ++ bytesBE 8 e.angle ++
    bytesBE 4 e.arg0 ++ bytesBE 4 e.arg1

/-- The 64 bytes of a sealed record (R555, R557). -/
def ScpEvent.record (e : ScpEvent) (q : Nat) : List Byte :=
  e.head q ++ bytesBE 4 e.repCnt ++ bytesBE 4 e.repSec ++ bytesBE 4 (crc32 (e.head q))

/-- A slot is valid while its SEAL matches bytes 0 to 51 and its SEQ maps to it (R557). -/
def slotValid (pad : List Host.Cell) (i : Nat) : Bool :=
  ofBytesBE (Memory.readBytes pad (64 * i + 60) 4) = crc32 (Memory.readBytes pad (64 * i) 52) &&
    slotOf (ofBytesBE (Memory.readBytes pad (64 * i + 4) 6)) = i

/-- The SEQ a slot holds. -/
def slotSeq (pad : List Host.Cell) (i : Nat) : Nat := ofBytesBE (Memory.readBytes pad (64 * i + 4) 6)

/-- A copy whose CRC stands after its first `n` bytes is valid (R558, R559). -/
def copyOk (n : Nat) (c : List Byte) : Bool := c.length = n + 4 && ofBytesBE (c.drop n) = crc32 (c.take n)

/-- A field of a counter-block copy (Table 19.2). -/
def ctrField (c : List Byte) (at' n : Nat) : Nat := ofBytesBE ((c.drop at').take n)

/-- The index of the counter-block copy in force: the later valid GEN (R558). -/
def NonVol.ctrAt (nv : NonVol) : Option (Fin 2) :=
  let x := nv.ctr[0]
  let y := nv.ctr[1]
  if copyOk 28 x && copyOk 28 y then some (if laterThan 32 (ctrField y 0 4) (ctrField x 0 4) then 1 else 0)
  else if copyOk 28 x then some 0 else if copyOk 28 y then some 1 else none

/-- NEXT_SEQ in force. -/
def NonVol.nextSeq (nv : NonVol) : Nat :=
  match nv.ctrAt with
  | some i => ctrField nv.ctr[i] 12 6
  | none => 0

/-- PCYC in force. -/
def NonVol.pcyc (nv : NonVol) : Nat :=
  match nv.ctrAt with
  | some i => ctrField nv.ctr[i] 8 4
  | none => 0

/-- The count of a copy of the operating-second cell; 0 for one that is not valid. -/
def opsecCount (c : List Byte) : Nat := if copyOk 4 c then ofBytesBE (c.take 4) else 0

/-- The operating seconds in force: the higher valid count (R559). -/
def NonVol.opsecNow (nv : NonVol) : Nat := max (opsecCount nv.opsec[0]) (opsecCount nv.opsec[1])

/-- The Dealer writes the counter-block copy that does not hold the later GEN (R558). -/
def NonVol.writeCtr (nv : NonVol) (next pcyc : Nat) : NonVol :=
  match nv.ctrAt with
  | some i => { nv with ctr := nv.ctr.set (1 - i) (ctrBytes (ctrField nv.ctr[i] 0 4 + 1) nv.opsecNow pcyc next) }
  | none => { nv with ctr := nv.ctr.set 0 (ctrBytes 1 nv.opsecNow pcyc next) }

/-- The shown registers follow the system area (Table 19.5). -/
def State.showScp (s : State) : State :=
  let q := s.nv.nextSeq
  s.onBlk fun b =>
    let b := (((b.set SCP_NEXT q).set SCP_OPSEC s.nv.opsecNow).set SCP_PCYC s.nv.pcyc)
    let b := if 2048 ≤ q then b.raise SCP_STAT_KEPT_FULL 178 else b.off SCP_STAT_KEPT_FULL
    if 16384 ≤ q then b.raise SCP_STAT_WRAPPED 178 else b.off SCP_STAT_WRAPPED

/-- The newest written entry's repeat words, REP_SEC then REP_CNT (R562); an entry whose slot now holds another SEQ
loses the update, which is counted (Table 19.3). -/
def State.flushRepeat (s : State) : State :=
  match s.blk.scp.newest with
  | some (q, e) =>
    let s := s.onBlk fun b => { b with scp.repDirty := false }
    if slotSeq s.nv.pad (slotOf q) = q then
      { s with nv.pad := Memory.writeBytes s.nv.pad (64 * slotOf q + 52) (bytesBE 4 e.repCnt ++ bytesBE 4 e.repSec) }
    else s.onBlk fun b => (b.inc SCP_LOST).irq 177
  | none => s.onBlk fun b => { b with scp.repDirty := false }

/-- After the record of a deck refusal, STATE leaves 0x5: to 0x6 while no deck is dealt, back to 0x4 otherwise
(R109). -/
def Block.refusalWritten (b : Block) (code : Nat) : Block :=
  if code = 7 ∧ b.get DCK_STAT_STATE = 5 then b.setDckState (if b.dealt.isSome then 4 else 6) else b

/-- Once the queue has drained to 128 entries, record 0x0004 names the number discarded (R563). -/
def Block.reportLost (b : Block) : Block :=
  if b.scp.lostSince ≠ 0 ∧ b.scp.queue.length ≤ 128 then
    let n := b.scp.lostSince
    ({ b with scp.lostSince := 0 }).event 4 1 (min n (2 ^ 32 - 1)) 0
  else b

/-- Write the head of the queue: the record, its seal, then NEXT_SEQ (R557). -/
def State.writeHead (s : State) : State :=
  match s.blk.scp.queue with
  | [] => s
  | e :: t =>
    let q := s.nv.nextSeq
    let s := { s with nv.pad := Memory.writeBytes s.nv.pad (64 * slotOf q) (e.record q) }
    let s := { s with nv := s.nv.writeCtr (q + 1) s.nv.pcyc }
    let s := s.onBlk fun b =>
      let b := { b with scp.queue := t, scp.newest := some (q, e), scp.wroteAt := some b.up }
      let b := b.set SCP_QUEUE_N t.length
      let b := if 2 ≤ e.level then b.irq 176 else b
      (b.refusalWritten e.code).reportLost
    s.showScp

/-- RECORD_WRITE (R557): a pending repeat update first, else the head of the queue, at most one entry every 20 µs (R561); nothing while the
field die is unreachable (R563), or VFIELD too low for a write (21_electrical_and_package.md R614). -/
def execRecordWrite (s : State) : Outcome :=
  .next (if s.blk.flag SCP_STAT_FD_DOWN ∨ s.blk.field.padOff then s
    else if s.blk.scp.repDirty then s.flushRepeat
    else if s.blk.scp.wroteAt.all fun t => t + 20000 ≤ s.blk.up then s.writeHead else s)

/-- A host record (R565): a code of 0xF000 to 0xFFFF, at most one per millisecond; otherwise HW_REF. -/
def Block.scpHwCmd (b : Block) (v : Nat) : Block :=
  let code := bits v 0 16
  let early : Bool := match b.scp.lastHost with
    | some t => decide (b.up < t + 1000000)
    | none => false
  if 0xF000 ≤ code ∧ ¬ early then
    let e := b.stampEvent code (bits v 16 2) (b.get SCP_HW_ARG0) (b.get SCP_HW_ARG1) true false
    { b with scp.lastHost := some b.up }.enqueue e
  else b.on SCP_STAT_HW_REF

/-- SCP_RD_CTL.GO starts the read of the record SCP_RD_SEQ (R566). -/
def Block.scpRdGo (b : Block) (v : Nat) : Block :=
  if bit v 0 then
    let b := (((b.on SCP_RD_STAT_BUSY).off SCP_RD_STAT_VALID).off SCP_RD_STAT_GONE).off SCP_RD_STAT_SEAL_ERR
    { b with scp.readSeq := some (b.get SCP_RD_SEQ) }
  else b

/-- The sixteen words of a slot into SCP_RD_REC, byte 4w in bits [31:24]. -/
def Block.showRecord (b : Block) (bs : List Byte) : Nat → Block
  | 0 => b
  | n + 1 => (b.showRecord bs n).wr (aSCP_RD_REC n) (BitVec.ofNat 32 (ofBytesBE ((bs.drop (4 * n)).take 4)))

/-- SCP_READ_DONE (R566): GONE with words 0, SEAL_ERR, or VALID. -/
def execScpReadDone (s : State) : Outcome :=
  .next (match s.blk.scp.readSeq with
    | none => s
    | some q =>
      let n := s.nv.nextSeq
      let gone := n ≤ q || (2048 ≤ q && q + 14336 < n)
      let bs := if gone then [] else Memory.readBytes s.nv.pad (64 * slotOf q) 64
      let ok := slotValid s.nv.pad (slotOf q)
      s.onBlk fun b =>
        let b := ({ b with scp.readSeq := none }.showRecord bs 16).off SCP_RD_STAT_BUSY
        if gone then b.on SCP_RD_STAT_GONE else if ok then b.on SCP_RD_STAT_VALID else b.on SCP_RD_STAT_SEAL_ERR)

/-- OPSEC_TICK (R559): while the links carry transfers the field die writes the copy that holds the lower count;
the count saturates. -/
def execOpsecTick (s : State) : Outcome :=
  .next (if s.blk.flag SCP_STAT_FD_DOWN ∨ ¬ s.blk.boot.released then s
    else
      let n := satInc 32 s.nv.opsecNow
      let i : Fin 2 := if opsecCount s.nv.opsec[1] < opsecCount s.nv.opsec[0] then 1 else 0
      let s := { s with nv.opsec := s.nv.opsec.set i (opsecBytes n) }
      s.onBlk fun b => b.set SCP_OPSEC s.nv.opsecNow)

/-- The highest valid SEQ over slots 0 to `n - 1`, plus 1; 0 where no slot is valid (R560). -/
def scanSlots (pad : List Host.Cell) (n : Nat) : Nat :=
  (List.range n).foldl (fun a i => if slotValid pad i then max a (slotSeq pad i + 1) else a) 0

/-- Recovery in step 1 (R560), with PCYC incremented after a release of PORST_N (R559): NEXT_SEQ, then record
0x0001 with the reset cause, and 0x0003 when a torn slot was found or every slot was scanned (DEDUCED, log entry 98). -/
def State.recoverScp (s : State) (cause : Nat) (porst : Bool) : State :=
  let full := s.nv.ctrAt.isNone
  let n := if full then scanSlots s.nv.pad 16384 else s.nv.nextSeq
  let held := slotSeq s.nv.pad (slotOf n) = n
  let sealOk := slotValid s.nv.pad (slotOf n)
  let sealed := ¬ full ∧ held ∧ sealOk
  let torn := ¬ full ∧ held ∧ ¬ sealOk
  let n' := if sealed then (n + 1) % 2 ^ 48 else n
  let s := { s with nv := s.nv.writeCtr n' (if porst then satInc 32 s.nv.pcyc else s.nv.pcyc) }
  let s := s.showScp
  s.onBlk fun b =>
    let b := b.event 1 0 cause Config.romVersion.toNat
    if full then (b.raise SCP_STAT_RECOVERED_TORN 179).event 3 1 (n' % 2 ^ 32) 0xFFFFFFFF
    else if torn then (b.raise SCP_STAT_RECOVERED_TORN 179).event 3 1 (n' % 2 ^ 32) 0
    else b

end Sys2Proof.Machine
end

