-- ==== Sys2Proof/Machine/ClockPower.lean ====
section
/-!
DEFINITION. Clocks, power domains and reset (20_clocks_power_reset.md), the die-to-die links (01_dealer_and_helpers.md R16, R17) and
the start of Table 1.6 (R35, R38).
-/

namespace Sys2Proof.Machine

/-! ### Domains -/

/-- The power domain whose registers lie at a BAR0 offset (Table 1.1, Table 17.4). -/
def domainOf (x : Nat) : Nat :=
  if x < 0x100 then (if x = 0x10 ∨ x = 0x14 then 7 else 1)
  else if x < 0x200 then 1
  else if x < 0x400 then 7
  else if x < 0x20000 then 11
  else if x < 0x30000 then 7
  else if x < 0x40000 then 11
  else if x < 0x60000 then 8
  else if x < 0x80000 then 9
  else if x < 0x120000 then 7
  else if x < 0x140000 then 3 + (x - 0x120000) / 0x8000
  else if x < 0x150000 then 10
  else if x < 0x160000 then 11
  else if x < 0x170000 then 2
  else if x < 0x190000 then 1
  else if x < 0x1A0000 then 0
  else if x < 0x1B0000 then 1
  else if x < 0x800000 then 11
  else 3 + (x - 0x800000) / 0x200000 % 4

/-- Domain `n` is powered. -/
def Block.domainOn (b : Block) (n : Nat) : Bool := bit (b.get CPR_PD_STAT_ON) n

/-- Domain `n` is held in reset. -/
def Block.domainHeld (b : Block) (n : Nat) : Bool := bit (b.get CPR_PD_STAT_RST) n

/-- An interrupt source of PD0: while PD11 is off or in reset it is owed until the end of the next start-up (R594). -/
def Block.cprIrq (b : Block) (s : Nat) : Block :=
  if b.domainOn 11 ∧ ¬ b.domainHeld 11 then b.irq s
  else { b with pd0.owed := if b.pd0.owed.contains s then b.pd0.owed else b.pd0.owed ++ [s] }

/-- Sources owed assert at the end of a start-up, if their flag is still set (R594). -/
def Block.payOwed (b : Block) : Block :=
  let flag (b : Block) (s : Nat) : Bool :=
    if s = 8 then b.flag CPR_EVT_GATE_FORCED || b.flag CPR_EVT_PD_CHANGE
    else if s = 9 then b.flag CPR_EVT_CLK_FAIL
    else if s = 10 then b.flag CPR_EVT_RST_HELD || b.flag CPR_EVT_RESET_REF
    else b.flag CPR_EVT_TEMP_WARN
  b.pd0.owed.foldl (fun b s => if flag b s then b.irq s else b) { b with pd0.owed := [] }

/-- The registers of a domain at reset, and what its blocks hold. -/
def Block.resetDomain (b : Block) (n : Nat) : Block :=
  let b : Block := { b with regs := b.regs.filter fun r => domainOf r.1 ≠ n }
  match n with
  | 1 => { b with
      trust := Reset.trust, vq := [], valid := [], due := [], shadow := [], scp := Reset.scp
      passed := none, boot.dealing := false, boot.staging := false, boot.stage := [] }
  | 2 => { b with safety.b := Reset.chan }
  | 7 => { b with
      ang := Reset.ang, axes := [], chans := [], entries := [], descs := [], flows := [], time := 0 }
  | 8 => { b with segs := b.segs.filter fun p => 4 ≤ p.1 }
  | 9 => { b with segs := b.segs.filter fun p => p.1 < 4 }
  | 10 => { b with cap := Reset.capture }
  | 11 => { b with host := Reset.host, plant := Reset.plant, partner := Reset.partner }
  | k => if 3 ≤ k ∧ k ≤ 6 then { b with engines := b.engines.filter fun p => p.1 / 8 ≠ k - 3 } else b

/-- A domain switched off loses its memories too (R584). -/
def Block.loseDomain (b : Block) (n : Nat) : Block :=
  let b := b.resetDomain n
  if 3 ≤ n ∧ n ≤ 6 then b.memClear (0x40000000 + 0x200000 * (n - 3)) (0x40000000 + 0x200000 * (n - 2))
  else if n = 7 then b.memClear 0x20000000 0x20800000
  else if n = 10 then b.memClear 0x30000000 0x32000000
  else b

/-- The gates of a domain's blocks (Table 20.3). -/
def gatesOf (n : Nat) : List Nat :=
  if 3 ≤ n ∧ n ≤ 6 then (List.range 8).map (8 * (n - 3) + ·)
  else if n = 8 then [36, 37, 38, 39]
  else if n = 9 then [40, 41, 42, 43]
  else if n = 10 then [32, 33, 34, 35]
  else []

/-- A domain completes its switch (R584). Off: gates closed, contents lost; on: out of reset, its gates open. -/
def Block.switchDomain (b : Block) (n : Nat) (on : Bool) : Block :=
  let b := if on then b else b.loseDomain n
  let b := (b.put ⟨aCPR_PD_STAT, n, 1⟩ on).put ⟨aCPR_PD_STAT, 16 + n, 1⟩ (!on)
  let b := (gatesOf n).foldl (fun b g => if on then b.openGate g else (b.openGate g).setGate g true) b
  (b.on CPR_EVT_PD_CHANGE).cprIrq 8

/-- DOMAIN_SWITCH (R584): the domain that is first in order completes its switch. -/
def execDomainSwitch (s : State) : Outcome :=
  .next (s.onBlk fun b =>
    match b.pd0.switching with
    | [] => b
    | (n, on) :: t => { b with pd0.switching := t }.switchDomain n on)

/-! ### Gates (R580, R581) -/

/-- GATE_CLOSE (R580): the block's port is idle, and a gate that was to close closes. -/
def execGateClose (g : Fin 48) (s : State) : Outcome :=
  .next (s.onBlk fun b =>
    if b.pd0.gatePend.contains g.1 then (b.openGate g.1).setGate g.1 true else b)

/-- What the error response of a forced closure does to a master (R581). -/
def Block.gateError (b : Block) (m addr : Nat) : Block :=
  if 2 ≤ m ∧ m ≤ 33 then b.engineFault (m - 2) 5
  else if m = 36 then b.hostError addr
  else if h : m = 37 then b.answer ⟨37, by omega⟩ 0
  else if m = 35 then
    b.each 64 fun b c =>
      if b.flag (CAP_C_CFG_EN c) ∧ b.get (CAP_C_CFG_KIND c) = 5 ∧ b.get (CAP_C_ADDR c) = addr then
        (b.on (CAP_C_STAT_LATE c)).on CAP_STAT_LATE
      else b
  else b

/-- GATE_FORCED (R580): after 64 cycles busy the gate closes; each access still in flight gets an error response and a record. -/
def execGateForced (g : Fin 48) (flights : List (Fin 39 × Nat)) (s : State) : Outcome :=
  .next (s.onBlk fun b =>
    if b.pd0.gatePend.contains g.1 then
      let b := ((b.openGate g.1).setGate g.1 true).inc CPR_GATE_FORCED
      let b := (b.on CPR_EVT_GATE_FORCED).cprIrq 8
      flights.foldl (fun b f => (b.event 0xA 1 g.1 f.1.1).gateError f.1.1 f.2) b
    else b)

/-! ### Resets (R586 to R590) -/

/-- What a reset of PD1 to PD11 leaves: PD0 and its page, the field die, time since power-up. Channel A repeats its test when transfers
resume (15_safety.md R465); the field die gets no transfer (R17) (DEDUCED, log entry 100). -/
def Block.resetCore (b : Block) (cause : Nat) : Block :=
  { Reset.block with
    regs := b.regs.filter fun r => domainOf r.1 = 0, mem := b.mem, ecc := b.ecc, up := b.up, free := b.free
    pd0 := { b.pd0 with
      pendCause := cause, devResetAt := none, gatePend := [], switching := [], oddWindows := [], mux := [] }
    field := { b.field with linkLost := true, mask := 0 }
    safety := { Reset.safety with
      raw := b.safety.raw, changed := b.safety.changed
      a := { Reset.chan with sdi := b.safety.a.sdi, fault := b.safety.a.fault } } }

/-- A reset of PD1 to PD11 as the page shows it: every other domain off and in reset, SAFE_N low, no forced state (R575, R576,
R593). -/
def Block.enterReset (b : Block) (cause : Nat) : Block :=
  let b := b.resetCore cause
  let b := (b.wr aCPR_PD_STAT 0x0FFE0001).wr aCPR_PD_DECK 0
  let b := ((b.wr aCPR_GATE_LO 0).wr aCPR_GATE_HI 0).off CPR_STAT_FORCED
  ({ b with pd0.failed := if b.pd0.rcDead then b.pd0.failed else [], pd0.declaredAt := none, pd0.goodSince := none,
            pd0.dealerRc := false }.on CPR_STAT_SAFE).on SCP_STAT_FD_DOWN

/-- A reset of everything on the core die, PD0 and the strap latch among it; the count of a hold of RESET_N is cleared (R589). -/
def Block.enterPowerReset (b : Block) (cause : Nat) : Block :=
  let c := b.resetCore cause
  { c with regs := [], pd0 := { Reset.pd0 with pendCause := cause, resetN := b.pd0.resetN, resetLow := none } }.on SCP_STAT_FD_DOWN

/-- What the registers show of OTP once PD1 leaves reset (02_trust.md Table 2.12, R47). -/
def State.showOtp (s : State) : State :=
  s.onBlk fun b =>
    ((b.put TRU_STAT_PROVISIONED s.nv.otp.provisioned).put TRU_STAT_KILL s.nv.otp.kill).set DCK_SECVER s.nv.otp.secver

/-- A reset ends: the cause is shown (Table 20.7), the hold of RESET_N (R589), step 1 begins with the domains of R585, the salt of
line-angle messages is drawn (18_plant_time.md Table 18.5), the page shows the host port and OTP, and the Dealer recovers the
scorepad. -/
def State.release (s : State) : State :=
  let cause := s.blk.pd0.pendCause
  let held : Option Nat := s.blk.pd0.resetLow.map fun t => (s.blk.up - t) / 1000000
  let porst := s.blk.pd0.porst
  let s := s.onBlk fun b =>
    let b := (b.set CPR_RST_CAUSE_PREV (b.get CPR_RST_CAUSE_LAST)).set CPR_RST_CAUSE_LAST cause
    let b := match held with
      | some t => b.set CPR_RST_HELD (min t (2 ^ 32 - 1))
      | none => b
    let b : Block := { b with
      pd0.porst := false, pd0.resetN := false, pd0.resetLow := none
      pd0.switching := [(1, true), (2, true), (7, true), (11, true)]
      boot := { Reset.boot with released := true, since := b.up } }
    let (n, b) := b.take
    let b : Block := { b with plant.laSalt := (Config.random n).toNat % 2 ^ 32 }
    let b := (b.wr aCPR_PD_STAT (BitVec.ofNat 32 (1 + 0xFFE * 2 ^ 16))).on CPR_STAT_SAFE
    ((b.put HST_MODE_PORT (bit (b.get CPR_STRAP) 0)).setPhase 1).cprIrq 10
  let s := s.showOtp.recoverScp cause porst
  s.onBlk fun b =>
    match held with
    | some t =>
      if 10000 < t then ((b.eventDelayed 2 1 (min t (2 ^ 32 - 1)) 0).on CPR_EVT_RST_HELD).cprIrq 10 else b
    | none => b

/-- A reset from inside: PD1 to PD11 are reset and start at once, unless a pin holds them (R590) or the RC oscillator has failed (R577). -/
def State.internalReset (s : State) (cause : Nat) : State :=
  let s := s.onBlk fun b => b.enterReset cause
  if s.blk.pd0.porst ∨ s.blk.pd0.resetN ∨ s.blk.pd0.rcDead then s else s.release

/-- RESET_N rises on a device whose RC oscillator has failed: its domains stay in reset until PORST_N (R577). -/
def Block.releaseHeld (b : Block) : Block :=
  let b := match b.pd0.resetLow with
    | some t => b.set CPR_RST_HELD (min ((b.up - t) / 1000000) (2 ^ 32 - 1))
    | none => b
  { b with pd0.resetN := false, pd0.resetLow := none }

/-- RESET_RELEASE (R35, R587): both pins are high; straps are latched at a release of PORST_N (R591). -/
def execResetRelease (mode : BitVec 3) (s : State) : Outcome :=
  .next (
    if ¬ (s.blk.pd0.porst ∨ s.blk.pd0.resetN) then s
    else if s.blk.pd0.rcDead then s.onBlk Block.releaseHeld
    else
      let s := s.onBlk fun b =>
        if b.pd0.porst then (b.set CPR_STRAP mode.toNat).put CPR_STAT_REF_SEL (bit mode.toNat 1) else b
      s.release)

/-- PORST_N (R586): the pin goes low. -/
def execPorstN (s : State) : Outcome := .next (s.onBlk fun b => b.enterPowerReset 2)

/-- SUPPLY_RISE (R586): the PD0 supply rises; PORST_N is still low (21_electrical_and_package.md R611). -/
def execSupplyRise (s : State) : Outcome := .next (s.onBlk fun b => b.enterPowerReset 1)

/-- VDD_AO_FALL (21_electrical_and_package.md R613): a power-on reset with cause 0x01. -/
def execVddAoFall (s : State) : Outcome := .next (s.onBlk fun b => b.enterPowerReset 1)

/-- RESET_N (R587): the pin has been low for `low` ns. Below 1 µs it is ignored, from 10 µs it takes effect, between it may. PORST_N
overrides it (R590) (DESIGN CHOICE, log entry 99). -/
def execResetN (low : Nat) (s : State) : Outcome :=
  .next (s.onBlk fun b =>
    let (n, b) := b.take
    if low < 1000 ∨ (low < 10000 ∧ Config.freeBool n) ∨ b.pd0.resetN then b
    else if b.pd0.porst then { b with pd0.resetN := true, pd0.resetLow := some b.up }
    else
      let b := b.enterReset 3
      { b with pd0.resetN := true, pd0.resetLow := some (b.up - low) })

/-- LOCKSTEP_MISMATCH (R586): cause 0x05. -/
def execLockstepMismatch (s : State) : Outcome := .next (s.internalReset 5)

/-- DEALER_WATCHDOG (R586): the ROM firmware has not served it for 10 ms; cause 0x06. -/
def execDealerWatchdog (s : State) : Outcome := .next (s.internalReset 6)

/-- A write of CPR_CTL.DEVRESET (R588): a reset 1 ms later, refused in PHASE 0x7 and while a deck is read, dealt, decided or stored. -/
def Block.devReset (b : Block) : Block :=
  let st := b.get DCK_STAT_STATE
  if b.get DEV_BOOT_PHASE = 7 ∨ st = 1 ∨ st = 2 ∨ st = 3 ∨ st = 7 then (b.on CPR_EVT_RESET_REF).cprIrq 10
  else { b with pd0.devResetAt := some (b.pd0.devResetAt.getD (b.up + 1000000)) }

/-- HOST_DEVICE_RESET (R588): a scheduled device reset falls due; cause 0x07. -/
def execHostDeviceReset (s : State) : Outcome :=
  .next (if s.blk.pd0.devResetAt.any (· ≤ s.blk.up) then s.internalReset 7 else s)

/-- TRST_N (R586): the JTAG TAP alone is reset, and selects its identity (PRESUMED, log entry 113); an unlock stays. -/
def execTrstN (s : State) : Outcome := .next (s.onBlk fun b => { b with trust.tap := .idcode })

/-- FIELD_DIE_RESET (21_electrical_and_package.md R614): VFIELD below 14.0 V resets the field die; every switch turns off. -/
def execFieldDieReset (s : State) : Outcome :=
  .next (s.onBlk fun b =>
    let b : Block := { b with
      field := { Reset.field with linkLost := true }
      safety.a := Reset.chan, safety.raw := 0, safety.changed := Vector.replicate 16 b.up
      safety.faultNow := Vector.replicate 4 0 }
    ((b.raise SCP_STAT_FD_DOWN 179).refreshOutputs).showSafety)

/-! ### Die-to-die links (R16, R17) -/

/-- D2D_TRANSFER (R16): the receiving die takes the payload of the first good copy (DESIGN CHOICE, log entry 110); a failed copy or a
disagreement is recorded. With no good copy the field die turns everything off (R17); with one, transfers have returned. -/
def execD2dTransfer (c0 c1 : D2dCopy) (s : State) : Outcome :=
  .next (s.onBlk fun b =>
    let differ := c0.crcOk && c1.crcOk && c0.payload ≠ c1.payload
    let arg := b2n (!c0.crcOk) + 2 * b2n (!c1.crcOk) + 4 * b2n differ
    let b := if arg = 0 then b else (b.devErr DEV_STAT_D2D_ERR).event 5 1 arg 0
    let lost := !c0.crcOk && !c1.crcOk
    let b : Block := { b with
      field.linkLost := lost
      field.rxAt := b.up
      field.rx := if c0.crcOk then some c0.payload else if c1.crcOk then some c1.payload else b.field.rx }
    let b := if lost ∨ ¬ b.flag SCP_STAT_FD_DOWN then b else (b.off SCP_STAT_FD_DOWN).irq 179
    (b.refreshOutputs).showSafety)

/-- D2D_TIMEOUT (R17): once no transfer has come on either link for 2 µs, every SOUT and DOUT is de-energised (DEDUCED, log entry 92). -/
def execD2dTimeout (s : State) : Outcome :=
  .next (s.onBlk fun b =>
    if b.up < b.field.rxAt + 2000 then b
    else
      let b : Block := { b with field.linkLost := true }
      ((b.raise SCP_STAT_FD_DOWN 179).refreshOutputs).showSafety)

/-! ### Clock failures (R572 to R579) -/

/-- The status bit of a source (Table 20.8). -/
def okBit (src : Nat) : Fld := if src = 0 then CPR_STAT_REF_OK else if src = 1 then CPR_STAT_RC_OK else ⟨aCPR_STAT, src, 1⟩

/-- The domains a source feeds (Table 20.1, R577). -/
def fedBy (src : Nat) : List Nat :=
  match src with
  | 2 => [3, 4, 5, 6, 7]
  | 3 => [1, 7, 10, 11]
  | 4 => [2]
  | 5 => [8, 9, 11]
  | 6 => [7, 11]
  | _ => [1, 2, 3, 4, 5, 6, 7, 8, 9, 10, 11]

/-- A source is declared failed: the forced safe state of Table 20.2, the multiplexers of its domains ordered over, dealing abandoned
(R575, R577, R579). -/
def Block.declareFailed (b : Block) (src : Nat) : Block :=
  if b.pd0.failed.contains src then b
  else
    let b := if b.get CPR_CLK_FAIL_ID = 0xFF then b.set CPR_CLK_FAIL_ID src else b
    let b := ((b.off (okBit src)).on CPR_EVT_CLK_FAIL).on CPR_STAT_FORCED
    let b : Block := { b with
      pd0.failed := b.pd0.failed ++ [src], pd0.goodSince := none
      pd0.declaredAt := some (b.pd0.declaredAt.getD b.up)
      pd0.mux := b.pd0.mux ++ (fedBy src).filter fun d => !b.pd0.mux.contains d
      ang.pins := 0, ang.pulses := Vector.replicate 16 none, cap.fireUntil := 0
      passed := none, boot.dealing := false, boot.staging := false, boot.stage := [] }
    b.on CPR_STAT_SAFE

/-- A source is judged good: the reference starts the PLLs (R574), and one that had failed asserts source 9 (Table 20.9). -/
def Block.judgedGood (b : Block) (src : Nat) : Block :=
  let was := b.flag (okBit src)
  let b := b.on (okBit src)
  let b := if src = 0 ∧ ¬ was then { b with pd0.pllsAt := some b.up } else b
  if was ∨ ¬ b.pd0.failed.contains src then b
  else
    let b := b.cprIrq 9
    if b.pd0.failed.all fun f => b.flag (okBit f) then { b with pd0.goodSince := some b.up } else b

/-- A window count outside 85 to 115. -/
def oddCount (c : Nat) : Bool := decide (c < 85 ∨ 115 < c)

/-- One source in one window: a good one may fail (R572), another may become good (R574). -/
def Block.judgeWindow (b : Block) (src c : Nat) (lock : Bool) : Block :=
  let odd := oddCount c
  let twice := odd && b.pd0.oddWindows.contains src
  let b : Block := { b with
    pd0.oddWindows := if odd then src :: b.pd0.oddWindows.filter (· ≠ src) else b.pd0.oddWindows.filter (· ≠ src) }
  if b.flag (okBit src) then
    (if c < 8 ∨ twice then
      (if b.pd0.failed.contains src then { b.off (okBit src) with pd0.goodSince := none } else b.declareFailed src)
    else b)
  else if src = 0 then
    let near : Bool := b.pd0.stable = 0 || (c ≤ b.pd0.lastCount + 1 && b.pd0.lastCount ≤ c + 1)
    let n := if odd then 0 else if near then b.pd0.stable + 1 else 1
    let b : Block := { b with pd0.stable := n, pd0.lastCount := c }
    if 64 ≤ n then { b with pd0.stable := 0 }.judgedGood 0 else b
  else if ¬ b.flag CPR_STAT_REF_OK then b
  else
    let n := if odd ∨ ¬ lock then 0 else sget (fun _ => 0) b.pd0.pllGood src + 1
    let b : Block := { b with pd0.pllGood := sput (fun _ => 0) b.pd0.pllGood src (if 16 ≤ n then 0 else n) }
    if 16 ≤ n then b.judgedGood src else b

/-- MONITOR_WINDOW (R572, R574): the counts of one window, for the reference and for each PLL with its lock detector
(DEDUCED, log entry 101). -/
def execMonitorWindow (ref : Nat) (plls : Vector (Bool × Nat) 5) (s : State) : Outcome :=
  .next (s.onBlk fun b =>
    if b.pd0.porst ∨ b.pd0.rcDead then b
    else
      let b := b.judgeWindow 0 ref true
      (List.finRange 5).foldl (fun b (k : Fin 5) => b.judgeWindow (k.1 + 2) plls[k].2 plls[k].1) b)

/-- RC_CHECK (R573): RC cycles counted over 100 reference cycles. -/
def execRcCheck (count : Nat) (s : State) : Outcome :=
  .next (s.onBlk fun b =>
    if b.pd0.porst ∨ b.pd0.rcDead then b
    else
      let odd := decide (count < 108 ∨ 148 < count)
      if odd ∧ b.pd0.rcOdd then { b with pd0.rcDead := true }.declareFailed 1
      else
        let b : Block := { b with pd0.rcOdd := odd }
        if odd then b else b.on CPR_STAT_RC_OK)

/-- A stopped state: every SOUT and DOUT is de-energised (01_dealer_and_helpers.md R39). -/
def Block.enterStopped (b : Block) : Block := (b.setPhase 14).showSafety.refreshOutputs

/-- The first source not yet good at start-up. -/
def Block.notGood (b : Block) : Option Nat := [0, 2, 3, 4, 5, 6].find? fun k => !b.flag (okBit k)

/-- The time of R574 for source `src` has passed: 10 ms for a crystal, 1 ms for REFCLK_IN, 200 µs from the start of the PLLs. -/
def Block.sourceLate (b : Block) (src : Nat) : Bool :=
  if src = 0 then b.boot.since + (if b.flag CPR_STAT_REF_SEL then 1000000 else 10000000) ≤ b.up
  else b.pd0.pllsAt.all fun t => t + 200000 ≤ b.up

/-- REFERENCE_TIMEOUT (R574): the reference or a PLL is not good in time; start-up stops, the Dealer on the RC oscillator. -/
def execReferenceTimeout (s : State) : Outcome :=
  .next (s.onBlk fun b =>
    match b.notGood with
    | none => b
    | some src =>
      if ¬ b.boot.released ∨ b.boot.step1 ∨ b.pd0.failed ≠ [] ∨ ¬ b.sourceLate src then b
      else
        let b : Block := { b with pd0.dealerRc := true }
        ((b.event 0xB 2 src 0).set DEV_BOOT_FAIL_STEP 1).enterStopped)

/-- The asynchronous reset is due (R577, R590). -/
def Block.asyncDue (b : Block) : Bool :=
  (b.pd0.declaredAt.any fun t => t + 20000 ≤ b.up) && !b.pd0.porst && !b.pd0.resetN

/-- 20 µs after the declaration every affected domain is reset and held; while a pin holds the device in reset this waits (R590). With PD1
among them the Dealer boots on the RC oscillator and every other domain is held; then it records the failure and stops the device. With
the RC oscillator failed nothing is recorded. -/
def Block.asyncReset (b : Block) : Block :=
  if ¬ b.asyncDue then b
  else
    let fed := b.pd0.failed.flatMap fedBy
    let all := b.pd0.rcDead || fed.contains 1
    let hit := (List.range 12).filter fun n => 1 ≤ n && (all || fed.contains n)
    let b := hit.foldl (fun b n => (b.resetDomain n).put ⟨aCPR_PD_STAT, 16 + n, 1⟩ true) b
    let b : Block := { b with pd0.declaredAt := none, pd0.mux := [] }
    if b.pd0.rcDead then { b with boot := Reset.boot }
    else
      let b : Block := if all then { b with pd0.dealerRc := true }.put ⟨aCPR_PD_STAT, 17, 1⟩ false else b
      (b.event 0xB 2 (b.pd0.failed.headD 0) 0).enterStopped.cprIrq 9

/-- ASYNCHRONOUS_RESET (R577, R578): a Dealer that boots again shows OTP. -/
def execAsynchronousReset (s : State) : Outcome :=
  .next (
    let failed := s.blk.pd0.failed
    let rebooted := s.blk.asyncDue && !s.blk.pd0.rcDead && (failed.flatMap fedBy).contains 1
    let s := s.onBlk Block.asyncReset
    if rebooted then s.showOtp else s)

/-- CLOCK_RESTART (R578): every failed source good for 100 ms, and fewer than 3 restarts in the last 60 minutes: an internal reset with
cause 0x04. -/
def execClockRestart (s : State) : Outcome :=
  .next (
    let b := s.blk
    let recent := b.pd0.restarts.filter fun t => b.up < t + 3600000000000
    if ¬ (b.pd0.goodSince.any fun t => t + 100000000 ≤ b.up) ∨ b.pd0.rcDead ∨ 3 ≤ recent.length then s
    else
      let s := s.onBlk fun b =>
        { b with pd0.restarts := recent ++ [b.up] }.set CPR_CLK_FAIL_RESTARTS (recent.length + 1)
      s.internalReset 4)

/-- TEMPERATURE_UPDATE (R592): the temperature in 0.1 °C; source 11 on rising above the threshold and on falling 5 °C below it. -/
def execTemperatureUpdate (t : Int) (s : State) : Outcome :=
  .next (s.onBlk fun b =>
    let b := b.seti CPR_TEMP t
    let w := b.geti CPR_TEMP_WARN
    if ¬ b.pd0.tempHigh ∧ w < t then ({ b with pd0.tempHigh := true }.on CPR_EVT_TEMP_WARN).cprIrq 11
    else if b.pd0.tempHigh ∧ t < w - 50 then { b with pd0.tempHigh := false }.cprIrq 11
    else b)

/-! ### Start-up steps (R38) -/

/-- A start-up step stops start-up: PHASE 0xE, FAIL_STEP and record 0x0006. A device already stopped keeps its FAIL_STEP (DEDUCED, log
entry 36). -/
def Block.stopStartUp (b : Block) (step : Nat) : Block :=
  let b := if b.get DEV_BOOT_PHASE = 14 then b else (b.set DEV_BOOT_FAIL_STEP step).enterStopped
  b.event 6 2 step (b.rd aDEV_BOOT).toNat

/-- CHANNEL_B_SELF_TEST (15_safety.md R462): step 2 ends, or fails and stops start-up (R38). -/
def execChannelBSelfTest (pass : Bool) (s : State) : Outcome :=
  .next (s.onBlk fun b =>
    let b : Block := { b with safety.b.tested := pass, boot.step2 := pass }
    if pass then (b.leaveFault.showSafety).startSegments
    else ((b.safFault 2 false true).stopStartUp 2))

/-- PHASE follows the segments that start (Table 1.8): 5 once every one in step 5 has announced its switch, 6 once every one is in Run;
one that missed its bound no longer counts (R38). -/
def Block.bootBoundary (b : Block) : Block :=
  let ph := b.get DEV_BOOT_PHASE
  if ph ≠ 4 ∧ ph ≠ 5 then b
  else
    let live := (List.range 8).filter fun s =>
      ((b.dealt.bind (·.segRec s)).any fun r => bit r.flags 1) && !b.flag (SEG_FLAGS_START_ERR s)
    let run (s : Nat) : Bool := b.get (SEG_STAT_STATE s) = 6 || b.get (SEG_STAT_STATE s) = 7
    if live.all run then ((if ph = 4 then b.setPhase 5 else b).setPhase 6).payOwed.showSafety
    else if ph = 4 ∧ live.all (fun s => run s || (b.sg s).switchAt.isSome) then b.setPhase 5
    else b

/-- Milliseconds since the release, frozen in PHASE 0x6 or 0xE (Table 1.8). -/
def Block.elapse (b : Block) : Block :=
  if ¬ b.boot.released ∨ b.boot.frozen then b
  else
    let b := b.set DEV_BOOT_ELAPSED_MS (min ((b.up - b.boot.since) / 1000000) 65535)
    let ph := b.get DEV_BOOT_PHASE
    if ph = 6 ∨ ph = 7 ∨ ph = 14 then { b with boot.frozen := true } else b

end Sys2Proof.Machine
end

