-- ==== Sys2Proof/Machine/RegFind.lean ====
section
/-!
DEFINITION. Finding a register of the register map by its BAR0 offset, the basic pages that repeat expert registers, VSTAT registers
(03_deck.md R105), and the ranges in force for RWV fields (R91).
-/

namespace Sys2Proof.Machine

/-- A register found: the offset of its first word, the offset within its page copy, its description. -/
structure Hit where
  base : Nat
  rel : Nat
  desc : RDesc
  deriving DecidableEq, Repr

/-- The register of a page copy that holds the word at `rel` in it. -/
def RDesc.holds (r : RDesc) (rel : Nat) : Option Nat :=
  let d := rel - r.off
  let k := if r.stp = 0 then 0 else d / r.stp
  let m := d - k * r.stp
  if r.off ≤ rel ∧ k < r.cnt ∧ (m = 0 ∨ (r.wide ∧ m = 4)) then some (r.off + k * r.stp) else none

/-- The register of a page that holds the word at BAR0 offset `x`. -/
def Page.hit (p : Page) (x : Nat) : Option Hit :=
  if x < p.base then none
  else
    let k := if p.stride = 0 then 0 else (x - p.base) / p.stride
    if p.cnt ≤ k then none
    else
      let copy := p.base + k * p.stride
      p.regs.findSome? fun r => (r.holds (x - copy)).map fun o => ⟨copy + o, o, r⟩

/-- The register that holds the word at BAR0 offset `x` (17_host_interface.md R515). -/
def findReg (x : Nat) : Option Hit := pages.findSome? (·.hit x)

/-- Where the expert register lies that a basic page repeats: line angle (04_line_angle.md R147), axes (07_axis_loop_law.md R253),
feedback (09_position_feedback.md R306, R307), dispatcher (10_task_dispatch.md R334), engines (11_loop_engine_model.md R375),
field I/O (16_field_io.md R502). -/
def expertOf (x : Nat) : Option Nat :=
  if 0x20000 ≤ x ∧ x < 0x20068 then some (x + 0x400)
  else if 0x80000 ≤ x ∧ x < 0xC0000 then some (x + 0x40000)
  else if 0x100000 ≤ x ∧ x < 0x101000 then some (x + 0x1000)
  else if 0x102000 ≤ x ∧ x < 0x104000 then some (x + 0x3000)
  else if x = 0x110000 then some 0x110400
  else if 0x120000 ≤ x ∧ x < 0x140000 ∧ x % 0x1000 = 0 then some (x + 0x400)
  else if 0x170000 ≤ x ∧ x < 0x170068 then some (x + 0x400)
  else none

/-- The registers that stand on a basic page alone: SEG_B_REQ, SEG_B_STAT, PLT_B_CTL, PLT_B_STAT, DIS_B_STAT, LE_B_STAT, CAP_B_ARM,
PTN_B_REQ, and every VSTAT. -/
def basicOnly (x : Nat) : Bool :=
  x = 0x203FC || (0x30000 ≤ x && x < 0x30400) || (0x40000 ≤ x && x < 0x80000 && x % 0x8000 < 0x400) || x = 0x104FFC ||
    (0x110000 ≤ x && x < 0x110400) || (0x120000 ≤ x && x < 0x140000 && x % 0x1000 < 0x400) ||
    (0x140000 ≤ x && x < 0x140400) || (0x150000 ≤ x && x < 0x150400) || (0x170000 ≤ x && x < 0x170400)

/-- An expert offset at which the register map keeps a VSTAT that shows on the basic page alone (R105, R253, R306). -/
def hiddenVstat (x : Nat) : Bool :=
  (0xC0000 ≤ x && x < 0x100000 && x % 0x400 = 0x3FC) || (0x101000 ≤ x && x < 0x102000 && x % 0x100 = 0xFC)

/-- The VSTAT register of the function whose register lies at home offset `x`, and the offset that VSTAT shows for it: the offset on
the basic page. -/
def vstatOf (x : Nat) : Nat × Nat :=
  if 0x20000 ≤ x ∧ x < 0x30000 then (aANG_VSTAT, x - 0x20400)
  else if 0x30000 ≤ x ∧ x < 0x40000 then (aPLT_VSTAT, x - 0x30000)
  else if 0x40000 ≤ x ∧ x < 0x80000 then (aSEG_VSTAT ((x - 0x40000) / 0x8000), x % 0x8000)
  else if 0xC0000 ≤ x ∧ x < 0x100000 then (aAX_VSTAT ((x - 0xC0000) / 0x400), x % 0x400)
  else if 0x101000 ≤ x ∧ x < 0x102000 then (aFB_VSTAT ((x - 0x101000) / 0x100), x % 0x100)
  else if 0x102000 ≤ x ∧ x < 0x110000 then (aFB_N_VSTAT, x - 0x105000)
  else if 0x110000 ≤ x ∧ x < 0x120000 then (aDIS_VSTAT, x - 0x110400)
  else if 0x120000 ≤ x ∧ x < 0x140000 then (aLE_VSTAT ((x - 0x120000) / 0x1000), x % 0x1000 - 0x400)
  else if 0x140000 ≤ x ∧ x < 0x150000 then (aCAP_VSTAT, x - 0x140000)
  else if 0x150000 ≤ x ∧ x < 0x160000 then (aPTN_VSTAT, x - 0x150000)
  else (aFLD_VSTAT, x - 0x170400)

/-! ### Ranges (R91) -/

/-- Whether a RANGE record names the field at bit `lo` of the register at home offset `x`: by its offset on the basic page, or, with
ALL_AXES, by its offset in the axis page. -/
def RangeRec.names (r : RangeRec) (x lo : Nat) : Bool :=
  r.bit = lo &&
    (if Machine.bit r.flags 1 then 0xC0000 ≤ x && x < 0x100000 && r.addr = x % 0x400
    else expertOf r.addr = some x || (r.addr = x && basicOnly x))

/-- A value with the sign of its field. -/
def FDesc.value (f : FDesc) (v : Nat) : Int := if f.sig then sgn f.w v else (low f.w v : Int)

/-- The range a field has by its width. -/
def FDesc.full (f : FDesc) : Int × Int := if f.sig then (-(2 ^ (f.w - 1)), 2 ^ (f.w - 1) - 1) else (0, 2 ^ f.w - 1)

/-- The default range of a field of the register at home offset `x` under deck `d`: a stepper's AX_PVEL ends at 1.0
(08_profiles_and_gearing.md Table 8.4), a requested contract at the last one of its segment (06_thrumlos_start_and_schedules.md Table
6.11). -/
def Deck.default (d : Deck) (x : Nat) (f : FDesc) : Int × Int :=
  let r := f.rng.getD f.full
  if 0xC0000 ≤ x ∧ x < 0x100000 ∧ x % 0x400 = 0x18 ∧ d.axes.any (fun a => a.axis = (x - 0xC0000) / 0x400 && a.kind = 2) then
    (1, 0x10000)
  else if 0x40000 ≤ x ∧ x < 0x80000 ∧ x % 0x8000 = 0 ∧ f.lo = 0 then
    (1, (d.contracts.filter fun c => c.seg = (x - 0x40000) / 0x8000).length)
  else r

/-- The range in force of a field, the largest change (0 for none) and whether it is STANDSTILL_ONLY, from the last record that names
it. -/
def Deck.rangeOf (d : Deck) (x : Nat) (f : FDesc) : Int × Int × Nat × Bool :=
  let r := d.default x f
  match (d.ranges.filter (·.names x f.lo)).getLast? with
  | some q => (max q.min r.1, min q.max r.2, q.step, f.ss || Machine.bit q.flags 0)
  | none => (r.1, r.2, 0, f.ss)

/-- The RWV field of `w` bits from bit `lo` of the register at home offset `x`. -/
def rwvAt (x lo w : Nat) : Option FDesc :=
  (findReg x).bind fun h => h.desc.fields.find? fun f => f.lo = lo && f.w = w && h.base = x && f.basic = .rwv

/-! ### Pages that are not there -/

/-- The LAW of an axis, none for a virtual one or one without a graph. -/
def Deck.lawOf (d : Deck) (i : Nat) : Option Nat :=
  (d.axes.find? fun a => a.axis = i && a.kind ≠ 3).bind fun a => (d.graphs.find? (·.id = a.graph)).map (·.law)

/-- The microcode words of an axis with LAW 2: expert offsets 0x100 to 0x2FC; its basic page reads 0 there (R253). -/
def Deck.rawWord (d : Deck) (x : Nat) : Bool :=
  0xC0000 ≤ x && x < 0x100000 && 0x100 ≤ x % 0x400 && x % 0x400 < 0x300 && d.lawOf ((x - 0xC0000) / 0x400) = some 2

/-- Whether axis `i` has an AXIS record. -/
def Deck.hasAxis (d : Deck) (i : Nat) : Bool := d.axes.any (·.axis = i)

end Sys2Proof.Machine
end

