-- ==== Sys2Proof/Machine/Commits.lean ====
section
/-!
DEFINITION. RWS and RWV commits: what a committed field starts (R25, R107), the Dealer's validation (03_deck.md R103 to R105), and
what a declarer mirrors of them (14_partners.md R443).
-/

namespace Sys2Proof.Machine

/-! ### What a commit starts -/

/-- The order of coinciding commits (R107, R245, R257, R274): of an axis the acknowledgement first, then clear, automatic, enable,
injection, gear cancel, stop, mode, target, limits, gearing; of other blocks none. -/
def Fld.rank (f : Fld) : Nat :=
  let rel := f.addr % 0x400
  if f.addr < 0xC0000 ∨ 0x100000 ≤ f.addr then 99
  else if rel = 0 then
    (match f.lo with
    | 2 => 0
    | 6 => 1
    | 1 => 2
    | 0 => 3
    | _ => 4)
  else if rel = 0x28 then (match f.lo with
    | 3 => 5
    | 2 => 6
    | _ => 7)
  else if rel = 0x10 then 8
  else if rel < 0x28 then 9
  else 10

/-- What a committed field of axis `i` starts. -/
def Block.commitAxis (b : Block) (i : Nat) (f : Fld) (new : Nat) : Block :=
  if ¬ b.axisExists i then b
  else if f = AX_CTL_FAULT_ACK i then (if new = 1 then b.commitAck i else b)
  else if f = AX_CTL_RC_CLEAR i then (if new = 1 then b.commitRcClear i else b)
  else if f = AX_CTL_AUTO i then (if new = 1 then b.commitAuto i else b.commitManual i)
  else if f = AX_CTL_ENABLE i then (if new = 1 then b.commitEnable i else b.commitDisable i)
  else if f = AX_CTL_INJ_EN i then (if new = 0 then b.injStop i else b)
  else if f = AX_MCTL_GCANCEL i then (if new = 1 then b.commitGcancel i else b)
  else if f = AX_MCTL_STOP i then (if new = 1 then b.commitStop i else b)
  else if f = AX_MCTL_CMODE i then b.commitCmode i
  else if f = AX_TARGET i then b.commitTarget i
  else if f = AX_PVEL i ∨ f = AX_PACC i ∨ f = AX_PDEC i then b.commitLimits i (new = 0)
  else if f = AX_PJERK i then b.commitLimits i false
  else if f = AX_MAN_VEL i then b.commitManVel i
  else if f = AX_JVEL i then b.commitJvel i
  else if f = AX_GANG i then b.commitGang i
  else if f = AX_GRATIO i then b.commitGratio i
  else b

/-- An enable of channel `c` fails the second check of 09_position_feedback.md R296: with its SSI frame an axis it feeds would release its
record too late. -/
def Block.chLate (b : Block) (c : Nat) : Bool :=
  b.get (FB_CFG_TYPE c) = 1 && !b.ssiPathOk (some c) none fun r => r.feedback = 0x10 + c

/-- What a committed field of feedback channel `c` starts. -/
def Block.commitChannel (b : Block) (c : Nat) (f : Fld) (new : Nat) : Block :=
  if f = FB_CTL_EN c then b.commitChEnable c (b.chLate c)
  else if f = FB_CTL_FAULT_ACK c then (if new = 1 then b.commitChAck c else b)
  else if f = FB_CTL_LOAD c then (if new = 1 then b.commitLoad c else b)
  else if f = FB_CTL_UNC_CLR c then (if new = 1 then b.commitUncClr c else b)
  else if f = FB_CTL_CNT_CLR c then (if new = 1 then b.commitChCntClr c else b)
  else b

/-- The capture groups of a committed CAP_B_ARM arm or disarm; its bits read 0 (13_capture.md R407, R426). -/
def Block.commitCapArm (b : Block) (disarm : Bool) (m : Nat) : Block :=
  b.each 8 fun b g => if ¬ bit m g then b else if disarm then b.capDisarm g else b.capAsk g

/-- What a committed field starts, with its old value (DEDUCED, log entry 35) (DEDUCED, log entry 53). -/
def Block.commitAct (b : Block) (f : Fld) (old new : Nat) : Block :=
  let a := f.addr
  if 0xC0000 ≤ a ∧ a < 0x100000 then b.commitAxis ((a - 0xC0000) / 0x400) f new
  else if 0x101000 ≤ a ∧ a < 0x102000 then b.commitChannel ((a - 0x101000) / 0x100) f new
  else if 0x40000 ≤ a ∧ a < 0x80000 then
    let s := (a - 0x40000) / 0x8000
    if f = SEG_B_REQ_CONTRACT s then b.segRequest s
    else if f = SEG_B_REQ_RESTART s then (if new = 1 then b.segRestart s else b)
    else b
  else if 0x120000 ≤ a ∧ a < 0x140000 then
    (if f = LE_CTL ((a - 0x120000) / 0x1000) ∧ old ≠ new then b.commitHalt ((a - 0x120000) / 0x1000) else b)
  else if f = PTN_B_REQ then (if new = 1 then b.commitHandover else b)
  else if f = PLT_B_CTL then (if new = 1 then (b.off PLT_B_CTL).realign else b)
  else if f = CAP_B_ARM_ARM then (b.off CAP_B_ARM_ARM).commitCapArm false new
  else if f = CAP_B_ARM_DISARM then (b.off CAP_B_ARM_DISARM).commitCapArm true new
  else b

/-! ### Mirrored registers (14_partners.md R443) -/

/-- A home offset whose commits a declarer mirrors. -/
def mirroredReg (x : Nat) : Bool :=
  (0xC0000 ≤ x && x < 0x100000) || (0x20400 ≤ x && x < 0x20800) || x = aANG_CH_EN 0 || x = aANG_CH_EN 1 ||
    (0x101000 ≤ x && x < 0x102000) || (0x105000 ≤ x && x < 0x107000) ||
    (0x40000 ≤ x && x < 0x80000 && x % 0x8000 = 0)

/-- A COMMIT item of the word at `x`, for the boundary of `round`. -/
def Block.mirrorWord (b : Block) (round x : Nat) : Block :=
  if mirroredReg x then b.mirror (.commit (round % 2 ^ 16) x [b.rd x]) else b

/-- The words a field lies in. -/
def Fld.words (f : Fld) : List Nat := if f.lo + f.w ≤ 32 then [f.addr] else [f.addr, f.addr + 4]

/-- A committed field, its old value and its new one. -/
abbrev Act := Fld × Nat × Nat

/-- A commit starts something: every one, but that CMODE written unchanged beside GCANCEL is no commit of a mode, since GCANCEL stops no
running blend (08_profiles_and_gearing.md R274) (DEDUCED, log entry 33). -/
def Act.starts (all : List Act) (a : Act) : Bool :=
  let i := (a.1.addr - 0xC0000) / 0x400
  !(a.1 = AX_MCTL_CMODE i && a.2.1 = a.2.2 && all.any fun c => c.1 = AX_MCTL_GCANCEL i && c.2.2 = 1)

/-- Commits act in their order (R107). -/
def Block.actCommits (b : Block) (acts : List Act) : Block :=
  (sortKey (fun a => a.1.rank) (acts.filter (Act.starts acts))).foldl (fun b a => b.commitAct a.1 a.2.1 a.2.2) b

/-- Commits take effect together (R25): every field is set, and a declarer mirrors the words; each then acts on the whole set
(DEDUCED, log entry 33). -/
def Block.setCommits (b : Block) (cs : List (Fld × Nat)) : List Act × Block :=
  let acts := cs.map fun c => (c.1, b.get c.1, c.2)
  let b := cs.foldl (fun b c => b.set c.1 c.2) b
  (acts, (cs.flatMap (·.1.words)).eraseDups.foldl (fun b x => b.mirrorWord b.round x) b)

/-! ### Writes that wait -/

/-- Put a field's value in the shadow; the last write before the boundary stands (R11). -/
def Block.shadowPut (b : Block) (f : Fld) (v : Nat) : Block :=
  { b with shadow := b.shadow.filter (·.1 ≠ f) ++ [(f, v)] }

/-- A discarded RWV write shows in VSTAT and in DEV_STAT.RANGE_ERR (R12, R105). -/
def Block.discard (b : Block) (vstat off reason : Nat) : Block :=
  (b.wr vstat (BitVec.ofNat 32 (reason + off % 2 ^ 16 * 2 ^ 8))).devErr DEV_STAT_RANGE_ERR

/-- The standstill a STANDSTILL_ONLY field of the register at home offset `x` needs: of its axis; of the axes of its segment; of its
channel; of its node entry; elsewhere of every axis (DEDUCED, log entry 24). -/
def Block.stillFor (b : Block) (x : Nat) : Bool :=
  if 0xC0000 ≤ x ∧ x < 0x100000 then b.standstill ((x - 0xC0000) / 0x400)
  else if 0x40000 ≤ x ∧ x < 0x80000 then
    b.axisList.all fun r => r.kind = 3 || r.segment ≠ (x - 0x40000) / 0x8000 || b.standstill r.axis
  else if 0x101000 ≤ x ∧ x < 0x102000 then b.flag (FB_STAT_STANDSTILL ((x - 0x101000) / 0x100))
  else if 0x105000 ≤ x ∧ x < 0x107000 then b.flag (FB_N_STAT_STANDSTILL ((x - 0x105000) / 0x20))
  else b.allStandstill

/-- The value a field will hold at its commit boundary as things stand (R103). -/
def Block.comingValue (b : Block) (f : Fld) : Nat :=
  match b.valid.find? (·.fld = f), b.due.find? (·.fld = f) with
  | some v, _ => v.value
  | none, some v => v.value
  | none, none => b.get f

/-- A target of a modulo axis lies in 0 to M (08_profiles_and_gearing.md R268) (DEDUCED, log entry 69). -/
def Block.inModulus (b : Block) (f : Fld) (x : Int) : Bool :=
  let i := (f.addr - 0xC0000) / 0x400
  !(0xC0000 ≤ f.addr && f.addr < 0x100000 && f = AX_TARGET i && b.modulo i) ||
    (0 ≤ x && x ≤ (b.comingValue (AX_MODULUS i) : Int))

/-- A lower soft limit lies at or below the upper one as they come to be in force (09_position_feedback.md R302) (DEDUCED, log entry
138) (DEDUCED, log entry 138). -/
def Block.limitsOrdered (b : Block) (f : Fld) (x : Int) : Bool :=
  let c := (f.addr - 0x101000) / 0x100
  let i := (f.addr - 0x105000) / 0x20
  let coming (g : Fld) : Int := sgn g.w (b.comingValue g)
  if 0x101000 ≤ f.addr ∧ f.addr < 0x102000 then
    (f ≠ FB_SLO c || x ≤ coming (FB_SHI c)) && (f ≠ FB_SHI c || coming (FB_SLO c) ≤ x)
  else if 0x105000 ≤ f.addr ∧ f.addr < 0x107000 then
    (f ≠ FB_N_SLO i || x ≤ coming (FB_N_SHI i)) && (f ≠ FB_N_SHI i || coming (FB_N_SLO i) ≤ x)
  else true

/-- The checks of R103 on one field: MIN, MAX and the modulus, MAXSTEP, standstill, the order of soft limits; 0 where it passes. `full` is
the range in force (DEDUCED, log entry 31). -/
def Block.checkField (b : Block) (f : Fld) (d : FDesc) (q : Int × Int × Nat × Bool) (v : Nat) : Nat :=
  let x := d.value v
  let now := d.value (b.comingValue f)
  if x < q.1 then 1
  else if q.2.1 < x ∨ ¬ b.inModulus f x then 2
  else if q.2.2.1 ≠ 0 ∧ q.2.2.1 < (x - now).natAbs then 3
  else if q.2.2.2 ∧ ¬ b.stillFor f.addr then 4
  else if ¬ b.limitsOrdered f x then 0xB
  else 0

/-- A value that passed validation is held for its commit boundary, one per field (R103). -/
def Block.hold (b : Block) (v : VField) : Block := { b with valid := b.valid.filter (·.fld ≠ v.fld) ++ [v] }

/-- Validation of one field of a write: its reason, 0 where it is held. A field that is RWL on the expert page is also refused while
its feedback channel is enabled (09_position_feedback.md R306). -/
def Block.validateField (b : Block) (w : VWrite) (f : Fld) : Nat × Block :=
  match rwvAt w.addr f.lo f.w, b.dealt with
  | some d, some k =>
    let v := bits w.value f.lo f.w
    let q := k.rangeOf w.addr d
    let running := d.expert = .rwl && 0x101000 ≤ f.addr && f.addr < 0x102000 &&
      b.flag (FB_STAT_ENABLED ((f.addr - 0x101000) / 0x100))
    let r := if running then 4 else b.checkField f d q v
    if r = 0 then (0, b.hold ⟨f, v, q.2.2.2, w.vstat, w.off⟩) else (r, b)
  | _, _ => (5, b)

/-- The Dealer ends validation of a write (R103): the failing field with the lowest bit position is reported. -/
def Block.validate (b : Block) (w : VWrite) : Block :=
  let step (p : Nat × Block) (f : Fld) : Nat × Block :=
    let (r, b) := p.2.validateField w f
    (if p.1 = 0 then r else p.1, b)
  let (r, b) := (sortKey (·.lo) w.flds).foldl step (0, b)
  if r = 0 then b else b.discard w.vstat w.off r

/-- A write enters the Dealer's queue, or is discarded when 64 are pending (R103). -/
def Block.enqueueWrite (b : Block) (w : VWrite) : Block :=
  if 64 ≤ b.vq.length then b.discard w.vstat w.off 6 else { b with vq := b.vq ++ [w] }

/-- RWV_VALIDATION (R103): the oldest pending write is validated. -/
def execRwvValidation (s : State) : Outcome :=
  .next (s.onBlk fun b =>
    match b.vq with
    | [] => b
    | w :: t => { b with vq := t }.validate w)

/-- The commit latches close in this nanosecond, 200 ns before a round boundary (R104). -/
def Block.latchCloses (b : Block) : Bool := b.reached b.roundNs (b.roundPhase + b.roundNs - 200)

/-- COMMIT_LATCH_CLOSE (R104): 200 ns before a boundary, what is validated is set to commit at it; STANDSTILL_ONLY values are checked once
more. -/
def execCommitLatchClose (s : State) : Outcome :=
  .next (s.onBlk fun b =>
    if ¬ b.latchCloses then b else
    let step (b : Block) (v : VField) : Block :=
      if v.ss ∧ ¬ b.stillFor v.fld.addr then b.discard v.vstat v.off 4
      else { b with due := b.due.filter (·.fld ≠ v.fld) ++ [v] }
    b.valid.foldl step { b with valid := [] })

/-- FB_ENABLE (09_position_feedback.md R282, R296): a committed EN. -/
def execFbEnable (c : Fin 16) (s : State) : Outcome :=
  .next (s.onBlk fun b => let b := b.on (FB_CTL_EN c.1); b.commitChEnable c.1 (b.chLate c.1))

end Sys2Proof.Machine
end

