-- ==== Sys2Proof/Machine/DeckCheck.lean ====
section
/-!
DEFINITION. The Dealer's checks of a deck in the order of 03_deck.md R97, with their refusal reasons (Table 3.9).
-/

namespace Sys2Proof.Machine

/-- One check: the reason it gives, the index of the section and the RTYPE it concerns (Table 3.13), whether it passes. -/
structure Chk where
  reason : Nat
  sect : Nat
  rtype : Nat
  ok : Bool
  deriving DecidableEq, Repr

/-- The first check of a list that fails. -/
def firstFail (l : List Chk) : Option Chk := l.find? fun c => !c.ok

/-- No number twice. -/
def noDup : List Nat → Bool
  | [] => true
  | x :: t => !t.contains x && noDup t

/-- No two of the ranges, each a start and an end beyond it, overlap. -/
def disjoint : List (Nat × Nat) → Bool
  | [] => true
  | x :: t => (t.all fun y => decide (x.2 ≤ y.1) || decide (y.2 ≤ x.1)) && disjoint t

/-- `lo ≤ n ≤ hi`. -/
def within (lo hi n : Nat) : Bool := lo ≤ n && n ≤ hi

/-- The index of the section of a type in the section table. -/
def Deck.idx (d : Deck) (type : Nat) : Nat := (d.sects.findIdx? (·.type = type)).getD 0

/-- Whether a section of a type is there. -/
def Deck.hasSect (d : Deck) (type : Nat) : Bool := d.sects.any (·.type = type)

/-- A check on records of a section. -/
def Deck.chk (d : Deck) (reason type rtype : Nat) (ok : Bool) : Chk := ⟨reason, d.idx type, rtype, ok⟩

/-! ### Header, OTP, signature (R619, R80, R46, R47) -/

/-- The header checks of R619. -/
def Deck.headerChecks (d : Deck) (devId : Nat) : List Chk :=
  let h := d.header
  [⟨1, 0, 0, h.magic = 0x4C584443 && h.format = 1 && h.hlen = 0x40 && h.reserved = 0 && h.flags < 4 &&
      (bit h.flags 1 || h.serial = 0)⟩,
   ⟨2, 0, 0, bits h.target 16 16 = 0x2560 && bits h.target 0 8 = 0 && bits h.target 8 8 ≤ bits devId 8 8⟩,
   ⟨0xA, 0, 0, within 1 15 h.sections⟩,
   ⟨3, 0, 0, h.total % 16 = 0 && h.total ≤ 0x400000 && h.total = d.bytes && 64 + 32 * h.sections + 208 ≤ h.total⟩]

/-- OTP state, key, signature, version and serial (DESIGN CHOICE, log entry 50). -/
def Deck.authChecks (d : Deck) (o : Otp) : List Chk :=
  let h := d.header
  let slotOk : Bool :=
    if s : h.slot < 4 then
      let k := o.slots[h.slot]
      k.hash ≠ 0 && k.hash = d.keyHash && bit k.flags 0 && !bit k.flags 3
    else false
  [⟨0x14, 0, 0, o.provisioned⟩, ⟨8, 0, 0, !o.kill⟩, ⟨4, 0, 0, slotOk⟩, ⟨5, 0, 0, d.sigOk⟩, ⟨6, 0, 0, o.secver ≤ h.secver⟩,
   ⟨7, 0, 0, !bit h.flags 1 || h.serial = o.serial.toNat⟩]

/-! ### Section table (R83) -/

/-- Whether Table 3.4 requires a section of a type. -/
def Deck.requires (d : Deck) (type : Nat) : Bool :=
  match type with
  | 1 | 2 | 6 | 7 | 8 | 9 => true
  | 3 => d.axes.any fun a => a.kind = 1 || a.kind = 2
  | 4 => d.graphs.any fun g => g.h1 ≠ 0 || g.h2 ≠ 0
  | 5 => d.axes.any fun a => a.segment ≠ 0xFF
  | 13 => d.hasSect 5 || d.hasSect 11
  | _ => false

/-- The faults of R83; a type named twice and bodies that overlap are the later section's. -/
def Deck.tableChecks (d : Deck) : List Chk :=
  let h := d.header
  let first := 64 + 32 * h.sections
  let ent (e : SectEntry) : Bool :=
    within 1 15 e.type && e.offset % 16 = 0 && e.length % 4 = 0 && first ≤ e.offset && e.offset + e.length + 208 ≤ h.total &&
      e.sflags < 2 && (bit e.sflags 0 || e.tag = 0) && (e.type ≠ 13 || bit e.sflags 0)
  let apart (k : Nat) (e : SectEntry) : Bool :=
    (d.sects.take k).all fun f => f.type ≠ e.type && (f.offset + f.length ≤ e.offset || e.offset + e.length ≤ f.offset)
  (d.sects.zipIdx.map fun p => ⟨0xA, p.2, 0, ent p.1 && apart p.2 p.1⟩) ++
  [⟨0xA, 0, 0, d.sects.length = h.sections⟩, ⟨0xA, 0, 0, (List.range 16).all fun t => !d.requires t || d.hasSect t⟩]

/-- Tags of encrypted sections (R81). -/
def Deck.tagChecks (d : Deck) : List Chk := d.sects.zipIdx.map fun p => ⟨9, p.2, 0, !bit p.1.sflags 0 || p.1.tagOk⟩

/-! ### Records (R84 to R92): reason 0x0B -/

/-- DEVICE (R86, R519). -/
def Deck.deviceRecs (d : Deck) : List Chk :=
  [d.chk 0xB 1 0x101 (d.rounds.length = 1 && d.rounds.all fun r => r.rate ≤ 3 && r.phase < rateNs r.rate),
   d.chk 0xB 1 0x102 (d.domains.length = 1 && d.domains.all fun m => m < 0x1000 && m &&& 0x887 = 0x887),
   d.chk 0xB 1 0x103 (d.flows.length ≤ 7 && d.flows.all fun f => within 9 15 f.flow && f.window ≤ 7)]

/-- An AXIS record of Table 3.6. -/
def AxisRec.valid (a : AxisRec) : Bool :=
  a.axis ≤ 255 && within 1 3 a.kind && a.level ≤ 1 && a.sub ≤ 3 && a.flags < 4 &&
    (if bit a.flags 1 then within 8 12 a.rcPoints else a.rcPoints = 0) && (a.hand ≤ 31 || a.hand = 0xFF) &&
    (if a.kind = 3 then a.segment = 0xFF && a.node = 0xFF && a.feedback = 0xFF
    else a.segment ≤ 7 && a.node ≤ 63 && (a.feedback = 0 || within 0x10 0x1F a.feedback))

/-- The word that the INIT records leave at an offset of an axis page. -/
def Deck.initWord (d : Deck) (axis off : Nat) : Word :=
  ((d.inits.filter fun i => i.axis = axis && i.off = off).getLast?.map (·.value)).getD (resetReg (0xC0000 + 0x400 * axis + off))

/-- An INIT value within the default range of its register (R227). -/
def Deck.initOk (d : Deck) (i : InitRec) : Bool :=
  let x := 0xC0000 + 0x400 * i.axis + i.off
  d.rawWord x ||
    match findReg x with
    | some h =>
      let off := h.base % 0x400
      let v := (d.initWord i.axis off).toNat + (if h.desc.wide then (d.initWord i.axis (off + 4)).toNat * 2 ^ 32 else 0)
      h.desc.fields.all fun f =>
        let r := d.default h.base f
        let q := f.value (bits v f.lo f.w)
        r.1 ≤ q && q ≤ r.2
    | none => true

/-- AXES, LOOPS and MICROCODE fields. -/
def Deck.axisRecs (d : Deck) : List Chk :=
  [d.chk 0xB 2 0x201 (d.axes.all (·.valid) && noDup (d.axes.map (·.axis))),
   d.chk 0xB 3 0x301 (d.graphs.all fun g => g.law ≤ 2 && g.blocks < 32 && (g.law = 0 || g.blocks = 0)),
   d.chk 0xB 3 0x302 (d.inits.all d.initOk),
   d.chk 0xB 4 0x401 (d.images.all fun m => 0x4000 ≤ m.addr && m.addr % 4 = 0)]

/-- CONTRACTS (Table 6.6, R208) (DEDUCED, log entry 45). -/
def Deck.contractRecs (d : Deck) : List Chk :=
  let n (s : Nat) : Nat := (d.contracts.filter (·.seg = s)).length
  [d.chk 0xB 5 0x501 (noDup (d.segs.map (·.seg)) && d.segs.all fun s =>
      s.seg ≤ 7 && s.flags < 4 && within 1 (n s.seg) s.op && within 2 16 s.hold && within 2 16 s.miss &&
        (!bit s.flags 0 || (s.seg % 2 = 0 && !d.segs.any (·.seg = s.seg + 1)))),
   d.chk 0xB 5 0x502 (d.contracts.all fun c =>
      d.used c.seg && within 1 7 c.num && c.kcount ≤ 4 && within 1 64 c.turns &&
        c.num ≤ n c.seg && (d.contracts.filter fun x => x.seg = c.seg && x.num = c.num).length = 1),
   d.chk 0xB 5 0x503 (d.turns.all fun t =>
      (d.contract t.seg t.contract).isSome && t.pos ≤ 63 && within 1 4 t.axes && t.slots ≤ 4),
   d.chk 0xB 5 0x504 (d.nodeIds.all fun i => d.used i.seg && i.pos ≤ 63)]

/-- ANGLE (R146, R135). -/
def Deck.angleRecs (d : Deck) : List Chk :=
  let a := d.angle
  let kind3 := a.sources.any (·.kind = 3)
  [d.chk 0xB 6 0x601 (a.sources.length = 1 && a.sources.all fun s =>
      validSource (s.kind * 2 + s.index * 16) && s.kind < 8 && s.flags < 4 && within 1 65535 s.lossTo),
   d.chk 0xB 6 0x602 (a.extraps.length = 1 && a.extraps.all fun e => within 1 16 e.kwShift && within 1 8 e.lookahead),
   d.chk 0xB 6 0x603 (a.virtuals.length ≤ 1 && (!kind3 || a.virtuals.length = 1)),
   d.chk 0xB 6 0x604 (noDup (a.channels.map (·.channel)) && a.channels.all (·.channel ≤ 63)),
   d.chk 0xB 6 0x605 (a.events.length ≤ 4096 && a.events.all (·.valid)),
   d.chk 0xB 6 0x606 (noDup (a.capins.map (·.input)) && a.capins.all (·.input ≤ 7))]

/-- SAFETY (R486, R463). -/
def Deck.safetyRecs (d : Deck) : List Chk :=
  let s := d.safety
  let code (c : Nat) : Bool := within 1 8 c || c = 0x10 || c = 0x11
  [d.chk 0xB 7 0x701 (s.safids.length = 1 && d.pcrcOk && s.safids.all fun r =>
      within 4 32 r.swd && within 5 30 r.sfilt && within 1 8 r.tpw && within 10 1000 r.tpp),
   d.chk 0xB 7 0x702 (s.inputs.length ≤ 16 && noDup (s.inputs.map (·.sdi)) && s.inputs.all fun r =>
      let pair := r.mode = 2 || r.mode = 3
      r.sdi ≤ 15 && r.mode ≤ 3 && within 1 50 r.disc && (r.tps ≤ 3 || r.tps = 15) && (r.tpsPair ≤ 3 || r.tpsPair = 15) &&
        (!pair || (r.sdi % 2 = 0 && !s.inputs.any (·.sdi = r.sdi + 1)))),
   d.chk 0xB 7 0x703 (s.souts.length ≤ 8 && noDup (s.souts.map (·.pair)) && s.souts.all (·.pair ≤ 7)),
   d.chk 0xB 7 0x704 (s.functions.length ≤ 32 && noDup (s.functions.map (·.func)) && s.functions.all fun f =>
      f.func ≤ 31 && f.sdi ≤ 15 && f.flags < 4),
   d.chk 0xB 7 0x705 (s.events.length ≤ 16 && noDup (s.events.map (·.code)) && s.events.all fun e =>
      code e.code && e.reaction ≤ 2 && (e.func = 0xFF || s.functions.any (·.func = e.func)))]

/-- FIELD (R501). -/
def Deck.fieldRecs (d : Deck) : List Chk :=
  let f := d.field
  [d.chk 0xB 8 0x801 (noDup (f.dins.map (·.group)) && f.dins.all fun g => g.group ≤ 3 && within 1 255 g.filt),
   d.chk 0xB 8 0x802 (noDup (f.douts.map (·.group)) && f.douts.all fun g =>
      g.group ≤ 1 && g.par < 16 && bits g.par 0 2 ≠ 3 && bits g.par 2 2 ≠ 3),
   d.chk 0xB 8 0x803 (f.wdogs.length ≤ 1)]

/-- CAPTURE (R425). -/
def Deck.captureRecs (d : Deck) : List Chk :=
  match d.capture with
  | none => []
  | some c =>
    let sel (k : Nat) : Nat := if k = 1 then 9 else 1
    [d.chk 0xB 10 0xA01 (noDup (c.chans.map (·.chan)) && c.chans.all fun r =>
        r.chan ≤ 63 && bits r.cfg 0 3 ≤ 5 && bits r.cfg 4 4 ≤ sel (bits r.cfg 0 3) && bits r.cfg 20 5 ≤ 16 && r.base % 4 = 0),
     d.chk 0xB 10 0xA02 (noDup (c.groups.map (·.group)) && c.groups.all fun g =>
        g.group ≤ 7 && bits g.cfg 1 3 ≤ 3 && (bits g.cfg 1 3 = 0 || bits g.cfg 4 2 ≠ 0)),
     d.chk 0xB 10 0xA03 (c.fires.length ≤ 1)]

/-- MIRROR (R458). -/
def Deck.mirrorRecs (d : Deck) : List Chk :=
  match d.mirror with
  | none => []
  | some m =>
    [d.chk 0xB 11 0xB01 (m.pairs.length = 1 && m.pairs.all fun p => p.lower < p.higher && within 16 768 p.commitWords),
     d.chk 0xB 11 0xB02 (m.rcs.length ≤ 8 && m.rcs.all fun r => r.1 ≤ r.2 && r.2 ≤ 255),
     d.chk 0xB 11 0xB03 (m.words.length ≤ 16 && m.words.all fun w => w.addr % 4 = 0 && within 1 256 w.words)]

/-- PLANT (R551). -/
def Deck.plantRecs (d : Deck) : List Chk :=
  let p := d.plant
  let enc := d.sects.any fun e => e.type = 12 && bit e.sflags 0
  [d.chk 0xB 12 0xC01 (noDup (p.ports.map (·.port)) && p.ports.all fun r =>
      r.port ≤ 1 && bits r.cfg 3 2 ≤ 2 && bits r.cfg 5 2 ≤ 2),
   d.chk 0xB 12 0xC02 (p.clocks.length ≤ 1 && p.clocks.all fun c => within 100 1000000000 c.jumpTh),
   d.chk 0xB 12 0xC03 (noDup (p.queues.map (·.queue)) && p.queues.all (·.queue ≤ 7)),
   d.chk 0xB 12 0xC04 (p.latx.length ≤ 1 && (p.latx.isEmpty || enc) && p.latx.all (·.port ≤ 1)),
   d.chk 0xB 12 0xC05 (p.larx.length ≤ 2 && (p.larx.isEmpty || enc) && p.larx.all (·.port ≤ 1))]

/-- Whether a RANGE record may stand (R91). -/
def Deck.rangeOk (d : Deck) (r : RangeRec) : Bool :=
  if bit r.flags 1 then
    match rwvAt (0xC0000 + r.addr) r.bit r.width with
    | none => false
    | some f =>
      let dflt := f.rng.getD f.full
      decide (r.addr < 0x400) && decide (dflt.1 ≤ r.min) && decide (r.max ≤ dflt.2) &&
        d.axes.all fun a =>
          let x := 0xC0000 + 0x400 * a.axis + r.addr
          let q := d.default x f
          d.rawWord x || decide (max q.1 r.min ≤ min q.2 r.max)
  else
    let x := (expertOf r.addr).getD r.addr
    let there : Bool := (expertOf r.addr).isSome || basicOnly r.addr
    let axis : Bool := !(0xC0000 ≤ x && x < 0x100000) || (d.hasAxis ((x - 0xC0000) / 0x400) && !d.rawWord x)
    match rwvAt x r.bit r.width with
    | some f => there && axis && decide ((d.default x f).1 ≤ r.min) && decide (r.max ≤ (d.default x f).2)
    | none => false

/-- RANGES and OTP fields (R91, R102, Table 3.8); SECRETS (R90). A LOCK record that overlaps an expert-level axis's page at all is refused
(DESIGN CHOICE, log entry 115: R102 says "covers") (DESIGN CHOICE, log entry 115). -/
def Deck.otherRecs (d : Deck) : List Chk :=
  let expertAxis (lo hi : Nat) : Bool :=
    d.axes.any fun a => a.level = 1 && decide (0xC0000 + 0x400 * a.axis < hi) && decide (lo < 0xC0400 + 0x400 * a.axis)
  [d.chk 0xB 13 0xD01 (!d.hasSect 13 || d.kMnr.isSome), d.chk 0xB 13 0xD02 (d.kPr.isSome = d.hasSect 11),
   d.chk 0xB 14 0xE01 (d.ranges.all fun r => r.flags < 4 && r.signed ≤ 1 && within 1 64 r.width && d.rangeOk r),
   d.chk 0xB 14 0xE02 (d.locks.all fun l => l.len % 4 = 0 && !expertAxis l.addr (l.addr + l.len)),
   d.chk 0xB 15 0xF01 (d.fills.all fun f => within 1 3 f.slot), d.chk 0xB 15 0xF02 (d.revokes.all (· ≤ 3))]

/-- The first record that R84 calls malformed, then every record's fields. -/
def Deck.recordChecks (d : Deck) : List Chk :=
  let bad := d.parseFault.getD (0, 0)
  ⟨0xB, bad.1, bad.2, d.parseFault.isNone⟩ ::
    (d.deviceRecs ++ d.axisRecs ++ d.contractRecs ++ d.angleRecs ++ d.safetyRecs ++ d.fieldRecs ++ d.captureRecs ++
      d.mirrorRecs ++ d.plantRecs ++ d.otherRecs)

/-! ### Consistency across sections: reason 0x0C -/

/-- Segment `s` lies in a domain left off (R86). -/
def Deck.segOff (d : Deck) (s : Nat) : Bool := !bit (d.domains.headD 0) (8 + s / 4)

/-- Segment `s` is the odd one of a ring. -/
def Deck.oddOfRing (d : Deck) (s : Nat) : Bool := s % 2 = 1 && d.isRing (s - 1)

/-- Bytes of shared axis memory in use: repetitive-controller tables, and the state of axes beyond 16 of an engine's hand (R88,
10_task_dispatch.md, hands) (DEDUCED, log entry 46). -/
def Deck.sharedBytes (d : Deck) (hands : List (Nat × Nat)) : Nat :=
  let rc := d.axes.foldl (fun a r => if bit r.flags 1 then a + 4 * 2 ^ r.rcPoints else a) 0
  let more := (List.range 32).foldl (fun a e => a + ((hands.filter (·.2 = e + 1)).length - 16)) 0
  rc + Config.axisStateBytes * more

/-- DEVICE, AXES and LOOPS against the rest (R86, R88, R227, R519). -/
def Deck.axisCross (d : Deck) (hands : List (Nat × Nat)) : List Chk :=
  let real := d.axes.filter (·.kind ≠ 3)
  let graphOk (a : AxisRec) : Bool :=
    match d.graphs.find? (·.id = a.graph) with
    | some g => g.law ≠ (if a.kind = 1 then 1 else 0) && (bit a.flags 1 == bit g.blocks 2)
    | none => false
  let param (i : InitRec) : Bool :=
    let x := 0xC0000 + 0x400 * i.axis + i.off
    i.off % 4 = 0 && within 0x100 0x2FC i.off && (d.rawWord x ||
      ((findReg x).any fun h => h.desc.fields.any fun f => f.expert ≠ .ro && f.expert ≠ .w1c))
  [d.chk 0xC 1 0x103 (noDup (d.flows.map (·.window))),
   d.chk 0xC 1 0x102 (!(d.segs.any fun s => d.segOff s.seg) &&
      (bit (d.domains.headD 0) 10 || !(d.capture.any fun c => !c.chans.isEmpty))),
   d.chk 0xC 2 0x201 (noDup (real.map fun a => (a.segment * 64 + a.node) * 4 + a.sub) &&
      real.all (fun a => d.used a.segment && !d.oddOfRing a.segment) && d.sharedBytes hands ≤ 0x800000),
   d.chk 0xC 2 0x201 (real.all graphOk),
   d.chk 0xC 3 0x302 (d.inits.all fun i => d.hasAxis i.axis && param i)]

/-- CONTRACTS (R209). -/
def Deck.contractCross (d : Deck) : List Chk :=
  let okC (c : ContractRec) : Bool :=
    let ts := d.turns.filter fun t => t.seg = c.seg && t.contract = c.num
    noDup (ts.map (·.turn)) && ts.length = c.turns && ts.all (fun t => t.turn < c.turns) && noDup (ts.map (·.pos)) &&
      ts.foldl (fun a t => a + t.slots) 0 ≤ 16 &&
      d.axes.all fun a => a.kind = 3 || a.segment ≠ c.seg || ts.any fun t => t.pos = a.node && a.sub < t.axes
  [d.chk 0xC 5 0x503 (d.contracts.all okC)]

/-- ANGLE (R146) and SAFETY (R468, R469, R486). -/
def Deck.angleSafetyCross (d : Deck) : List Chk :=
  let s := d.safety
  let on (i : Nat) : Bool := s.inputs.any fun r => r.sdi = i && r.mode ≠ 0
  let turn (g p : Nat) : Bool := d.turns.any fun t => t.seg = g && t.pos = p
  let nodesOk (f : FunctionRec) : Bool :=
    (List.range 8).all fun g => (List.range 64).all fun p => !bit (f.nodes.getD g 0) p || (!d.oddOfRing g && turn g p)
  [d.chk 0xC 6 0x601 (d.angle.sources.all fun q => q.kind ≠ 2 ||
      d.axes.any fun a => a.axis = q.index && a.kind ≠ 3 && a.feedback = 0),
   d.chk 0xC 6 0x604 (d.angle.channels.all fun c => !bit c.cfg 1 ||
      (d.used (bits c.cfg 8 3) && !d.segOff (bits c.cfg 8 3) && !d.oddOfRing (bits c.cfg 8 3))),
   d.chk 0xC 7 0x701 (s.safids.all fun r => r.tpw + 2 ≤ r.sfilt),
   d.chk 0xC 7 0x702 (s.inputs.all fun r => (r.mode ≠ 2 && r.mode ≠ 3) || r.tps ≠ r.tpsPair || r.tps = 15),
   d.chk 0xC 7 0x704 (s.functions.all fun f => on f.sdi && nodesOk f)]

/-- CAPTURE (R425), MIRROR (R431, R458), PLANT (R532). -/
def Deck.otherCross (d : Deck) (serial : Nat) : List Chk :=
  let wide (cfg : Nat) : Bool :=
    let k := bits cfg 0 3
    let sel := bits cfg 4 4
    (k = 1 && (sel = 0 || sel = 2 || sel = 4)) || (k = 2 && sel = 0) || k = 3 || (k = 5 && bit cfg 3)
  let buf (r : CapChanRec) : Nat × Nat := (r.base, r.base + r.len * (if wide r.cfg then 36 else 20))
  let cap := match d.capture with
    | some c =>
      let bs := (c.chans.map buf).filter fun x => x.1 < x.2
      let src (r : CapChanRec) : Bool :=
        let k := bits r.cfg 0 3
        let i := bits r.cfg 8 8
        (k ≠ 1 || d.hasAxis i) && (k ≠ 2 || i ≤ 15)
      [d.chk 0xC 10 0xA01 (disjoint bs && bs.all (·.2 ≤ 0x2000000) && c.chans.all src)]
    | none => []
  let mir := match d.mirror with
    | some m =>
      [d.chk 0xC 11 0xB01 (d.segs.all (fun s => bit s.flags 0 && 4 ≤ s.hold) &&
        m.pairs.all fun p => p.lower = serial || p.higher = serial),
       d.chk 0xC 11 0xB03 (m.words.all fun w => 0x20000000 ≤ w.addr && w.addr + 4 * w.words ≤ 0x20800000),
       d.chk 0xC 11 0xB02 (d.axes.all fun a => bit a.flags 1 || !m.rcs.any fun r => r.1 ≤ a.axis && a.axis ≤ r.2)]
    | none => []
  cap ++ mir ++ [d.chk 0xC 12 0xC01 (((d.plant.ports.filter fun p => bits p.cfg 3 2 = 1).length) ≤ 1)]

/-! ### Policy, mirror budget, microcode, critical path -/

/-- A range of addresses, its last one included, meets `[lo, hi]`. -/
def meets (e : PolicyEntry) (lo hi : Nat) : Bool := e.base ≤ hi && lo ≤ e.limit

/-- An entry covers a trust-page address outside those of R61 (R54). -/
def PolicyEntry.trust (e : PolicyEntry) : Bool :=
  meets e 0x101A0000 0x101AFFFF &&
    !(0x101A0000 ≤ e.base && e.limit < 0x101A0000 + 0x100 &&
      (List.range 64).all fun k => !(e.base ≤ 0x101A0000 + 4 * k && 0x101A0000 + 4 * k ≤ e.limit) || alwaysReach (0x1A0000 + 4 * k))

/-- An entry of master `m` may stand (R53, R54, R342, R621). -/
def PolicyEntry.valid (e : PolicyEntry) (m : Nat) : Bool :=
  let wr := bit e.w2 1
  e.base % 32 = 0 && (e.limit + 1) % 32 = 0 && e.base ≤ e.limit && e.w2 < 16 && e.w3 = 0 && (m ≤ 33 || bits e.w2 2 2 = 3) &&
    !e.trust && !meets e 0x10800000 0x10FFFFFF && !(wr && meets e 0x10400000 0x107FFFFF) &&
    !(wr && m ≠ 34 && m ≠ 37 && (List.range 32).any fun k => meets e (0x40000000 + 0x40000 * k) (0x4000FFFF + 0x40000 * k))

/-- The dispatcher's block (10_task_dispatch.md R335). -/
def dispatcherBlock : PolicyBlock :=
  ⟨34, 0, [⟨0x40000000, 0x407FFFFF, 0xE, 0⟩, ⟨0x50000000, 0x5000FFFF, 0xE, 0⟩]⟩

/-- The policy blocks (R53, R54, R85) (DESIGN CHOICE, log entry 42). -/
def Deck.policyChecks (d : Deck) : List Chk :=
  [d.chk 0xD 9 0 (noDup (d.policy.map (·.master)) && d.policy.contains dispatcherBlock && d.policy.all fun p =>
    within 2 38 p.master && p.reserved = 0 && p.entries.length ≤ 16 && p.entries.all (·.valid p.master) &&
      disjoint (p.entries.map fun e => (e.base, e.limit + 1)))]

/-- The axes whose RC items are mirrored (14_partners.md R446). -/
def Deck.mirroredAxes (d : Deck) : Nat :=
  match d.mirror with
  | some m => (d.axes.filter fun a => m.rcs.any fun r => r.1 ≤ a.axis && a.axis ≤ r.2).length
  | none => 0

/-- The mirror reserve within its budget (14_partners.md R446). -/
def Deck.mirrorChecks (d : Deck) : List Chk :=
  match d.mirror with
  | some m =>
    let reserve := 48 + 4 * (m.pairs.headD ⟨0, 0, 0, 0⟩).commitWords + 48 * d.mirroredAxes +
      m.words.foldl (fun a w => a + 4 * (1 + w.words)) 0
    [d.chk 0x11 11 0 (reserve ≤ 3072 * 2 ^ (3 - d.rate))]
  | none => []

/-- Microcode images and tasks (R89, R227). -/
def Deck.microChecks (d : Deck) : List Chk :=
  let ends := d.images.map fun m => (m.addr, m.addr + 4 * m.words.length)
  let known (t : Nat) : Bool := t = 0 || d.tasks.any (·.id = t)
  [d.chk 0x12 4 0x401 (disjoint ends && ends.all (·.2 ≤ 0x10000)),
   d.chk 0x12 4 0x402 (noDup (d.tasks.map (·.id)) && d.tasks.all fun t => ends.any fun e => e.1 ≤ t.entry && t.entry < e.2),
   d.chk 0x12 3 0x301 (d.graphs.all fun g => known g.h1 && known g.h2)]

/-- The engines that deck `d` powers and that are neither frozen nor halted (R86). -/
def Block.deckPool (b : Block) (d : Deck) : List Nat :=
  (List.range 32).filter fun e => bit (d.domains.headD 0) (3 + e / 8) && !b.frozen (e + 2) && !b.flag (LE_CTL e)

/-- Contracts within their limits (05_thrumlos_link_and_frames.md R169), records ready in time (01_dealer_and_helpers.md R33). -/
def Block.timeChecks (b : Block) (d : Deck) (hands : List (Nat × Nat)) : List Chk :=
  [d.chk 0xE 5 0x502 (d.contracts.all fun c => c.fits (d.turnList c.seg c.num) d.rate),
   ⟨0xE, d.idx 5, 0, b.criticalOk d (fun i => sget (fun _ => 0) hands i - 1) none fun _ => []⟩]

/-- The OTP records against OTP (R46, R92). -/
def Deck.otpChecks (d : Deck) (o : Otp) : List Chk :=
  let fillOk (f : SlotFill) : Bool :=
    if h : f.slot < 4 then o.slots[f.slot].hash = 0 || (o.slots[f.slot].hash = f.hash && o.slots[f.slot].flags = f.flags) else false
  [d.chk 0x10 15 0xF01 (d.fills.all fillOk), d.chk 0x10 15 0xF02 (!d.revokes.contains d.header.slot)]

/-- Every check of a deck, in the order of R97; the OTP records come last (DEDUCED, log entry 44). -/
def Block.deckChecks (b : Block) (o : Otp) (d : Deck) : List Chk :=
  let hands := d.hands (b.deckPool d)
  d.headerChecks (b.rd aDEV_ID).toNat ++ d.authChecks o ++ d.tableChecks ++ d.tagChecks ++ d.recordChecks ++
    (d.axisCross hands ++ d.contractCross ++ d.angleSafetyCross ++ d.otherCross o.serial.toNat) ++ d.policyChecks ++
    d.mirrorChecks ++ d.microChecks ++ b.timeChecks d hands ++ d.otpChecks o

/-- The first check a deck fails. -/
def Block.deckFault (b : Block) (o : Otp) (d : Deck) : Option Chk := firstFail (b.deckChecks o d)

end Sys2Proof.Machine
end

