-- ==== Sys2Proof/Machine/DeckParse.lean ====
section
/-!
DEFINITION. The container of a deck read to the byte (03_deck.md R78 to R84 and the record tables that Table 3.4 names): header, section
table, signature block, sections opened with K_DECK, records and policy blocks.
-/

namespace Sys2Proof.Machine

/-- The big-endian number of `n` bytes at offset `o` (R78). -/
def be (bs : List Byte) (o n : Nat) : Nat := ofBytesBE ((bs.drop o).take n)

/-! ### Header, section table, signature block -/

/-- The header (Table 3.1); `reserved` is not 0 where any reserved byte is not. -/
def parseHeader (raw : List Byte) : DeckHeader :=
  { magic := be raw 0 4, format := be raw 4 2, hlen := be raw 6 2, target := be raw 8 4, total := be raw 12 4, secver := be raw 16 4,
    flags := be raw 20 4, serial := be raw 24 8, slot := be raw 32 4, sections := be raw 36 2,
    reserved := be raw 38 2 + be raw 56 8, build := be raw 40 8, nonce := be raw 48 8 }

/-- The initialisation vector of section `k` (R81). -/
def sectIv (h : DeckHeader) (k : Nat) : List Byte := bytesBE 8 h.nonce ++ bytesBE 4 k

/-- The associated data of section `k`: the header and the table entry with TAG 0 (R81). -/
def sectAad (raw : List Byte) (k : Nat) : List Byte := raw.take 64 ++ (raw.drop (64 + 32 * k)).take 16 ++ bytesBE 16 0

/-- The body of a section as the container carries it. -/
def sectBody (raw : List Byte) (e : SectEntry) : List Byte := (raw.drop e.offset).take e.length

/-- Entry `k` of the section table (Table 3.2), with the verdict on its tag under K_DECK. -/
def parseEntry (key : BitVec 256) (raw : List Byte) (k : Nat) : SectEntry :=
  let o := 64 + 32 * k
  let e : SectEntry := ⟨be raw o 2, be raw (o + 2) 2, be raw (o + 4) 4, be raw (o + 8) 4, be raw (o + 12) 4, be raw (o + 16) 16, false⟩
  let h := parseHeader raw
  { e with tagOk := bit e.sflags 0 && (Config.tag256 key (sectIv h k) (sectAad raw k) (sectBody raw e)).toNat = e.tag }

/-- The plaintext of section `k` (R81). -/
def sectPlain (key : BitVec 256) (raw : List Byte) (k : Nat) (e : SectEntry) : List Byte :=
  if bit e.sflags 0 then xorStream (Config.stream256 key (sectIv (parseHeader raw) k)) (sectBody raw e) else sectBody raw e

/-- The offset of the signature block (Table 3.3). -/
def sigAt (h : DeckHeader) : Nat := h.total - 208

/-! ### Records (R84) -/

/-- The form of an RTYPE: its RLEN, none where it varies, and the bits that must be 0, by offset, bytes and mask. -/
structure RecForm where
  rtype : Nat
  rlen : Option Nat
  zeros : List (Nat × Nat × Nat)
  deriving DecidableEq, Repr

/-- All bits of `n` bytes. -/
def allBits (n : Nat) : Nat := 2 ^ (8 * n) - 1

/-- `n` reserved bytes at offset `o`. -/
def rsv (o n : Nat) : Nat × Nat × Nat := (o, n, allBits n)

/-- The records of a section type (Tables 3.5 to 3.8, 4.4, 6.6, 7.1, 13.5, 14.8, 15.6, 16.3, 18.6). -/
def formsOf (type : Nat) : List RecForm :=
  match type with
  | 1 => [⟨0x101, some 12, [rsv 5 3]⟩, ⟨0x102, some 8, [rsv 6 2]⟩, ⟨0x103, some 8, [rsv 6 2]⟩]
  | 2 => [⟨0x201, some 20, [rsv 15 1]⟩]
  | 3 => [⟨0x301, some 16, [rsv 14 2]⟩, ⟨0x302, some 12, []⟩]
  | 4 => [⟨0x401, none, [rsv 6 2]⟩, ⟨0x402, some 16, [rsv 12 4]⟩]
  | 5 => [⟨0x501, some 12, [rsv 9 3]⟩, ⟨0x502, some 12, []⟩, ⟨0x503, some 12, [rsv 10 2]⟩, ⟨0x504, some 16, [rsv 6 2]⟩]
  | 6 => [⟨0x601, some 24, [rsv 7 1]⟩, ⟨0x602, some 16, [rsv 6 2]⟩, ⟨0x603, some 24, [rsv 4 4]⟩,
      ⟨0x604, some 20, [(5, 1, 0xFE), rsv 6 2, (8, 4, 0x00C0F808)]⟩, ⟨0x605, some 20, []⟩, ⟨0x606, some 8, [(5, 1, 0xFC), rsv 7 1]⟩]
  | 7 => [⟨0x701, some 24, [rsv 11 1, rsv 14 2]⟩, ⟨0x702, some 8, []⟩, ⟨0x703, some 8, [(5, 1, 0xFE), (6, 1, 0xFE), rsv 7 1]⟩,
      ⟨0x704, some 84, [rsv 10 2]⟩, ⟨0x705, some 8, [(6, 1, 0xFE)]⟩]
  | 8 => [⟨0x801, some 12, [(5, 1, 0xFC), rsv 7 1, rsv 10 2]⟩, ⟨0x802, some 12, [(5, 1, 0xFE), (6, 1, 0xF0), rsv 9 3]⟩,
      ⟨0x803, some 8, []⟩]
  | 10 => [⟨0xA01, some 24, [rsv 5 3, (8, 4, 0xFE000000)]⟩, ⟨0xA02, some 48, [rsv 5 3, (8, 4, 0xFFF88000), rsv 44 4]⟩, ⟨0xA03, some 8, []⟩]
  | 11 => [⟨0xB01, some 28, [rsv 22 2]⟩, ⟨0xB02, some 8, [rsv 6 2]⟩, ⟨0xB03, some 12, [rsv 10 2]⟩]
  | 12 => [⟨0xC01, some 28, [rsv 5 3, (8, 4, 0x80), rsv 26 2]⟩, ⟨0xC02, some 16, [(4, 4, 0xFFFFFFFE), (12, 4, 0xFFFFF0F0)]⟩,
      ⟨0xC03, some 8, [(5, 1, 0xFC), rsv 7 1]⟩, ⟨0xC04, some 32, [rsv 14 2]⟩, ⟨0xC05, some 32, [rsv 5 3]⟩]
  | 13 => [⟨0xD01, some 20, []⟩, ⟨0xD02, some 20, []⟩]
  | 14 => [⟨0xE01, some 36, []⟩, ⟨0xE02, some 12, []⟩]
  | 15 => [⟨0xF01, some 60, [rsv 5 3]⟩, ⟨0xF02, some 8, [rsv 5 3]⟩]
  | _ => []

/-- The records of a body, at most `n`, and whether they fill it exactly; where they do not, the RTYPE of the one that does not fit. -/
def splitRecs : Nat → List Byte → List (List Byte) × Option Nat
  | _, [] => ([], none)
  | 0, bs => ([], some (be bs 0 2))
  | n + 1, bs =>
    let len := be bs 2 2
    if len < 4 ∨ len % 4 ≠ 0 ∨ bs.length < len then ([], some (be bs 0 2))
    else
      let (rs, f) := splitRecs n (bs.drop len)
      (bs.take len :: rs, f)

/-- A record is malformed (R84): its RTYPE unknown, its RLEN another, a reserved bit set. -/
def malformed (type : Nat) (r : List Byte) : Bool :=
  match (formsOf type).find? (·.rtype = be r 0 2) with
  | none => true
  | some f =>
    (match f.rlen with
      | some n => r.length ≠ n
      | none => r.length < 8) || f.zeros.any fun z => be r z.1 z.2.1 &&& z.2.2 ≠ 0

/-- The policy blocks of a body, at most `n`, and whether they fill it exactly (R53, R85). -/
def splitPolicy : Nat → List Byte → List PolicyBlock × Bool
  | _, [] => ([], true)
  | 0, _ => ([], false)
  | n + 1, bs =>
    let k := be bs 1 1
    let len := 4 + 16 * k
    if bs.length < len then ([], false)
    else
      let entry (j : Nat) : PolicyEntry :=
        let o := 4 + 16 * j
        ⟨be bs o 4, be bs (o + 4) 4, be bs (o + 8) 4, be bs (o + 12) 4⟩
      let (t, ok) := splitPolicy n (bs.drop len)
      (⟨be bs 0 1, be bs 2 2, (List.range k).map entry⟩ :: t, ok)

/-- A section opened: its index, its entry, its plaintext, its records. -/
structure Section where
  index : Nat
  entry : SectEntry
  plain : List Byte
  recs : List (List Byte)
  broken : Option Nat
  deriving DecidableEq, Repr

/-- The sections of a container. -/
def openSections (key : BitVec 256) (raw : List Byte) : List Section :=
  (List.range (min 15 (parseHeader raw).sections)).map fun k =>
    let e := parseEntry key raw k
    let p := sectPlain key raw k e
    let (rs, f) := if e.type = 9 then ([], none) else splitRecs (p.length / 4) p
    ⟨k, e, p, rs, f⟩

/-- The RTYPE of the first fault R84 finds in a section, 0 where none names one. -/
def Section.fault (x : Section) : Option Nat :=
  if x.entry.type = 9 then
    let (bs, ok) := splitPolicy (x.plain.length / 4) x.plain
    if ok ∧ bs.length = x.entry.count then none else some 0
  else
    match x.recs.find? (malformed x.entry.type) with
    | some r => some (be r 0 2)
    | none =>
      match x.broken with
      | some t => some t
      | none => if x.recs.length = x.entry.count then none else some 0

/-- The first malformed record of a container: section index and RTYPE. -/
def parseFaultOf (ss : List Section) : Option (Nat × Nat) :=
  ss.findSome? fun x => x.fault.map fun t => (x.index, t)

/-- The records of an RTYPE, in the order of the container. -/
def recsOf (ss : List Section) (rtype : Nat) : List (List Byte) :=
  ss.flatMap fun x => x.recs.filter fun r => be r 0 2 = rtype

/-! ### The records as the model holds them -/

/-- AXIS (Table 3.6). -/
def axisRec (r : List Byte) : AxisRec :=
  ⟨be r 4 2, be r 6 1, be r 7 1, be r 8 1, be r 9 1, be r 10 1, be r 11 1, be r 12 1, be r 13 1, be r 14 1, be r 16 4⟩

/-- PLANT (Table 18.6). -/
def plantSect (ss : List Section) : PlantSect :=
  { ports := (recsOf ss 0xC01).map fun r => ⟨be r 4 1, be r 8 4, be r 12 4, be r 16 4, be r 20 6⟩
    clocks := (recsOf ss 0xC02).map fun r => ⟨be r 4 4, be r 8 4, be r 12 4⟩
    queues := (recsOf ss 0xC03).map fun r => ⟨be r 4 1, be r 5 1, be r 6 1⟩
    latx := (recsOf ss 0xC04).map fun r => ⟨be r 4 1, be r 5 1, be r 6 2, be r 8 6, BitVec.ofNat 128 (be r 16 16)⟩
    larx := (recsOf ss 0xC05).map fun r => ⟨be r 4 1, be r 8 8, BitVec.ofNat 128 (be r 16 16)⟩ }

/-- A word of a record. -/
def recWord (r : List Byte) (o : Nat) : Word := BitVec.ofNat 32 (be r o 4)

/-- ANGLE (Table 4.4); the words of an event record are big-endian (04_line_angle.md R126). -/
def angleSect (ss : List Section) : AngleSect :=
  { sources := (recsOf ss 0x601).map fun r => ⟨be r 4 1, be r 5 1, be r 6 1, be r 8 4, be r 12 2, be r 14 2, be r 16 8⟩
    extraps := (recsOf ss 0x602).map fun r => ⟨be r 4 1, be r 5 1, be r 8 4, be r 12 4⟩
    virtuals := (recsOf ss 0x603).map fun r => (be r 8 8, be r 16 8)
    channels := (recsOf ss 0x604).map fun r => ⟨be r 4 1, bit (be r 5 1) 0, be r 8 4, be r 12 4, be r 16 4⟩
    events := (recsOf ss 0x605).map fun r => ⟨recWord r 4, recWord r 8, recWord r 12, recWord r 16⟩
    capins := (recsOf ss 0x606).map fun r => ⟨be r 4 1, bit (be r 5 1) 0, bit (be r 5 1) 1, be r 6 1⟩ }

/-- FIELD (Table 16.3). -/
def fieldSect (ss : List Section) : FieldSect :=
  { dins := (recsOf ss 0x801).map fun r =>
      ⟨be r 4 1, bit (be r 5 1) 0, bit (be r 5 1) 1, be r 6 1, be r 8 1, be r 9 1⟩
    douts := (recsOf ss 0x802).map fun r => ⟨be r 4 1, bit (be r 5 1) 0, be r 6 1, be r 7 1, be r 8 1⟩
    wdogs := (recsOf ss 0x803).map fun r => ⟨be r 4 2, be r 6 2⟩ }

/-- SAFETY (Table 15.6). -/
def safetySect (ss : List Section) : SafetySect :=
  { safids := (recsOf ss 0x701).map fun r => ⟨be r 4 4, be r 8 1, be r 9 1, be r 10 1, be r 12 2, be r 16 4, be r 20 4⟩
    inputs := (recsOf ss 0x702).map fun r => ⟨be r 4 1, be r 5 1, bits (be r 6 1) 0 4, bits (be r 6 1) 4 4, be r 7 1⟩
    souts := (recsOf ss 0x703).map fun r => ⟨be r 4 1, bit (be r 5 1) 0, bit (be r 6 1) 0⟩
    functions := (recsOf ss 0x704).map fun r =>
      ⟨be r 4 1, be r 5 1, be r 6 1, be r 7 1, be r 8 2, be r 12 4, be r 16 4, (List.range 8).map fun g => be r (20 + 8 * g) 8⟩
    events := (recsOf ss 0x705).map fun r => ⟨be r 4 1, be r 5 1, bit (be r 6 1) 0, be r 7 1⟩ }

/-- CRC-32C of the SAFETY body with the bytes of PCRC taken as 0 (15_safety.md R463). -/
def pcrcOf (ss : List Section) : Nat :=
  crc32c (ss.flatMap fun x =>
    if x.entry.type = 7 then x.recs.flatMap fun r => if be r 0 2 = 0x701 then r.take 20 ++ bytesBE 4 0 ++ r.drop 24 else r else [])

/-- CAPTURE (Table 13.5). -/
def captureSect (ss : List Section) : CaptureSect :=
  { chans := (recsOf ss 0xA01).map fun r => ⟨be r 4 1, be r 8 4, be r 12 4, be r 16 4, be r 20 4⟩
    groups := (recsOf ss 0xA02).map fun r => ⟨be r 4 1, be r 8 4, be r 12 4, be r 16 4, be r 20 8, be r 28 8, be r 36 8⟩
    fires := (recsOf ss 0xA03).map fun r => (be r 4 2, be r 6 2) }

/-- MIRROR (Table 14.8). -/
def mirrorSect (ss : List Section) : MirrorSect :=
  { pairs := (recsOf ss 0xB01).map fun r => ⟨be r 4 8, be r 12 8, be r 20 2, be r 24 4⟩
    rcs := (recsOf ss 0xB02).map fun r => (be r 4 1, be r 5 1)
    words := (recsOf ss 0xB03).map fun r => ⟨be r 4 4, be r 8 2⟩ }

/-- The one record of an RTYPE as a 128-bit key. -/
def keyOf (ss : List Section) (rtype : Nat) : Option (BitVec 128) :=
  match recsOf ss rtype with
  | [r] => some (BitVec.ofNat 128 (be r 4 16))
  | _ => none

/-- RANGE (Table 3.8): MIN and MAX are sign- or zero-extended to 64 bits. -/
def rangeRec (r : List Byte) : RangeRec :=
  let q (o : Nat) : Int := if be r 10 1 = 1 then sgn 64 (be r o 8) else be r o 8
  ⟨be r 4 4, be r 8 1, be r 9 1, be r 10 1, be r 11 1, q 12, q 20, be r 28 8⟩

/-- The words of a code image. -/
def codeWords (r : List Byte) : List Word := (List.range ((r.length - 8) / 4)).map fun j => recWord r (8 + 4 * j)

/-- A section of a type is there. -/
def hasType (ss : List Section) (t : Nat) : Bool := ss.any (·.entry.type = t)

/-- A container as the Dealer of a device with OTP `o` reads it (DESIGN CHOICE, log entry 50). -/
def parseDeck (o : Otp) (raw : List Byte) : Deck :=
  let h := parseHeader raw
  let s := sigAt h
  let key := be raw s 97
  let ss := openSections o.kDeck raw
  { header := h, sects := ss.map (·.entry), raw := raw
    keyHash := Config.sha384 (bytesBE 97 key)
    sigOk := be raw (s + 97) 15 = 0 && Config.ecdsaOk (BitVec.ofNat 776 key) (Config.sha384 (raw.take (h.total - 96)))
      (BitVec.ofNat 384 (be raw (s + 112) 48)) (BitVec.ofNat 384 (be raw (s + 160) 48))
    digest := Config.sha384 raw, parseFault := parseFaultOf ss
    rounds := (recsOf ss 0x101).map fun r => ⟨be r 4 1, be r 8 4⟩
    domains := (recsOf ss 0x102).map fun r => ofBytesBE ((r.drop 4).take 2)
    flows := (recsOf ss 0x103).map fun r => ⟨be r 4 1, be r 5 1⟩
    axes := (recsOf ss 0x201).map axisRec
    graphs := (recsOf ss 0x301).map fun r => ⟨be r 4 4, be r 8 1, be r 9 1, be r 10 2, be r 12 2⟩
    inits := (recsOf ss 0x302).map fun r => ⟨be r 4 2, be r 6 2, recWord r 8⟩
    images := (recsOf ss 0x401).map fun r => ⟨be r 4 2, codeWords r⟩
    tasks := (recsOf ss 0x402).map fun r => ⟨be r 4 2, be r 6 2, be r 8 4⟩
    segs := (recsOf ss 0x501).map fun r => ⟨be r 4 1, be r 5 1, be r 6 1, be r 7 1, be r 8 1⟩
    contracts := (recsOf ss 0x502).map fun r => ⟨be r 4 1, be r 5 1, be r 6 1, be r 7 1, be r 8 4⟩
    turns := (recsOf ss 0x503).map fun r => ⟨be r 4 1, be r 5 1, be r 6 1, be r 7 1, be r 8 1, be r 9 1⟩
    nodeIds := (recsOf ss 0x504).map fun r => ⟨be r 4 1, be r 5 1, be r 8 8⟩
    mirror := if hasType ss 11 then some (mirrorSect ss) else none
    policy := ss.flatMap fun x => if x.entry.type = 9 then (splitPolicy (x.plain.length / 4) x.plain).1 else []
    ranges := (recsOf ss 0xE01).map rangeRec
    locks := (recsOf ss 0xE02).map fun r => ⟨be r 4 4, be r 8 4⟩
    fills := (recsOf ss 0xF01).map fun r => ⟨be r 4 1, BitVec.ofNat 384 (be r 8 48), be r 56 4⟩
    revokes := (recsOf ss 0xF02).map fun r => be r 4 1
    kMnr := keyOf ss 0xD01, kPr := keyOf ss 0xD02
    plant := plantSect ss, angle := angleSect ss, field := fieldSect ss
    capture := if hasType ss 10 then some (captureSect ss) else none
    safety := safetySect ss
    pcrcOk := (safetySect ss).safids.all fun r => r.pcrc = pcrcOf ss }

end Sys2Proof.Machine
end

