-- ==== Sys2Proof/Machine/Dealing.lean ====
section
/-!
DEFINITION. Dealing (03_deck.md R93 to R100, R109): the boot flash, staging, the end of dealing with its distribution or refusal, OTP
records, the store, and the mailbox that carries them (17_host_interface.md R516 to R518).
-/

namespace Sys2Proof.Machine

/-! ### Staging (R95, R96) -/

/-- The preconditions of a mailbox deck (R95). -/
def Block.mayDeal (b : Block) : Bool :=
  b.allStandstill && (b.safety.a.halves &&& b.safety.b.halves) = 0 && !b.trust.writeUnlock

/-- Dealing is shown as PHASE 0x2; a device that something other than step 3 stopped stays stopped (R38) (DEDUCED, log entry 136). -/
def Block.phaseDealing (b : Block) : Block :=
  let b : Block := { b with boot.phase := b.get DEV_BOOT_PHASE }
  if b.boot.phase = 14 ∧ b.get DEV_BOOT_FAIL_STEP ≠ 3 then b else b.setPhase 2

/-- Staging begins (R96): the dispatcher stops, every engine's work is abandoned, RWS writes are discarded, RWV writes too with
reason 0x07, motion permission is withdrawn, and the servo is FREE (18_plant_time.md Table 18.3) (DEDUCED, log entry 49). -/
def Block.startStaging (b : Block) : Block :=
  let b : Block := { b with boot.dealing := true, boot.stage := [], passed := none }
  let b := b.each 32 fun b e => (b.dropEngine e).2.modEng e fun x => { x with leftAt := none }
  let b := b.used.foldl (fun b d => b.modDesc d fun x => { x with armed := false, deferred := none }) b
  let b := (b.set DIS_STAT_SEGRUN 0).off DIS_STAT_BKG_RUN
  let lost := b.vq.map (fun w => (w.vstat, w.off)) ++ (b.valid ++ b.due).map fun f => (f.vstat, f.off)
  let b := lost.foldl (fun b v => b.wr v.1 (BitVec.ofNat 32 (7 + v.2 * 2 ^ 8))) b
  let b := if lost.isEmpty then b else b.devErr DEV_STAT_RANGE_ERR
  let b : Block := { b with shadow := [], vq := [], valid := [], due := [], safety.startLock := true }
  let b := ({ b with plant.ri := 0, plant.step := none }.setPltRate 0).setServo 0
  (b.phaseDealing.showSafety).refreshOutputs

/-! ### Distribution (R97) -/

/-- Registers that a deal builds afresh (DEDUCED, log entry 23): axes, line angle, plant unit but for its status, segments, node-position
status, flow and descriptor statistics. -/
def dealtReg (x : Nat) : Bool :=
  (0x200 ≤ x && x < 0x220) || (0x20000 ≤ x && x < 0x30000) ||
    (0x30408 ≤ x && x < 0x31400 && x ≠ 0x30804 && x ≠ 0x30C04) || (0x40000 ≤ x && x < 0x80000) ||
    (0xC0000 ≤ x && x < 0x100000) || (0x107000 ≤ x && x < 0x109000) || (0x113000 ≤ x && x < 0x120000)

/-- The domains of the deck: those to leave go off in descending order, those to come go on in ascending order
(20_clocks_power_reset.md R584) (DEDUCED, log entry 37). -/
def Block.switchDomains (b : Block) (m : Nat) : Block :=
  let off := ((List.range 12).reverse).filter fun n => !bit m n && b.domainOn n
  let on := (List.range 12).filter fun n => bit m n && !b.domainOn n
  let b := off.foldl (fun b n => b.switchDomain n false) { b with pd0.switching := [] }
  on.foldl (fun b n => b.switchDomain n true) (b.set CPR_PD_DECK m)

/-- The gates that follow the deck (20_clocks_power_reset.md Table 20.3). -/
def Block.dealGates (b : Block) (d : Deck) : Block :=
  let gate (b : Block) (g : Nat) (on : Bool) : Block := if on then b.openGate g else b.wantGate g
  let b := b.each 8 fun b s => gate b (36 + s) (d.used s || d.oddOfRing s)
  let b := b.each 2 fun b p => gate b (44 + p) (d.plant.ports.any fun r => r.port = p && bit r.cfg 0)
  let b := b.each 4 fun b k => gate b (32 + k) (bit b.cap.banks k)
  (gate b 46 d.mirror.isSome).wantGate 47

/-- The ANGLE section (04_line_angle.md R146, R135, R136). -/
def Block.loadAngle (b : Block) (a : AngleSect) : Block :=
  let b : Block := { b with ang := Reset.ang }
  let b := a.sources.foldl (fun b s =>
    let b := ((b.put ANG_CTL_RUN (bit s.flags 1)).set ANG_CTL_KIND s.kind).set ANG_CTL_INDEX s.index
    let b := ((b.put ANG_CTL_LOSS_ACT (bit s.flags 0)).set ANG_TURN_NUM s.turnNum).set ANG_TURN_DEN s.turnDen
    (b.set ANG_LOSS_TO s.lossTo).set ANG_OFFSET s.offset) b
  let b := a.extraps.foldl (fun b e =>
    ((b.set ANG_TUNE_KW_SHIFT e.kwShift).set ANG_TUNE_LOOKAHEAD e.lookahead).set ANG_RESYNC_TH e.resyncTh
      |>.set ANG_RAMP e.ramp) b
  let b := a.virtuals.foldl (fun b v => (b.set ANG_VRATE v.1).set ANG_VSLEW v.2) b
  let b := a.channels.foldl (fun b c =>
    let b := b.put ⟨aANG_CH_EN (c.channel / 32), c.channel % 32, 1⟩ c.enabled
    ((b.set (ANG_CH_CFG c.channel) c.cfg).set (ANG_CH_TIME c.channel) c.time).set (ANG_CH_HYST c.channel) c.hyst) b
  let b := (a.events.zipIdx 0).foldl (fun b e => b.addEvent e.2 e.1) b
  a.capins.foldl (fun b c =>
    if h : c.input < 8 then
      { b with ang.capCfg := b.ang.capCfg.set c.input (b2n c.rising + 2 * b2n c.falling, c.filter) }
    else b) b

/-- The FIELD section (16_field_io.md R501); the watchdog arms anew (R497). -/
def Block.loadField (b : Block) (f : FieldSect) : Block :=
  let b := (b.wr aFLD_GEN 0).wr aFLD_WDCFG 0
  let b := b.wr aFLD_DIN_IRQ 0
  let b := b.each 4 fun b g => b.wr (aFLD_DGCFG g) 0
  let b := b.each 2 fun b h => b.wr (aFLD_OGCFG h) 0
  let b := f.dins.foldl (fun b g =>
    let b := b.put ⟨aFLD_GEN, g.group, 1⟩ g.enabled
    let b := ((b.put (FLD_DGCFG_TYPE3 g.group) g.type3).set (FLD_DGCFG_FILT g.group) g.filt).set (FLD_DGCFG_WB g.group) g.wb
    b.set ⟨aFLD_DIN_IRQ, 8 * g.group, 8⟩ g.irq) b
  let b := f.douts.foldl (fun b g =>
    let b := b.put ⟨aFLD_GEN, 4 + g.group, 1⟩ g.enabled
    ((b.set (FLD_OGCFG_PAR g.group) g.par).set (FLD_OGCFG_OLD g.group) g.old).set (FLD_OGCFG_RETRY g.group) g.retry) b
  let b := f.wdogs.foldl (fun b w => (b.set FLD_WDCFG_WDTIME w.time).set FLD_WDCFG_WDMASK w.mask) b
  { b with field.wdArmed := false }.refreshOutputs

/-- The PLANT section (18_plant_time.md R551). -/
def Block.loadPlant (b : Block) (p : PlantSect) : Block :=
  let ports := Reset.plant.ports.map fun q => { q with heardAt := b.up }
  let b : Block := { b with plant := { Reset.plant with
    laSalt := b.plant.laSalt, laSeq := b.plant.laSeq, laLast := b.plant.laLast, ports := ports } }
  let b := p.ports.foldl (fun b r =>
    let b := ((b.set ⟨aPLT_P_CFG r.port, 0, 32⟩ r.cfg).set (PLT_P_TXLAT r.port) r.txlat).set (PLT_P_RXLAT r.port) r.rxlat
    (b.set (PLT_P_MAC_LO r.port) r.mac).set (PLT_P_MAC_HI r.port) (r.mac / 2 ^ 32)) b
  let b := p.clocks.foldl (fun b c =>
    ((b.set PLT_MODE c.mode).set PLT_JUMP_TH c.jumpTh).set ⟨aPLT_SERVO, 0, 32⟩ c.servo) b
  let b := p.queues.foldl (fun b q =>
    ((b.put (PLT_Q_CFG_EN q.queue) (bit q.cfg 0)).put (PLT_Q_CFG_PORT q.queue) (bit q.cfg 1)).set
      (PLT_Q_CFG_LATE_TOL q.queue) q.lateTol) b
  p.latx.foldl (fun b x =>
    ((b.on PLT_LA_CTL_EN).set PLT_LA_CTL_LAPORT x.port).set PLT_LA_CTL_RATE_DIV x.rateDiv) b

/-- AXES, LOOPS and the axis descriptors (07_axis_loop_law.md R226, 10_task_dispatch.md R308, R320). A virtual axis runs at once
(08_profiles_and_gearing.md R256). -/
def Block.loadAxes (b : Block) (d : Deck) (hands : List (Nat × Nat)) : Block :=
  let b : Block := { b with axes := [], entries := [], descs := [], flows := [] }
  let b := d.axes.foldl (fun b r => if r.kind = 3 then b.modAx r.axis fun x => { x with starting := true } else b) b
  let b := d.inits.foldl (fun b i => b.wr (0xC0000 + 0x400 * i.axis + i.off) i.value) b
  let b := d.axes.foldl (fun b r =>
    let h := sget (fun _ => 0) hands r.axis
    if r.kind = 3 ∨ h = 0 then b
    else
      let ws : Vector Word 8 := Vector.ofFn fun k : Fin 8 =>
        if k = 0 then 9 else if k = 1 then BitVec.ofNat 32 r.axis else if k = 6 then BitVec.ofNat 32 (d.lawTime r) else 0
      (b.modDesc r.axis fun _ => { Reset.desc with words := ws, cold := true }).setHand r.axis (h - 1)) b
  (b.each 32 fun b e => b.showEngine e).showUsed

/-- The whole deck takes force. Segments are stopped, windows emptied, captures forgotten, the pair dissolved until the election. -/
def Block.distribute (b : Block) (d : Deck) (pcrcA pcrcB : Nat) : Block :=
  let hands := d.hands (b.deckPool d)
  let left := (List.range 8).filter fun s => b.get (SEG_STAT_STATE s) ≠ 0
  let b : Block := { b with trust.loaded := true, trust.policy := d.policy }
  let b := b.switchDomains (d.domains.headD 0)
  let b : Block := { b.memClear 0x20000000 0x20800000 with
    dealt := some d, regs := b.regs.filter fun r => !dealtReg r.1, segs := [] }
  let b := (b.safDealt d pcrcA pcrcB).loadField d.field
  let b := ((b.loadPlant d.plant).loadAngle d.angle).loadAxes d hands
  let b := b.each 32 fun b e => if b.engineOn e then b.loadProgram e else b
  let b := (b.fwClear).capDealt
  let b : Block := { b with partner := Reset.partner }
  let b := (((b.off PTN_STAT_PAIRED).off PTN_STAT_READY).off PTN_STAT_DEGRADED).off PTN_STAT_XFER
  let b := ((b.set PTN_STAT_ROLE 0).off PLT_STAT_PARTNER).set PTN_ANG_TOL
    ((d.mirror.bind (·.pairs.head?)).map (·.angTol) |>.getD 0)
  left.foldl (fun b s => b.segIrq s 0) (b.dealGates d)

/-- The words of a hash, the first byte in [31:24] of the first word (Table 3.13). -/
def hashWord (h : BitVec 384) (j : Nat) : Word := BitVec.ofNat 32 (h.toNat / 2 ^ (32 * (11 - j)))

/-- Dealing succeeds: STATE 0x4, the deck page, record 0x0008; steps 4 to 8 follow (R95, R97): PHASE stays 0x2 until step 4. -/
def Block.succeed (b : Block) (d : Deck) (pcrcA pcrcB : Nat) : Block :=
  let b := b.distribute d pcrcA pcrcB
  let b : Block := { b with
    boot.dealing := false, boot.staging := false, boot.stage := [], boot.step3 := true, boot.step4 := false, passed := none }
  let b := if b.get DEV_BOOT_FAIL_STEP = 3 then b.set DEV_BOOT_FAIL_STEP 0 else b
  let b := b.each 12 fun b j => b.wr (aDCK_HASH j) (hashWord d.digest j)
  let b := b.set TRU_STAT_DECK_SLOT d.header.slot
  (b.setDckState 4).event 8 0 d.header.secver (hashWord d.digest 0).toNat

/-! ### Refusal (R98, R109) -/

/-- A run-time refusal that cost shared axis memory (R98): zeroed, tables empty, helpers from the actual position, axes disabled. -/
def Block.stateLost (b : Block) : Block :=
  let b := b.memClear 0x20000000 0x20800000
  let b := b.eachAxis fun b i => ((b.rcClear i).followActual i).modAx i fun x => { x with en := .off }
  let b := b.eachAxis fun b i => (b.off (AX_STAT_ENABLED i)).off (AX_CTL_ENABLE i)
  b.on DCK_STAT_STATE_LOST

/-- The bytes a staged container takes: TOTAL of its header, once that has arrived (R98). -/
def Block.stageBytes (b : Block) : Nat := if 16 ≤ b.boot.stage.length then be b.boot.stage 12 4 else b.boot.stage.length

/-- Staging ends without a deal: state in use is lost where the container did not fit beside it, and PHASE is as before, motion not
permitted. -/
def Block.unstage (b : Block) : Block :=
  let n := b.stageBytes
  let b : Block := { b with boot.dealing := false, boot.staging := false, boot.stage := [], passed := none }
  let b := match b.dealt with
    | some d => if 0x800000 < d.sharedBytes (d.hands (b.deckPool d)) + n then b.stateLost else b
    | none => b
  let b := if b.get DEV_BOOT_PHASE = 2 then b.setPhase (if b.boot.phase = 7 then 6 else b.boot.phase) else b
  b.showSafety.refreshOutputs

/-- A refusal: REASON, DCK_SECT, STATE 0x5 and record 0x0007. One at start-up is a failed step 3 (R38). -/
def Block.refuseDeck (b : Block) (c : Chk) : Block :=
  let b := if b.boot.dealing then b.unstage else b
  let b := ((b.set DCK_STAT_REASON c.reason).set DCK_SECT_SECT c.sect).set DCK_SECT_RTYPE c.rtype
  let b := (b.setDckState 5).event 7 2 (c.reason + c.sect % 16 * 2 ^ 8) c.rtype
  if b.dealt.isNone ∧ b.boot.fromFlash ∧ c.reason ≠ 0xF then b.stopStartUp 3 else b

/-! ### OTP records (R46, R47, R92, R99) -/

/-- The OTP after the records of a deck: slots filled and revoked, then the version commit; a bit
programmed stays (R43) (DEDUCED, log entry 43). -/
def Otp.program (o : Otp) (d : Deck) : Otp :=
  let o := d.fills.foldl (fun (o : Otp) f =>
    if h : f.slot < 4 then
      (if o.slots[f.slot].hash = 0 then { o with slots := o.slots.set f.slot ⟨f.hash, o.slots[f.slot].flags ||| f.flags⟩ } else o)
    else o) o
  let o := d.revokes.foldl (fun (o : Otp) k =>
    if h : k < 4 then
      { o with slots := o.slots.set k { o.slots[k] with flags := o.slots[k].flags ||| 8 } }
    else o) o
  if bit d.header.flags 0 then { o with secver := max o.secver (min 256 d.header.secver) } else o

/-- Whether a deck programs anything. -/
def Deck.programs (d : Deck) (o : Otp) : Bool := decide (o.program d ≠ o)

/-! ### The mailbox (R516 to R518) -/

/-- A mailbox command ends: reply, RESULT, DONE, source 180. -/
def Block.mbEnd (b : Block) (result : Nat) (reply : List Word) : Block :=
  let b : Block := { b with host.mb := ⟨0, 0, [], false, false, reply⟩ }
  let b := ((b.off HST_MB_STAT_BUSY).set HST_MB_STAT_RESULT result).on HST_MB_STAT_DONE
  ((b.set HST_MB_LEFT 0).set HST_MB_STAT_RWORDS reply.length).irq 180

/-- The end of the DEAL command that carried a deck, with DCK_STAT as its reply. -/
def Block.dealReply (b : Block) (result : Nat) : Block :=
  if b.host.mb.code = 0x20 ∧ b.host.mb.running then b.mbEnd result [b.rd aDCK_STAT] else b

/-- DEALING_END (R97): the checks of a container that has arrived end, in a refusal or in STATE 0x3; then the distribution ends. The
channels compute `pcrc` over their copies (15_safety.md R463). Programming OTP may fail (R99): the choice is free (DESIGN
CHOICE, log entry 114: a command for each of the two ends, so that STATE shows 0x2 and 0x3). A container too short for its fields is
refused as its header reads, with 0x01 (DESIGN CHOICE, log entry 131). -/
def execDealingEnd (pcrc : Word × Word) (s : State) : Outcome :=
  .next (
    let b := s.blk
    if ¬ b.boot.dealing ∨ b.boot.staging then s
    else
      match b.passed with
      | none =>
        let d := parseDeck s.nv.otp b.boot.stage
        match b.deckFault s.nv.otp d with
        | some c => s.onBlk fun b => (b.refuseDeck c).dealReply 3
        | none => s.onBlk fun b => { b with passed := some d }.setDckState 3
      | some d =>
        let s := s.onBlk fun b => b.succeed d pcrc.1.toNat pcrc.2.toNat
        let (f, blk) := s.blk.take
        let fails := d.programs s.nv.otp && Config.freeBool f
        let otp := if fails then s.nv.otp else s.nv.otp.program d
        let blk := if fails then (blk.on DCK_STAT_OTP_ERR).irq 2 |>.event 9 2 0x640 0 else blk
        { s with nv := { s.nv with otp := otp }, blk := (blk.set DCK_SECVER otp.secver).dealReply 0 })

/-- A word of a byte stream is taken as an argument; the last one runs the command (R516, R517). -/
def State.mbArg (s : State) (w : Word) : State :=
  let m := s.blk.host.mb
  if ¬ m.waiting then s.onBlk fun b => b.on HST_MB_STAT_DROP
  else
    let left := s.blk.get HST_MB_LEFT - 1
    let s := s.onBlk fun b => b.set HST_MB_LEFT left
    if m.code = 0x20 then
      let s := s.onBlk fun b =>
        let b := if b.boot.dealing then b else { b with boot.staging := true, boot.fromFlash := false }.startStaging.setDckState 2
        { b with boot.stage := b.boot.stage ++ bytesBE 4 w.toNat }
      if left = 0 then
        s.onBlk fun b => { b with host.mb.waiting := false, host.mb.running := true, boot.staging := false }
      else s
    else
      let ws := m.args ++ [w]
      let s := s.onBlk fun b => { b with host.mb.args := ws }
      if left ≠ 0 then s
      else
        -- PROVISION (R45)
        let key := BitVec.ofNat 256 (wordsNat ws 13 8)
        let (n, b) := s.blk.take
        let nonce := BitVec.ofNat 96 (Config.random n).toNat
        let slot : KeySlot := ⟨BitVec.ofNat 384 (wordsNat ws 0 12), wordsNat ws 12 1⟩
        { s with
          nv := { s.nv with otp := { s.nv.otp with
            slots := s.nv.otp.slots.set 0 slot, wrapped := s.nv.otp.wrapKey key nonce, provisioned := true } }
          blk := (b.on TRU_STAT_PROVISIONED).mbEnd 0 [] }

/-- A command awaiting arguments is aborted: staged words are discarded, and the device is as after a refusal (R518). -/
def Block.mbAbort (b : Block) : Block :=
  let b := if b.boot.dealing then b.unstage.setDckState (if b.dealt.isSome then 4 else 6) else b
  b.mbEnd 5 []

/-- DEAL is refused with reason 0x0F (R95). One that finds a deck from flash being dealt leaves STATE to that deck (DESIGN CHOICE, log
entry 116) (DESIGN CHOICE, log entry 116). -/
def Block.refuseDeal (b : Block) : Block :=
  if b.boot.dealing then (b.set DCK_STAT_REASON 0xF).event 7 2 0xF 0 else b.refuseDeck ⟨0xF, 0, 0, false⟩

/-- A write of HST_MB_CMD (R516 to R518, Table 17.8). -/
def State.mbCmd (s : State) (v : Nat) : State :=
  let code := bits v 0 8
  let len := bits v 8 21
  let m := s.blk.host.mb
  if s.blk.flag HST_MB_STAT_BUSY then
    s.onBlk fun b => if code = 0 ∧ len = 0 ∧ m.waiting then b.mbAbort else b.on HST_MB_STAT_OVR
  else
    let start (b : Block) : Block := (b.on HST_MB_STAT_BUSY).set HST_MB_LEFT len
    let s := s.onBlk fun b => { start b with host.mb := ⟨code, len, [], false, false, []⟩ }
    let wait (b : Block) : Block := { b with host.mb.waiting := true }
    match code with
    | 0x00 => s.onBlk fun b => if len = 0 then b.mbEnd 0 [] else b.mbEnd 2 []
    | 0x01 => s.onBlk fun b => if len = 0 then b.mbEnd 0 [Config.romVersion, 1] else b.mbEnd 2 []
    | 0x10 =>
      if s.nv.otp.provisioned then s.onBlk fun b => b.mbEnd 4 []
      else s.onBlk fun b => if len = 21 then wait b else b.mbEnd 2 []
    | 0x20 => s.onBlk fun b =>
        if len = 0 then b.mbEnd 2 []
        else if b.mayDeal ∧ ¬ b.boot.dealing then wait b
        else
          let b := b.refuseDeal
          b.mbEnd 3 [b.rd aDCK_STAT]
    | 0x21 => s.onBlk fun b =>
        if len ≠ 0 then b.mbEnd 2 []
        else if b.get DCK_STAT_STATE ≠ 4 then b.mbEnd 3 [b.rd aDCK_STAT]
        else { b.setDckState 7 with host.mb.running := true }
    | _ => s.onBlk fun b => b.mbEnd 1 []

/-- A read of HST_MB_REPLY pops one word, 0 when empty. -/
def Block.mbReply (b : Block) : Word × Block :=
  match b.host.mb.reply with
  | [] => (0, b)
  | w :: t => (w, { b with host.mb.reply := t }.set HST_MB_STAT_RWORDS t.length)

/-! ### The boot flash (R93, R94) -/

/-- A descriptor is valid (R93). -/
def FlashDesc.valid (x : FlashDesc) : Bool := x.magic = 0x4C58534C && x.crcOk

/-- A byte of the boot flash; an erased one reads 0xFF (PRESUMED, log entry 130). -/
def NonVol.flashByte (nv : NonVol) (a : Nat) : Byte := sget (fun _ => 0xFF) nv.flash a

/-- `n` bytes of the boot flash from address `a`. -/
def NonVol.flashBytes (nv : NonVol) (a n : Nat) : List Byte := (List.range n).map fun k => nv.flashByte (a + k)

/-- Where a slot begins. -/
def slotBase (k : Nat) : Nat := if k = 0 then 0 else 0x500000

/-- The descriptor of a slot, big-endian. -/
def NonVol.flashDesc (nv : NonVol) (k : Nat) : FlashDesc :=
  let bs := nv.flashBytes (slotBase k) 16
  ⟨be bs 0 4, be bs 4 4, be bs 8 4, be bs 12 4 = crc32 (bs.take 12)⟩

/-- The container a slot's descriptor tells of. -/
def NonVol.flashDeck (nv : NonVol) (k : Nat) : List Byte := nv.flashBytes (slotBase k + 0x1000) (nv.flashDesc k).length

/-- The bytes of a descriptor with its CRC-32. -/
def descBytes (seq length : Nat) : List Byte :=
  let bs := bytesBE 4 0x4C58534C ++ bytesBE 4 seq ++ bytesBE 4 length
  bs ++ bytesBE 4 (crc32 bs)

/-- The flash with bytes written from address `a`. -/
def flashWrite (m : List Host.Cell) (a : Nat) (bs : List Byte) : List Host.Cell :=
  bs.zipIdx.foldl (fun m p => sput (fun _ => 0xFF) m (a + p.2) p.1) m

/-- The flash with a slot erased. -/
def flashErase (m : List Host.Cell) (k : Nat) : List Host.Cell :=
  m.filter fun c => c.1 < slotBase k || slotBase k + 0x500000 ≤ c.1

/-- The slot the Dealer deals: the valid one whose SEQ is later, A when they are equal. -/
def NonVol.flashChoice (nv : NonVol) : Option Nat :=
  let a := nv.flashDesc 0
  let b := nv.flashDesc 1
  if a.valid ∧ b.valid then (if laterThan 32 b.seq a.seq then some 1 else some 0)
  else if a.valid then some 0
  else if b.valid then some 1
  else none

/-- Step 3 begins with step 1 over (R35): the Dealer chooses a slot and begins to read it, STATE 0x1. With MODE[2] the deck comes through
the mailbox (20_clocks_power_reset.md Table 20.6). -/
def State.beginFlash (s : State) : State :=
  s.onBlk fun b =>
    let b := { b with boot.step1 := true }.setPhase 2
    if bit (b.get CPR_STRAP) 2 then b.setDckState 6
    else
      let b : Block := { b.setDckState 1 with boot.fromFlash := true }
      match s.nv.flashChoice with
      | none => b.refuseDeck ⟨0x15, 0, 0, false⟩
      | some k =>
        let seq := (s.nv.flashDesc k).seq
        let b := ((b.set DCK_FLASH_SLOT k).on DCK_FLASH_VALID).set DCK_SEQ seq
        let b : Block := { b with boot.flashSlot := k, boot.flashSeq := seq, boot.staging := true }
        b.startStaging

/-- DECK_FLASH_READ (R93): the read begins once PD1 and PD7 are on, and ends with the container staged, STATE 0x2 (DESIGN CHOICE, log entry
114: a command for each) (DESIGN CHOICE, log entry 114). -/
def execDeckFlashRead (s : State) : Outcome :=
  .next (
    let b := s.blk
    if b.boot.dealing ∧ b.boot.staging ∧ b.boot.fromFlash then
      s.onBlk fun b => { b with boot.staging := false, boot.stage := s.nv.flashDeck b.boot.flashSlot }.setDckState 2
    else if ¬ b.boot.released ∨ b.get DEV_BOOT_PHASE ≠ 1 ∨ b.boot.step3 ∨ b.boot.dealing ∨ ¬ b.domainOn 1 ∨ ¬ b.domainOn 7 then s
    else s.beginFlash)

/-- STORE_DONE (R94): the deck dealt is in the slot that was not in use, SEQ one greater; a store that fails leaves that slot without a
descriptor (DEDUCED, log entry 47). -/
def execStoreDone (ok : Bool) (s : State) : Outcome :=
  .next (
    if s.blk.get DCK_STAT_STATE ≠ 7 then s
    else
      let reply (b : Block) : Block := if b.host.mb.code = 0x21 ∧ b.host.mb.running then b.mbEnd 0 [b.rd aDCK_STAT] else b
      let used := s.blk.get DCK_FLASH_SLOT
      let k := if s.blk.flag DCK_FLASH_VALID ∧ used = 0 then 1 else 0
      let seq := (s.blk.get DCK_SEQ + 1) % 2 ^ 32
      let m := flashErase s.nv.flash k
      match s.blk.dealt with
      | some d =>
        if ok then
          let m := flashWrite (flashWrite m (slotBase k + 0x1000) d.raw) (slotBase k) (descBytes seq d.bytes)
          { s with
            nv := { s.nv with flash := m }
            blk := reply ((((s.blk.set DCK_FLASH_SLOT k).on DCK_FLASH_VALID).set DCK_SEQ seq).setDckState 4) }
        else
          { s with
            nv := { s.nv with flash := m }
            blk := reply (((s.blk.on DCK_STAT_STORE_ERR).irq 2).setDckState 4) }
      | none => s)

/-! ### Start-up steps that overrun (01_dealer_and_helpers.md R38) -/

/-- START_UP_STEP_OVERRUN (R38): a step has not completed by its bound. Steps 1 and 2 stop start-up; step 3 does too, the deck refused
with reason 0x13 (03_deck.md R100), and the Dealer awaits one through the mailbox; step 4 ends with its first row (Table 14.3). A segment
that is late in step 5 retries under START_TIMEOUT, and the record names the step (DEDUCED, log entry 36). Of step 6 the manual gives no
outcome: the record is written and the switch goes on (DESIGN CHOICE, log entry 127). -/
def execStartUpStepOverrun (step : Fin 7) (s : State) : Outcome :=
  .next (s.onBlk fun b =>
    if ¬ b.boot.released then b
    else match step.1 with
      | 1 => if b.boot.step1 then b else b.stopStartUp 1
      | 2 => if b.boot.step2 ∧ ¬ b.field.linkLost then b else b.stopStartUp 2
      | 3 => if b.boot.step3 ∨ ¬ b.boot.dealing ∨ ¬ b.boot.fromFlash then b else b.refuseDeck ⟨0x13, 0, 0, false⟩
      | 4 => if b.partner.electing.isSome then b.endElection 0 1 false else b
      | 5 => if b.get DEV_BOOT_PHASE = 4 then b.event 6 2 5 (b.rd aDEV_BOOT).toNat else b
      | 6 => if b.get DEV_BOOT_PHASE = 5 then b.event 6 2 6 (b.rd aDEV_BOOT).toNat else b
      | _ => b)

end Sys2Proof.Machine
end

