-- ==== Sys2Proof/Machine/Flags.lean ====
section
/-!
DEFINITION. Arithmetic of the loop engines with its flags (11_loop_engine_model.md R346 to R352): products, accumulator
saturation with Sn and AV, fractional and integer stores with SV, exponents for BX.
-/

namespace Sys2Proof.Machine

/-- The limits of an accumulator (R348). -/
def accMax : Int := 2 ^ 79 - 1
/-- The negative limit of an accumulator (R348). -/
def accMin : Int := -(2 ^ 79)

/-- A product of two words: fractional, shifted left by one, or integer (R346). -/
def product (int : Bool) (x y : Word) : Int := if int then x.toInt * y.toInt else x.toInt * y.toInt * 2

/-- The signed value of accumulator `n`. -/
def ERegs.acc (r : ERegs) (n : Fin 4) : Int := r.a[n].toInt

/-- Accumulator `n` takes a value that begins a sum: Sn clears (R347). -/
def ERegs.beginSum (r : ERegs) (n : Fin 4) (v : Int) : ERegs :=
  { r with a := r.a.set n (BitVec.ofInt 80 v), sat := r.sat.set n false }

/-- Accumulator `n` takes a value within its sum: while Sn is 1 it stays at its limit; a value beyond 80 bits gives the limit of
its sign, Sn and AV (R348). The second answer says that it saturated now. -/
def ERegs.inSum (r : ERegs) (n : Fin 4) (v : Int) : ERegs × Bool :=
  if r.sat[n] then (r, false)
  else if accMin ≤ v ∧ v ≤ accMax then ({ r with a := r.a.set n (BitVec.ofInt 80 v) }, false)
  else
    ({ r with a := r.a.set n (BitVec.ofInt 80 (if v < 0 then accMin else accMax)), sat := r.sat.set n true, av := true },
      true)

/-- The word a fractional store writes, and whether it saturated (R349). -/
def fracStore (a : Int) : Word × Bool :=
  let v := a + 2 ^ 31
  if -(2 ^ 63) ≤ v ∧ v < 2 ^ 63 then (BitVec.ofInt 32 (v / 2 ^ 32), false)
  else (if a < 0 then 0x80000000 else 0x7FFFFFFF, true)

/-- The words an integer store writes, low word first, and whether it saturated (R349). -/
def intStore (a : Int) : Word × Word × Bool :=
  if -(2 ^ 63) ≤ a ∧ a < 2 ^ 63 then (BitVec.ofInt 32 a, BitVec.ofInt 32 (a / 2 ^ 32), false)
  else if a < 0 then (0, 0x80000000, true) else (0xFFFFFFFF, 0x7FFFFFFF, true)

/-- Leading bits of a non-negative number below bit `w` that are 0. -/
def leadZeros : Nat → Nat → Nat
  | 0, _ => 0
  | w + 1, n => if n.testBit w then 0 else 1 + leadZeros w n

/-- The exponent of a word (R351): bits below bit 31 that equal it. -/
def wordExp (x : Word) : Int := leadZeros 31 (if x.toInt < 0 then (-1 - x.toInt).toNat else x.toNat)

/-- The exponent of an accumulator (R351): bits below bit 79 that equal it, less 16. -/
def accExp (a : Int) : Int := (leadZeros 79 (if a < 0 then (-1 - a).toNat else a.toNat) : Int) - 16

/-- A scan (R352). -/
def ERegs.scan (r : ERegs) (x : Int) : ERegs := { r with bx := min r.bx x }

/-- An arithmetic shift of an accumulator value (R388): positive left, negative right with the sign copied. -/
def shiftAcc (a s : Int) : Int := if 0 ≤ s then a * 2 ^ s.toNat else a / 2 ^ (-s).toNat

/-- A shift count from a register, clamped to -80 to +80 (Table 12.6). -/
def shiftCount (g : Word) : Int := clampI (-80) 80 g.toInt

/-- The integer operations of R389, by OP. -/
def intOp (op : Nat) (x y : Word) : Word :=
  match op with
  | 0 => x + y
  | 1 => x - y
  | 2 => x &&& y
  | 3 => x ||| y
  | 4 => x ^^^ y
  | 5 => x <<< (y.toNat % 32)
  | 6 => x >>> (y.toNat % 32)
  | 7 => x.sshiftRight (y.toNat % 32)
  | 8 => if x.toInt ≤ y.toInt then x else y
  | _ => if x.toInt ≤ y.toInt then y else x

/-- The tests of a BC (Table 12.10) on a signed value. -/
def signTest (k : Nat) (v : Int) : Bool :=
  match k with
  | 0 => v = 0
  | 1 => v ≠ 0
  | 2 => v < 0
  | 3 => 0 ≤ v
  | 4 => 0 < v
  | _ => v ≤ 0

end Sys2Proof.Machine
end

