-- ==== Sys2Proof/Machine/Operands.lean ====
section
/-!
DEFINITION. Operands of loop engine instructions: register codes (12_loop_engine_instructions.md R380, Table 12.2), pointers and
their updates (11_loop_engine_model.md R354 to R357), the rights on the banks (R340), effects of an instruction on them.
-/

namespace Sys2Proof.Machine

/-! ### Register codes -/

/-- SR as a word (Table 11.2). -/
def ERegs.sr (r : ERegs) : Word :=
  BitVec.ofNat 32 (b2n r.av + 2 * b2n r.sv + 4 * b2n r.sat[0] + 8 * b2n r.sat[1] + 16 * b2n r.sat[2] + 32 * b2n r.sat[3] +
    r.reps.length % 8 * 2 ^ 6 + r.rets.length % 16 * 2 ^ 9 + b2n r.extrap * 2 ^ 13 + b2n r.cold * 2 ^ 14 +
    b2n r.bkg * 2 ^ 15)

/-- The word a register code reads (R380); none for a reserved code. -/
def ERegs.read (r : ERegs) (code : Nat) : Option Word :=
  match code with
  | 0x00 => some r.x[0]
  | 0x01 => some r.x[1]
  | 0x02 => some r.y[0]
  | 0x03 => some r.y[1]
  | 0x24 => some r.pa
  | 0x2C => some r.sr
  | 0x2D => some (BitVec.ofInt 32 r.bx)
  | _ =>
    if 0x08 ≤ code ∧ code < 0x10 then r.g.toList[code - 0x08]?
    else if 0x10 ≤ code ∧ code < 0x18 then r.p.toList[code - 0x10]?.map fun v => v.zeroExtend 32
    else if 0x18 ≤ code ∧ code < 0x1C then r.d.toList[code - 0x18]?.map fun v => v.signExtend 32
    else if 0x20 ≤ code ∧ code < 0x24 then r.w.toList[code - 0x20]?
    else if 0x28 ≤ code ∧ code < 0x2C then r.fa.toList[code - 0x28]?
    else if 0x30 ≤ code ∧ code < 0x40 then
      let a : BitVec 80 := r.a.toList.getD ((code - 0x30) / 4) 0
      match code % 4 with
      | 0 => some (a.truncate 32)
      | 1 => some ((a >>> 32).truncate 32)
      | 2 => some (((a >>> 64).truncate 16).signExtend 32)
      | _ => none
    else none

/-- A window value that R356 allows, low bits cleared. -/
def windowOk (v : Nat) : Bool :=
  let base := v % 2 ^ 16 / 4 * 4
  let len : Nat := v / 2 ^ 16 / 4 * 4
  decide (len ≤ 32768) && decide (base + len ≤ 0x10000)

/-- No pointer in mode 3 (R355). -/
def attachOk (v : Nat) : Bool := (List.range 8).all fun k => bits v (4 * k + 2) 2 ≠ 3

/-- Bits [1:0] cleared (R337). -/
def aligned16 (v : Nat) : BitVec 16 := BitVec.ofNat 16 (v / 4 * 4)

/-- An accumulator part written (R380); each write begins a sum. -/
def ERegs.writePart (r : ERegs) (n : Fin 4) (part : Nat) (v : Word) : Option ERegs :=
  let a := r.a[n]
  let lo := a.toNat % 2 ^ 32
  let hi : Nat := a.toNat / 2 ^ 32 % 2 ^ 32
  let g : Nat := a.toNat / 2 ^ 64
  let put (x : Nat) : Option ERegs := some { r with a := r.a.set n (BitVec.ofNat 80 x), sat := r.sat.set n false }
  match part with
  | 0 => put (g * 2 ^ 64 + hi * 2 ^ 32 + v.toNat)
  | 1 => some (r.beginSum n (v.toInt * 2 ^ 32))
  | 2 => put (v.toNat % 2 ^ 16 * 2 ^ 64 + hi * 2 ^ 32 + lo)
  | _ => none

/-- A register code written (R380, R355, R356); none where that is fault 0x01. -/
def ERegs.write (r : ERegs) (code : Nat) (v : Word) : Option ERegs :=
  match code with
  | 0x00 => some { r with x := r.x.set 0 v }
  | 0x01 => some { r with x := r.x.set 1 v }
  | 0x02 => some { r with y := r.y.set 0 v }
  | 0x03 => some { r with y := r.y.set 1 v }
  | 0x24 => if attachOk v.toNat then some { r with pa := v } else none
  | 0x2C => some { r with av := bit v.toNat 0, sv := bit v.toNat 1 }
  | 0x2D => some { r with bx := clampI (-16) 63 v.toInt }
  | _ =>
    if h : 0x08 ≤ code ∧ code < 0x10 then some { r with g := r.g.set (code - 0x08) v (by omega) }
    else if h : 0x10 ≤ code ∧ code < 0x18 then some { r with p := r.p.set (code - 0x10) (aligned16 v.toNat) (by omega) }
    else if h : 0x18 ≤ code ∧ code < 0x1C then some { r with d := r.d.set (code - 0x18) (aligned16 v.toNat) (by omega) }
    else if h : 0x20 ≤ code ∧ code < 0x24 then
      if windowOk v.toNat then some { r with w := r.w.set (code - 0x20) (v &&& 0xFFFCFFFC) (by omega) } else none
    else if h : 0x28 ≤ code ∧ code < 0x2C then some { r with fa := r.fa.set (code - 0x28) v (by omega) }
    else if h : 0x30 ≤ code ∧ code < 0x40 then r.writePart ⟨(code - 0x30) / 4, by omega⟩ (code % 4) v
    else none

/-! ### Pointers -/

/-- Bit-reversed addition on bits [15:2] (R355). -/
def revAdd (p d : Nat) (neg : Bool) : Nat :=
  let x := revBits 14 (p / 4)
  let y := revBits 14 (d / 4 % 2 ^ 14)
  revBits 14 ((if neg then x + 2 ^ 14 - y else x + y) % 2 ^ 14) * 4

/-- Pointer `k` after the update `upd` (R354 to R357); none where that is fault 0x01. -/
def ERegs.step (r : ERegs) (k : Fin 8) (upd : Nat) : Option (BitVec 16) :=
  let p := r.p[k]
  let lane : Fin 4 := ⟨bits r.pa.toNat (4 * k.1) 2, by unfold bits; omega⟩
  let mode := bits r.pa.toNat (4 * k.1 + 2) 2
  let d : Int := r.d[lane].toInt
  let delta : Option Int := match upd with
    | 1 => some 4
    | 2 => some (-4)
    | 3 => some d
    | 4 => some (-d)
    | _ => none
  if upd = 0 then some p
  else match delta with
    | none => none
    | some s =>
      match mode with
      | 0 => some (BitVec.ofInt 16 (p.toNat + s))
      | 1 =>
        let base : Nat := r.w[lane].toNat % 2 ^ 16
        let len : Nat := r.w[lane].toNat / 2 ^ 16
        if len = 0 then none
        else
          let o : Nat := (p.toNat + 2 ^ 16 - base) % 2 ^ 16 % len
          some (BitVec.ofInt 16 (base + ((o : Int) + s) % len))
      | 2 => if upd = 3 ∨ upd = 4 then some (BitVec.ofNat 16 (revAdd p.toNat r.d[lane].toNat (upd = 4)))
        else some (BitVec.ofInt 16 (p.toNat + s))
      | _ => none

/-- The registers an access through pointer `k` uses. -/
def ERegs.uses (r : ERegs) (k : Fin 8) : List Nat :=
  let lane := bits r.pa.toNat (4 * k.1) 2
  [0x10 + k.1, 0x18 + lane, 0x20 + lane, 0x24]

/-! ### Effects of an instruction -/

/-- What an instruction does: the registers after it, bank words read and written (true for the Y bank), whether an
accumulator or a store saturated, its fault, and where it goes on when not at the next instruction. -/
structure Eff where
  regs : ERegs
  reads : List (Bool × Nat)
  writes : List (Bool × Nat × Word)
  aov : Bool
  sov : Bool
  fault : Option Nat
  goto : Option Nat
  deriving DecidableEq, Repr

/-- Nothing done yet. -/
def Eff.start (r : ERegs) : Eff := ⟨r, [], [], false, false, none, none⟩

/-- The instruction raises an engine fault; the first stands. -/
def Eff.fail (x : Eff) (code : Nat) : Eff := { x with fault := some (x.fault.getD code) }

/-- A register write, or fault 0x01. -/
def Eff.setReg (x : Eff) (code : Nat) (v : Word) : Eff :=
  match x.regs.write code v with
  | some r => { x with regs := r }
  | none => x.fail 1

/-- Pointer `k` takes its update, from the values `r` held before the instruction. -/
def Eff.bump (x : Eff) (r : ERegs) (k : Fin 8) (upd : Nat) : Eff :=
  match r.step k upd with
  | some p => { x with regs := { x.regs with p := x.regs.p.set k p } }
  | none => x.fail 1

/-- Accumulator `n` takes a value within its sum. -/
def Eff.sum (x : Eff) (n : Fin 4) (v : Int) : Eff :=
  let (r, o) := x.regs.inSum n v
  { x with regs := r, aov := x.aov || o }

/-- Accumulator `n` takes a value that begins a sum. -/
def Eff.begin (x : Eff) (n : Fin 4) (v : Int) : Eff := { x with regs := x.regs.beginSum n v }

/-- A word is scanned where `on` says so (DEDUCED, log entry 80). -/
def Eff.scanWord (x : Eff) (on : Bool) (w : Word) : Eff := if on then { x with regs := x.regs.scan (wordExp w) } else x

/-- A bank word is stored, and scanned as written. -/
def Eff.store (x : Eff) (y : Bool) (a : Nat) (w : Word) (scn : Bool) : Eff :=
  { x with writes := x.writes ++ [(y, a, w)] }.scanWord scn w

/-- A store saturated. -/
def Eff.satStore (x : Eff) (o : Bool) : Eff := if o then { x with sov := true, regs := { x.regs with sv := true } } else x

/-- A fractional store of an accumulator value. -/
def Eff.storeFrac (x : Eff) (y : Bool) (a : Nat) (v : Int) (scn : Bool) : Eff :=
  let (w, o) := fracStore v
  (x.store y a w scn).satStore o

/-- A bank word is read. -/
def Eff.load (x : Eff) (y : Bool) (a : Nat) : Eff := { x with reads := x.reads ++ [(y, a)] }

/-- The bank of a pointer: Y from P4 on. -/
def bankY (k : Fin 8) : Bool := decide (4 ≤ k.1)

/-- The present address of a pointer. -/
def ERegs.addr (r : ERegs) (k : Fin 8) : Nat := r.p[k].toNat

/-- The second address of a pair access (R383): the pointer after a +4 update. -/
def ERegs.addr2 (r : ERegs) (k : Fin 8) : Option Nat := (r.step k 1).map (·.toNat)

/-! ### Rights on the banks (Table 11.3) -/

/-- Whether a task may write a bank word: `law` for an instruction fetched below 0x4000, `cyc` for a cyclic task. -/
def mayWrite (law cyc y : Bool) (a : Nat) : Bool :=
  if a < 0x4000 then law
  else if a < 0xC000 then cyc
  else if y then !cyc
  else decide (a < 0xFE00) && !cyc

/-- Whether a task may read a bank word. -/
def mayRead (y : Bool) (a : Nat) : Bool := y || !(0xFE00 ≤ a && a < 0xFFE0)

/-- Fabric address of a bank word of engine `e` (R371). -/
def bankAddr (e : Nat) (y : Bool) (a : Nat) : Nat := engBase e + (if y then 0x20000 else 0x10000) + a

/-- A bank word. -/
def Block.bank (b : Block) (e : Nat) (y : Bool) (a : Nat) : Word := Memory.readWord b.mem (bankAddr e y a)

/-- A bank word written. -/
def Block.setBank (b : Block) (e : Nat) (y : Bool) (a : Nat) (v : Word) : Block :=
  b.memPut (bankAddr e y a) v

end Sys2Proof.Machine
end

