-- ==== Sys2Proof/Machine/EngineWord.lean ====
section
/-!
DEFINITION. The instruction words of the loop engines: the layouts of 12_loop_engine_instructions.md R378 to R394, the words that none of
them spells (R379), the word that stands at an engine's program counter.
-/

namespace Sys2Proof.Machine

/-- Class 0x0 (R394, Table 12.9): the operation in [27:24], its fields in [23:0]. -/
def controlWord (op field : Nat) : Word := BitVec.ofNat 32 (op * 2 ^ 24 + field)

/-- Class 0x1 (R387): OP, An, Am, the index of Gi and IMM. -/
def accWord (op : Nat) (n m : Fin 4) (g : Fin 8) (imm : Nat) : Word :=
  BitVec.ofNat 32 (1 * 2 ^ 28 + op * 2 ^ 24 + n.1 * 2 ^ 22 + m.1 * 2 ^ 20 + g.1 * 2 ^ 16 + imm)

/-- Class 0x2 (R389): OP, Gd, Gs, IMM and the immediate or the index of Gt. -/
def integerWord (op : Nat) (d g : Fin 8) (imm : Bool) (v : BitVec 16) : Word :=
  BitVec.ofNat 32 (2 * 2 ^ 28 + op * 2 ^ 24 + d.1 * 2 ^ 21 + g.1 * 2 ^ 18 + b2n imm * 2 ^ 17 + v.toNat)

/-- Class 0x3 (R390): HI, the register code and IMM. -/
def immediateWord (hi : Bool) (code : BitVec 7) (imm : BitVec 16) : Word :=
  BitVec.ofNat 32 (3 * 2 ^ 28 + b2n hi * 2 ^ 27 + code.toNat * 2 ^ 20 + imm.toNat)

/-- Class 0x4 (R391): the destination and the source code. -/
def moveWord (dst src : BitVec 7) : Word := BitVec.ofNat 32 (4 * 2 ^ 28 + dst.toNat * 2 ^ 20 + src.toNat * 2 ^ 13)

/-- Class 0x5 (R392): OP, the register code or the number of An, Pk, UPD and SCN. -/
def bankForm (op code : Nat) (k : Fin 8) (upd : BitVec 3) (scn : Bool) : Word :=
  BitVec.ofNat 32 (5 * 2 ^ 28 + op * 2 ^ 24 + code * 2 ^ 16 + k.1 * 2 ^ 13 + upd.toNat * 2 ^ 10 + b2n scn * 2 ^ 9)

/-- Class 0x6 (R393): OP, FAi, FUPD, the register code or the number of An, Pk, UPD and SCN. -/
def fabricForm (op : Nat) (i fupd : Fin 4) (code : Nat) (k : Fin 8) (upd : BitVec 3) (scn : Bool) : Word :=
  BitVec.ofNat 32 (6 * 2 ^ 28 + op * 2 ^ 24 + i.1 * 2 ^ 22 + fupd.1 * 2 ^ 20 + code * 2 ^ 13 + k.1 * 2 ^ 10 + upd.toNat * 2 ^ 7 +
    b2n scn * 2 ^ 6)

/-- An M-format word (Table 12.3). -/
def multiplyForm (aop : Nat) (men : BitVec 4) (rt : Fin 4) (int : Bool) (xm ym : BitVec 10) (scn : Bool) : Word :=
  BitVec.ofNat 32 (2 ^ 31 + men.toNat * 2 ^ 27 + aop * 2 ^ 25 + rt.1 * 2 ^ 23 + b2n int * 2 ^ 22 + xm.toNat * 2 ^ 12 + ym.toNat * 2 ^ 2 +
    b2n scn * 2)

/-- The operation codes of classes 0x0 to 0x6, each with the bits of [23:0] that belong to its fields (Tables 12.6 to 12.9, R387 to
R393); class 0x3 holds a register code in [26:24] too, class 0x4 as well. -/
def wordForms : List (Nat × Nat) :=
  [(0x00, 0), (0x01, 0xFFFF), (0x02, 0xFFFFFF), (0x03, 0xFFFF), (0x04, 0), (0x05, 0xFFFFFF), (0x06, 0xFF0007), (0x07, 0), (0x08, 0),
    (0x09, 0), (0x0A, 0), (0x0B, 0)] ++
  [(0x10, 0xC00000), (0x11, 0xF00000), (0x12, 0xF00000), (0x13, 0xF00000), (0x14, 0xF00000), (0x15, 0xC00000), (0x16, 0xC00000),
    (0x17, 0xC0007F), (0x18, 0xC70000), (0x19, 0x070000), (0x1A, 0xC00000), (0x1B, 0xC00000)] ++
  (List.range 10).map (fun j => (0x20 + j, 0xFEFFFF)) ++ (List.range 16).map (fun j => (0x30 + j, 0xF0FFFF)) ++
  (List.range 8).map (fun j => (0x40 + j, 0xFFE000)) ++
  [(0x50, 0x7FFE00), (0x51, 0x7FFE00)] ++ (List.range 6).map (fun j => (0x52 + j, 0x03FE00)) ++
  [(0x60, 0xFFE040), (0x61, 0xFFE040), (0x62, 0xF06040), (0x63, 0xF06040), (0x64, 0xF01FC0), (0x65, 0xF01FC0)]

/-- An operation spells the word: no reserved operation code and no bit of a reserved or unused field set (R379). -/
def spelled (w : Word) : Bool :=
  if w.getLsbD 31 then !w.getLsbD 0 && bits w.toNat 25 2 ≠ 3
  else wordForms.any fun f => f.1 = w.toNat / 2 ^ 24 && w.toNat % 2 ^ 24 ||| f.2 = f.2

/-- The word that engine `e` fetches at its program counter. -/
def Block.wordAt (b : Block) (e : Nat) : Word := Memory.readWord b.mem (engBase e + (b.eng e).regs.pc.toNat)

/-- An IMAGE record of the deck covers program address `a` (R379). -/
def Block.imaged (b : Block) (a : Nat) : Bool :=
  b.dealt.any fun d => d.images.any fun m => decide (m.addr ≤ a) && decide (a < m.addr + 4 * m.words.length)

end Sys2Proof.Machine
end

