-- ==== Sys2Proof/Machine/EngineCore.lean ====
section
/-!
DEFINITION. How a loop engine carries out an instruction (11_loop_engine_model.md R359 to R374): stalls on fabric data, checks of
banks and fetches, faults, repeats and the next instruction. A command of this family issues its word on engine `e`, where a
microcode task or hook runs that has come to that word; elsewhere it changes nothing (DESIGN CHOICE, log entry 21).
-/

namespace Sys2Proof.Machine

/-- A microcode task or a hook runs on engine `e`. -/
def Block.runsCode (b : Block) (e : Nat) : Bool :=
  (b.eng e).run.any fun r => r.stage = .code || r.stage = .hook1 || r.stage = .hook2

/-- The running task is of the cyclic class. -/
def Block.runsCyclic (b : Block) (e : Nat) : Bool := (b.eng e).run.any fun r => (b.desc r.inst.desc).cyclic

/-- Parts of an accumulator count as the accumulator. -/
def regKey (code : Nat) : Nat := if 0x30 ≤ code ∧ code < 0x40 then 0x30 + (code - 0x30) / 4 * 4 else code

/-- A pending load keeps an instruction waiting that names a register of `codes` or a bank word of `words` it is still to
write (Table 11.5, R393). -/
def Load.blocks (l : Load) (codes : List Nat) (words : List (Bool × Nat)) : Bool :=
  !l.held &&
    ((match l.dest with
      | .reg c => codes.any fun k => regKey k = regKey c
      | .acc n => codes.any fun k => regKey k = 0x30 + 4 * n.1
      | .bank y a _ => words.any fun w => w.1 = y && (List.range 8).any fun j => w.2 = (a + 4 * j) % 2 ^ 16) ||
      (l.scan && codes.contains 0x2D))

/-- The repeat stack and the program counter after an instruction that is not a branch (R359, R360). -/
def nextInstr (pc : Nat) : List Repeat → List Repeat × Nat
  | [] => ([], (pc + 4) % 2 ^ 16)
  | x :: t =>
    if x.fin = pc then (if 1 < x.count then ({ x with count := x.count - 1 } :: t, x.start) else nextInstr pc t)
    else (x :: t, (pc + 4) % 2 ^ 16)

/-- The instruction at PC is the last of a repeat body. -/
def ERegs.atEnd (r : ERegs) : Bool := r.reps.head?.any (·.fin = r.pc.toNat)

/-- The first bank access of an instruction that Table 11.3 does not permit: its fabric address and direction. -/
def Block.bankViolation (b : Block) (e : Nat) (pc : Nat) (x : Eff) : Option (Nat × Bool) :=
  let law := decide (pc < 0x4000)
  match x.reads.find? fun a => !mayRead a.1 a.2 with
  | some a => some (bankAddr e a.1 a.2, false)
  | none => (x.writes.find? fun a => !mayWrite law (b.runsCyclic e) a.1 a.2.1).map fun a => (bankAddr e a.1 a.2.1, true)

/-- The fault of an instruction, its saturation counted where LE_CFG promotes it (R350). -/
def Block.effFault (b : Block) (e : Nat) (x : Eff) : Option Nat :=
  match x.fault with
  | some c => some c
  | none =>
    if x.sov ∧ b.flag (LE_CFG_SOV_FAULT e) then some 8
    else if x.aov ∧ b.flag (LE_CFG_AOV_FAULT e) then some 7
    else none

/-- Fetch at `pc` (R371): microcode may not run on into the standard law. -/
def Block.goOn (b : Block) (e old : Nat) (r : ERegs) (pc : Nat) : Block :=
  let b := b.modEng e fun y => { y with regs := { r with pc := BitVec.ofNat 16 pc } }
  if pc < 0x4000 ∧ 0x4000 ≤ old then b.violate (e + 2) (engBase e + pc) false else b.showEngine e

/-- Carry out the effects of an instruction: status flags; permitted bank writes; a violation freezes the engine and latches the
code of a fault beside it (R374); a fault abandons the task; else the registers change and the next instruction follows. -/
def Block.commitEff (b : Block) (e : Nat) (x : Eff) : Block :=
  let pc := (b.eng e).regs.pc.toNat
  let cyc := b.runsCyclic e
  let b := if x.aov then b.on (LE_STAT_AOV e) else b
  let b := if x.sov then b.on (LE_STAT_SOV e) else b
  let bad := b.bankViolation e pc x
  let fault := b.effFault e x
  let ws := if x.fault.isSome then [] else x.writes.filter fun w => mayWrite (decide (pc < 0x4000)) cyc w.1 w.2.1
  let b := ws.foldl (fun b w => b.setBank e w.1 w.2.1 w.2.2) b
  match bad, fault with
  | some (a, wr), some c => (b.set (LE_STAT_FCODE e) c).violate (e + 2) a wr
  | some (a, wr), none => b.violate (e + 2) a wr
  | none, some c => b.engineFault e c
  | none, none =>
    match x.goto with
    | some t => b.goOn e pc x.regs t
    | none =>
      let (reps, t) := nextInstr pc x.regs.reps
      b.goOn e pc { x.regs with reps := reps } t

/-- The instruction at the program counter takes effect, unless its word or a bank word it may read has an error that cannot be corrected:
engine fault 0x06 (R343). -/
def Block.eccIssue (b : Block) (e : Nat) (x : Eff) : Block :=
  let reads := (x.reads.filter fun k => mayRead k.1 k.2).map fun k => bankAddr e k.1 k.2
  let (bad, b) := b.eccRead e ((engBase e + (b.eng e).regs.pc.toNat) :: reads)
  b.commitEff e (if bad then { x with fault := some 6 } else x)

/-- Microcode on engine `e` has come to the word `w`. -/
def Block.comesTo (b : Block) (e : Nat) (w : Word) : Bool := b.runsCode e && b.wordAt e = w

/-- Issue the word `w` on engine `e`: `codes` are the registers it names, `f` its effects from the registers and the banks.
It waits, changing nothing, for fabric data it needs (R363) (DEDUCED, log entry 79) (DEDUCED, log entry 107). -/
def Block.issue (b : Block) (e : Nat) (w : Word) (codes : ERegs → List Nat) (f : ERegs → (Bool → Nat → Word) → Eff) :
    Block :=
  if b.comesTo e w then
    let r := (b.eng e).regs
    let x := f r (b.bank e)
    if (b.eng e).loads.any (·.blocks (codes r) (x.reads ++ x.writes.map fun w => (w.1, w.2.1))) then b
    else b.eccIssue e x
  else b

/-- An instruction that R361 forbids at the end of a repeat body. -/
def Eff.notAtEnd (x : Eff) (r : ERegs) : Eff := if r.atEnd then Eff.fail (Eff.start r) 1 else x

/-- A reserved or invalid word (R379). -/
def Eff.invalid (r : ERegs) : Eff := (Eff.start r).fail 1

/-! ### Fabric accesses (R358, R393) -/

/-- FAi after FUPD (R358). -/
def ERegs.bumpFa (r : ERegs) (i : Fin 4) (upd : Fin 4) : ERegs :=
  let d : Nat := match upd with
    | 0 => 0
    | 1 => 4
    | 2 => 8
    | 3 => 32
  { r with fa := r.fa.set i (r.fa[i] + BitVec.ofNat 32 d) }

/-- A fabric access of `len` bytes at FAi: fault 0x06 for an error of its word (R343), fault 0x04 where misaligned, a violation where the
policy does not allow it, else the effects `x` and the access itself by `go`. -/
def Block.fabric (b : Block) (e : Nat) (i : Fin 4) (len align : Nat) (write : Bool) (x : Eff) (go : Block → Block) : Block :=
  let a := (b.eng e).regs.fa[i].toNat
  let x := if a % align ≠ 0 then x.fail 4 else x
  let reads := (x.reads.filter fun k => mayRead k.1 k.2).map fun k => bankAddr e k.1 k.2
  let (bad, b) := b.eccRead e ((engBase e + (b.eng e).regs.pc.toNat) :: reads)
  if bad then b.commitEff e { x with fault := some 6 }
  else if ¬ b.allowed (e + 2) a len write (b.runsCyclic e) then
    let b := if x.aov then b.on (LE_STAT_AOV e) else b
    let b := if x.sov then b.on (LE_STAT_SOV e) else b
    (match b.effFault e x with
      | some c => b.set (LE_STAT_FCODE e) c
      | none => b).violate (e + 2) a write
  else if (b.effFault e x).isSome ∨ (b.bankViolation e (b.eng e).regs.pc.toNat x).isSome then b.commitEff e x
  else (go b).commitEff e { x with writes := [] }

/-- A fabric load of engine `e`; a fifth outstanding one waits (R393). `words` are the bank words an FLDB will write. -/
def Block.fabricLoad (b : Block) (e : Nat) (w : Word) (i fupd : Fin 4) (len align : Nat) (dest : LoadDest) (scn : Bool)
    (codes : ERegs → List Nat) (x : ERegs → Eff) : Block :=
  if ¬ b.comesTo e w then b
  else
    let y := b.eng e
    let eff := x y.regs
    if 4 ≤ y.loads.length ∨ y.loads.any (·.blocks ((0x28 + i.1) :: codes y.regs)
        (eff.writes.map fun w => (w.1, w.2.1))) then b
    else
      let a := y.regs.fa[i].toNat
      b.fabric e i len align false { eff with regs := eff.regs.bumpFa i fupd } fun b =>
        b.modEng e fun y => { y with loads := y.loads ++ [⟨a, len, dest, scn, false⟩] }

/-- A fabric store of engine `e`; a fifth outstanding one waits. -/
def Block.fabricStore (b : Block) (e : Nat) (w : Word) (i fupd : Fin 4) (align : Nat) (codes : ERegs → List Nat)
    (x : ERegs → (Bool → Nat → Word) → Eff × List Word) : Block :=
  if ¬ b.comesTo e w then b
  else
    let y := b.eng e
    let (eff, ws) := x y.regs (b.bank e)
    if 4 ≤ y.stores.length ∨ y.loads.any (·.blocks ((0x28 + i.1) :: codes y.regs) eff.reads) then b
    else
      let a := y.regs.fa[i].toNat
      let n := (y.run.map (·.inst)).getD ⟨0, false, false, 0, 0, 0⟩
      b.fabric e i (4 * ws.length) align true { eff with regs := eff.regs.bumpFa i fupd } fun b =>
        b.modEng e fun y => { y with stores := y.stores ++ [⟨a, ws, n.desc, n.seq, n.round⟩] }

end Sys2Proof.Machine
end

