-- ==== Sys2Proof/Machine/Bus.lean ====
section
/-!
DEFINITION. Register and memory accesses of a bus master (00_scope.md R5 to R14, 02_trust.md R55 to R61, 03_deck.md R101 to R107,
17_host_interface.md R505 to R509): the check, the page, the access codes, and the actions of the registers that have one.
-/

namespace Sys2Proof.Machine

/-! ### What a register shows -/

/-- The line a source is routed to (17_host_interface.md Table 17.11). -/
def Block.lineOf (b : Block) (s : Nat) : Nat := bits (b.get (IRQ_ROUTE (s / 8))) (4 * (s % 8)) 2

/-- Source `s` drives its line: pending and enabled (R526). -/
def Block.drives (b : Block) (s : Nat) : Bool := b.pendingIrq s && bit (b.get (IRQ_EN (s / 32))) (s % 32)

/-- The lowest source that drives line `n`. -/
def Block.firstOn (b : Block) (n : Nat) : Option Nat := (List.range 256).find? fun s => b.drives s && b.lineOf s = n

/-- The lines asserted, bit n for line n (R526). -/
def Block.lines (b : Block) : Nat := (List.range 4).foldl (fun a n => setBits a n 1 (b2n (b.firstOn n).isSome)) 0

/-- The OR that the PCIe endpoint forwards as INTA, and its Interrupt Status bit (R526). -/
def Block.intStatus (b : Block) : Bool := (b.lines &&& b.get IRQ_CFG_INTX) ≠ 0

/-- INTA is asserted (R526). -/
def Block.inta (b : Block) : Bool := b.intStatus && !b.host.pcie.intDisable

/-- One word of a 64-bit value. -/
def half (v : Nat) (hi : Bool) : Word := BitVec.ofNat 32 (if hi then v / 2 ^ 32 else v)

/-- The registers computed at the read, by home offset: first sources and lines, pending in a stamp record, angle, rate and plant time
now, a channel's position now, clock-failure restarts of the last 60 minutes, an engine's program counter, and the copies on the basic
pages. -/
def Block.derived (b : Block) (x : Nat) : Option Word :=
  if 0x2100 ≤ x ∧ x < 0x2110 then
    some (match b.firstOn ((x - 0x2100) / 4) with
      | some s => BitVec.ofNat 32 (2 ^ 31 + s)
      | none => 0)
  else if x = aIRQ_LINE then some (BitVec.ofNat 32 b.lines)
  else if 0x4000 ≤ x ∧ x < 0x6000 ∧ x % 0x20 = 0x18 then
    some (BitVec.ofNat 32 (setBits (b.rd x).toNat 16 1 (b2n (b.pendingIrq ((x - 0x4000) / 0x20)))))
  else if x = aANG_NOW ∨ x = aANG_NOW + 4 then some (half b.angle (x ≠ aANG_NOW))
  else if x = aANG_RATE ∨ x = aANG_RATE + 4 then some (half (wrapN 64 b.ang.w) (x ≠ aANG_RATE))
  else if x = aPLT_B_STAT then some (b.rd aPLT_STAT)
  else if x = aPLT_TIME ∨ x = aPLT_TIME + 4 then some (half b.ns (x ≠ aPLT_TIME))
  else if x = aPLT_TFRAC then some (BitVec.ofNat 32 b.frac)
  else if 0x40000 ≤ x ∧ x < 0x80000 ∧ x % 0x8000 = 4 then some (b.rd (x + 0x400))
  else if 0x101000 ≤ x ∧ x < 0x102000 ∧ (x % 0x100 = 0x60 ∨ x % 0x100 = 0x64) then
    some (half (wrapN 64 (b.ch ((x - 0x101000) / 0x100)).count) (x % 0x100 = 0x64))
  else if x = aDIS_B_STAT then some (b.rd aDIS_STAT)
  else if x = aCPR_CLK_FAIL then
    some (BitVec.ofNat 32 (setBits (b.rd x).toNat 8 8 (b.pd0.restarts.filter fun t => b.up < t + 3600000000000).length))
  else if 0x120000 ≤ x ∧ x < 0x140000 ∧ x % 0x1000 = 4 then some (b.rd (x + 0x400))
  else if 0x120000 ≤ x ∧ x < 0x140000 ∧ x % 0x1000 = 0x40C then
    let y := b.eng ((x - 0x120000) / 0x1000)
    some (match y.run with
      | some r => BitVec.ofNat 32 (2 ^ 31 + r.inst.desc % 2 ^ 10 * 2 ^ 16 + y.regs.pc.toNat)
      | none => 0)
  else none

/-- The home offsets of the registers computed at the read. -/
def derivedAddrs : List Nat :=
  (List.range 4).map aIRQ_FIRST ++ [aIRQ_LINE] ++ (List.range 256).map aIRQ_S_FLAGS ++
    [aANG_NOW, aANG_NOW + 4, aANG_RATE, aANG_RATE + 4, aPLT_B_STAT, aPLT_TIME, aPLT_TIME + 4, aPLT_TFRAC] ++
    (List.range 8).map aSEG_B_STAT ++ (List.range 16).flatMap (fun c => [aFB_NOW c, aFB_NOW c + 4]) ++ [aDIS_B_STAT, aCPR_CLK_FAIL] ++
    (List.range 32).flatMap fun e => [aLE_B_STAT e, aLE_PC e]

/-- The word at a home offset as a read returns it. -/
def Block.peek (b : Block) (x : Nat) : Word := (b.derived x).getD (b.rd x)

/-- The layout of the deck in force. -/
def Block.layout (b : Block) : Layout :=
  match b.dealt with
  | some d =>
    let axes := d.axes.map (·.axis)
    ⟨axes, (List.range 8).filter d.oddOfRing, axes.filter fun i => d.lawOf i = some 2⟩
  | none => ⟨[], [], []⟩

/-- The axis whose page holds offset `x`. -/
def axisAt (x : Nat) : Option Nat :=
  if 0x80000 ≤ x ∧ x < 0x100000 then some (x % 0x40000 / 0x400) else none

/-- A page that reads 0 and ignores writes: of an axis that does not exist, of the odd port of a ring. -/
def Layout.absent (y : Layout) (x : Nat) : Bool :=
  (match axisAt x with
    | some i => !y.axes.contains i
    | none => false) || (0x40000 ≤ x && x < 0x80000 && y.odd.contains ((x - 0x40000) / 0x8000))

/-- A microcode word of an axis with LAW 2. -/
def Layout.isRaw (y : Layout) (x : Nat) : Bool :=
  match axisAt x with
  | some i => 0x100 ≤ x % 0x400 && x % 0x400 < 0x300 && y.raw.contains i
  | none => false

/-- The window registers (Table 17.1). -/
def isWindow (x : Nat) : Bool :=
  x = aHST_MB_DATA || x = aHST_MB_REPLY || (0x10000 ≤ x && x < 0x20000 && x % 0x1000 < 0x800) || x = aCAP_RD_DATA ||
    x = aTRU_FIFO

/-- The home offset of the word at BAR0 offset `x`: the expert register that a basic page repeats, else `x`. -/
def homeOf (x : Nat) : Nat := (expertOf x).getD x

/-- The word a map of registers shows at offset `x`; none where no register exists. -/
def Layout.word (y : Layout) (reg : Nat → Word) (x : Nat) : Option Word :=
  if y.absent x then some 0
  else if y.isRaw x then some (if x < 0xC0000 then 0 else reg x)
  else if hiddenVstat x then none
  else (findReg (homeOf x)).map fun _ => reg (homeOf x)

/-! ### The check (R55, R58) -/

/-- The task class of an access by master `m`: cyclic where an engine runs a cyclic task. -/
def Block.cyclicAccess (b : Block) (m : Nat) : Bool := 2 ≤ m && m ≤ 33 && b.runsCyclic (m - 2)

/-- Whether an access of one word goes through: the checker allows it, and no freeze bars it. -/
def Block.passes (b : Block) (m fa : Nat) (write : Bool) : Bool :=
  b.allowed m fa 4 write (b.cyclicAccess m) && !b.barred m fa

/-- The gate of the block whose registers lie at `x`, where an access meets it closed (20_clocks_power_reset.md R582)
(DEDUCED, log entry 32). -/
def Block.shut (b : Block) (x : Nat) : Bool :=
  !b.domainOn (domainOf x) || (0x40000 ≤ x && x < 0x80000 && b.gateClosed (36 + (x - 0x40000) / 0x8000)) ||
    (0x150000 ≤ x && x < 0x160000 && b.gateClosed 46)

/-- An access of the host port where no register is (R507). -/
def Block.unmapped (b : Block) (m : Nat) : Block := if m = 36 then b.hostCount HST_UNMAP_CNT else b

/-- An access below 32 bits (R5, R511) (DEDUCED, log entry 29). -/
def Block.subWord (b : Block) : Block := b.hostCount HST_SUBWORD_CNT

/-! ### Reads -/

/-- The seven words of a stamp record, as a read of its first word latches them (R524). -/
def Block.stampRecord (b : Block) (s : Nat) : Vector Word 7 := Vector.ofFn fun j : Fin 7 => b.peek (0x4000 + 0x20 * s + 4 * j.1)

/-- A read of a window register (R506, R519 to R521): an inbound host FIFO window is popped by a master other than the host port, an
outbound one by the host port (DEDUCED, log entry 30). -/
def Block.readWindow (b : Block) (m : Fin 39) (x : Nat) : Word × Block :=
  if x = aHST_MB_REPLY then b.mbReply
  else if x = aCAP_RD_DATA then
    let (w, c) := b.rdPop
    (w, if b.rdBad ∧ m.1 = 36 then c.hostError x else c)
  else if x = aTRU_FIFO then b.truPop
  else if h : 0x10000 ≤ x ∧ x < 0x20000 then
    let w : Fin 16 := ⟨(x - 0x10000) / 0x1000, by omega⟩
    if (w.1 < 8) = (m.1 = 36) then b.fwPop w else (0, b)
  else (0, b)

/-- A read of the register at `x` by master `m`, after the check; none where no register exists. A read of a low word latches the high
word, and a high word comes from the latch (R7, R8) (DEDUCED, log entry 105). -/
def Block.readReg (b : Block) (m : Fin 39) (x : Nat) : Option Word × Block :=
  let y := b.layout
  if ¬ y.absent x ∧ ¬ y.isRaw x ∧ isWindow x then
    let (w, b) := b.readWindow m x
    (some w, b)
  else if h : 0x4000 ≤ x ∧ x < 0x6000 ∧ x % 0x20 < 0x1C then
    let s := (x - 0x4000) / 0x20
    let b : Block := if x % 0x20 = 0 then { b with stampLatch := b.stampLatch.set m.1 (b.stampRecord s) m.2 } else b
    (some ((b.stampLatch[m])[x % 0x20 / 4]), b)
  else
    match y.word b.peek x with
    | none => (none, b)
    | some w =>
      match if y.absent x || y.isRaw x then none else findReg (homeOf x) with
      | some r =>
        if ¬ r.desc.wide then (some w, b)
        else if r.base = homeOf x then (some w, { b with latchHi := b.latchHi.set m.1 (b.peek (homeOf x + 4)) m.2 })
        else (some b.latchHi[m], b)
      | none => (some w, b)

/-- A word of a snapshot image (R528): windows, host FIFO windows and registers of powered-off domains read 0. -/
def Image.word (i : Image) (x : Nat) : Word :=
  if ¬ i.live ∨ isWindow x ∨ (0x10000 ≤ x ∧ x < 0x20000) ∨ bit i.off (domainOf x) then 0
  else (i.layout.word (sget resetReg i.words) x).getD 0

/-- A word of an engine memory (11_loop_engine_model.md R338, R340): the reserved bytes of the X bank read 0. -/
def Block.engineWord (b : Block) (fa : Nat) : Option Word :=
  let o := fa % 0x40000
  if 0x30000 ≤ o then none
  else if 0x1FE00 ≤ o ∧ o < 0x1FFE0 then some 0
  else some (Memory.readWord b.mem fa)

/-- A read of an engine memory at its fabric port: one bit in error reads correct, more are an error response (R343). -/
def Block.engineRead (b : Block) (fa : Nat) : Option Word × Block :=
  match b.engineWord fa with
  | none => (none, b)
  | some w =>
    let (bad, b) := b.eccRead ((fa - 0x40000000) / 0x40000) [fa]
    (if bad then none else some w, b)

/-- A read of a memory word that has no page of its own: an uncorrectable error is an error response. -/
def Block.memRead (b : Block) (fa : Nat) : Option Word := if 1 < b.eccAt fa then none else some (Memory.readWord b.mem fa)

/-- A read at a fabric address (02_trust.md Table 2.5) that passed the check; none for an error response or where nothing is
(DEDUCED, log entry 28). -/
def Block.serveRead (b : Block) (m : Fin 39) (fa : Nat) : Option Word × Block :=
  if 0x10000000 ≤ fa ∧ fa < 0x10400000 then
    if b.shut (fa - 0x10000000) then (none, b) else b.readReg m (fa - 0x10000000)
  else if 0x10400000 ≤ fa ∧ fa < 0x10800000 then
    let x := fa - 0x10400000
    (some (if x < 0x200000 then b.host.images[0].word x else b.host.images[1].word (x - 0x200000)), b)
  else if 0x20000000 ≤ fa ∧ fa < 0x20800000 then (if b.domainOn 7 then b.memRead fa else none, b)
  else if 0x30000000 ≤ fa ∧ fa < 0x32000000 then (if b.domainOn 10 then b.memRead fa else none, b)
  else if 0x40000000 ≤ fa ∧ fa < 0x40800000 then
    if b.domainOn (3 + (fa - 0x40000000) / 0x200000) then b.engineRead fa else (none, b)
  else (none, b)

/-- A read at a fabric address by master `m`: one that fails the check returns 0 and is a violation. -/
def Block.fabricRead (b : Block) (m : Fin 39) (fa : Nat) : Option Word × Block :=
  if b.passes m fa false then b.serveRead m fa else (some 0, b.violate m fa false)

/-- A read of BAR0 offset `x` by master `m`: the word returned. The host port's latency is not given (DESIGN CHOICE, log entry 2)
(DESIGN CHOICE, log entry 96). -/
def Block.busRead (b : Block) (m : Fin 39) (x : Nat) : Word × Block :=
  let bad := decide (1 < b.eccAt (fabricOf x))
  let (w, b) := b.fabricRead m (fabricOf x)
  let b := if w.isSome then b else if bad ∧ m.1 = 36 then b.hostError x else b.unmapped m
  if m.1 = 36 then
    let (k, b) := b.take
    (w.getD 0, b.peak HST_LAT_MAX (Config.freeNat k % 401))
  else (w.getD 0, b)

/-! ### Writes -/

/-- A block runs (R106, Table 3.12; DEDUCED, log entry 24 for registers that serve several). -/
def Block.runsAt (b : Block) (x : Nat) : Bool :=
  if 0x20000 ≤ x ∧ x < 0x30000 then b.flag ANG_STAT_RUNNING
  else if 0x30800 ≤ x ∧ x < 0x31000 then b.flag (PLT_P_CFG_EN ((x - 0x30800) / 0x400))
  else if 0x31000 ≤ x ∧ x < 0x31100 then b.flag (PLT_P_CFG_EN (b.get (PLT_Q_CFG_PORT ((x - 0x31000) / 0x20))))
  else if 0x30000 ≤ x ∧ x < 0x40000 then b.flag (PLT_P_CFG_EN 0) || b.flag (PLT_P_CFG_EN 1)
  else if 0x40000 ≤ x ∧ x < 0x80000 then b.get (SEG_STAT_STATE ((x - 0x40000) / 0x8000)) ≠ 0
  else if 0xC0000 ≤ x ∧ x < 0x100000 then
    decide ((b.ax ((x - 0xC0000) / 0x400)).en ≠ .off) || b.flag (AX_STAT_ENABLED ((x - 0xC0000) / 0x400))
  else if 0x101000 ≤ x ∧ x < 0x102000 then b.flag (FB_STAT_ENABLED ((x - 0x101000) / 0x100))
  else if 0x120000 ≤ x ∧ x < 0x140000 then !b.flag (LE_STAT_HALTED ((x - 0x120000) / 0x1000))
  else if 0x140000 ≤ x ∧ x < 0x150000 then
    let armed (g : Nat) : Bool := bit (b.get CAP_STAT_ARMED) g || (b.cg g).streams
    if 0x141000 ≤ x then armed (b.get (CAP_C_CFG_GROUP ((x - 0x141000) / 0x40)))
    else if 0x140500 ≤ x ∧ x < 0x140700 then armed ((x - 0x140500) / 0x40)
    else (List.range 8).any armed
  else if 0x150000 ≤ x ∧ x < 0x160000 then b.flag PTN_STAT_PAIRED
  else if 0x170440 ≤ x ∧ x < 0x170450 then bit (b.get FLD_GEN_DIN) ((x - 0x170440) / 4)
  else if 0x170460 ≤ x ∧ x < 0x170468 then bit (b.get FLD_GEN_DOUT) ((x - 0x170460) / 4)
  else if 0x170000 ≤ x ∧ x < 0x180000 then b.get FLD_GEN_DOUT ≠ 0
  else false

/-- One field of a write `v` by its access code (R10): RW and W1C at once, RWS into the shadow, RWL where the block is stopped; `run`
says that it ran when the write arrived. -/
def Block.writeField (b : Block) (run : Bool) (c : Acc) (f : Fld) (v : Nat) : Block :=
  let x := bits v f.lo f.w
  match c with
  | .rw => b.set f x
  | .w1c => b.set f (b.get f &&& (2 ^ f.w - 1 - x))
  | .rws => b.shadowPut f x
  | .rwl => if run then b.devErr DEV_STAT_WLOCK_ERR else b.set f x
  | .ro | .wo | .rwv | .win => b

/-- The enable bits of channels without a CHANNEL record stay 0 (04_line_angle.md R136). -/
def Block.fixEnables (b : Block) : Block :=
  let has (n : Nat) : Bool := b.dealt.any fun d => d.angle.channels.any (·.channel = n)
  b.each 2 fun b k =>
    b.wr (aANG_CH_EN k) (BitVec.ofNat 32 ((List.range 32).foldl (fun a j =>
      if has (32 * k + j) then a else setBits a j 1 0) (b.rd (aANG_CH_EN k)).toNat))

/-- Sources 188 to 191 are levels: a pending bit cleared while its FIFO pair holds an entry is set again (R523). -/
def Block.levelSources (b : Block) : Block :=
  b.each 4 fun b j => if b.capLevel j ∧ ¬ b.pendingIrq (188 + j) then b.irq (188 + j) else b

/-- A count written to IRQ_S_ACK clears the pending bit if it is still the source's count (R525). -/
def Block.irqAck (b : Block) (s v : Nat) : Block :=
  if b.get (IRQ_S_FLAGS_CNT s) = v % 2 ^ 16 then (b.set ⟨aIRQ_PEND (s / 32), s % 32, 1⟩ 0).levelSources else b

/-- HST_CTL.CNT_CLR (Table 17.5). -/
def Block.hostClear (b : Block) : Block :=
  [aHST_SUBWORD_CNT, aHST_UNMAP_CNT, aHST_SPI_ERR_CNT, aHST_LAT_MAX, aHST_ERR_RD_CNT].foldl (fun b a => b.wr a 0) b

/-- SEG_CTL (06_thrumlos_start_and_schedules.md Table 6.12): START, STOP, SWITCH_GO with TARGET, which a declarer mirrors. -/
def Block.segCtl (b : Block) (s v : Nat) : Block :=
  let b := if bit v 0 then b.segStart s else b
  let b := if bit v 1 then b.segStop s else b
  if bit v 7 then (b.segWant s (bits v 4 3)).mirror (.commit ((b.round + 1) % 2 ^ 16) (aSEG_CTL s) [BitVec.ofNat 32 v]) else b

/-- A command with staged words: a declarer mirrors it (14_partners.md R443). -/
def Block.mirrorCmd (b : Block) (x : Nat) (staged : List Nat) (v : Nat) : Block :=
  b.mirror (.commit ((b.round + 1) % 2 ^ 16) x (staged.map b.rd ++ [BitVec.ofNat 32 v]))

/-- DIS_CMD with its mirror item: create, delete and rehome are mirrored. -/
def Block.disWrite (b : Block) (v : Nat) : Block :=
  let staged := (List.range 8).map aDIS_DESC
  let op := bits v 0 3
  if b.flag DIS_RES_BUSY ∨ ¬ (op = 1 ∨ op = 2 ∨ op = 4) then b.disCmd v
  else
    let b' := b.disCmd v
    if b'.flag DIS_RES_BUSY ∨ b'.get DIS_RES_RESULT = 0 then { b' with partner.queue := (b.mirrorCmd aDIS_CMD staged v).partner.queue } else b'

/-- The action of a register written with `v` by master `m`, after its fields (DEDUCED, log entry 34). -/
def Block.regAction (b : Block) (m : Fin 39) (x v : Nat) : Block :=
  if x = aTRU_CTL then b.truCtl v
  else if x = aHST_CTL then (if bit v 0 then b.hostClear else b)
  else if x = aSNP_CTL then (if m.1 = 36 ∧ bit v 0 then b.on SNP_STAT_PEND else b)
  else if 0x2000 ≤ x ∧ x < 0x2020 then b.levelSources
  else if 0x4000 ≤ x ∧ x < 0x6000 then b.irqAck ((x - 0x4000) / 0x20) v
  else if h : 0x10000 ≤ x ∧ x < 0x20000 then (if x % 0x1000 = 0x804 then b.showWindow ⟨(x - 0x10000) / 0x1000, by omega⟩ else b)
  else if x = aANG_EVT_CMD then b.evtCmd v
  else if x = aANG_CH_EN 0 ∨ x = aANG_CH_EN 1 then b.fixEnables
  else if h : 0x21000 ≤ x ∧ x < 0x21100 then (if x % 0x20 = 0 then b.capPop ⟨(x - 0x21000) / 0x20, by omega⟩ else b)
  else if x = aPLT_CTL then b.pltCtl v
  else if x = aPLT_MDIO then b.mdioWrite v
  else if h : 0x31000 ≤ x ∧ x < 0x31100 then
    (if x % 0x20 = 4 then b.queuePush ⟨(x - 0x31000) / 0x20, by omega⟩ v else b)
  else if 0x34000 ≤ x ∧ x < 0x40000 then b.slotWrite x (BitVec.ofNat 32 v)
  else if 0x40000 ≤ x ∧ x < 0x80000 then (if x % 0x8000 = 0x400 then b.segCtl ((x - 0x40000) / 0x8000) v else b)
  else if x = aDIS_CMD then b.disWrite v
  else if x = aCAP_RD_CTL then b.rdStart v
  else if 0x141000 ≤ x ∧ x < 0x142000 ∧ x % 0x40 = 0 then b.showWide ((x - 0x141000) / 0x40)
  else if 0x140500 ≤ x ∧ x < 0x140700 ∧ x % 0x40 = 0 then
    let g := (x - 0x140500) / 0x40
    let b := if bit v 0 then b.capAsk g else b
    let b := if bit v 1 then b.capDisarm g else b
    if bit v 2 then b.capForce g else b
  else if x = aPTN_CTL then
    let b := if bit v 0 then b.askHandover else b
    if bit v 1 then b.resync else b
  else if x = aFLD_WDOG then b.wdogWrite
  else if x = aFLD_FMASK_LO then b.maskWrite false v
  else if x = aFLD_FMASK_HI then b.maskWrite true v
  else if x = aSCP_HW_CMD then b.scpHwCmd v
  else if x = aSCP_RD_CTL then b.scpRdGo v
  else if x = aCPR_CTL then (if bit v 0 then b.devReset else b)
  else b

/-- Registers whose write is the action alone. -/
def actionAlone (x : Nat) : Bool :=
  x = aPLT_MDIO || x = aFLD_FMASK_LO || x = aFLD_FMASK_HI || (0x34000 ≤ x && x < 0x40000)

/-- A write of value `v` to the register `r` found at its home offset: field by field (R14), RWV fields together into the Dealer's
queue, or discarded at expert level (Table 3.10). `basic` says that the basic page was written, `level` that its function is at basic
level. A word of ANG_CTL naming no valid source leaves KIND and INDEX (04_line_angle.md R110). -/
def Block.writeReg (b : Block) (m : Fin 39) (r : Hit) (basic level : Bool) (v : Nat) : Block :=
  let code (f : FDesc) : Acc := if basic then f.basic else f.expert
  let badSource := r.base = aANG_CTL && !validSource v
  let run := b.runsAt r.base
  let b := if badSource then (b.on ANG_STAT_SRC_ERR).irq 184 else b
  let fs := r.desc.fields.filter fun f => !(badSource && (f.lo = 1 || f.lo = 4))
  let b := if actionAlone r.base then b else fs.foldl (fun b f => b.writeField run (code f) ⟨r.base, f.lo, f.w⟩ v) b
  let rwv := fs.filter fun f => code f = .rwv
  let (vs, off) := vstatOf r.base
  let b :=
    if rwv.isEmpty then b
    else if ¬ level then b.discard vs off 5
    else b.enqueueWrite ⟨r.base, v, rwv.map fun f => ⟨r.base, f.lo, f.w⟩, vs, off⟩
  let b := b.regAction m r.base v
  if fs.any fun f => code f = .rw || code f = .rwl then
    let b := b.mirrorWord (b.round + 1) r.base
    if r.desc.wide then b.mirrorWord (b.round + 1) (r.base + 4) else b
  else b

/-- Pages of the blocks a deck builds: writes are ignored while one is dealt (R96) (DEDUCED, log entry 48). -/
def dealBuilt (x : Nat) : Bool :=
  (0x20000 ≤ x && x < 0x180000) || 0x800000 ≤ x

/-- What a dummy ignores of the host (14_partners.md R448): writes to the registers of R443. -/
def Block.dummyIgnores (b : Block) (m x v : Nat) : Bool :=
  m = 36 && b.get PTN_STAT_ROLE = 2 &&
    ((0x20000 ≤ x && x < 0x30000) || (0x80000 ≤ x && x < 0x110000) || (0x40000 ≤ x && x < 0x80000 && x % 0x8000 = 0) ||
      (x = aDIS_CMD && (bits v 0 3 = 1 || bits v 0 3 = 2 || bits v 0 3 = 4)) ||
      (0x40000 ≤ x && x < 0x80000 && x % 0x8000 = 0x400 && bit v 7))

/-- A write of a window register (Table 17.1): the host port alone pushes into an inbound window (R520). -/
def State.writeWindow (s : State) (m : Fin 39) (x : Nat) (v : Word) : State :=
  if x = aHST_MB_DATA then s.mbArg v
  else if x = aTRU_FIFO then s.onBlk (·.truPush v)
  else if h : 0x10000 ≤ x ∧ x < 0x20000 then
    let w : Fin 16 := ⟨(x - 0x10000) / 0x1000, by omega⟩
    if 8 ≤ w.1 ∧ m.1 = 36 then s.onBlk (·.fwPush w v) else s
  else s

/-- A write to a register page, after the check, the gate and the deck. -/
def State.writePage (s : State) (m : Fin 39) (x : Nat) (v : Word) : State :=
  let b := s.blk
  let y := b.layout
  let basic := (expertOf x).isSome || basicOnly x
  let level := b.basicLevel (if basicOnly x ∧ (expertOf x).isNone then x + 0x400 else homeOf x)
  if y.absent x then s
  else if b.lockedAt x ∨ (¬ basic ∧ level) then s.onBlk (·.on DCK_STAT_LOCK_ERR)
  else if y.isRaw x then (if basic then s else s.onBlk (·.shadowPut ⟨x, 0, 32⟩ v.toNat))
  else if hiddenVstat x then s.onBlk (·.unmapped m)
  else if isWindow x then s.writeWindow m x v
  else if x = aHST_MB_CMD then s.mbCmd v.toNat
  else
    match findReg (homeOf x) with
    | none => s.onBlk (·.unmapped m)
    | some r =>
      if ¬ r.desc.wide then s.onBlk (·.writeReg m r basic level v.toNat)
      else if r.base = homeOf x then s.onBlk fun b => { b with heldLo := b.heldLo.set m.1 v m.2 }
      else s.onBlk (·.writeReg m r basic level (b.heldLo[m].toNat + v.toNat * 2 ^ 32))

/-- A write to an engine memory: a program memory is written while its engine is halted, or it is a violation (R342). -/
def Block.writeEngine (b : Block) (m : Fin 39) (fa : Nat) (v : Word) : Block :=
  let e := (fa - 0x40000000) / 0x40000
  let o := fa % 0x40000
  if ¬ b.domainOn (3 + e / 8) ∨ 0x30000 ≤ o then b.unmapped m
  else if o < 0x10000 ∧ ¬ b.flag (LE_STAT_HALTED e) ∧ ¬ b.boot.dealing then b.violate m fa true
  else b.memPut fa v

/-- A write of word `v` to BAR0 offset `x` that passed the check. -/
def State.serveWrite (s : State) (m : Fin 39) (x : Nat) (v : Word) : State :=
  let b := s.blk
  if b.boot.dealing ∧ dealBuilt x then s.onBlk (·.on DCK_STAT_DEAL_WR)
  else if 0x800000 ≤ x then s.onBlk (·.writeEngine m (fabricOf x) v)
  else if b.shut x then s.onBlk (·.unmapped m)
  else if b.dummyIgnores m x v.toNat then s.onBlk (·.on PTN_FLAGS_DUMMY_WR)
  else s.writePage m x v

/-- A write of word `v` to BAR0 offset `x` by master `m`: one that fails the check has no effect and is a violation
(DESIGN CHOICE, log entry 102). -/
def State.busWrite (s : State) (m : Fin 39) (x : Nat) (v : Word) : State :=
  if s.blk.passes m (fabricOf x) true then s.serveWrite m x v else s.onBlk (·.violate m (fabricOf x) true)

/-- A write of word `w` at a fabric address (02_trust.md Table 2.5) that passed the check; whether it got an error response
(20_clocks_power_reset.md R582) (DEDUCED, log entry 81). -/
def State.storeWord (s : State) (m : Fin 39) (fa : Nat) (w : Word) : Bool × State :=
  let b := s.blk
  if 0x10000000 ≤ fa ∧ fa < 0x10800000 then
    if b.shut (fa - 0x10000000) then (true, s) else (false, s.serveWrite m (fa - 0x10000000) w)
  else if 0x20000000 ≤ fa ∧ fa < 0x20800000 then
    if b.domainOn 7 then (false, s.onBlk (·.memPut fa w)) else (true, s)
  else if 0x30000000 ≤ fa ∧ fa < 0x32000000 then
    if b.domainOn 10 then (false, s.onBlk (·.memPut fa w)) else (true, s)
  else if 0x40000000 ≤ fa ∧ fa < 0x40800000 then
    if b.domainOn (3 + (fa - 0x40000000) / 0x200000) then (false, s.onBlk (·.writeEngine m fa w)) else (true, s)
  else (true, s)

/-- A write at a fabric address by master `m`: one that fails the check has no effect and is a violation. -/
def State.fabricWrite (s : State) (m : Fin 39) (fa : Nat) (w : Word) : State :=
  if s.blk.passes m fa true then (s.storeWord m fa w).2 else s.onBlk (·.violate m fa true)

end Sys2Proof.Machine
end

