-- ==== Sys2Proof/Machine/HostRows.lean ====
section
/-!
DEFINITION. The rows that are an access of a bus master to a register, and the host port's own events
(17_host_interface.md). Each access goes through the common path of Bus.lean; a row that names one register is a write or read of it.
-/

namespace Sys2Proof.Machine

/-! ### Accesses -/

/-- The host port takes memory requests: the quad-SPI port, or a PCIe endpoint with Memory Space enabled and not in D3hot
(R510, R511) (DEDUCED, log entry 93). -/
def Block.hostOpen (b : Block) : Bool := b.flag HST_MODE_PORT || (b.host.pcie.memEnable && !b.host.pcie.d3hot)

/-- Accesses of master `m` reach the fabric; those of a locked debug port have no path to it (02_trust.md R70). -/
def Block.connected (b : Block) (m : Fin 39) : Bool := b.onFabric m.1 && (m.1 ≠ 36 || b.hostOpen)

/-- The fabric address an access names, where it does: a master other than the host port addresses the fabric, and an address below
0x1000_0000 stands for the BAR0 offset of its target (DEDUCED, log entry 118). -/
def fabricAt (m : Fin 39) (a : Nat) : Option Nat := if m.1 ≠ 36 ∧ 0x10000000 ≤ a then some (a % 2 ^ 32 / 4 * 4) else none

/-- The word of BAR0 that an address names (R5, R515). -/
def wordAddr (a : Nat) : Nat := a % 2 ^ 24 / 4 * 4

/-- A write by master `m`. -/
def State.write (s : State) (m : Fin 39) (a : Nat) (v : Word) : State :=
  if ¬ s.blk.connected m then s
  else match fabricAt m a with
    | some fa => s.fabricWrite m fa v
    | none => s.busWrite m (wordAddr a) v

/-- A read by master `m`; the word is what its port returned last. -/
def State.read (s : State) (m : Fin 39) (a : Nat) : State :=
  if ¬ s.blk.connected m then s
  else s.onBlk fun b =>
    match fabricAt m a with
    | some fa =>
      let (w, b) := b.fabricRead m fa
      b.answer m (w.getD 0)
    | none =>
      let (w, b) := b.busRead m (wordAddr a)
      b.answer m w

/-- A write of a natural number to a register. -/
def State.writeN (s : State) (m : Fin 39) (a v : Nat) : State := s.write m a (BitVec.ofNat 32 v)

/-- The page through which a function's register is written: its basic copy at basic level (03_deck.md Table 3.10). -/
def Block.pageFor (b : Block) (home : Nat) : Nat := if b.basicLevel home then home - 0x400 else home

/-- HOST_REGISTER_WRITE (R10). -/
def execHostRegisterWrite (m : Fin 39) (addr : Nat) (v : Word) (s : State) : Outcome := .next (s.write m addr v)

/-- SUB_WORD_ACCESS (R5): ignored, or 0 for a read, and counted. -/
def execSubWordAccess (m : Fin 39) (write : Bool) (s : State) : Outcome :=
  .next (if s.blk.connected m then
    s.onBlk fun b => if write then b.subWord else b.subWord.answer m 0 else s)

/-- LOW_WORD_READ (R7). -/
def execLowWordRead (m : Fin 39) (addr : Nat) (s : State) : Outcome := .next (s.read m addr)

/-- LOW_WORD_WRITE (R9). -/
def execLowWordWrite (m : Fin 39) (addr : Nat) (v : Word) (s : State) : Outcome := .next (s.write m addr v)

/-- HIGH_WORD_WRITE (R9). -/
def execHighWordWrite (m : Fin 39) (addr : Nat) (v : Word) (s : State) : Outcome := .next (s.write m addr v)

/-- RWV_WRITE (R103). -/
def execRwvWrite (m : Fin 39) (addr : Nat) (v : Word) (s : State) : Outcome := .next (s.write m addr v)

/-! ### The trust page -/

/-- CHAL_NEW (R67). -/
def execChalNew (m : Fin 39) (s : State) : Outcome := .next (s.writeN m aTRU_CTL 1)

/-- TOKEN_GO (R68). -/
def execTokenGo (m : Fin 39) (s : State) : Outcome := .next (s.writeN m aTRU_CTL 2)

/-- QUOTE_REQ (R75). -/
def execQuoteReq (m : Fin 39) (s : State) : Outcome := .next (s.writeN m aTRU_CTL 4)

/-- DBG_LOCK (R73). -/
def execDbgLock (m : Fin 39) (s : State) : Outcome := .next (s.writeN m aTRU_CTL 8)

/-- FIFO_CLR (R76). -/
def execFifoClr (m : Fin 39) (s : State) : Outcome := .next (s.writeN m aTRU_CTL 16)

/-- TRU_FIFO (R76): a push of a word, or a pop. -/
def execTruFifo (m : Fin 39) (w : Option Word) (s : State) : Outcome :=
  .next (match w with
    | some x => s.write m aTRU_FIFO x
    | none => s.read m aTRU_FIFO)

/-! ### The mailbox (R516 to R518) -/

/-- PROVISION (R45): the command, then its argument words. -/
def execProvision (m : Fin 39) (args : List Word) (s : State) : Outcome :=
  .next (args.foldl (fun s w => s.write m aHST_MB_DATA w) (s.writeN m aHST_MB_CMD (0x10 + args.length * 2 ^ 8)))

/-- DEAL (R517). -/
def execDeal (m : Fin 39) (len : Nat) (s : State) : Outcome := .next (s.writeN m aHST_MB_CMD (0x20 + len * 2 ^ 8))

/-- MB_DATA (R516). -/
def execMbData (m : Fin 39) (w : Word) (s : State) : Outcome := .next (s.write m aHST_MB_DATA w)

/-- STORE (R94). -/
def execStore (m : Fin 39) (s : State) : Outcome := .next (s.writeN m aHST_MB_CMD 0x21)

/-- ABORT (R518). -/
def execAbort (m : Fin 39) (s : State) : Outcome := .next (s.writeN m aHST_MB_CMD 0)

/-- VERSION (R516). -/
def execVersion (m : Fin 39) (s : State) : Outcome := .next (s.writeN m aHST_MB_CMD 1)

/-- MB_REPLY (R516). -/
def execMbReply (m : Fin 39) (s : State) : Outcome := .next (s.read m aHST_MB_REPLY)

/-! ### The line-angle page -/

/-- ANG_CTL (R110). -/
def execAngCtl (m : Fin 39) (v : Word) (s : State) : Outcome := .next (s.write m (s.blk.pageFor aANG_CTL) v)

/-- A command on the event table (Table 4.5). -/
def State.evtOp (s : State) (m : Fin 39) (op handle : Nat) : State := s.writeN m aANG_EVT_CMD (op + handle % 2 ^ 12 * 2 ^ 16)

/-- EVT_INSERT (R133). -/
def execEvtInsert (m : Fin 39) (s : State) : Outcome := .next (s.evtOp m 1 0)

/-- EVT_DELETE (R132). -/
def execEvtDelete (m : Fin 39) (handle : Nat) (s : State) : Outcome := .next (s.evtOp m 2 handle)

/-- EVT_REPLACE (R134). -/
def execEvtReplace (m : Fin 39) (handle : Nat) (s : State) : Outcome := .next (s.evtOp m 3 handle)

/-- EVT_READ (R132). -/
def execEvtRead (m : Fin 39) (handle : Nat) (s : State) : Outcome := .next (s.evtOp m 0 handle)

/-- ANG_CAP_POP (R144). -/
def execAngCapPop (m : Fin 39) (i : Fin 8) (s : State) : Outcome := .next (s.writeN m (aANG_CAP_POP i.1) 0)

/-! ### Segments -/

/-- SEG_START (06_thrumlos_start_and_schedules.md R224). -/
def execSegStart (m : Fin 39) (seg : Fin 8) (s : State) : Outcome := .next (s.writeN m (aSEG_CTL seg.1) 1)

/-- SEG_STOP (R224). -/
def execSegStop (m : Fin 39) (seg : Fin 8) (s : State) : Outcome := .next (s.writeN m (aSEG_CTL seg.1) 2)

/-- SWITCH_GO (R211). -/
def execSwitchGo (m : Fin 39) (seg : Fin 8) (target : Fin 8) (s : State) : Outcome :=
  .next (s.writeN m (aSEG_CTL seg.1) (0x80 + target.1 * 2 ^ 4))

/-! ### The dispatcher (10_task_dispatch.md Table 10.5) -/

/-- A command on descriptor `d`, with the engine and ALL fields. -/
def State.disOp (s : State) (m : Fin 39) (op d e all : Nat) : State :=
  s.writeN m aDIS_CMD (op + e * 2 ^ 6 + all * 2 ^ 11 + d * 2 ^ 16)

/-- DIS_READ (R310). -/
def execDisRead (m : Fin 39) (d : Fin 1024) (s : State) : Outcome := .next (s.disOp m 0 d.1 0 0)

/-- CREATE (R310). -/
def execCreate (m : Fin 39) (d : Fin 1024) (s : State) : Outcome := .next (s.disOp m 1 d.1 0 0)

/-- DIS_DELETE (R312). -/
def execDisDelete (m : Fin 39) (d : Fin 1024) (s : State) : Outcome := .next (s.disOp m 2 d.1 0 0)

/-- KICK (R317). -/
def execKick (m : Fin 39) (d : Fin 1024) (s : State) : Outcome := .next (s.disOp m 3 d.1 0 0)

/-- REHOME (R323). -/
def execRehome (m : Fin 39) (d : Fin 1024) (e : Fin 32) (s : State) : Outcome := .next (s.disOp m 4 d.1 e.1 0)

/-- STATCLR (R333). -/
def execStatclr (m : Fin 39) (d : Fin 1024) (all : Bool) (s : State) : Outcome := .next (s.disOp m 5 d.1 0 (b2n all))

/-! ### Capture (13_capture.md) -/

/-- ARM (R407). -/
def execArm (m : Fin 39) (g : Fin 8) (s : State) : Outcome := .next (s.writeN m (aCAP_G_CTL g.1) 1)

/-- DISARM (R415). -/
def execDisarm (m : Fin 39) (g : Fin 8) (s : State) : Outcome := .next (s.writeN m (aCAP_G_CTL g.1) 2)

/-- FORCE (R411). -/
def execForce (m : Fin 39) (g : Fin 8) (s : State) : Outcome := .next (s.writeN m (aCAP_G_CTL g.1) 4)

/-- READOUT_START (R421): CAP_RD_CTL with START. -/
def execReadoutStart (m : Fin 39) (ch : Fin 64) (red : Fin 16) (hdr : Bool) (s : State) : Outcome :=
  .next (s.writeN m aCAP_RD_CTL (ch.1 + red.1 * 2 ^ 8 + b2n hdr * 2 ^ 12 + 2 ^ 16))

/-- CAP_RD_DATA (R422). -/
def execCapRdData (m : Fin 39) (s : State) : Outcome := .next (s.read m aCAP_RD_DATA)

/-! ### Field I/O (16_field_io.md) -/

/-- FLD_WDOG (R497). -/
def execFldWdog (m : Fin 39) (v : Word) (s : State) : Outcome := .next (s.write m (s.blk.pageFor aFLD_WDOG) v)

/-- FAULT_MASK_WRITE (R498). -/
def execFaultMaskWrite (m : Fin 39) (hi : Bool) (v : Word) (s : State) : Outcome :=
  .next (s.write m (s.blk.pageFor (if hi then aFLD_FMASK_HI else aFLD_FMASK_LO)) v)

/-! ### The host port's registers -/

/-- HST_FW_DATA_READ (R519, R520). -/
def execHstFwDataRead (m : Fin 39) (w : Fin 16) (s : State) : Outcome := .next (s.read m (aHST_FW_DATA w.1 0))

/-- HST_FW_DATA_WRITE (R520). -/
def execHstFwDataWrite (m : Fin 39) (w : Fin 16) (v : Word) (s : State) : Outcome := .next (s.write m (aHST_FW_DATA w.1 0) v)

/-- HST_CNT_CLR (R515). -/
def execHstCntClr (m : Fin 39) (s : State) : Outcome := .next (s.writeN m aHST_CTL 1)

/-- STAMP_LATCH (R524). -/
def execStampLatch (m : Fin 39) (source : Fin 256) (s : State) : Outcome := .next (s.read m (aIRQ_S_TIME_LO source.1))

/-- IRQ_S_ACK (R525). -/
def execIrqSAck (m : Fin 39) (source : Fin 256) (count : BitVec 16) (s : State) : Outcome :=
  .next (s.writeN m (aIRQ_S_ACK source.1) count.toNat)

/-- SNAPSHOT_REQUEST (R527). -/
def execSnapshotRequest (m : Fin 39) (s : State) : Outcome := .next (s.writeN m aSNP_CTL 1)

/-! ### Plant unit, scorepad, reset -/

/-- REALIGN (18_plant_time.md R542). -/
def execRealign (m : Fin 39) (s : State) : Outcome := .next (s.writeN m aPLT_CTL 1)

/-- PLT_CNT_CLR (R552). -/
def execPltCntClr (m : Fin 39) (s : State) : Outcome := .next (s.writeN m aPLT_CTL 2)

/-- PUSH (R545). -/
def execPush (m : Fin 39) (q : Fin 8) (v : Word) (s : State) : Outcome := .next (s.write m (aPLT_Q_PUSH q.1) v)

/-- PLT_MDIO (R531). -/
def execPltMdio (m : Fin 39) (v : Word) (s : State) : Outcome := .next (s.write m aPLT_MDIO v)

/-- SCP_HW_CMD (19_scorepad.md R565). -/
def execScpHwCmd (m : Fin 39) (v : Word) (s : State) : Outcome := .next (s.write m aSCP_HW_CMD v)

/-- SCP_RD_GO (R566). -/
def execScpRdGo (m : Fin 39) (s : State) : Outcome := .next (s.writeN m aSCP_RD_CTL 1)

/-- DEVRESET (20_clocks_power_reset.md R588). -/
def execDevreset (m : Fin 39) (s : State) : Outcome := .next (s.writeN m aCPR_CTL 1)

/-! ### The ports themselves -/

/-- ENDPOINT_RESET (R512): the PCIe endpoint alone returns to its defaults, its link down. -/
def execEndpointReset (s : State) : Outcome :=
  .next (s.onBlk fun b =>
    if b.flag HST_MODE_PORT then b else { b with host.pcie := Reset.host.pcie }.off HST_MODE_LINK_UP)

/-- LINK_UP (21_electrical_and_package.md R611): link training completes at a speed of Table 17.5. -/
def execLinkUp (speed : Fin 4) (s : State) : Outcome :=
  .next (s.onBlk fun b =>
    if b.flag HST_MODE_PORT then b else (b.on HST_MODE_LINK_UP).set HST_MODE_SPEED speed)

/-- The Command and Status word of the configuration space: Memory Space Enable, Interrupt Disable, Interrupt Status, the capability
list (PRESUMED, log entry 25). -/
def Block.configWord (b : Block) : Word :=
  BitVec.ofNat 32 (b2n b.host.pcie.memEnable * 2 + b2n b.host.pcie.intDisable * 2 ^ 10 + b2n b.intStatus * 2 ^ 19 + 2 ^ 20)

/-- CONFIGURATION_REQUEST (R510, R526). -/
def execConfigurationRequest (req : CfgReq) (s : State) : Outcome :=
  .next (s.onBlk fun b =>
    if b.flag HST_MODE_PORT then b
    else match req with
      | .read => b.answer 36 b.configWord
      | .command me dis => { b with host.pcie.memEnable := me, host.pcie.intDisable := dis }
      | .bar0 base => { b with host.pcie.bar0 := base.toNat / 2 ^ 24 * 2 ^ 24 }
      | .power d => { b with host.pcie.d3hot := d })

/-- The frame is refused or ends early: HST_SPI_ERR_CNT (R514). -/
def Block.spiError (b : Block) : Block := b.hostCount HST_SPI_ERR_CNT

/-- The address of word `k` of a frame: it stays at a window register, else it advances (R506, R513). -/
def frameAddr (a k : Nat) : Nat := if isWindow (wordAddr a) then a else a + 4 * k

/-- QSPI_FRAME (R513, R514): a read of `reads` words, ended early with the marker 0x5 where `late`; a write of the words of `data`, a
last one cut short where `cut`; any other command byte is an error. -/
def execQspiFrame (cmd : Byte) (addr : BitVec 24) (data : List Word) (reads : Nat) (late cut : Bool) (s : State) : Outcome :=
  .next (
    if ¬ s.blk.flag HST_MODE_PORT then s
    else if cmd = 0x0B then
      let s := (List.range reads).foldl (fun s k => s.read 36 (frameAddr addr.toNat k)) s
      if late then s.onBlk Block.spiError else s
    else if cmd = 0x02 then
      let s := (List.range data.length).foldl (fun s k => s.write 36 (frameAddr addr.toNat k) (data.getD k 0)) s
      if cut then s.onBlk Block.subWord else s
    else s.onBlk Block.spiError)

/-! ### Snapshots (R527 to R529) -/

/-- The register map with what reads would return, and an image's own tags. -/
def Block.imageWords (b : Block) (gen : Nat) : List (Nat × Word) :=
  let r := derivedAddrs.foldl (fun r a => sput resetReg r a (b.peek a)) b.regs
  let tags : List (Nat × Word) := [(aSNP_GEN, BitVec.ofNat 32 gen), (aSNP_ROUND, half b.round false), (aSNP_ROUND + 4, half b.round true),
    (aSNP_TIME, half b.ns false), (aSNP_TIME + 4, half b.ns true), (aSNP_TFRAC, BitVec.ofNat 32 b.frac),
    (aSNP_ANG, half (b.get ANG_ROUND) false), (aSNP_ANG + 4, half (b.get ANG_ROUND) true)]
  tags.foldl (fun r t => sput resetReg r t.1 t.2) r

/-- The domains that are off, one bit each. -/
def Block.offMask (b : Block) : Nat := (List.range 12).foldl (fun a n => setBits a n 1 (b2n !(b.domainOn n))) 0

/-- A boundary serves a pending request when no image is being written and no deck is dealt (R527, R528) (DEDUCED, log entry 95). -/
def Block.serveSnapshot (b : Block) : Block :=
  if ¬ b.flag SNP_STAT_PEND ∨ b.flag SNP_STAT_BUSY ∨ b.boot.dealing then b
  else
    let b := (b.off SNP_STAT_PEND).on SNP_STAT_BUSY
    let g := (b.host.gen + 1) % 2 ^ 32
    let img : Image := ⟨true, b.imageWords g, b.offMask, b.layout⟩
    let images := if g % 2 = 0 then b.host.images.set 0 img else b.host.images.set 1 img
    { b with
      host.gen := g, host.images := images, host.writing := some (g % 2)
      host.tags := (b.round, b.ns, b.frac, b.get ANG_ROUND) }

/-- SNAPSHOT_COMPLETE (R529): the tags take the new image's, and source 181 asserts. -/
def execSnapshotComplete (s : State) : Outcome :=
  .next (s.onBlk fun b =>
    match b.host.writing with
    | none => b
    | some h =>
      let (r, t, f, a) := b.host.tags
      let b : Block := { b with host.writing := none }
      let b := (((b.off SNP_STAT_BUSY).on SNP_STAT_READY).set SNP_STAT_IMG h).set SNP_GEN b.host.gen
      ((((b.set SNP_ROUND r).set SNP_TIME t).set SNP_TFRAC f).set SNP_ANG a).irq 181)

end Sys2Proof.Machine
end

