-- ==== Sys2Proof/Machine/Mirror.lean ====
section
/-!
DEFINITION. The mirror set (14_partners.md R441 to R449), the transfer to a new dummy (R456) and capture frames (13_capture.md R415,
R416).
-/

namespace Sys2Proof.Machine

/-! ### What a declarer sends -/

/-- Words of an item (Table 14.5). -/
def MirItem.size : MirItem → Nat
  | .header .. => 12
  | .commit _ _ ws => 2 + ws.length
  | .seed .. => 6
  | .rc .. => 3
  | .words _ ws => 1 + ws.length

/-- The SEED item of axis `i` (R444). -/
def Block.seedItem (b : Block) (i : Nat) : MirItem :=
  .seed i (b.geti (AX_CMDPOS i)) (b.geti (AX_CMDVEL i)) (satI 32 (sarRound (b.cmd i).a 32)) (b.ax i).cmode

/-- The WORDS items: the regions as they stand at this boundary (R442). -/
def Block.wordItems (b : Block) : List MirItem :=
  let rs := ((b.dealt.bind (·.mirror)).map (·.words)).getD []
  (List.range rs.length).map fun k =>
    let r := rs.getD k ⟨0, 0⟩
    .words k ((List.range r.words).map fun j => Memory.readWord b.mem (r.addr + 4 * j))

/-- Items that fit into `n` words, and those that wait. -/
def splitItems : Nat → List MirItem → List MirItem × List MirItem
  | _, [] => ([], [])
  | n, x :: t => if x.size ≤ n then let (u, v) := splitItems (n - x.size) t; (x :: u, v) else ([], x :: t)

/-- The mirror bytes of the round that ends (Table 14.9). -/
def Block.countMirror (b : Block) : Block :=
  let bytes := 4 * b.partner.mirWords
  ({ b with partner.mirWords := 0 }.set PTN_MIR_LAST bytes).peak PTN_MIR_PEAK bytes

/-- The commits and seeds of a boundary leave as far as they fit their reserve, after the header and before the WORDS regions; the rest
waits (R442, R446). -/
def Block.sendItems (b : Block) : Block :=
  let seeds := if b.partner.seedAll then b.axisList.map fun r => b.seedItem r.axis else []
  let (now, wait) := splitItems ((b.pair.map (·.commitWords)).getD 0) (b.partner.queue ++ seeds)
  let left := (wait.map (·.size)).sum
  let items := now ++ b.wordItems
  let h : MirItem := .header b.round (b.get PTN_EPOCH) (b.get ANG_ROUND) b.ang.w b.digest (items.length + 1) left
  let b : Block := { b with partner.seedAll := false, partner.queue := wait }
  let b := (b.sendWords ((h :: items).flatMap MirItem.toWords)).set PTN_BACKLOG left
  if left = 0 then b else b.raise PTN_FLAGS_BACKLOG 7

/-! ### What a dummy applies -/

/-- The plant time in ns of the boundary of `round`, one of the last three. -/
def Block.boundaryNs (b : Block) (round : Nat) : Nat :=
  (b.cap.times.toList.getD (b.roundsSince round) 0) / 2 ^ 32 % 2 ^ 64

/-- A header's round angle and ω̂ as a sample taken at the boundary (R449). Beside samples of the own source, one no later than the last
of those only sets the rate (DEDUCED, log entry 27). -/
def Block.headerSample (b : Block) (round angle : Nat) (omega : Int) : Block :=
  let tk := b.boundaryNs round
  if ¬ b.flag ANG_STAT_RUNNING then b
  else if b.ang.accepted ≠ 0 ∧ tk ≤ b.ang.lastT then
    (if b.ang.kind = 1 ∨ b.ang.kind = 4 then b.setRate omega else b.dropSample)
  else if 2 < b.roundsSince round then b.dropSample
  else (b.useSample angle tk).setRate omega

/-- The dummy's own round angle against the header's (R449). -/
def Block.angleCheck (b : Block) (round angle : Nat) : Block :=
  if round = b.round ∧ (b.ang.kind = 1 ∨ b.ang.kind = 4) then
    let d := angleDiff (b.get ANG_ROUND) angle / 2 ^ 32
    let b := b.seti PTN_ANG_DIFF d
    if b.get PTN_ANG_TOL < d.natAbs then b.raise PTN_FLAGS_ANG_TOL 7 else b
  else b

/-- Every helper of a dummy steps on the header's round angle and ω̂ (R441). -/
def Block.dummyHelpers (b : Block) (angle : Nat) (omega : Int) : Block :=
  let own := b.get ANG_ROUND
  let w := b.ang.w
  let last := b.partner.mirAngle
  let b := ({ b with ang.w := omega }.set ANG_ROUND angle).eachAxis fun b i => b.helperStep i last
  { b with ang.w := w, partner.mirAngle := angle }.set ANG_ROUND own

/-- A HEADER item. -/
def Block.takeHeader (b : Block) (round epoch angle : Nat) (omega : Int) (digest backlog : Nat) : Block :=
  let b := b.settleDigest
  let b := b.angleCheck round angle
  let b := (b.headerSample round angle omega).dummyHelpers angle omega
  let b : Block := { b with partner.digest := some digest }
  let b := if laterThan 32 epoch (b.get PTN_EPOCH) then b.set PTN_EPOCH epoch else b
  let b := b.set PTN_BACKLOG backlog
  if backlog = 0 then b else (b.raise PTN_FLAGS_BACKLOG 7).setReady false

/-- The fields a boundary commits of the register that holds the word at home offset `x`. -/
def commitFields (x : Nat) : List Fld :=
  match findReg x with
  | some h =>
    ((h.desc.fields.filter fun f => f.expert = .rws || f.basic = .rwv).map fun f => (⟨h.base, f.lo, f.w⟩ : Fld)).filter
      (·.words.contains x)
  | none => []

/-- The word at `x` with the parts of the fields `fs` that lie in it taken from `v`. -/
def mergeWord (x : Nat) (fs : List Fld) (old v : Nat) : Nat :=
  fs.foldl (fun a f =>
    if f.addr = x then setBits a f.lo (min f.w (32 - f.lo)) (bits v f.lo (min f.w (32 - f.lo)))
    else setBits a 0 (f.lo + f.w - 32) (bits v 0 (f.lo + f.w - 32))) old

/-- Fields of a loop, which a dummy does not close (R448): ENABLE, AUTO, INJ_EN. -/
def loopField (f : Fld) : Bool :=
  let i := (f.addr - 0xC0000) / 0x400
  f = AX_CTL_ENABLE i || f = AX_CTL_AUTO i || f = AX_CTL_INJ_EN i

/-- Committed words take effect together (R443): each field that changed acts, and profile and gearing values act whenever they are
committed. -/
def Block.takeWords (b : Block) (ws : List (Nat × Word)) : Block :=
  if ws.isEmpty then b
  else
    let ws := ws.filter fun p => mirroredReg p.1
    let olds := (ws.flatMap fun p => commitFields p.1).eraseDups.map fun f => (f, b.get f)
    let put (b : Block) (p : Nat × Word) : Block :=
      b.wr p.1 (BitVec.ofNat 32 (mergeWord p.1 (commitFields p.1) (b.rd p.1).toNat p.2.toNat))
    let b := ws.foldl put b
    let acts := (olds.map fun p => (p.1, p.2, b.get p.1)).filter fun a =>
      !loopField a.1 && (a.2.1 ≠ a.2.2 || (7 ≤ a.1.rank && a.1.rank ≤ 10))
    (b.actCommits acts).commitAngle.fixEnables

/-- A committed word or a command reaches a register as a write of master 38, which its policy block must allow (02_trust.md R55). -/
def Block.linkWrite (b : Block) (x : Nat) (f : Block → Block) : Block :=
  if b.passes 38 (fabricOf x) true then f b else b.violate 38 (fabricOf x) true

/-- A command with its staged words, or a SWITCH_GO (R443). A dummy's segment keeps the wanted contract until it runs the ring. -/
def Block.takeCommand (b : Block) (x : Nat) (ws : List Word) : Block :=
  let v := (ws.getLast?.getD 0).toNat
  let stage (b : Block) (a : Nat → Nat) : Block :=
    (List.range (ws.length - 1)).foldl (fun b j => b.wr (a j) (ws.getD j 0)) b
  if x = aANG_EVT_CMD then
    let b := stage b aANG_EVT_REC
    b.evtEdit v b.staged
  else if x = aDIS_CMD then ((stage b aDIS_DESC).off DIS_RES_BUSY).disCmd v
  else if 0x40000 ≤ x ∧ x < 0x80000 then
    let g := (x - 0x40000) / 0x8000
    if b.segUsed g then b.modSg g fun y => { y with want := some (bits v 4 3) } else b
  else b

/-- A SEED item: the helper starts CMODE from the triple (R444). -/
def Block.takeSeed (b : Block) (i : Nat) (x v a : Int) (m : Nat) : Block :=
  if ¬ b.axisExists i then b
  else
    let b := b.modAx i fun y => { y with
      gen := { y.gen with tr := ⟨x * 2 ^ 32, v * 2 ^ 32, a * 2 ^ 32⟩, plan := none }, starting := false, cmode := 0
      gear := { y.gear with blend := none } }
    ((b.set (AX_MCTL_CMODE i) m).startMode i (m % 4) 0).showHelper i

/-- Words of shared axis memory written by master 38, each checked (02_trust.md R55). -/
def Block.linkWords (b : Block) (a : Nat) : List Word → Block
  | [] => b
  | w :: t => (if b.passes 38 a true then b.memPut a w else b.violate 38 a true).linkWords (a + 4) t

/-- One item that is no committed word (DEDUCED, log entry 85). -/
def Block.takeItem (b : Block) : MirItem → Block
  | .header round epoch angle omega digest _ backlog => b.takeHeader round epoch angle omega digest backlog
  | .commit _ x ws => b.linkWrite x (·.takeCommand x ws)
  | .seed i x v a m => b.takeSeed i x v a m
  | .rc i p u => if b.rcMirrored i then b.modAx i fun y => { y with rc := sput (fun _ => 0) y.rc p u } else b
  | .words k ws =>
    match ((b.dealt.bind (·.mirror)).map (·.words)).bind (·[k]?) with
    | some r => b.linkWords r.addr (ws.take r.words)
    | none => b

/-- The committed word an item carries, if it is one. -/
def MirItem.word? : MirItem → Option (Nat × Word)
  | .commit _ x [w] => if 0x40000 ≤ x ∧ x < 0x80000 ∧ x % 0x8000 = 0x400 then none else some (x, w)
  | _ => none

/-- Items in order; `ws` are committed words not yet applied, which act as one set. -/
def Block.takeItems (b : Block) (ws : List (Nat × Word)) : List MirItem → Block
  | [] => b.takeWords ws
  | x :: t =>
    match x.word? with
    | some w =>
      if b.passes 38 (fabricOf w.1) true then b.takeItems (ws ++ [w]) t
      else (b.violate 38 (fabricOf w.1) true).takeItems ws t
    | none => ((b.takeWords ws).takeItem x).takeItems [] t

/-- The words of a WORDS record of the dealt deck. -/
def Block.regionWords (b : Block) (k : Nat) : Nat :=
  (((b.dealt.bind (·.mirror)).map (·.words)).bind (·[k]?)).elim 0 (·.words)

/-- MIRROR (R442, R443, R456): items apply on receipt, or wait while a transfer runs. After a lost frame the rest of its round is not
read (DEDUCED, log entry 134). -/
def mirrorFrame (f : Frame) (s : State) : Outcome :=
  .next (s.onBlk fun b =>
    if b.get PTN_STAT_ROLE ≠ 2 ∨ b.frozen 38 then b
    else
      let (ok, b) := b.acceptFrame f 2
      match ok, b.partner.rxPart with
      | true, some part =>
        let ws := part ++ b.frameWords f
        let (xs, rest) := cutItems (mirLen b.regionWords) ws.length ws
        let items := xs.filterMap mirItemOf
        let b : Block := { b with partner.rxPart := some rest }
        if b.partner.xferDone then b.takeItems [] items
        else { b with partner.held := b.partner.held ++ items.map (f.ptnRound, ·) }
      | _, _ => b)

/-- MIRROR: the frame as its bytes. -/
def execMirror (poison : Bool) (bytes : List Byte) (s : State) : Outcome :=
  mirrorFrame ⟨poison, bytes⟩ s

/-! ### The transfer (R456) -/

/-- One part of a transfer. -/
def Block.takeBulk (b : Block) : BulkItem → Block
  | .item x => b.takeItems [] [x]
  | .mem k ofs ws =>
    match ((b.dealt.bind (·.mirror)).map (·.words)).bind (·[k]?) with
    | some r => b.linkWords (r.addr + 4 * ofs) (ws.take (r.words - ofs))
    | none => b
  | .key x => b.takeSession x
  | .event h r => ((b.removeEvent h).addEvent h r).showCount
  | .desc d ws => if 256 ≤ d ∧ d < 1024 then (b.modDesc d fun _ => { Reset.desc with words := ws }).showUsed else b

/-- The words whose commits the transfer carries: those written since reset. -/
def Block.mirrored (b : Block) : List Nat := (b.regs.map (·.1)).filter mirroredReg

/-- The event table and the host-created descriptors give way to those of the transfer, and mirrored registers and tables the transfer does
not name are as after reset. -/
def Block.startBulk (b : Block) : Block :=
  let b : Block := { b with
    ang.absList := [], ang.cycList := [], ang.dueAbs := [], ang.dueCyc := [], descs := b.descs.filter (·.1 < 256) }
  let b := b.mirrored.foldl (fun b x =>
    b.wr x (BitVec.ofNat 32 (mergeWord x (commitFields x) (b.rd x).toNat (resetReg x).toNat))) b
  let b := b.eachAxis fun b i => if b.rcMirrored i then b.modAx i fun x => { x with rc := [] } else b
  b.showCount.showUsed

/-- A transfer (R456), all of it as it stands at this boundary: committed values, the event table, host-created descriptors, a SEED for
every axis, the tables of RC-mirrored axes, the WORDS regions, every K_L and K_S. -/
def Block.bulkItems (b : Block) : List BulkItem :=
  let rs := ((b.dealt.bind (·.mirror)).map (·.words)).getD []
  let keys (g : Nat) : List BulkItem :=
    (if (b.sg g).hasKl then [.key (.lead g (b.sg g).kl)] else []) ++
      (((List.range 64).filter fun p => (b.sn g p).session).map fun p => .key (.node g p (b.nodeSerial g p) (b.sn g p).ks))
  b.mirrored.map (fun x => .item (.commit (b.round % 2 ^ 16) x [b.rd x])) ++
    b.allEvents.map (fun r => .event r.handle r.words) ++
    (b.descs.filter (256 ≤ ·.1)).map (fun d => .desc d.1 d.2.words) ++
    b.axisList.map (fun r => .item (b.seedItem r.axis)) ++
    (b.axisList.filter fun r => b.rcMirrored r.axis).flatMap (fun r => (b.ax r.axis).rc.map fun p => .item (.rc r.axis p.1 p.2)) ++
    (List.range rs.length).flatMap (fun k =>
      let r := rs.getD k ⟨0, 0⟩
      let ws := (List.range r.words).map fun j => Memory.readWord b.mem (r.addr + 4 * j)
      ((pieces 64 ws.length ws).zipIdx.map fun p => .mem k (64 * p.2) p.1)) ++
    b.rings.flatMap keys

/-- A transfer that is due leaves in BULK frames, which take what the other types leave of the link (R435, R456). -/
def Block.sendBulk (b : Block) : Block :=
  if ¬ b.partner.bulkDue then b
  else
    let ps := packItems 255 [] (b.bulkItems.map BulkItem.toWords)
    let ps := if ps.isEmpty then [[]] else ps
    ps.zipIdx.foldl (fun b p => b.ptnSend 6 (bulkHead (p.2 = 0) (p.2 + 1 = ps.length) false b.round :: p.1))
      { b with partner.bulkDue := false }

/-- What a boundary sends (R438, R442, R456): a heartbeat in either role; of a declarer, mirror items and a transfer that is due. -/
def Block.sendMirror (b : Block) : Block :=
  if ¬ b.flag PTN_STAT_PAIRED then b
  else
    let b := (b.ptnSend 1 b.heartbeat.toWords).countMirror
    if b.get PTN_STAT_ROLE = 1 then b.sendItems.sendBulk else b

/-- BULK (R456): a dummy applies a frame of the transfer and, with the last one, what it held of later boundaries; a declarer is asked for a
transfer. -/
def bulkFrame (f : Frame) (s : State) : Outcome :=
  .next (s.onBlk fun b =>
    let role := b.get PTN_STAT_ROLE
    if (role ≠ 1 ∧ role ≠ 2) ∨ (role = 2 ∧ b.frozen 38) then b
    else
      let (ok, b) := b.acceptFrame f 6
      let ws := b.frameWords f
      let head := wordAt ws 0
      if ¬ ok then b
      else if role = 1 then (if bit head 2 then b.asDeclarer else b)
      else if b.partner.xferDone ∨ bit head 2 then b
      else
        let b := if bit head 0 then
            ({ b with partner.held := b.partner.held.filter fun x => laterThan 16 (x.1 % 2 ^ 16) (bits head 16 16) } : Block).startBulk
          else b
        let b := ((cutItems itemLen ws.length (ws.drop 1)).1.filterMap bulkItemOf).foldl Block.takeBulk b
        if bit head 1 then
          let held := b.partner.held.map (·.2)
          ({ b with partner.xferDone := true, partner.held := [] }.off PTN_STAT_XFER).takeItems [] held
        else b)

/-- BULK: the frame as its header, its ciphertext, and its tag with the CRC. -/
def execBulk (poison : Bool) (header payload trailer : List Byte) (s : State) : Outcome :=
  bulkFrame ⟨poison, header ++ payload ++ trailer⟩ s

/-! ### Capture frames -/

/-- CAPTURE_FRAME (Table 14.2; 13_capture.md R415, R416): OP 1 arms and 2 disarms a follower, 3 fires a group with a trigger time. Frames
that come while the partner link is frozen are dropped (DESIGN CHOICE, log entry 124). -/
def captureFrame (f : Frame) (s : State) : Outcome :=
  .next (s.onBlk fun b =>
    if ¬ b.flag PTN_STAT_PAIRED ∨ b.frozen 38 then b
    else
      let (ok, b) := b.acceptFrame f 4
      let ws := b.frameWords f
      let g := bits (wordAt ws 0) 0 3
      let op := bits (wordAt ws 0) 8 2
      if ¬ ok ∨ ¬ bit (b.get (CAP_G_CFG_MU g)) 1 then b
      else if op = 3 then b.capFire g (pairAt ws 1 * 2 ^ 32 + wordAt ws 3 : Nat)
      else if b.flag (CAP_G_CFG_MU_MASTER g) ∨ b.frozen 35 then b
      else if op = 1 then b.capAsk g
      else if op = 2 ∧ b.get (CAP_G_STAT_STATE g) ≠ 2 ∧ b.get (CAP_G_STAT_STATE g) ≠ 3 then b.capDisarm g
      else b)

/-- CAPTURE_FRAME: the frame as its header, its ciphertext, and its tag with the CRC (DESIGN CHOICE, log entry 124). -/
def execCaptureFrame (poison : Bool) (header payload trailer : List Byte) (s : State) : Outcome :=
  captureFrame ⟨poison, header ++ payload ++ trailer⟩ s

end Sys2Proof.Machine
end

