-- ==== Sys2Proof/Machine/Boundary.lean ====
section
/-!
DEFINITION. The round boundary (01_dealer_and_helpers.md R25, R26, R29): what every unit does at it, in one order.
-/

namespace Sys2Proof.Machine

/-- The capture engine reads a fabric word, or a pair, low word first, as master 35 (13_capture.md R400, R402); none for a read that is
not served. -/
def Block.capRead (b : Block) (a : Nat) (wide : Bool) : Option Int × Block :=
  let (l, b) := b.fabricRead 35 a
  if wide then
    let (h, b) := b.fabricRead 35 (a + 4)
    (l.bind fun l => h.map fun h => sgn 64 (l.toNat + h.toNat * 2 ^ 32), b)
  else (l.map fun l => sgn 32 l.toNat, b)

/-- The cyclic class of a segment in Run starts at the first boundary at which its operating contract is in force
(10_task_dispatch.md R332). -/
def Block.startClasses (b : Block) : Block :=
  if b.boot.dealing then b
  else b.each 8 fun b s =>
    if b.segUsed s ∧ b.get (SEG_STAT_STATE s) = 6 ∧ b.get (SEG_STAT_CONTRACT s) = b.segOp s then b.startSegTasks s else b

/-- Whether the helper of axis `i` runs a command mode, not the stepper jog. -/
def Block.helperAuto (b : Block) (i : Nat) : Bool := b.helperRuns i && !(b.ax i).jog

/-- The commits due are set (R25); feedback is evaluated and helpers step to the new round angle with them, then each commit acts on what
it finds (08_profiles_and_gearing.md R254); a declarer seeds the axes whose helper starts from the actual position (14_partners.md R444).
A dummy's helpers step with the mirror header. -/
def Block.helpersAndCommits (b : Block) (th0 : Nat) : Block :=
  let dummy := b.get PTN_STAT_ROLE = 2
  let axes := b.axisList.map (·.axis)
  let starts := axes.filter fun i => b.helperRuns i && (b.ax i).starting
  let idle := axes.filter fun i => !b.helperAuto i
  let (acts, b) := ({ b with shadow := [], due := [] } : Block).setCommits (b.shadow ++ b.due.map fun v => (v.fld, v.value))
  let b := b.each 16 Block.chBoundary
  let b := if dummy then b else axes.foldl (fun b i => b.helperStep i th0) b
  let b := (b.actCommits acts).each 16 Block.chRoundDone
  let b := axes.foldl (fun b i => b.rcFirst i (b.rcPointNow i)) b
  let seeds := axes.filter fun i => starts.contains i || (idle.contains i && b.helperAuto i && !(b.ax i).starting)
  seeds.foldl (fun b i => b.mirror (b.seedItem i)) b

/-- Everything the device does at a round boundary, but for the line-angle message and the quote, which name the device. -/
def Block.boundary (before : Block) : Block :=
  let b := before.keepViews.judgeRound.depose.dispatchStats
  let b : Block := { b.incWrap DEV_ROUND with roundAt := b.up }
  let th0 := b.get ANG_ROUND
  let b := (b.latchRoundAngle.helpersAndCommits th0).commitAngle.plantRoles
  let b := (List.finRange 8).foldl Block.segBoundary b
  let b := (b.evalB.buildWords).commitOutputs
  let b := b.latchInputs.nodeCommands.dropUnslotted.judgeLate
  let b := (b.startClasses.dispatchBoundary).capBoundary before Block.capRead
  let b := (b.sendMirror.bootBoundary).serveSnapshot
  { b with ang.stepped := false }

/-- ROUND_BOUNDARY (R24, R25); none while the device is in reset, or at another instant. -/
def execRoundBoundary (s : State) : Outcome :=
  .next (s.onBlk fun b =>
    if ¬ b.boot.released ∨ ¬ b.atBoundary then b
    else ((b.boundary).laTransmit s.nv.otp.serial.toNat).quoteBoundary s.nv.otp)

end Sys2Proof.Machine
end

