-- ==== Sys2Proof/Machine/EngineCtl.lean ====
section
/-!
DEFINITION. Control instructions of the loop engines (12_loop_engine_instructions.md R394 to R399;
11_loop_engine_model.md R359 to R362).
-/

namespace Sys2Proof.Machine

/-- NOP; a zero word outside every image is fault 0x01 (R379). -/
def execLeNop (e : Fin 32) (s : State) : Outcome :=
  .next (s.onBlk fun b => b.issue e.1 (controlWord 0 0) (fun _ => []) fun r _ =>
    if s.blk.imaged r.pc.toNat then Eff.start r else Eff.invalid r)

/-- A word whose target is not a word address is invalid (R394). -/
def Eff.jump (x : Eff) (t : Nat) : Eff := if t % 4 = 0 then { x with goto := some t } else x.fail 1

/-- B. -/
def execLeB (e : Fin 32) (t : BitVec 16) (s : State) : Outcome :=
  .next (s.onBlk fun b => b.issue e.1 (controlWord 1 t.toNat) (fun _ => []) fun r _ => ((Eff.start r).jump t.toNat).notAtEnd r)

/-- Whether a branch condition holds (Table 12.10); none where it is invalid. -/
def ERegs.condition (r : ERegs) (cond x : BitVec 4) : Option Bool :=
  let c := cond.toNat
  if c < 6 then (if h : x.toNat < 8 then some (signTest c r.g[x.toNat].toInt) else none)
  else if c < 12 then (if h : x.toNat < 4 then some (signTest (c - 6) (r.acc ⟨x.toNat, h⟩)) else none)
  else if c = 12 then some (bit r.sr.toNat x.toNat)
  else if c = 13 then some !(bit r.sr.toNat x.toNat)
  else none

/-- BC. -/
def execLeBc (e : Fin 32) (cond x : BitVec 4) (t : BitVec 16) (s : State) : Outcome :=
  .next (s.onBlk fun b => b.issue e.1 (controlWord 2 (cond.toNat * 2 ^ 20 + x.toNat * 2 ^ 16 + t.toNat))
    (fun _ => if cond.toNat < 6 then [0x08 + x.toNat] else if cond.toNat < 12 then [0x30 + 4 * x.toNat] else [])
    fun r _ => (match r.condition cond x with
      | some c => if t.toNat % 4 ≠ 0 then Eff.invalid r
        else if c then (Eff.start r).jump t.toNat else Eff.start r
      | none => Eff.invalid r).notAtEnd r)

/-- CALL (R362): a ninth push is fault 0x03. -/
def execCallInstruction (e : Fin 32) (t : BitVec 16) (s : State) : Outcome :=
  .next (s.onBlk fun b => b.issue e.1 (controlWord 3 t.toNat) (fun _ => []) fun r _ =>
    (if t.toNat % 4 ≠ 0 then Eff.invalid r
      else if 8 ≤ r.rets.length then (Eff.start r).fail 3
      else (Eff.start { r with rets := BitVec.ofNat 16 (r.pc.toNat + 4) :: r.rets }).jump t.toNat).notAtEnd r)

/-- The words of the frame that the standard law reads after a hook (Table 12.12). -/
def frameReads (st : Stage) : List Nat := if st = .hook1 then [0, 1, 2] else [10, 11, 12]

/-- The standard law goes on after a hook with what its frame holds (R398, Table 12.12). -/
def Block.hookReturn (b : Block) (e : Nat) (r : Run) : Block :=
  let w (k : Nat) : Nat := (b.xWord e (0xBFC0 + 4 * k)).toNat
  let i := b.descAxis r.inst.desc
  match r.stage with
  | .hook1 => b.afterHook1 e i { r.inputs with x := sgn 64 (w 0 + w 1 * 2 ^ 32), v := sgn 32 (w 2) }
  | _ => b.afterHook2 e i r.inputs { r.mid with trq := sgn 32 (w 10), vel := sgn 32 (w 11), aux := w 12 }

/-- RET (R362): an empty stack is fault 0x03; the last return of a hook goes back to the standard law (R399). -/
def execLeRet (e : Fin 32) (s : State) : Outcome :=
  .next (s.onBlk fun b =>
    let g := (b.eng e.1).regs
    match (b.eng e.1).run with
    | some r =>
      if b.comesTo e.1 (controlWord 4 0) ∧ (r.stage = .hook1 ∨ r.stage = .hook2) ∧ g.rets.length = 1 ∧ ¬ g.atEnd then
        let (bad, b) := b.eccRead e.1 ((engBase e.1 + g.pc.toNat) :: (frameReads r.stage).map fun k => bankAddr e.1 false (0xBFC0 + 4 * k))
        if bad then b.engineFault e.1 6 else (b.hookReturn e.1 r).showEngine e.1
      else b.issue e.1 (controlWord 4 0) (fun _ => []) fun r _ => (match r.rets with
        | t :: rest => { Eff.start { r with rets := rest } with goto := some t.toNat }
        | [] => (Eff.start r).fail 3).notAtEnd r
    | none => b)

/-- A repeat of the next `len` words (R359, R360): a count of 0 skips them; a fifth push is fault 0x02. -/
def repeatEff (r : ERegs) (len count : Nat) : Eff :=
  let start := (r.pc.toNat + 4) % 2 ^ 16
  (if count = 0 then { Eff.start r with goto := some ((start + 4 * len) % 2 ^ 16) }
    else if 4 ≤ r.reps.length then (Eff.start r).fail 2
    else { Eff.start { r with reps := ⟨count, start, (start + 4 * (len - 1)) % 2 ^ 16⟩ :: r.reps } with
      goto := some start }).notAtEnd r

/-- REPI: `len` is the body length less 1. -/
def execLeRepi (e : Fin 32) (len : BitVec 8) (count : BitVec 16) (s : State) : Outcome :=
  .next (s.onBlk fun b => b.issue e.1 (controlWord 5 (len.toNat * 2 ^ 16 + count.toNat)) (fun _ => []) fun r _ => repeatEff r (len.toNat + 1) count.toNat)

/-- REPG: the count from Gi[15:0]. -/
def execLeRepg (e : Fin 32) (len : BitVec 8) (i : Fin 8) (s : State) : Outcome :=
  .next (s.onBlk fun b => b.issue e.1 (controlWord 6 (len.toNat * 2 ^ 16 + i.1)) (fun _ => [0x08 + i.1]) fun r _ =>
    repeatEff r (len.toNat + 1) (r.g[i].toNat % 2 ^ 16))

/-- BRK (R361): pops the innermost repeat; an empty stack is invalid. -/
def execLeBrk (e : Fin 32) (s : State) : Outcome :=
  .next (s.onBlk fun b => b.issue e.1 (controlWord 7 0) (fun _ => []) fun r _ =>
    match r.reps with
    | x :: t => { Eff.start { r with reps := t } with goto := some ((x.fin + 4) % 2 ^ 16) }
    | [] => Eff.invalid r)

/-- END (R397): the task ends once its fabric loads have arrived. The standard law ends so as well. -/
def execLeEnd (e : Fin 32) (s : State) : Outcome :=
  .next (s.onBlk fun b =>
    match (b.eng e.1).run with
    | some r =>
      if r.stage = .ended ∨ (r.stage ≠ .law ∧ ¬ b.comesTo e.1 (controlWord 8 0)) then b
      else
        let (bad, b) := if r.stage = .law then (false, b) else b.eccRead e.1 [engBase e.1 + (b.eng e.1).regs.pc.toNat]
        if bad then b.engineFault e.1 6
        else if r.stage ≠ .law ∧ (b.eng e.1).loads.any (!·.held) then b.modRun e.1 fun r => { r with stage := .ended }
        else b.finish e.1
    | none => b)

/-- LDENT (R396): the entry block into G0 to G7. -/
def execLeLdent (e : Fin 32) (s : State) : Outcome :=
  .next (s.onBlk fun b => b.issue e.1 (controlWord 9 0) (fun _ => (List.range 8).map (0x08 + ·)) fun r rd =>
    { Eff.start { r with g := Vector.ofFn fun j : Fin 8 => rd false (0xFFE0 + 4 * j.1) } with
      reads := (List.range 8).map fun j => (false, 0xFFE0 + 4 * j) })

/-- BXC: BX := 63. -/
def execLeBxc (e : Fin 32) (s : State) : Outcome :=
  .next (s.onBlk fun b => b.issue e.1 (controlWord 0xA 0) (fun _ => [0x2D]) fun r _ => Eff.start { r with bx := 63 })

/-- FSYNC: waits, changing nothing, until every fabric store of the task has completed. -/
def execLeFsync (e : Fin 32) (s : State) : Outcome :=
  .next (s.onBlk fun b =>
    match (b.eng e.1).run with
    | some r =>
      if (b.eng e.1).stores.any fun t => t.desc = r.inst.desc && t.seq = r.inst.seq then b
      else b.issue e.1 (controlWord 0xB 0) (fun _ => []) fun r _ => Eff.start r
    | none => b)

/-- RESERVED_INSTRUCTION (R379, R372): a word that no operation spells, and a zero word outside every image, is fault 0x01. -/
def execReservedInstruction (e : Fin 32) (s : State) : Outcome :=
  .next (s.onBlk fun b =>
    let w := b.wordAt e.1
    if spelled w ∧ (w ≠ 0 ∨ b.imaged (b.eng e.1).regs.pc.toNat) then b
    else b.issue e.1 w (fun _ => []) fun r _ => Eff.invalid r)

end Sys2Proof.Machine
end

