-- ==== Sys2Proof/Machine/EngineMem.lean ====
section
/-!
DEFINITION. Bank and fabric access of the loop engines (12_loop_engine_instructions.md R392, R393).
-/

namespace Sys2Proof.Machine

/-! ### Bank access (Table 12.7) -/

/-- A class 0x5 word: its pointer's address, and for a pair the second address, then its update. -/
def Block.bankWord (b : Block) (e : Nat) (w : Word) (k : Fin 8) (upd : BitVec 3) (codes : List Nat)
    (f : ERegs → (Bool → Nat → Word) → Bool → Nat → Option Nat → Eff) : Block :=
  b.issue e w (fun r => codes ++ r.uses k) fun r rd => (f r rd (bankY k) (r.addr k) (r.addr2 k)).bump r k upd.toNat

/-- LD. -/
def execLeLd (e : Fin 32) (code : BitVec 7) (k : Fin 8) (upd : BitVec 3) (scn : Bool) (s : State) : Outcome :=
  .next (s.onBlk fun b => b.bankWord e.1 (bankForm 0 code.toNat k upd scn) k upd [code.toNat] fun r rd y a _ =>
    (((Eff.start r).load y a).setReg code.toNat (rd y a)).scanWord scn (rd y a))

/-- ST: an accumulator part is stored raw. -/
def execLeSt (e : Fin 32) (code : BitVec 7) (k : Fin 8) (upd : BitVec 3) (scn : Bool) (s : State) : Outcome :=
  .next (s.onBlk fun b => b.bankWord e.1 (bankForm 1 code.toNat k upd scn) k upd [code.toNat] fun r _ y a _ =>
    match r.read code.toNat with
    | some w => (Eff.start r).store y a w scn
    | none => Eff.invalid r)

/-- LDA: a word as Q1.31. -/
def execLeLda (e : Fin 32) (n : Fin 4) (k : Fin 8) (upd : BitVec 3) (scn : Bool) (s : State) : Outcome :=
  .next (s.onBlk fun b => b.bankWord e.1 (bankForm 2 n.1 k upd scn) k upd [0x30 + 4 * n.1] fun r rd y a _ =>
    (((Eff.start r).load y a).begin n ((rd y a).toInt * 2 ^ 32)).scanWord scn (rd y a))

/-- LDAP: An and An+1 from the pair; n is 0 or 2. -/
def execLeLdap (e : Fin 32) (n : Fin 4) (k : Fin 8) (upd : BitVec 3) (scn : Bool) (s : State) : Outcome :=
  .next (s.onBlk fun b => b.bankWord e.1 (bankForm 3 n.1 k upd scn) k upd [0x30 + 4 * n.1, 0x34 + 4 * n.1] fun r rd y a a2 =>
    match a2 with
    | some a2 =>
      if n.1 % 2 = 1 then Eff.invalid r
      else
        let x := (((Eff.start r).load y a).begin n ((rd y a).toInt * 2 ^ 32)).scanWord scn (rd y a)
        ((x.load y a2).begin (n + 1) ((rd y a2).toInt * 2 ^ 32)).scanWord scn (rd y a2)
    | none => Eff.invalid r)

/-- STA: fractional store. -/
def execLeSta (e : Fin 32) (n : Fin 4) (k : Fin 8) (upd : BitVec 3) (scn : Bool) (s : State) : Outcome :=
  .next (s.onBlk fun b => b.bankWord e.1 (bankForm 4 n.1 k upd scn) k upd [0x30 + 4 * n.1] fun r _ y a _ =>
    (Eff.start r).storeFrac y a (r.acc n) scn)

/-- STAP: fractional store of An and An+1; n is 0 or 2. -/
def execLeStap (e : Fin 32) (n : Fin 4) (k : Fin 8) (upd : BitVec 3) (scn : Bool) (s : State) : Outcome :=
  .next (s.onBlk fun b => b.bankWord e.1 (bankForm 5 n.1 k upd scn) k upd [0x30 + 4 * n.1, 0x34 + 4 * n.1] fun r _ y a a2 =>
    match a2 with
    | some a2 =>
      if n.1 % 2 = 1 then Eff.invalid r
      else ((Eff.start r).storeFrac y a (r.acc n) scn).storeFrac y a2 (r.acc (n + 1)) scn
    | none => Eff.invalid r)

/-- The 64-bit value of two words, low word first, with its sign. -/
def wide (l h : Word) : Int := (BitVec.ofNat 64 (h.toNat * 2 ^ 32 + l.toNat)).toInt

/-- LD64: L, then H, G the sign extension. -/
def execLeLd64 (e : Fin 32) (n : Fin 4) (k : Fin 8) (upd : BitVec 3) (scn : Bool) (s : State) : Outcome :=
  .next (s.onBlk fun b => b.bankWord e.1 (bankForm 6 n.1 k upd scn) k upd [0x30 + 4 * n.1] fun r rd y a a2 =>
    match a2 with
    | some a2 =>
      ((((Eff.start r).load y a).load y a2).begin n (wide (rd y a) (rd y a2))).scanWord scn (rd y a) |>.scanWord scn
        (rd y a2)
    | none => Eff.invalid r)

/-- ST64: integer store of L, then H. -/
def execLeSt64 (e : Fin 32) (n : Fin 4) (k : Fin 8) (upd : BitVec 3) (scn : Bool) (s : State) : Outcome :=
  .next (s.onBlk fun b => b.bankWord e.1 (bankForm 7 n.1 k upd scn) k upd [0x30 + 4 * n.1] fun r _ y a a2 =>
    match a2 with
    | some a2 =>
      let (l, h, o) := intStore (r.acc n)
      (((Eff.start r).store y a l scn).store y a2 h scn).satStore o
    | none => Eff.invalid r)

/-! ### Fabric access (Table 12.8) -/

/-- LDF. -/
def execLeLdf (e : Fin 32) (code : BitVec 7) (i fupd : Fin 4) (scn : Bool) (s : State) : Outcome :=
  .next (s.onBlk fun b => b.fabricLoad e.1 (fabricForm 0 i fupd code.toNat 0 0 scn) i fupd 4 4 (.reg code.toNat) scn (fun _ => [code.toNat]) fun r =>
    if (r.read code.toNat).isSome then Eff.start r else Eff.invalid r)

/-- STF. -/
def execLeStf (e : Fin 32) (code : BitVec 7) (i fupd : Fin 4) (scn : Bool) (s : State) : Outcome :=
  .next (s.onBlk fun b => b.fabricStore e.1 (fabricForm 1 i fupd code.toNat 0 0 scn) i fupd 4 (fun _ => [code.toNat]) fun r _ =>
    match r.read code.toNat with
    | some w => ((Eff.start r).scanWord scn w, [w])
    | none => (Eff.invalid r, [0]))

/-- LDF64. -/
def execLeLdf64 (e : Fin 32) (n : Fin 4) (i fupd : Fin 4) (scn : Bool) (s : State) : Outcome :=
  .next (s.onBlk fun b => b.fabricLoad e.1 (fabricForm 2 i fupd n.1 0 0 scn) i fupd 8 8 (.acc n) scn (fun _ => [0x30 + 4 * n.1]) Eff.start)

/-- STF64. -/
def execLeStf64 (e : Fin 32) (n : Fin 4) (i fupd : Fin 4) (scn : Bool) (s : State) : Outcome :=
  .next (s.onBlk fun b => b.fabricStore e.1 (fabricForm 3 i fupd n.1 0 0 scn) i fupd 8 (fun _ => [0x30 + 4 * n.1]) fun r _ =>
    let (l, h, o) := intStore (r.acc n)
    ((((Eff.start r).satStore o).scanWord scn l).scanWord scn h, [l, h]))

/-- The eight linear bank addresses of a block. -/
def blockAddrs (a : Nat) : List Nat := (List.range 8).map fun j => (a + 4 * j) % 2 ^ 16

/-- FLDB: 32 bytes into 8 bank words; both addresses 32-byte aligned. -/
def execLeFldb (e : Fin 32) (k : Fin 8) (upd : BitVec 3) (i fupd : Fin 4) (scn : Bool) (s : State) : Outcome :=
  .next (s.onBlk fun b =>
    let a := (b.eng e.1).regs.addr k
    b.fabricLoad e.1 (fabricForm 4 i fupd 0 k upd scn) i fupd 32 32 (.bank (bankY k) a scn) scn (fun r => r.uses k) fun r =>
      let x : Eff := { Eff.start r with writes := (blockAddrs a).map fun j => (bankY k, j, 0) }
      (if a % 32 = 0 then x else x.fail 4).bump r k upd.toNat)

/-- FSTB: 8 bank words to 32 fabric bytes, read at issue (DEDUCED, log entry 22). -/
def execLeFstb (e : Fin 32) (k : Fin 8) (upd : BitVec 3) (i fupd : Fin 4) (scn : Bool) (s : State) : Outcome :=
  .next (s.onBlk fun b => b.fabricStore e.1 (fabricForm 5 i fupd 0 k upd scn) i fupd 32 (fun r => r.uses k) fun r rd =>
    let a := r.addr k
    let ws := (blockAddrs a).map fun j => rd (bankY k) j
    let x : Eff := { Eff.start r with reads := (blockAddrs a).map fun j => (bankY k, j) }
    let x := ws.foldl (fun x w => x.scanWord scn w) x
    ((if a % 32 = 0 then x else x.fail 4).bump r k upd.toNat, ws))

end Sys2Proof.Machine
end

