-- ==== Sys2Proof/Machine/EngineFabric.lean ====
section
/-!
DEFINITION. The completion of the loop engines' fabric loads and stores (11_loop_engine_model.md R358, 12_loop_engine_instructions.md
R397), and the words they bring to the ordered flows (10_task_dispatch.md R327 to R330).
-/

namespace Sys2Proof.Machine

/-- Engine `e` as a bus master. -/
def engineMaster (e : Fin 32) : Fin 39 := ⟨e.1 + 2, by omega⟩

/-- `n` words from fabric address `a`, served in address order; none where one of them gets an error response. -/
def Block.serveWords (b : Block) (m : Fin 39) (a : Nat) : Nat → Option (List Word) × Block
  | 0 => (some [], b)
  | n + 1 =>
    match b.serveRead m a with
    | (none, b) => (none, b)
    | (some w, b) =>
      let (ws, b) := b.serveWords m (a + 4) n
      (ws.map (w :: ·), b)

/-! ### Loads -/

/-- The registers after the data of a load arrived: none where the register refuses the value (R356). -/
def Load.into (l : Load) (r : ERegs) (ws : List Word) : Option ERegs :=
  let r := if l.scan then ws.foldl (fun r w => r.scan (wordExp w)) r else r
  match l.dest with
  | .reg c => r.write c (ws.getD 0 0)
  | .acc n => some (r.beginSum n (wide (ws.getD 0 0) (ws.getD 1 0)))
  | .bank _ _ _ => some r

/-- The bank words a load writes. -/
def Block.loadBank (b : Block) (e : Nat) (l : Load) (ws : List Word) : Block :=
  match l.dest with
  | .bank y a _ => (List.range ws.length).foldl (fun b j => b.setBank e y ((a + 4 * j) % 2 ^ 16) (ws.getD j 0)) b
  | _ => b

/-- A fault of the pre-empted background task: it is abandoned, and its result closes (R372, R373). -/
def Block.heldFault (b : Block) (e code : Nat) : Block :=
  match (b.eng e).held with
  | none => b
  | some (r, n, _) =>
    let d := n.inst.desc
    let b := b.faultShown e code r.pc.toNat d
    let b := b.modEng e fun y => { y with
      held := none, loads := y.loads.filter (!·.held), dropped := y.dropped ++ y.loads.filter (·.held) }
    let b := b.closeWhenStored d n.inst.seq
    (b.ended d).nextTask e

/-- FABRIC_LOAD_RETURN (R358, R368): the oldest load's data arrives, or an error response raises fault 0x05. A task that has issued END
ends with its last load; a pre-empted task is restored once it has all of its data. A load whose task was abandoned completes, and
nothing takes its data (02_trust.md R58). -/
def execFabricLoadReturn (e : Fin 32) (error : Bool) (s : State) : Outcome :=
  .next (s.onBlk fun b =>
    match (b.eng e.1).dropped, (b.eng e.1).loads with
    | l :: t, _ =>
      let b := b.modEng e.1 fun y => { y with dropped := t }
      if error then b else (b.serveWords (engineMaster e) l.addr (l.len / 4)).2
    | [], [] => b
    | [], l :: t =>
      let b := b.modEng e.1 fun y => { y with loads := t }
      let (ws, b) := if error then (none, b) else b.serveWords (engineMaster e) l.addr (l.len / 4)
      let fail (b : Block) (c : Nat) : Block := if l.held then b.heldFault e.1 c else b.engineFault e.1 c
      match ws with
      | none => fail b 5
      | some ws =>
        let b := b.loadBank e.1 l ws
        let old := if l.held then ((b.eng e.1).held.map (·.1)).getD Reset.eregs else (b.eng e.1).regs
        match l.into old ws with
        | none => fail b 1
        | some r =>
          if l.held then
            let b := b.modEng e.1 fun y => { y with held := y.held.map fun h => (r, h.2) }
            if t.any (·.held) then b else b.nextTask e.1
          else
            let b := b.modEng e.1 fun y => { y with regs := r }
            if (b.eng e.1).run.any (·.stage = .ended) ∧ ¬ t.any (!·.held) then b.finish e.1 else b)

/-! ### Flow ports -/

/-- The record that six words make; a word written twice leaves another unwritten, and that one is free (DESIGN CHOICE, log entry 26). -/
def Block.flowRecord (b : Block) (ws : List (Nat × Word)) : SetRec × Block :=
  let step (p : List Word × Block) (k : Nat) : List Word × Block :=
    match (ws.filter (·.1 = k)).getLast? with
    | some w => (p.1 ++ [w.2], p.2)
    | none => let (n, b) := p.2.take; (p.1 ++ [Config.freeWord n], b)
  let (xs, b) := (List.range 6).foldl step ([], b)
  (Machine.recordOf xs, b)

/-- A word arrives at the input port of flow `f` at offset `o`, from descriptor `d` (R327, R328, R330). -/
def Block.flowWord (b : Block) (st : Store) (f o : Nat) (w : Word) : Block :=
  let x := b.desc st.desc
  if 9 ≤ f then (if o = 0x800 ∧ x.kind = 4 ∧ x.flowOf = f then b.appendResult f st.seq w else b)
  else if f = 8 then b
  else
    let i := b.descAxis st.desc
    let own := x.kind = 1 ∧ (b.axisRec i).any fun r => r.kind ≠ 3 && r.segment = f
    if ¬ own ∨ 24 ≤ o ∨ 6 ≤ x.out.length then b.flowDrop f 1
    else
      let b := b.modDesc st.desc fun y => { y with out := y.out ++ [(o / 4, w)] }
      if x.out.length = 5 then
        let (r, b) := b.flowRecord (b.desc st.desc).out
        b.deliver i st.round r
      else b

/-! ### Stores -/

/-- One word of an engine's store that passed the check: flow ports belong to engines; whether it got an error response
(DEDUCED, log entry 81). -/
def State.serveStore (s : State) (m : Fin 39) (st : Store) (fa : Nat) (w : Word) : Bool × State :=
  if 0x50000000 ≤ fa ∧ fa < 0x50010000 then (false, s.onBlk (·.flowWord st ((fa - 0x50000000) / 0x1000) (fa % 0x1000) w))
  else s.storeWord m fa w

/-- FABRIC_STORE_COMPLETE (R397, R358): the oldest store takes effect; an error response raises fault 0x05, which a task that has ended
no longer feels. A background result closes with the last store its task issued (R330). -/
def execFabricStoreComplete (e : Fin 32) (error : Bool) (s : State) : Outcome :=
  .next (
    match (s.blk.eng e.1).stores with
    | [] => s
    | st :: t =>
      let s := s.onBlk fun b => b.modEng e.1 fun y => { y with stores := t }
      let step (p : Bool × State) (j : Nat) : Bool × State :=
        let (bad, s) := p.2.serveStore (engineMaster e) st (st.addr + 4 * j) (st.words.getD j 0)
        (p.1 || bad, s)
      let (bad, s) := if error then (true, s) else (List.range st.words.length).foldl step (false, s)
      s.onBlk fun b =>
        let own (i : Inst) : Bool := i.desc = st.desc && i.seq = st.seq && i.round = st.round
        let runs := (b.eng e.1).run.any fun r => own r.inst
        let held := (b.eng e.1).held.any fun h => own h.2.1.inst
        if bad then
          if runs then b.engineFault e.1 5
          else if held then b.heldFault e.1 5
          else (b.faultShown e.1 5 (b.eng e.1).regs.pc.toNat st.desc).closeWhenStored st.desc st.seq
        else if runs ∨ held ∨ (b.desc st.desc).kind ≠ 4 then b
        else b.closeWhenStored st.desc st.seq)

end Sys2Proof.Machine
end

