-- ==== Sys2Proof/Machine/EngineInt.lean ====
section
/-!
DEFINITION. Integer operations, immediates and register moves of the loop engines
(12_loop_engine_instructions.md R389 to R391).
-/

namespace Sys2Proof.Machine

/-- The operand of a class 0x2 word: an immediate, sign-extended for ADD, SUB, MIN and MAX, or Gt; none where a reserved
bit is set. -/
def intOperand (op : Nat) (imm : Bool) (v : BitVec 16) (r : ERegs) : Option Word :=
  if imm then some (if op = 0 ∨ op = 1 ∨ op = 8 ∨ op = 9 then v.signExtend 32 else v.zeroExtend 32)
  else if h : v.toNat < 8 then some r.g[v.toNat] else none

/-- A class 0x2 word (R389). -/
def Block.intWord (b : Block) (e op : Nat) (d g : Fin 8) (imm : Bool) (v : BitVec 16) : Block :=
  b.issue e (integerWord op d g imm v) (fun _ => [0x08 + d.1, 0x08 + g.1] ++ (if imm then [] else [0x08 + v.toNat])) fun r _ =>
    match intOperand op imm v r with
    | some y => Eff.start { r with g := r.g.set d (intOp op r.g[g] y) }
    | none => Eff.invalid r

/-- ADD on general registers. -/
def execLeIntAdd (e : Fin 32) (d g : Fin 8) (imm : Bool) (v : BitVec 16) (s : State) : Outcome :=
  .next (s.onBlk fun b => b.intWord e.1 0 d g imm v)
/-- SUB on general registers. -/
def execLeIntSub (e : Fin 32) (d g : Fin 8) (imm : Bool) (v : BitVec 16) (s : State) : Outcome :=
  .next (s.onBlk fun b => b.intWord e.1 1 d g imm v)
/-- AND. -/
def execLeAnd (e : Fin 32) (d g : Fin 8) (imm : Bool) (v : BitVec 16) (s : State) : Outcome :=
  .next (s.onBlk fun b => b.intWord e.1 2 d g imm v)
/-- OR. -/
def execLeOr (e : Fin 32) (d g : Fin 8) (imm : Bool) (v : BitVec 16) (s : State) : Outcome :=
  .next (s.onBlk fun b => b.intWord e.1 3 d g imm v)
/-- XOR. -/
def execLeXor (e : Fin 32) (d g : Fin 8) (imm : Bool) (v : BitVec 16) (s : State) : Outcome :=
  .next (s.onBlk fun b => b.intWord e.1 4 d g imm v)
/-- LSL. -/
def execLeLsl (e : Fin 32) (d g : Fin 8) (imm : Bool) (v : BitVec 16) (s : State) : Outcome :=
  .next (s.onBlk fun b => b.intWord e.1 5 d g imm v)
/-- LSR. -/
def execLeLsr (e : Fin 32) (d g : Fin 8) (imm : Bool) (v : BitVec 16) (s : State) : Outcome :=
  .next (s.onBlk fun b => b.intWord e.1 6 d g imm v)
/-- ASR. -/
def execLeAsr (e : Fin 32) (d g : Fin 8) (imm : Bool) (v : BitVec 16) (s : State) : Outcome :=
  .next (s.onBlk fun b => b.intWord e.1 7 d g imm v)
/-- MIN, signed. -/
def execLeMin (e : Fin 32) (d g : Fin 8) (imm : Bool) (v : BitVec 16) (s : State) : Outcome :=
  .next (s.onBlk fun b => b.intWord e.1 8 d g imm v)
/-- MAX, signed. -/
def execLeMax (e : Fin 32) (d g : Fin 8) (imm : Bool) (v : BitVec 16) (s : State) : Outcome :=
  .next (s.onBlk fun b => b.intWord e.1 9 d g imm v)

/-- A register LDIH may not name: of 16 bits, or part of an accumulator (R390). -/
def narrowReg (code : Nat) : Bool := (0x10 ≤ code && code < 0x1C) || (0x30 ≤ code && code < 0x40)

/-- LDI: a sign-extended immediate. -/
def execLeLdi (e : Fin 32) (code : BitVec 7) (imm : BitVec 16) (s : State) : Outcome :=
  .next (s.onBlk fun b => b.issue e.1 (immediateWord false code imm) (fun _ => [code.toNat]) fun r _ =>
    (Eff.start r).setReg code.toNat (imm.signExtend 32))

/-- LDIH: an immediate into bits [31:16]. -/
def execLeLdih (e : Fin 32) (code : BitVec 7) (imm : BitVec 16) (s : State) : Outcome :=
  .next (s.onBlk fun b => b.issue e.1 (immediateWord true code imm) (fun _ => [code.toNat]) fun r _ =>
    match r.read code.toNat with
    | some w => if narrowReg code.toNat then Eff.invalid r
      else (Eff.start r).setReg code.toNat (BitVec.ofNat 32 (imm.toNat * 2 ^ 16 + w.toNat % 2 ^ 16))
    | none => Eff.invalid r)

/-- MOV (R391). -/
def execLeMov (e : Fin 32) (dst src : BitVec 7) (s : State) : Outcome :=
  .next (s.onBlk fun b => b.issue e.1 (moveWord dst src) (fun _ => [dst.toNat, src.toNat]) fun r _ =>
    match r.read src.toNat with
    | some w => (Eff.start r).setReg dst.toNat w
    | none => Eff.invalid r)

end Sys2Proof.Machine
end

