-- ==== Sys2Proof/Machine/EngineMul.lean ====
section
/-!
DEFINITION. M-format words and accumulator operations of the loop engines (12_loop_engine_instructions.md R381 to R388).
-/

namespace Sys2Proof.Machine

/-! ### Moves (R383, R386) -/

/-- A move field (Table 12.5). -/
structure Move where
  mop : Nat
  sel : Nat
  p : Nat
  upd : Nat
  deriving DecidableEq, Repr

/-- The fields of XM or YM. -/
def moveOf (m : BitVec 10) : Move := ⟨bits m.toNat 7 3, bits m.toNat 5 2, bits m.toNat 3 2, bits m.toNat 0 3⟩

/-- A move field that Table 12.5 does not call invalid. -/
def Move.valid (m : Move) : Bool :=
  m.mop ≤ 5 && (m.mop = 0 || m.upd ≤ 4) &&
    (match m.mop with
      | 1 | 5 => decide (m.sel < 2)
      | 2 => m.sel = 0
      | 4 => m.sel % 2 = 0
      | _ => true)

/-- The pointer of a move: P0 to P3 in XM, P4 to P7 in YM. -/
def Move.ptr (m : Move) (y : Bool) : Fin 8 := ⟨m.p % 4 + (if y then 4 else 0), by split <;> omega⟩

/-- Operand register A or B of a bank takes a word. -/
def Eff.operand (x : Eff) (y : Bool) (i : Fin 2) (w : Word) : Eff :=
  { x with regs := if y then { x.regs with y := x.regs.y.set i w } else { x.regs with x := x.regs.x.set i w } }

/-- Steps 1, 2 and 4 of R384 for one move: `r` holds the values before the word, `rd` the bank. A word loaded or stored is
scanned where SCN is 1, a TAP word once (R385). -/
def Eff.move (x : Eff) (r : ERegs) (rd : Bool → Nat → Word) (m : Move) (y scn : Bool) : Eff :=
  let k := m.ptr y
  let a := r.addr k
  let pair (f : Eff → Nat → Eff) (x : Eff) : Eff := match r.addr2 k with
    | some a2 => f x a2
    | none => x.fail 1
  let ld (x : Eff) (a : Nat) (i : Fin 2) : Eff := ((x.load y a).operand y i (rd y a)).scanWord scn (rd y a)
  let n : Fin 4 := ⟨m.sel % 4, by omega⟩
  match m.mop with
  | 0 => x
  | 1 => ld x a ⟨m.sel % 2, by omega⟩
  | 2 => pair (fun x a2 => ld x a2 1) (ld x a 0)
  | 3 => x.storeFrac y a (r.acc n) scn
  | 4 => pair (fun x a2 => x.storeFrac y a2 (r.acc (n + 1)) scn) (x.storeFrac y a (r.acc n) scn)
  | _ => pair (fun x a2 => x.store y a2 (rd y a) false) (ld x a ⟨m.sel % 2, by omega⟩)

/-! ### Products and routes (R382, R384) -/

/-- The multipliers an accumulator receives on a route (Table 12.4), with their signs. -/
def routeOf (rt : Fin 4) (n : Fin 4) : List (Fin 4 × Int) :=
  match rt, n with
  | 0, n => [(n, 1)]
  | 1, 0 => [(0, 1), (3, -1)]
  | 1, 1 => [(1, 1), (2, 1)]
  | 2, 0 => [(0, 1), (3, 1)]
  | 2, 1 => [(2, 1), (1, -1)]
  | 3, 0 => [(0, 1), (3, 1)]
  | 3, 1 => [(1, 1), (2, 1)]
  | _, _ => []

/-- The operands of a multiplier (Table 11.4). -/
def ERegs.mul (r : ERegs) (int : Bool) (m : Fin 4) : Int :=
  match m with
  | 0 => product int r.x[0] r.y[0]
  | 1 => product int r.x[0] r.y[1]
  | 2 => product int r.x[1] r.y[0]
  | 3 => product int r.x[1] r.y[1]

/-- Step 5 of R384: accumulator `n` takes its combination by AOP; one that receives no enabled product is unchanged. -/
def Eff.accumulate (x : Eff) (r : ERegs) (men : BitVec 4) (rt : Fin 4) (int : Bool) (aop : Nat) (n : Fin 4) : Eff :=
  let ms := (routeOf rt n).filter fun m => men.getLsbD m.1.1
  if ms.isEmpty then x
  else
    let c : Int := (ms.map fun m => m.2 * r.mul int m.1).sum
    match aop with
    | 0 => x.begin n c
    | 1 => x.sum n (x.regs.acc n + c)
    | _ => x.sum n (x.regs.acc n - c)

/-- An M-format word (Table 12.3). With MEN = 0 it is a pure move, and AOP and RT must be 0. -/
def mulWord (aop : Nat) (men : BitVec 4) (rt : Fin 4) (int : Bool) (xm ym : BitVec 10) (scn : Bool) (r : ERegs)
    (rd : Bool → Nat → Word) : Eff :=
  let mx := moveOf xm
  let my := moveOf ym
  if ¬ mx.valid ∨ ¬ my.valid ∨ (men = 0 ∧ (aop ≠ 0 ∨ rt ≠ 0)) then Eff.invalid r
  else
    let x := ((Eff.start r).move r rd mx false scn).move r rd my true scn
    let loaded := x.regs
    let x := (List.finRange 4).foldl (fun x n => x.accumulate loaded men rt int aop n) x
    let x := if mx.mop = 0 then x else x.bump r (mx.ptr false) mx.upd
    if my.mop = 0 then x else x.bump r (my.ptr true) my.upd

/-- The registers an M-format word names: operand registers, every accumulator it may read or write, the pointers of its
moves. -/
def mulCodes (xm ym : BitVec 10) (r : ERegs) : List Nat :=
  [0, 1, 2, 3, 0x30, 0x34, 0x38, 0x3C] ++
    (if (moveOf xm).mop = 0 then [] else r.uses ((moveOf xm).ptr false)) ++
    (if (moveOf ym).mop = 0 then [] else r.uses ((moveOf ym).ptr true))

/-- MPY (Table 12.3). -/
def execLeMpy (e : Fin 32) (men : BitVec 4) (rt : Fin 4) (int : Bool) (xm ym : BitVec 10) (scn : Bool) (s : State) : Outcome :=
  .next (s.onBlk fun b => b.issue e.1 (multiplyForm 0 men rt int xm ym scn) (mulCodes xm ym) (mulWord 0 men rt int xm ym scn))

/-- MAC (Table 12.3). -/
def execLeMac (e : Fin 32) (men : BitVec 4) (rt : Fin 4) (int : Bool) (xm ym : BitVec 10) (scn : Bool) (s : State) : Outcome :=
  .next (s.onBlk fun b => b.issue e.1 (multiplyForm 1 men rt int xm ym scn) (mulCodes xm ym) (mulWord 1 men rt int xm ym scn))

/-- MSU (Table 12.3). -/
def execLeMsu (e : Fin 32) (men : BitVec 4) (rt : Fin 4) (int : Bool) (xm ym : BitVec 10) (scn : Bool) (s : State) : Outcome :=
  .next (s.onBlk fun b => b.issue e.1 (multiplyForm 2 men rt int xm ym scn) (mulCodes xm ym) (mulWord 2 men rt int xm ym scn))

/-! ### Accumulator operations (Table 12.6) -/

/-- Codes of accumulators. -/
def accCodes (ns : List (Fin 4)) : List Nat := ns.map fun n => 0x30 + 4 * n.1

/-- CLR. -/
def execLeClr (e : Fin 32) (n : Fin 4) (s : State) : Outcome :=
  .next (s.onBlk fun b => b.issue e.1 (accWord 0 n 0 0 0) (fun _ => accCodes [n]) fun r _ => (Eff.start r).begin n 0)

/-- MOVA: An := Am, Sn := Sm. -/
def execLeMova (e : Fin 32) (n m : Fin 4) (s : State) : Outcome :=
  .next (s.onBlk fun b => b.issue e.1 (accWord 1 n m 0 0) (fun _ => accCodes [n, m]) fun r _ =>
    Eff.start { r with a := r.a.set n r.a[m], sat := r.sat.set n r.sat[m] })

/-- ADD. -/
def execLeAdd (e : Fin 32) (n m : Fin 4) (s : State) : Outcome :=
  .next (s.onBlk fun b => b.issue e.1 (accWord 2 n m 0 0) (fun _ => accCodes [n, m]) fun r _ => (Eff.start r).sum n (r.acc n + r.acc m))

/-- SUB. -/
def execLeSub (e : Fin 32) (n m : Fin 4) (s : State) : Outcome :=
  .next (s.onBlk fun b => b.issue e.1 (accWord 3 n m 0 0) (fun _ => accCodes [n, m]) fun r _ => (Eff.start r).sum n (r.acc n - r.acc m))

/-- BFY: sum and difference of the values held before; n and m differ. -/
def execLeBfy (e : Fin 32) (n m : Fin 4) (s : State) : Outcome :=
  .next (s.onBlk fun b => b.issue e.1 (accWord 4 n m 0 0) (fun _ => accCodes [n, m]) fun r _ =>
    if n = m then Eff.invalid r else ((Eff.start r).sum n (r.acc n + r.acc m)).sum m (r.acc n - r.acc m))

/-- NEG. -/
def execLeNeg (e : Fin 32) (n : Fin 4) (s : State) : Outcome :=
  .next (s.onBlk fun b => b.issue e.1 (accWord 5 n 0 0 0) (fun _ => accCodes [n]) fun r _ => (Eff.start r).sum n (-(r.acc n)))

/-- ABS; of the negative limit it gives the positive limit and saturates (R388). -/
def execLeAbs (e : Fin 32) (n : Fin 4) (s : State) : Outcome :=
  .next (s.onBlk fun b => b.issue e.1 (accWord 6 n 0 0 0) (fun _ => accCodes [n]) fun r _ =>
    (Eff.start r).sum n (if r.acc n < 0 then -(r.acc n) else r.acc n))

/-- ASH: shift by a signed immediate. -/
def execLeAsh (e : Fin 32) (n : Fin 4) (k : BitVec 7) (s : State) : Outcome :=
  .next (s.onBlk fun b => b.issue e.1 (accWord 7 n 0 0 k.toNat) (fun _ => accCodes [n]) fun r _ => (Eff.start r).sum n (shiftAcc (r.acc n) k.toInt))

/-- ASHG: shift by a general register. -/
def execLeAshg (e : Fin 32) (n : Fin 4) (i : Fin 8) (s : State) : Outcome :=
  .next (s.onBlk fun b => b.issue e.1 (accWord 8 n 0 i 0) (fun _ => (0x08 + i.1) :: accCodes [n]) fun r _ =>
    (Eff.start r).sum n (shiftAcc (r.acc n) (shiftCount r.g[i])))

/-- ASHA: shift all four accumulators by a general register. -/
def execLeAsha (e : Fin 32) (i : Fin 8) (s : State) : Outcome :=
  .next (s.onBlk fun b => b.issue e.1 (accWord 9 0 0 i 0) (fun _ => (0x08 + i.1) :: accCodes [0, 1, 2, 3]) fun r _ =>
    (List.finRange 4).foldl (fun x n => x.sum n (shiftAcc (r.acc n) (shiftCount r.g[i]))) (Eff.start r))

/-- ASHB: shift by the block exponent. -/
def execLeAshb (e : Fin 32) (n : Fin 4) (s : State) : Outcome :=
  .next (s.onBlk fun b => b.issue e.1 (accWord 10 n 0 0 0) (fun _ => 0x2D :: accCodes [n]) fun r _ =>
    (Eff.start r).sum n (shiftAcc (r.acc n) r.bx))

/-- SCAN (R352). -/
def execLeScan (e : Fin 32) (n : Fin 4) (s : State) : Outcome :=
  .next (s.onBlk fun b => b.issue e.1 (accWord 11 n 0 0 0) (fun _ => 0x2D :: accCodes [n]) fun r _ => Eff.start (r.scan (accExp (r.acc n))))

end Sys2Proof.Machine
end

