-- ==== Sys2Proof/Machine/Time.lean ====
section
/-!
DEFINITION. One nanosecond of the device (04_line_angle.md R113, R127), and the edges of CAPIN, with the capture triggers that follow
them (13_capture.md Table 13.3).
-/

namespace Sys2Proof.Machine

/-- The step from angle `x` by `d` crosses `key`: forward or reverse, as `edge` permits (R411). -/
def crossesKey (key x : Nat) (d : Int) (edge : Nat) : Bool :=
  let f : Nat := (key + 2 ^ 64 - x % 2 ^ 64) % 2 ^ 64
  let r : Nat := (x + 2 ^ 64 - key % 2 ^ 64) % 2 ^ 64
  (bit edge 0 && decide (0 < f ∧ (f : Int) ≤ d)) || (bit edge 1 && decide (0 < r ∧ (r : Int) ≤ -d))

/-- Angle triggers of this nanosecond, with `x` the extrapolated angle before it (DEDUCED, log entry 51) (DEDUCED, log entry 104). -/
def Block.angleTriggers (b : Block) (x : Nat) : Block :=
  let d := angleDiff b.angle x
  b.each 8 fun b g =>
    if b.get (CAP_G_CFG_TKIND g) = 2 ∧ crossesKey (b.get (CAP_G_KEY g)) x d (b.get (CAP_G_CFG_EDGE g)) then
      b.capTrigger g b.time (b.get (CAP_G_KEY g)) true
    else b

/-- EXTRAPOLATOR_STEP (R113): one nanosecond passes; plant time and the estimate advance, events and triggers match, and the partner link
goes on (14_partners.md R435). -/
def execExtrapolatorStep (s : State) : Outcome :=
  .next (s.onBlk fun b =>
    let x := b.angle
    let b := b.tick.advanceAngle.notePath
    (b.matchEvents.angleTriggers x).elapse.transmit)

/-- CAPIN triggers: the time and the angle of the edge's first transition (R143). -/
def Block.capinTriggers (b : Block) (i : Fin 8) (rising : Bool) : Block :=
  let (th, t) := b.pathAt (8 * b.ang.capCfg[i].2)
  b.each 8 fun b g =>
    if b.get (CAP_G_CFG_TKIND g) = 3 ∧ b.get (CAP_G_CFG_CIN g) = i.1 ∧
        bit (b.get (CAP_G_CFG_EDGE g)) (if rising then 0 else 1) then
      b.capTrigger g t (th / 2 ^ 32) true
    else b

/-- CAPIN_EDGE (R143, R144): an edge that passed its filter. -/
def execCapinEdge (i : Fin 8) (rising : Bool) (s : State) : Outcome :=
  .next (s.onBlk fun b => (b.capEdge i rising).capinTriggers i rising)

end Sys2Proof.Machine
end

