-- ==== Sys2Proof/Machine/Dispatch.lean ====
section
/-!
DEFINITION. One arm per command, each one direct call of its meaning.
-/

namespace Sys2Proof.Machine

def exec (i : Instr) (s : State) : Host.Outcome State Fault Refusal :=
  match i with
  | .roundBoundary => Sys2Proof.Machine.execRoundBoundary s
  | .commitLatchClose => Sys2Proof.Machine.execCommitLatchClose s
  | .hostRegisterWrite m addr v => Sys2Proof.Machine.execHostRegisterWrite m addr v s
  | .subWordAccess m write => Sys2Proof.Machine.execSubWordAccess m write s
  | .lowWordRead m addr => Sys2Proof.Machine.execLowWordRead m addr s
  | .lowWordWrite m addr v => Sys2Proof.Machine.execLowWordWrite m addr v s
  | .highWordWrite m addr v => Sys2Proof.Machine.execHighWordWrite m addr v s
  | .rwvWrite m addr v => Sys2Proof.Machine.execRwvWrite m addr v s
  | .rwvValidation => Sys2Proof.Machine.execRwvValidation s
  | .d2dTransfer c0 c1 => Sys2Proof.Machine.execD2dTransfer c0 c1 s
  | .d2dTimeout => Sys2Proof.Machine.execD2dTimeout s
  | .builderFetch j => Sys2Proof.Machine.execBuilderFetch j s
  | .resetRelease mode => Sys2Proof.Machine.execResetRelease mode s
  | .startUpStepOverrun step => Sys2Proof.Machine.execStartUpStepOverrun step s
  | .channelBSelfTest pass => Sys2Proof.Machine.execChannelBSelfTest pass s
  | .deckFlashRead => Sys2Proof.Machine.execDeckFlashRead s
  | .violation m addr len write beside => Sys2Proof.Machine.execViolation m addr len write beside s
  | .frozenHandMove e => Sys2Proof.Machine.execFrozenHandMove e s
  | .chalNew m => Sys2Proof.Machine.execChalNew m s
  | .challengeExpiry debug => Sys2Proof.Machine.execChallengeExpiry debug s
  | .tokenGo m => Sys2Proof.Machine.execTokenGo m s
  | .tokenVerified => Sys2Proof.Machine.execTokenVerified s
  | .debugToken words => Sys2Proof.Machine.execDebugToken words s
  | .quoteReq m => Sys2Proof.Machine.execQuoteReq m s
  | .quoteReady => Sys2Proof.Machine.execQuoteReady s
  | .dbgLock m => Sys2Proof.Machine.execDbgLock m s
  | .fifoClr m => Sys2Proof.Machine.execFifoClr m s
  | .truFifo m w => Sys2Proof.Machine.execTruFifo m w s
  | .provision m args => Sys2Proof.Machine.execProvision m args s
  | .deal m len => Sys2Proof.Machine.execDeal m len s
  | .mbData m w => Sys2Proof.Machine.execMbData m w s
  | .dealingEnd pcrc => Sys2Proof.Machine.execDealingEnd pcrc s
  | .store m => Sys2Proof.Machine.execStore m s
  | .storeDone ok => Sys2Proof.Machine.execStoreDone ok s
  | .abort m => Sys2Proof.Machine.execAbort m s
  | .version m => Sys2Proof.Machine.execVersion m s
  | .mbReply m => Sys2Proof.Machine.execMbReply m s
  | .angCtl m v => Sys2Proof.Machine.execAngCtl m v s
  | .angleSample kind index v tk uncertain => Sys2Proof.Machine.execAngleSample kind index v tk uncertain s
  | .extrapolatorStep => Sys2Proof.Machine.execExtrapolatorStep s
  | .virtualRateSlew => Sys2Proof.Machine.execVirtualRateSlew s
  | .handoverAbandon => Sys2Proof.Machine.execHandoverAbandon s
  | .sourceLost => Sys2Proof.Machine.execSourceLost s
  | .rateRamp => Sys2Proof.Machine.execRateRamp s
  | .pulseEnd pin => Sys2Proof.Machine.execPulseEnd pin s
  | .evtInsert m => Sys2Proof.Machine.execEvtInsert m s
  | .evtDelete m handle => Sys2Proof.Machine.execEvtDelete m handle s
  | .evtReplace m handle => Sys2Proof.Machine.execEvtReplace m handle s
  | .evtRead m handle => Sys2Proof.Machine.execEvtRead m handle s
  | .editComplete => Sys2Proof.Machine.execEditComplete s
  | .capinEdge j rising => Sys2Proof.Machine.execCapinEdge j rising s
  | .angCapPop m j => Sys2Proof.Machine.execAngCapPop m j s
  | .receiverLock port => Sys2Proof.Machine.execReceiverLock port s
  | .lossOfLock port => Sys2Proof.Machine.execLossOfLock port s
  | .upstreamTurn seg p far ofs x => Sys2Proof.Machine.execUpstreamTurn seg p far ofs x s
  | .turnWindowClose seg p => Sys2Proof.Machine.execTurnWindowClose seg p s
  | .breakNotice n => Sys2Proof.Machine.execBreakNotice n s
  | .ringClosure ring => Sys2Proof.Machine.execRingClosure ring s
  | .leadBlockReceived ring far ofs x blocks => Sys2Proof.Machine.execLeadBlockReceived ring far ofs x blocks s
  | .segStart m seg => Sys2Proof.Machine.execSegStart m seg s
  | .segStop m seg => Sys2Proof.Machine.execSegStop m seg s
  | .switchGo m seg target => Sys2Proof.Machine.execSwitchGo m seg target s
  | .contractRequest seg c => Sys2Proof.Machine.execContractRequest seg c s
  | .segmentRestart seg => Sys2Proof.Machine.execSegmentRestart seg s
  | .listenEnd seg => Sys2Proof.Machine.execListenEnd seg s
  | .coldTimeout seg => Sys2Proof.Machine.execColdTimeout seg s
  | .call seg arrival x => Sys2Proof.Machine.execCall seg arrival x s
  | .integrateEnd seg => Sys2Proof.Machine.execIntegrateEnd seg s
  | .enumR seg arrival poison body crc => Sys2Proof.Machine.execEnumR seg arrival poison body crc s
  | .enumUnanswered seg => Sys2Proof.Machine.execEnumUnanswered seg s
  | .auth2 seg p poison body crc => Sys2Proof.Machine.execAuth2 seg p poison body crc s
  | .auth4 seg p poison bytes => Sys2Proof.Machine.execAuth4 seg p poison bytes s
  | .auth4Nak seg p x => Sys2Proof.Machine.execAuth4Nak seg p x s
  | .authTimeout seg p => Sys2Proof.Machine.execAuthTimeout seg p s
  | .startTimeout seg => Sys2Proof.Machine.execStartTimeout seg s
  | .nack seg p x => Sys2Proof.Machine.execNack seg p x s
  | .switchDecision seg => Sys2Proof.Machine.execSwitchDecision seg s
  | .contractSwitch seg => Sys2Proof.Machine.execContractSwitch seg s
  | .claim seg window poison bytes => Sys2Proof.Machine.execClaim seg window poison bytes s
  | .kittyTimeout seg window => Sys2Proof.Machine.execKittyTimeout seg window s
  | .nodeMissing seg p => Sys2Proof.Machine.execNodeMissing seg p s
  | .wake d => Sys2Proof.Machine.execWake d s
  | .waitTimeout d => Sys2Proof.Machine.execWaitTimeout d s
  | .delayListTick => Sys2Proof.Machine.execDelayListTick s
  | .flowTimeout f => Sys2Proof.Machine.execFlowTimeout f s
  | .handMove e => Sys2Proof.Machine.execHandMove e s
  | .disRead m d => Sys2Proof.Machine.execDisRead m d s
  | .create m d => Sys2Proof.Machine.execCreate m d s
  | .descriptorAdmission => Sys2Proof.Machine.execDescriptorAdmission s
  | .disDelete m d => Sys2Proof.Machine.execDisDelete m d s
  | .kick m d => Sys2Proof.Machine.execKick m d s
  | .rehome m d e => Sys2Proof.Machine.execRehome m d e s
  | .statclr m d all => Sys2Proof.Machine.execStatclr m d all s
  | .halt e => Sys2Proof.Machine.execHalt e s
  | .haltDone e => Sys2Proof.Machine.execHaltDone e s
  | .haltClear e => Sys2Proof.Machine.execHaltClear e s
  | .leMpy e men rt int xm ym scn => Sys2Proof.Machine.execLeMpy e men rt int xm ym scn s
  | .leMac e men rt int xm ym scn => Sys2Proof.Machine.execLeMac e men rt int xm ym scn s
  | .leMsu e men rt int xm ym scn => Sys2Proof.Machine.execLeMsu e men rt int xm ym scn s
  | .leClr e n => Sys2Proof.Machine.execLeClr e n s
  | .leMova e n m => Sys2Proof.Machine.execLeMova e n m s
  | .leAdd e n m => Sys2Proof.Machine.execLeAdd e n m s
  | .leSub e n m => Sys2Proof.Machine.execLeSub e n m s
  | .leBfy e n m => Sys2Proof.Machine.execLeBfy e n m s
  | .leNeg e n => Sys2Proof.Machine.execLeNeg e n s
  | .leAbs e n => Sys2Proof.Machine.execLeAbs e n s
  | .leAsh e n k => Sys2Proof.Machine.execLeAsh e n k s
  | .leAshg e n j => Sys2Proof.Machine.execLeAshg e n j s
  | .leAsha e j => Sys2Proof.Machine.execLeAsha e j s
  | .leAshb e n => Sys2Proof.Machine.execLeAshb e n s
  | .leScan e n => Sys2Proof.Machine.execLeScan e n s
  | .leIntAdd e d g imm v => Sys2Proof.Machine.execLeIntAdd e d g imm v s
  | .leIntSub e d g imm v => Sys2Proof.Machine.execLeIntSub e d g imm v s
  | .leAnd e d g imm v => Sys2Proof.Machine.execLeAnd e d g imm v s
  | .leOr e d g imm v => Sys2Proof.Machine.execLeOr e d g imm v s
  | .leXor e d g imm v => Sys2Proof.Machine.execLeXor e d g imm v s
  | .leLsl e d g imm v => Sys2Proof.Machine.execLeLsl e d g imm v s
  | .leLsr e d g imm v => Sys2Proof.Machine.execLeLsr e d g imm v s
  | .leAsr e d g imm v => Sys2Proof.Machine.execLeAsr e d g imm v s
  | .leMin e d g imm v => Sys2Proof.Machine.execLeMin e d g imm v s
  | .leMax e d g imm v => Sys2Proof.Machine.execLeMax e d g imm v s
  | .leLdi e code imm => Sys2Proof.Machine.execLeLdi e code imm s
  | .leLdih e code imm => Sys2Proof.Machine.execLeLdih e code imm s
  | .leMov e dst src => Sys2Proof.Machine.execLeMov e dst src s
  | .leLd e code k upd scn => Sys2Proof.Machine.execLeLd e code k upd scn s
  | .leSt e code k upd scn => Sys2Proof.Machine.execLeSt e code k upd scn s
  | .leLda e n k upd scn => Sys2Proof.Machine.execLeLda e n k upd scn s
  | .leLdap e n k upd scn => Sys2Proof.Machine.execLeLdap e n k upd scn s
  | .leSta e n k upd scn => Sys2Proof.Machine.execLeSta e n k upd scn s
  | .leStap e n k upd scn => Sys2Proof.Machine.execLeStap e n k upd scn s
  | .leLd64 e n k upd scn => Sys2Proof.Machine.execLeLd64 e n k upd scn s
  | .leSt64 e n k upd scn => Sys2Proof.Machine.execLeSt64 e n k upd scn s
  | .leLdf e code j fupd scn => Sys2Proof.Machine.execLeLdf e code j fupd scn s
  | .leStf e code j fupd scn => Sys2Proof.Machine.execLeStf e code j fupd scn s
  | .leLdf64 e n j fupd scn => Sys2Proof.Machine.execLeLdf64 e n j fupd scn s
  | .leStf64 e n j fupd scn => Sys2Proof.Machine.execLeStf64 e n j fupd scn s
  | .leFldb e k upd j fupd scn => Sys2Proof.Machine.execLeFldb e k upd j fupd scn s
  | .leFstb e k upd j fupd scn => Sys2Proof.Machine.execLeFstb e k upd j fupd scn s
  | .fabricLoadReturn e error => Sys2Proof.Machine.execFabricLoadReturn e error s
  | .fabricStoreComplete e error => Sys2Proof.Machine.execFabricStoreComplete e error s
  | .leNop e => Sys2Proof.Machine.execLeNop e s
  | .leB e t => Sys2Proof.Machine.execLeB e t s
  | .leBc e cond x t => Sys2Proof.Machine.execLeBc e cond x t s
  | .leRet e => Sys2Proof.Machine.execLeRet e s
  | .leRepi e len count => Sys2Proof.Machine.execLeRepi e len count s
  | .leRepg e len j => Sys2Proof.Machine.execLeRepg e len j s
  | .leBrk e => Sys2Proof.Machine.execLeBrk e s
  | .leEnd e => Sys2Proof.Machine.execLeEnd e s
  | .leLdent e => Sys2Proof.Machine.execLeLdent e s
  | .leBxc e => Sys2Proof.Machine.execLeBxc e s
  | .leFsync e => Sys2Proof.Machine.execLeFsync e s
  | .cmode j mode => Sys2Proof.Machine.execCmode j mode s
  | .axStop j => Sys2Proof.Machine.execAxStop j s
  | .gcancel j => Sys2Proof.Machine.execGcancel j s
  | .target j v => Sys2Proof.Machine.execTarget j v s
  | .gang j v => Sys2Proof.Machine.execGang j v s
  | .gratio j v => Sys2Proof.Machine.execGratio j v s
  | .enable j => Sys2Proof.Machine.execEnable j s
  | .disable j => Sys2Proof.Machine.execDisable j s
  | .enableTimeout j => Sys2Proof.Machine.execEnableTimeout j s
  | .automatic j => Sys2Proof.Machine.execAutomatic j s
  | .manual j => Sys2Proof.Machine.execManual j s
  | .axFaultAck j => Sys2Proof.Machine.execAxFaultAck j s
  | .rcClear j => Sys2Proof.Machine.execRcClear j s
  | .injection j => Sys2Proof.Machine.execInjection j s
  | .injectionEnd j => Sys2Proof.Machine.execInjectionEnd j s
  | .decoderSample c a bb z => Sys2Proof.Machine.execDecoderSample c a bb z s
  | .positionLatch c => Sys2Proof.Machine.execPositionLatch c s
  | .ssiFrameEnd c word highBefore lowAfter => Sys2Proof.Machine.execSsiFrameEnd c word highBefore lowAfter s
  | .inputBelowThreshold c below => Sys2Proof.Machine.execInputBelowThreshold c below s
  | .fbEnable c => Sys2Proof.Machine.execFbEnable c s
  | .fbFaultAck c => Sys2Proof.Machine.execFbFaultAck c s
  | .load c => Sys2Proof.Machine.execLoad c s
  | .uncClr c => Sys2Proof.Machine.execUncClr c s
  | .fbCntClr c => Sys2Proof.Machine.execFbCntClr c s
  | .arm m g => Sys2Proof.Machine.execArm m g s
  | .disarm m g => Sys2Proof.Machine.execDisarm m g s
  | .force m g => Sys2Proof.Machine.execForce m g s
  | .trigArmEdge low => Sys2Proof.Machine.execTrigArmEdge low s
  | .trigFireEdge low => Sys2Proof.Machine.execTrigFireEdge low s
  | .firePulse g => Sys2Proof.Machine.execFirePulse g s
  | .readoutStart m ch red hdr => Sys2Proof.Machine.execReadoutStart m ch red hdr s
  | .capRdData m => Sys2Proof.Machine.execCapRdData m s
  | .election => Sys2Proof.Machine.execElection s
  | .hello poison bytes => Sys2Proof.Machine.execHello poison bytes s
  | .helloTimeout => Sys2Proof.Machine.execHelloTimeout s
  | .heartbeat poison bytes delay => Sys2Proof.Machine.execHeartbeat poison bytes delay s
  | .pathBMiss => Sys2Proof.Machine.execPathBMiss s
  | .pathAMiss => Sys2Proof.Machine.execPathAMiss s
  | .mirror poison bytes => Sys2Proof.Machine.execMirror poison bytes s
  | .session poison bytes => Sys2Proof.Machine.execSession poison bytes s
  | .bulk poison header payload trailer => Sys2Proof.Machine.execBulk poison header payload trailer s
  | .captureFrame poison header payload trailer => Sys2Proof.Machine.execCaptureFrame poison header payload trailer s
  | .handover => Sys2Proof.Machine.execHandover s
  | .handoverBoundary => Sys2Proof.Machine.execHandoverBoundary s
  | .ptnResync => Sys2Proof.Machine.execPtnResync s
  | .evaluationCycle => Sys2Proof.Machine.execEvaluationCycle s
  | .safetyExchange toA toB clockOk => Sys2Proof.Machine.execSafetyExchange toA toB clockOk s
  | .exchangeTimeout channelA => Sys2Proof.Machine.execExchangeTimeout channelA s
  | .sdiEdge j level => Sys2Proof.Machine.execSdiEdge j level s
  | .testPulse j fell driverOk => Sys2Proof.Machine.execTestPulse j fell driverOk s
  | .discrepancy j => Sys2Proof.Machine.execDiscrepancy j s
  | .soutDarkTest p stuckA stuckB => Sys2Proof.Machine.execSoutDarkTest p stuckA stuckB s
  | .ss1TExpiry f => Sys2Proof.Machine.execSs1TExpiry f s
  | .lockoutReset widthA widthB => Sys2Proof.Machine.execLockoutReset widthA widthB s
  | .srstLong => Sys2Proof.Machine.execSrstLong s
  | .channelASelfTest pass => Sys2Proof.Machine.execChannelASelfTest pass s
  | .fieldSample x => Sys2Proof.Machine.execFieldSample x s
  | .trip n => Sys2Proof.Machine.execTrip n s
  | .retry n => Sys2Proof.Machine.execRetry n s
  | .fldWdog m v => Sys2Proof.Machine.execFldWdog m v s
  | .watchdogExpiry => Sys2Proof.Machine.execWatchdogExpiry s
  | .faultMaskWrite m hi v => Sys2Proof.Machine.execFaultMaskWrite m hi v s
  | .fieldOvertemp => Sys2Proof.Machine.execFieldOvertemp s
  | .fieldClockFailure => Sys2Proof.Machine.execFieldClockFailure s
  | .endpointReset => Sys2Proof.Machine.execEndpointReset s
  | .qspiFrame cmd addr data reads late cut => Sys2Proof.Machine.execQspiFrame cmd addr data reads late cut s
  | .hstFwDataRead m w => Sys2Proof.Machine.execHstFwDataRead m w s
  | .hstFwDataWrite m w v => Sys2Proof.Machine.execHstFwDataWrite m w v s
  | .hstCntClr m => Sys2Proof.Machine.execHstCntClr m s
  | .stampLatch m source => Sys2Proof.Machine.execStampLatch m source s
  | .irqSAck m source count => Sys2Proof.Machine.execIrqSAck m source count s
  | .snapshotRequest m => Sys2Proof.Machine.execSnapshotRequest m s
  | .snapshotComplete => Sys2Proof.Machine.execSnapshotComplete s
  | .sync p source domain twoStep seq origin => Sys2Proof.Machine.execSync p source domain twoStep seq origin s
  | .followUp p source seq origin => Sys2Proof.Machine.execFollowUp p source seq origin s
  | .delayReq p source => Sys2Proof.Machine.execDelayReq p source s
  | .delayResp p source received => Sys2Proof.Machine.execDelayResp p source received s
  | .pdelayReq p source => Sys2Proof.Machine.execPdelayReq p source s
  | .pdelayResp p twoStep value => Sys2Proof.Machine.execPdelayResp p twoStep value s
  | .pdelayRespFollowUp p sent => Sys2Proof.Machine.execPdelayRespFollowUp p sent s
  | .announce p => Sys2Proof.Machine.execAnnounce p s
  | .syncTransmit p => Sys2Proof.Machine.execSyncTransmit p s
  | .announceTransmit p => Sys2Proof.Machine.execAnnounceTransmit p s
  | .pdelayReqTransmit p => Sys2Proof.Machine.execPdelayReqTransmit p s
  | .plantTimeStep => Sys2Proof.Machine.execPlantTimeStep s
  | .syncReceiptTimeout p => Sys2Proof.Machine.execSyncReceiptTimeout p s
  | .realign m => Sys2Proof.Machine.execRealign m s
  | .push m q v => Sys2Proof.Machine.execPush m q v s
  | .launch p => Sys2Proof.Machine.execLaunch p s
  | .lineAngleMessage p x tag => Sys2Proof.Machine.execLineAngleMessage p x tag s
  | .pltMdio m v => Sys2Proof.Machine.execPltMdio m v s
  | .mdioDone data => Sys2Proof.Machine.execMdioDone data s
  | .plantLinkChange p link anDone => Sys2Proof.Machine.execPlantLinkChange p link anDone s
  | .pltCntClr m => Sys2Proof.Machine.execPltCntClr m s
  | .recordWrite => Sys2Proof.Machine.execRecordWrite s
  | .scpHwCmd m v => Sys2Proof.Machine.execScpHwCmd m v s
  | .scpRdGo m => Sys2Proof.Machine.execScpRdGo m s
  | .scpReadDone => Sys2Proof.Machine.execScpReadDone s
  | .opsecTick => Sys2Proof.Machine.execOpsecTick s
  | .monitorWindow ref plls => Sys2Proof.Machine.execMonitorWindow ref plls s
  | .rcCheck count => Sys2Proof.Machine.execRcCheck count s
  | .referenceTimeout => Sys2Proof.Machine.execReferenceTimeout s
  | .asynchronousReset => Sys2Proof.Machine.execAsynchronousReset s
  | .clockRestart => Sys2Proof.Machine.execClockRestart s
  | .gateClose g => Sys2Proof.Machine.execGateClose g s
  | .gateForced g flights => Sys2Proof.Machine.execGateForced g flights s
  | .domainSwitch => Sys2Proof.Machine.execDomainSwitch s
  | .porstN => Sys2Proof.Machine.execPorstN s
  | .resetN low => Sys2Proof.Machine.execResetN low s
  | .supplyRise => Sys2Proof.Machine.execSupplyRise s
  | .vddAoFall => Sys2Proof.Machine.execVddAoFall s
  | .lockstepMismatch => Sys2Proof.Machine.execLockstepMismatch s
  | .dealerWatchdog => Sys2Proof.Machine.execDealerWatchdog s
  | .devreset m => Sys2Proof.Machine.execDevreset m s
  | .hostDeviceReset => Sys2Proof.Machine.execHostDeviceReset s
  | .trstN => Sys2Proof.Machine.execTrstN s
  | .temperatureUpdate t => Sys2Proof.Machine.execTemperatureUpdate t s
  | .fieldDieReset => Sys2Proof.Machine.execFieldDieReset s
  | .callInstruction e t => Sys2Proof.Machine.execCallInstruction e t s
  | .reservedInstruction e => Sys2Proof.Machine.execReservedInstruction e s
  | .configurationRequest req => Sys2Proof.Machine.execConfigurationRequest req s
  | .receivedFrameDropped p => Sys2Proof.Machine.execReceivedFrameDropped p s
  | .debugPortChallenge => Sys2Proof.Machine.execDebugPortChallenge s
  | .linkUp speed => Sys2Proof.Machine.execLinkUp speed s

end Sys2Proof.Machine
end

