-- ==== Sys2Proof/Machine/Step.lean ====
section
/-!
DEFINITION. One step: take the command at the front of the queue and run it; an empty queue idles (DESIGN CHOICE, log entry 3).
-/

namespace Sys2Proof.Machine

/-- Take the command at the front of the queue and run its meaning on the state without it; idle on an empty queue. -/
def step (s : State) : Host.Outcome State Fault Refusal :=
  match s.pending with
  | [] => .next s
  | c :: rest => exec c { s with pending := rest }

/-- `s` with the command that the word spells at the front of its queue; `s` itself where it spells none. -/
def State.withFetchWord (s : State) (nbits w : Nat) : State :=
  match Sys2Proof.decodeTableWord nbits w with
  | some c => { s with pending := c :: s.pending }
  | none => s

end Sys2Proof.Machine
end

