-- ==== Sys2Proof/WellFormed.lean ====
section
/-!
DEFINITION. Which commands are well formed: an operand that stands for a field of the spec fits the field. The meanings are total; an
ill-formed command is one that no bus, frame or pin can carry.
-/

namespace Sys2Proof

/-- The offset of a 32-bit register or window word in BAR0, 16 MiB (17_host_interface.md R515). -/
def barWord (addr : Nat) : Bool := addr < 2 ^ 24 && addr % 4 = 0

/-- Whether every operand of a command fits the field it stands for. -/
def Instr.wf : Instr → Bool
  | .roundBoundary => true
  | .commitLatchClose => true
  | .hostRegisterWrite _ addr _ => barWord addr
  | .subWordAccess _ _ => true
  | .lowWordRead _ addr => barWord addr
  | .lowWordWrite _ addr _ => barWord addr
  | .highWordWrite _ addr _ => barWord addr
  | .rwvWrite _ addr _ => barWord addr
  | .rwvValidation => true
  | .d2dTransfer _ _ => true
  | .d2dTimeout => true
  | .builderFetch _ => true
  | .resetRelease _ => true
  | .startUpStepOverrun _ => true
  | .channelBSelfTest _ => true
  | .deckFlashRead => true
  | .violation _ addr len _ beside =>
    decide (1 ≤ len ∧ addr + len ≤ 2 ^ 32) && beside.others.all fun x => decide (1 ≤ x.len ∧ x.addr + x.len ≤ 2 ^ 32)
  | .frozenHandMove _ => true
  | .chalNew _ => true
  | .challengeExpiry _ => true
  | .tokenGo _ => true
  | .tokenVerified => true
  | .debugToken words => words.length = 65
  | .quoteReq _ => true
  | .quoteReady => true
  | .dbgLock _ => true
  | .fifoClr _ => true
  | .truFifo _ _ => true
  | .provision _ args => args.length = 21
  | .deal _ len => 1 ≤ len && len < 2 ^ 21
  | .mbData _ _ => true
  | .dealingEnd _ => true
  | .store _ => true
  | .storeDone _ => true
  | .abort _ => true
  | .version _ => true
  | .mbReply _ => true
  | .angCtl _ _ => true
  | .angleSample _ index _ tk _ => index < 256 && tk < 2 ^ 64
  | .extrapolatorStep => true
  | .virtualRateSlew => true
  | .handoverAbandon => true
  | .sourceLost => true
  | .rateRamp => true
  | .pulseEnd _ => true
  | .evtInsert _ => true
  | .evtDelete _ handle => handle < 4096
  | .evtReplace _ handle => handle < 4096
  | .evtRead _ handle => handle < 4096
  | .editComplete => true
  | .capinEdge _ _ => true
  | .angCapPop _ _ => true
  | .receiverLock _ => true
  | .lossOfLock _ => true
  | .upstreamTurn _ _ _ _ _ => true
  | .turnWindowClose _ _ => true
  | .breakNotice _ => true
  | .ringClosure _ => true
  | .leadBlockReceived _ _ _ _ _ => true
  | .segStart _ _ => true
  | .segStop _ _ => true
  | .switchGo _ _ _ => true
  | .contractRequest _ _ => true
  | .segmentRestart _ => true
  | .listenEnd _ => true
  | .coldTimeout _ => true
  | .call _ arrival _ => arrival < 2 ^ 19
  | .integrateEnd _ => true
  | .enumR _ arrival _ _ _ => arrival < 2 ^ 19
  | .enumUnanswered _ => true
  | .auth2 _ _ _ _ _ => true
  | .auth4 _ _ _ _ => true
  | .auth4Nak _ _ _ => true
  | .authTimeout _ _ => true
  | .startTimeout _ => true
  | .nack _ _ _ => true
  | .switchDecision _ => true
  | .contractSwitch _ => true
  | .claim _ _ _ _ => true
  | .kittyTimeout _ _ => true
  | .nodeMissing _ _ => true
  | .wake _ => true
  | .waitTimeout _ => true
  | .delayListTick => true
  | .flowTimeout _ => true
  | .handMove _ => true
  | .disRead _ _ => true
  | .create _ _ => true
  | .descriptorAdmission => true
  | .disDelete _ _ => true
  | .kick _ _ => true
  | .rehome _ _ _ => true
  | .statclr _ _ _ => true
  | .halt _ => true
  | .haltDone _ => true
  | .haltClear _ => true
  | .leMpy _ _ _ _ _ _ _ => true
  | .leMac _ _ _ _ _ _ _ => true
  | .leMsu _ _ _ _ _ _ _ => true
  | .leClr _ _ => true
  | .leMova _ _ _ => true
  | .leAdd _ _ _ => true
  | .leSub _ _ _ => true
  | .leBfy _ _ _ => true
  | .leNeg _ _ => true
  | .leAbs _ _ => true
  | .leAsh _ _ _ => true
  | .leAshg _ _ _ => true
  | .leAsha _ _ => true
  | .leAshb _ _ => true
  | .leScan _ _ => true
  | .leIntAdd _ _ _ _ _ => true
  | .leIntSub _ _ _ _ _ => true
  | .leAnd _ _ _ _ _ => true
  | .leOr _ _ _ _ _ => true
  | .leXor _ _ _ _ _ => true
  | .leLsl _ _ _ _ _ => true
  | .leLsr _ _ _ _ _ => true
  | .leAsr _ _ _ _ _ => true
  | .leMin _ _ _ _ _ => true
  | .leMax _ _ _ _ _ => true
  | .leLdi _ _ _ => true
  | .leLdih _ _ _ => true
  | .leMov _ _ _ => true
  | .leLd _ _ _ _ _ => true
  | .leSt _ _ _ _ _ => true
  | .leLda _ _ _ _ _ => true
  | .leLdap _ _ _ _ _ => true
  | .leSta _ _ _ _ _ => true
  | .leStap _ _ _ _ _ => true
  | .leLd64 _ _ _ _ _ => true
  | .leSt64 _ _ _ _ _ => true
  | .leLdf _ _ _ _ _ => true
  | .leStf _ _ _ _ _ => true
  | .leLdf64 _ _ _ _ _ => true
  | .leStf64 _ _ _ _ _ => true
  | .leFldb _ _ _ _ _ _ => true
  | .leFstb _ _ _ _ _ _ => true
  | .fabricLoadReturn _ _ => true
  | .fabricStoreComplete _ _ => true
  | .leNop _ => true
  | .leB _ _ => true
  | .leBc _ _ _ _ => true
  | .leRet _ => true
  | .leRepi _ _ _ => true
  | .leRepg _ _ _ => true
  | .leBrk _ => true
  | .leEnd _ => true
  | .leLdent _ => true
  | .leBxc _ => true
  | .leFsync _ => true
  | .cmode _ _ => true
  | .axStop _ => true
  | .gcancel _ => true
  | .target _ _ => true
  | .gang _ _ => true
  | .gratio _ _ => true
  | .enable _ => true
  | .disable _ => true
  | .enableTimeout _ => true
  | .automatic _ => true
  | .manual _ => true
  | .axFaultAck _ => true
  | .rcClear _ => true
  | .injection _ => true
  | .injectionEnd _ => true
  | .decoderSample _ _ _ _ => true
  | .positionLatch _ => true
  | .ssiFrameEnd _ word _ _ => word < 2 ^ 64
  | .inputBelowThreshold _ _ => true
  | .fbEnable _ => true
  | .fbFaultAck _ => true
  | .load _ => true
  | .uncClr _ => true
  | .fbCntClr _ => true
  | .arm _ _ => true
  | .disarm _ _ => true
  | .force _ _ => true
  | .trigArmEdge _ => true
  | .trigFireEdge _ => true
  | .firePulse _ => true
  | .readoutStart _ _ _ _ => true
  | .capRdData _ => true
  | .election => true
  | .hello _ _ => true
  | .helloTimeout => true
  | .heartbeat _ _ _ => true
  | .pathBMiss => true
  | .pathAMiss => true
  | .mirror _ _ => true
  | .session _ _ => true
  | .bulk _ _ _ _ => true
  | .captureFrame _ _ _ _ => true
  | .handover => true
  | .handoverBoundary => true
  | .ptnResync => true
  | .evaluationCycle => true
  | .safetyExchange _ _ _ => true
  | .exchangeTimeout _ => true
  | .sdiEdge _ _ => true
  | .testPulse _ _ _ => true
  | .discrepancy _ => true
  | .soutDarkTest _ _ _ => true
  | .ss1TExpiry _ => true
  | .lockoutReset _ _ => true
  | .srstLong => true
  | .channelASelfTest _ => true
  | .fieldSample _ => true
  | .trip _ => true
  | .retry _ => true
  | .fldWdog _ _ => true
  | .watchdogExpiry => true
  | .faultMaskWrite _ _ _ => true
  | .fieldOvertemp => true
  | .fieldClockFailure => true
  | .endpointReset => true
  | .qspiFrame _ _ _ _ _ _ => true
  | .hstFwDataRead _ _ => true
  | .hstFwDataWrite _ _ _ => true
  | .hstCntClr _ => true
  | .stampLatch _ _ => true
  | .irqSAck _ _ _ => true
  | .snapshotRequest _ => true
  | .snapshotComplete => true
  | .sync _ source domain _ seq _ => source < 2 ^ 80 && domain < 256 && seq < 2 ^ 16
  | .followUp _ source seq _ => source < 2 ^ 80 && seq < 2 ^ 16
  | .delayReq _ source => source < 2 ^ 80
  | .delayResp _ source _ => source < 2 ^ 80
  | .pdelayReq _ source => source < 2 ^ 80
  | .pdelayResp _ _ _ => true
  | .pdelayRespFollowUp _ _ => true
  | .announce _ => true
  | .syncTransmit _ => true
  | .announceTransmit _ => true
  | .pdelayReqTransmit _ => true
  | .plantTimeStep => true
  | .syncReceiptTimeout _ => true
  | .realign _ => true
  | .push _ _ _ => true
  | .launch _ => true
  | .lineAngleMessage _ _ _ => true
  | .pltMdio _ _ => true
  | .mdioDone _ => true
  | .plantLinkChange _ _ _ => true
  | .pltCntClr _ => true
  | .recordWrite => true
  | .scpHwCmd _ _ => true
  | .scpRdGo _ => true
  | .scpReadDone => true
  | .opsecTick => true
  | .monitorWindow _ _ => true
  | .rcCheck _ => true
  | .referenceTimeout => true
  | .asynchronousReset => true
  | .clockRestart => true
  | .gateClose _ => true
  | .gateForced _ flights => flights.all fun f => f.2 < 2 ^ 32
  | .domainSwitch => true
  | .porstN => true
  | .resetN _ => true
  | .supplyRise => true
  | .vddAoFall => true
  | .lockstepMismatch => true
  | .dealerWatchdog => true
  | .devreset _ => true
  | .hostDeviceReset => true
  | .trstN => true
  | .temperatureUpdate _ => true
  | .fieldDieReset => true
  | .callInstruction _ _ => true
  | .reservedInstruction _ => true
  | .configurationRequest _ => true
  | .receivedFrameDropped _ => true
  | .debugPortChallenge => true
  | .linkUp speed => 1 ≤ speed.1

end Sys2Proof
end

