-- ==== Sys2Proof/Safety.lean ====
section
/-!
DEFINITION. The terms the statements use: that a command completes in a state with some property, and frames: which registers, and
which other parts, a command may change.
-/

namespace Sys2Proof.Machine

/-- Command `c` completes from `s`, in a state that satisfies `P`. -/
def Completes (c : Instr) (s : State) (P : State → Prop) : Prop := ∃ t, exec c s = .next t ∧ P t

/-- Nothing but registers that satisfy `p` differs between `s` and `t`. -/
def State.keepsBut (s t : State) (p : Nat → Prop) : Prop :=
  t = { s with blk := { s.blk with regs := t.blk.regs } } ∧ ∀ a, ¬ p a → t.blk.rd a = s.blk.rd a

/-- Of the registers, those outside `p` hold what they held. -/
def State.regsBut (s t : State) (p : Nat → Prop) : Prop := ∀ a, ¬ p a → t.blk.rd a = s.blk.rd a

/-- `t` is `s` with the parts of `b` that are no registers, and of the registers those outside `p` hold what they held in `s`. -/
def State.becomes (s t : State) (b : Block) (p : Nat → Prop) : Prop :=
  t = { s with blk := { b with regs := t.blk.regs } } ∧ ∀ a, ¬ p a → t.blk.rd a = s.blk.rd a

/-- Every byte of memory reads as before. -/
def State.memSame (s t : State) : Prop := ∀ a, Memory.read t.blk.mem a = Memory.read s.blk.mem a

/-- The registers that the assertion of interrupt source `n` writes (17_host_interface.md R523): its IRQ_PEND word and its stamp
record. -/
def irqReg (n a : Nat) : Prop := a = aIRQ_PEND (n / 32) ∨ (aIRQ_S_TIME_LO n ≤ a ∧ a ≤ aIRQ_S_FLAGS n)

/-- Source `n` has asserted once between `s` and `t` (17_host_interface.md R523): it is pending, and its count is one greater. -/
def State.asserted (s t : State) (n : Nat) : Prop :=
  t.blk.pendingIrq n = true ∧ t.blk.get (IRQ_S_FLAGS_CNT n) = (s.blk.get (IRQ_S_FLAGS_CNT n) + 1) % 2 ^ 16

/-- The registers that a scorepad event may write (19_scorepad.md R561, R563): SCP_QUEUE, SCP_LOST, and those of source 177. -/
def eventReg (a : Nat) : Prop := a = aSCP_QUEUE ∨ a = aSCP_LOST ∨ irqReg 177 a

/-- The scorepad of `t` holds what event `code` with arguments `x`, `y` makes of that of `s` (19_scorepad.md R561, R562). -/
def State.logged (s t : State) (code level x y : Nat) : Prop := t.blk.scp = (s.blk.event code level x y).scp

/-! ### Accesses of a bus master -/

/-- A write of `v` to the register at BAR0 offset `x` by master `m` reaches it: the port is open, the check passes, no deck that builds
its page is dealt, its block is clocked, a dummy takes it, its page exists, and no lock or level keeps it off. -/
def State.writes (s : State) (m : Fin 39) (x : Nat) (v : Word) : Prop :=
  s.blk.connected m = true ∧ s.blk.passes m (fabricOf x) true = true ∧ ¬ (s.blk.boot.dealing = true ∧ dealBuilt x = true) ∧
    s.blk.shut x = false ∧ s.blk.dummyIgnores m x v.toNat = false ∧ s.blk.layout.absent x = false ∧ s.blk.lockedAt x = false ∧
    ((expertOf x).isSome = true ∨ basicOnly x = true ∨ s.blk.basicLevel x = false)

/-- A read of BAR0 offset `x` by master `m` reaches it. -/
def State.reads (s : State) (m : Fin 39) (x : Nat) : Prop :=
  s.blk.connected m = true ∧ s.blk.passes m (fabricOf x) false = true ∧ s.blk.shut x = false ∧ s.blk.layout.absent x = false

/-- What any read of master `m` may change beside its own effects: the word its port returned, and, of the host port, the latency it
shows with the free value it takes (DESIGN CHOICE, log entry 2). -/
def State.answered (s t : State) (m : Fin 39) (v : Word) (b : Block) : Prop :=
  t = { s with blk := { b with regs := t.blk.regs, readData := s.blk.readData.set m.1 v m.2, free := t.blk.free } } ∧
    (∀ a, ¬ (m.1 = 36 ∧ a = aHST_LAT_MAX) → t.blk.rd a = b.rd a)

/-! ### Segments -/

/-- Of `s`, segment controller `k` becomes `x`, registers of `p` may change, and nothing else does. -/
def State.inSegment (s t : State) (k : Nat) (x : Seg) (p : Nat → Prop) : Prop :=
  t = { s with blk := { s.blk with regs := t.blk.regs, segs := t.blk.segs } } ∧ t.blk.sg k = x ∧
    (∀ j, j ≠ k → t.blk.sg j = s.blk.sg j) ∧ s.regsBut t p

/-- Of `s`, node position `q` of segment `k` becomes `n` and the rest of its controller `x`, registers of `p` may change, and nothing
else does. -/
def State.atNode (s t : State) (k q : Nat) (x : Seg) (n : SegNode) (p : Nat → Prop) : Prop :=
  s.inSegment t k { x with nodes := (t.blk.sg k).nodes } p ∧ t.blk.sn k q = n ∧ ∀ j, j ≠ q → t.blk.sn k j = s.blk.sn k j

/-! ### Loop engines -/

/-- The registers that show loop engine `e`: DIS_LE_Q, DIS_LE_STAT (10_task_dispatch.md R334), LE_STAT and LE_PC
(11_loop_engine_model.md R375). -/
def engineReg (e a : Nat) : Prop := a = aDIS_LE_Q e ∨ a = aDIS_LE_STAT e ∨ a = aLE_STAT e ∨ a = aLE_PC e

/-- Microcode on engine `e` has come to the word `w` (12_loop_engine_instructions.md R378), no stored word is in error
(11_loop_engine_model.md R343), and no outstanding fabric load holds back a word that names the registers `codes` and the bank words
`words` (R363). -/
def State.canIssue (s : State) (e : Nat) (w : Word) (codes : List Nat) (words : List (Bool × Nat)) : Prop :=
  s.blk.comesTo e w = true ∧ s.blk.ecc = [] ∧ ∀ l ∈ (s.blk.eng e).loads, l.blocks codes words = false

/-- The program counter of engine `e`. -/
def State.pcOf (s : State) (e : Nat) : Nat := (s.blk.eng e).regs.pc.toNat

/-- Where engine `e` goes on after a word that does not branch, with its repeat stack (11_loop_engine_model.md R359, R360). -/
def State.nextOf (s : State) (e : Nat) : List Repeat × Nat := nextInstr (s.pcOf e) (s.blk.eng e).regs.reps

/-- A jump of engine `e` to `t` that does not leave the microcode for the standard law (11_loop_engine_model.md R371). -/
def State.mayGo (s : State) (e t : Nat) : Prop := ¬ (t < 0x4000 ∧ 0x4000 ≤ s.pcOf e)

/-- What a word of engine `e` leaves alone: every other engine, of engine `e` all but its registers, every register outside those that
show the engine, of LE_STAT the bits that no completed word writes, everything else but memory. -/
def State.engineOnly (s t : State) (e : Nat) : Prop :=
  t = { s with blk := { s.blk with regs := t.blk.regs, engines := t.blk.engines, mem := t.blk.mem } } ∧
    s.regsBut t (engineReg e) ∧ (∀ k, k ≠ e → t.blk.eng k = s.blk.eng k) ∧
      t.blk.eng e = { s.blk.eng e with regs := (t.blk.eng e).regs } ∧
        ∀ f ∈ [LE_STAT_HALTED e, LE_STAT_FROZEN e, LE_STAT_FAULT e, LE_STAT_ECC_CORR e, LE_STAT_FCODE e],
          t.blk.get f = s.blk.get f

/-- A word of engine `e` completes with registers `r`, repeat stack `reps` and the next word at `pc`; `aov` and `sov` say whether an
accumulator or a store saturated, which LE_STAT then shows (11_loop_engine_model.md R348, R349). -/
def State.acts (s t : State) (e : Nat) (r : ERegs) (reps : List Repeat) (pc : Nat) (aov sov : Bool) : Prop :=
  (t.blk.eng e).regs = { r with reps := reps, pc := BitVec.ofNat 16 pc } ∧ s.engineOnly t e ∧
    t.blk.get (LE_STAT_AOV e) = (if aov then 1 else s.blk.get (LE_STAT_AOV e)) ∧
    t.blk.get (LE_STAT_SOV e) = if sov then 1 else s.blk.get (LE_STAT_SOV e)

/-- A word of engine `e` retires: its registers become `r`, with the repeat stack and the program counter advanced, and nothing
else changes, memory included. -/
def State.retires (s t : State) (e : Nat) (r : ERegs) (aov : Bool) : Prop :=
  s.acts t e r (s.nextOf e).1 (s.nextOf e).2 aov false ∧ t.blk.mem = s.blk.mem

/-- A word of engine `e` goes to `pc` with registers `r`, and nothing else changes. -/
def State.branches (s t : State) (e : Nat) (r : ERegs) (pc : Nat) : Prop :=
  s.acts t e r r.reps pc false false ∧ t.blk.mem = s.blk.mem

end Sys2Proof.Machine
end

