-- ==== Sys2Proof/Certificates/Slice0/Obligations.lean ====
section
/-!
DEFINITION. The statements for the provers. Each says in its docstring which rules of spec/ it formalises; every one that names a command
says when it completes, in which state, and what it leaves alone.
-/

open Sys2Proof Sys2Proof.Machine

/-- A step runs the command at the front of the queue on the state without it, and answers its outcome; on an empty queue the block idles
(the model's choice, log entry 3). -/
def Obligations.StepTakesTheFront : Prop :=
  (∀ (c : Instr) (rest : List Instr) (s : State), s.pending = c :: rest → step s = exec c { s with pending := rest }) ∧
  ∀ s : State, s.pending = [] → step s = .next s

/-- What the spec gives right after reset: no command waits, no deck is dealt, nothing is armed or in lock, and the registers whose tables
state a value show it (00_scope.md R1, 07_axis_loop_law.md R253, 09_position_feedback.md R306 and R307, 10_task_dispatch.md R334,
15_safety.md R483, 16_field_io.md R496, 17_host_interface.md R526, 18_plant_time.md R552, 20_clocks_power_reset.md R593). What the manual
leaves open here is the model's choice, log entry 1. -/
def Obligations.ResetValues : Prop :=
  let b := State.reset.blk
  State.reset.pending = [] ∧ b.dealt = none ∧ b.boot.released = false ∧ b.get DEV_BOOT_PHASE = 0 ∧ b.get DCK_STAT_STATE = 0 ∧
  b.rd aDEV_ID = 0x25602100 ∧ b.rd aIRQ_CFG = 15 ∧ b.get PLT_STAT_STATE = 0 ∧ b.rd aPLT_JUMP_TH = 1000 ∧ b.rd aPLT_LOCK_TH = 100 ∧
  b.rd aPLT_SLEW = 100 ∧ b.get PLT_SERVO_KP_SHIFT = 2 ∧ b.get PLT_SERVO_KI_SHIFT = 6 ∧
  b.flag ANG_STAT_RUNNING = false ∧ b.flag SAF_STAT_LOCKOUT = true ∧ b.flag SAF_STAT_PERMITTED = false ∧ b.get SAF_SOUT_A = 0 ∧
  b.flag FLD_STAT_HELD = true ∧ b.get FLD_DOUT = 0 ∧ b.flag CPR_STAT_SAFE = true ∧ b.get CPR_CLK_FAIL_ID = 0xFF ∧ b.get CPR_TEMP_WARN = 1050 ∧
  (∀ g < 8, b.get (SEG_STAT_STATE g) = 0) ∧
  (∀ i < 256, b.get (AX_SDELAY i) = 100 ∧ b.rd (aAX_KVFF i) = 0x40000000 ∧ b.rd (aAX_KAW i) = 0x40000000 ∧ b.rd (aAX_ILIM i) = 0x7FFFFFFF ∧
    b.rd (aAX_KVF i) = 0x7FFFFFFF ∧ b.get (AX_ENTO i) = 200 ∧ b.rd (aAX_RC_ALPHA i) = 0x7FDF3B64 ∧ b.flag (AX_STAT_ENABLED i) = false) ∧
  (∀ c < 16, b.rd (aFB_NQ c) = 0x10000 ∧ b.flag (FB_STAT_ENABLED c) = false) ∧ ∀ n < 256, b.rd (aFB_N_NQ n) = 0x10000

/-- Every command of the table completes in every state: the block never stops (17_host_interface.md R507: an access without a register
reads 0 and is ignored; a refused access is an effect on the state). A command leaves the queue of those behind it as it is. What the
manual leaves open here is the model's choice, log entry 11. -/
def Obligations.EveryCommandCompletes : Prop :=
  ∀ (c : Instr) (s : State), Completes c s fun t => t.pending = s.pending

/-- What OTP has once held, no step takes back (02_trust.md R45 to R47 and R74: PROVISIONED and KILL stay set, the security version never
falls, a filled slot keeps its key and a revoked one stays revoked; the fields of Etzan test never change). Slot 0 is written by PROVISION
alone. What the manual leaves open here is the model's choice, log entry 43. -/
def Obligations.OtpOneTime : Prop :=
  let keeps (o n : Otp) : Prop :=
    n.serial = o.serial ∧ n.rootHash = o.rootHash ∧ n.puf = o.puf ∧ n.cert = o.cert ∧ o.secver ≤ n.secver ∧
    (o.kill = true → n.kill = true) ∧ (o.provisioned = true → n.provisioned = true) ∧
    ∀ k : Fin 4, k ≠ 0 → o.slots[k].hash ≠ 0 → n.slots[k].hash = o.slots[k].hash ∧
      (bit o.slots[k].flags 3 = true → bit n.slots[k].flags 3 = true)
  ∀ (o : Otp) (s t : State), keeps o s.nv.otp → step s = .next t → keeps o t.nv.otp

/-- The bytes of the memories that last over every reset keep their canonical form over every step: addresses strictly rising, and no byte
listed that reads as an unlisted one: the scorepad (19_scorepad.md R556) and the boot flash (03_deck.md R93). It holds right after reset.
What the manual leaves open here is the model's choice, log entries 1 and 4. -/
def Obligations.ScorepadCanonical : Prop :=
  let canonical (nv : NonVol) : Prop := Memory.wf nv.pad = true ∧ swf (fun _ => 0xFF) nv.flash = true
  canonical State.reset.nv ∧ ∀ s t : State, canonical s.nv → step s = .next t → canonical t.nv

/-- 01_dealer_and_helpers.md R24 (when a boundary comes), R25 (what it does), R29 (the round angle). Stated where no deck is dealt and
nothing else is due: the node-position registers stand for the values that a boundary commits. What the manual leaves open here is the
model's choice, log entry 20. -/
def Obligations.RoundBoundary : Prop :=
  ∀ s : State,
    let b := s.blk
    let commits := b.shadow ++ b.due.map fun v => (v.fld, v.value)
    let quiet := b.dealt = none ∧ b.get PTN_STAT_ROLE = 0 ∧ b.flag PTN_STAT_PAIRED = false ∧ b.partner.stopAt = none ∧
      b.ang.items = [] ∧ b.cap.groups = [] ∧ b.cap.chans = [] ∧ b.cap.rd = none ∧ b.host.writing = none ∧ b.trust.nonce = none ∧
      b.flag PLT_LA_CTL_EN = false ∧ b.flag ANG_STAT_RUNNING = false ∧ b.flag ANG_CTL_RUN = false ∧ b.descs = [] ∧ b.segs = []
    let node (f : Fld) : Prop := 0x105000 ≤ f.addr ∧ f.addr < 0x107000 ∧ f.lo + f.w ≤ 32
    (b.boot.released = false ∨ b.atBoundary = false → Completes .roundBoundary s (· = s)) ∧
    (b.boot.released = true → b.atBoundary = true → quiet → (∀ c ∈ commits, node c.1) → commits.Pairwise (·.1.addr ≠ ·.1.addr) →
      Completes .roundBoundary s fun t =>
        t.nv = s.nv ∧ t.pending = s.pending ∧ t.blk.mem = b.mem ∧ t.blk.time = b.time ∧ t.blk.up = b.up ∧ t.blk.ang.th = b.ang.th ∧
        t.blk.round = (b.round + 1) % 2 ^ 48 ∧ t.blk.roundAt = b.up ∧ t.blk.get ANG_ROUND = b.angle ∧ t.blk.ang.roundW = b.ang.w ∧
        t.blk.shadow = [] ∧ t.blk.due = [] ∧ t.blk.valid = b.valid ∧
        (b.flag SNP_STAT_PEND = true → b.flag SNP_STAT_BUSY = false → b.boot.dealing = false →
          t.blk.flag SNP_STAT_PEND = false ∧ t.blk.flag SNP_STAT_BUSY = true ∧ t.blk.host.gen = (b.host.gen + 1) % 2 ^ 32) ∧
        (∀ c ∈ commits, t.blk.get c.1 = c.2 % 2 ^ c.1.w) ∧
        ∀ a, 0x105000 ≤ a → a < 0x107000 → (∀ c ∈ commits, c.1.addr ≠ a) → t.blk.rd a = b.rd a)

/-- 00_scope.md R10 (Table 0.6), R11, R13: a write acts on each field by its access code. RW takes the value at once; W1C clears the
bits written 1; RWS waits in the shadow; RWL is taken while its block is stopped, and discarded with WLOCK_ERR while it runs; RO ignores
it. 17_host_interface.md R507: a host write where no register is is counted.
What the manual leaves open here is the model's choice, log entries 24, 29 and 31. -/
def Obligations.AccessCodes : Prop :=
  ∀ (s : State) (m : Fin 39) (v : Word) (k : Fin 8),
    let wr (x : Nat) : Instr := .hostRegisterWrite m x v
    (s.writes m (aIRQ_EN k.1) v → Completes (wr (aIRQ_EN k.1)) s fun t =>
      s.keepsBut t (· = aIRQ_EN k.1) ∧ t.blk.rd (aIRQ_EN k.1) = v) ∧
    (s.writes m aCPR_EVT v → Completes (wr aCPR_EVT) s fun t => s.keepsBut t (· = aCPR_EVT) ∧
      t.blk.rd aCPR_EVT = s.blk.rd aCPR_EVT &&& ~~~(v &&& 0x3F)) ∧
    (s.writes m aPLT_JUMP_TH v → exec (wr aPLT_JUMP_TH) s = .next (s.onBlk fun b =>
      { b with shadow := b.shadow.filter (·.1 ≠ PLT_JUMP_TH) ++ [(PLT_JUMP_TH, v.toNat)] })) ∧
    (s.writes m (aPLT_Q_CFG k.1) v →
      if s.blk.flag (PLT_P_CFG_EN (s.blk.get (PLT_Q_CFG_PORT k.1))) then
        Completes (wr (aPLT_Q_CFG k.1)) s fun t => t.blk.flag DEV_STAT_WLOCK_ERR = true ∧
          s.keepsBut t fun a => a = aDEV_STAT ∨ irqReg 0 a
      else Completes (wr (aPLT_Q_CFG k.1)) s fun t => s.keepsBut t (· = aPLT_Q_CFG k.1) ∧
        t.blk.rd (aPLT_Q_CFG k.1) = s.blk.rd (aPLT_Q_CFG k.1) &&& ~~~0xFF03 ||| v &&& 0xFF03) ∧
    (s.writes m aDEV_ID v → exec (wr aDEV_ID) s = .next s) ∧
    (∀ x, s.writes m x v → barWord x = true → x < 0x80000 → findReg (homeOf x) = none → isWindow x = false →
      x ≠ aHST_MB_CMD → s.blk.layout.isRaw x = false → hiddenVstat x = false → Completes (wr x) s fun t =>
      if m.1 = 36 then s.keepsBut t (fun a => a = aHST_UNMAP_CNT ∨ irqReg 183 a) ∧ s.asserted t 183 ∧
        t.blk.get HST_UNMAP_CNT = satInc HST_UNMAP_CNT.w (s.blk.get HST_UNMAP_CNT)
      else t = s)

/-- 00_scope.md R7 to R9: a read of the low word of a pair latches the high word for its master; a write of the low word is held for its
master; a write of the high word commits both together. The pair PLT_Q_LT shows the last.
What the manual leaves open here is the model's choice, log entry 28. -/
def Obligations.WordPairs : Prop :=
  ∀ (s : State) (m : Fin 39) (x : Nat) (v : Word) (r : Hit) (q : Fin 8),
    let b := s.blk
    let held := { b with heldLo := b.heldLo.set m.1 v m.2 }
    let low := barWord x = true ∧ x < 0x400000 ∧ ¬ (0x4000 ≤ x ∧ x < 0x6000) ∧ findReg (homeOf x) = some r ∧
      r.desc.wide = true ∧ r.base = homeOf x ∧ isWindow x = false ∧ hiddenVstat x = false ∧ b.layout.isRaw x = false
    (low → s.reads m x → Completes (.lowWordRead m x) s fun t =>
      s.answered t m (b.peek (homeOf x)) { b with latchHi := b.latchHi.set m.1 (b.peek (homeOf x + 4)) m.2 }) ∧
    (low → x ≠ aHST_MB_CMD → s.writes m x v → Completes (.lowWordWrite m x v) s (· = { s with blk := held })) ∧
    (s.writes m (aPLT_Q_LT q + 4) v → Completes (.highWordWrite m (aPLT_Q_LT q + 4) v) s fun t =>
      s.keepsBut t (fun a => a = aPLT_Q_LT q ∨ a = aPLT_Q_LT q + 4) ∧
      t.blk.rd (aPLT_Q_LT q) = b.heldLo[m] ∧ t.blk.rd (aPLT_Q_LT q + 4) = v)

/-- 00_scope.md R5; 17_host_interface.md R510 (configuration requests), R511 (accesses below 32 bits), R512 (endpoint reset), R513, R514
(quad-SPI frames), R515 (the counters cleared); 21_electrical_and_package.md R611 (the link up).
What the manual leaves open here is the model's choice, log entries 25, 29 and 93. -/
def Obligations.HostPort : Prop :=
  ∀ (s : State) (m : Fin 39) (write dis me d3 late : Bool) (speed : Fin 4) (base : Word) (addr : BitVec 24) (v w : Word) (cmd : Byte)
    (n : Nat),
    let b := s.blk
    let counters := [aHST_SUBWORD_CNT, aHST_UNMAP_CNT, aHST_SPI_ERR_CNT, aHST_LAT_MAX, aHST_ERR_RD_CNT]
    let counted (c : Instr) (b' : Block) (f : Fld) : Prop := Completes c s fun t =>
      s.becomes t b' (fun a => a = f.addr ∨ irqReg 183 a) ∧ t.blk.get f = satInc 32 (b.get f) ∧ s.asserted t 183
    (b.connected m = true → counted (.subWordAccess m write)
      (if write then b else { b with readData := b.readData.set m.1 0 m.2 }) HST_SUBWORD_CNT) ∧
    (s.writes m aHST_CTL 1 → Completes (.hstCntClr m) s fun t =>
      s.keepsBut t (· ∈ counters) ∧ ∀ a ∈ counters, t.blk.rd a = 0) ∧
    (b.flag HST_MODE_PORT = false →
      (Completes .endpointReset s fun t => s.becomes t { b with host.pcie := ⟨false, false, false, 0⟩ } (· = aHST_MODE) ∧
        t.blk.rd aHST_MODE = b.rd aHST_MODE &&& ~~~8) ∧
      (Completes (.linkUp speed) s fun t => s.keepsBut t (· = aHST_MODE) ∧
        t.blk.rd aHST_MODE = b.rd aHST_MODE &&& ~~~6 ||| 8 ||| BitVec.ofNat 32 (2 * speed)) ∧
      (Completes (.configurationRequest (.command me dis)) s fun t =>
        t = s.onBlk ({ · with host.pcie.memEnable := me, host.pcie.intDisable := dis })) ∧
      (Completes (.configurationRequest (.power d3)) s fun t => t = s.onBlk ({ · with host.pcie.d3hot := d3 })) ∧
      (Completes (.configurationRequest (.bar0 base)) s fun t =>
        t = s.onBlk ({ · with host.pcie.bar0 := (base &&& 0xFF000000).toNat })) ∧
      (∃ x : Word, (x.getLsbD 1 = b.host.pcie.memEnable ∧ x.getLsbD 10 = b.host.pcie.intDisable ∧ x.getLsbD 19 = b.intStatus) ∧
        Completes (.configurationRequest .read) s fun t => t = s.onBlk ({ · with readData := b.readData.set 36 x }))) ∧
    (b.flag HST_MODE_PORT = true →
      (Completes (.qspiFrame 2 addr [v, w] n late false) s fun t =>
        t = if isWindow (wordAddr addr.toNat) then (s.write 36 addr.toNat v).write 36 addr.toNat w
          else (s.write 36 addr.toNat v).write 36 (addr.toNat + 4) w) ∧
      (Completes (.qspiFrame 0x0B addr [] 1 false false) s fun t => t = s.read 36 addr.toNat) ∧
      (cmd ≠ 2 → cmd ≠ 0x0B → counted (.qspiFrame cmd addr [v] n late false) b HST_SPI_ERR_CNT) ∧
      counted (.qspiFrame 0x0B addr [] 0 true false) b HST_SPI_ERR_CNT ∧
      counted (.qspiFrame 2 addr [] 0 false true) b HST_SUBWORD_CNT)

/-- 17_host_interface.md R519 (outbound windows), R520 (inbound windows), R506: the host port pops outbound windows and pushes inbound
ones, the other masters pop inbound ones, a read or write of the other kind does nothing; a read or write that reaches its window
completes; level, threshold, UNDER and OVER follow (Table 17.7). What the manual leaves open here is the model's choice, log entries 30
and 94. -/
def Obligations.FifoWindows : Prop :=
  ∀ (s : State) (m : Fin 39) (w : Fin 16) (v : Word) (rest : List Word),
    let b := s.blk
    let ws := b.host.fw[w]
    let shown (t : State) (n : Nat) : Prop :=
      let above := decide (b.get (HST_FW_THR w) ≤ if w.1 < 8 then n else 1024 - n)
      t.blk.host.fw[w].length = n ∧ t.blk.get (HST_FW_LEVEL w) = n ∧ t.blk.flag (HST_FW_STAT_ABOVE w) = above ∧
      (b.flag ⟨aHST_FW_IEN, w, 1⟩ = true → above = true → b.flag (HST_FW_STAT_ABOVE w) = false → s.asserted t 182)
    let page (a : Nat) : Prop := a = aHST_FW_LEVEL w ∨ a = aHST_FW_STAT w ∨ a = aHST_FW_IRQ ∨ irqReg 182 a
    (s.reads m (aHST_FW_DATA w 0) →
      ((w.1 < 8 ↔ m.1 = 36) → ws = v :: rest → ws.length ≤ 2048 → Completes (.hstFwDataRead m w) s fun t =>
        -- words a flow had waiting follow into the room made
        ∃ moved : List Word,
          t = { s with blk := { b with
            regs := t.blk.regs, free := t.blk.free, readData := b.readData.set m.1 v m.2, flows := t.blk.flows
            host.fw := b.host.fw.set w (rest ++ moved) } } ∧
          (∀ a, ¬ (page a ∨ (m.1 = 36 ∧ a = aHST_LAT_MAX)) → t.blk.rd a = b.rd a) ∧ shown t (rest ++ moved).length ∧
          ((∀ f < 16, b.flowWindow f ≠ some w) → moved = [] ∧ t.blk.flows = b.flows)) ∧
      ((w.1 < 8 ↔ m.1 = 36) → ws = [] → Completes (.hstFwDataRead m w) s fun t =>
        s.answered t m 0 (b.on (HST_FW_STAT_UNDER w))) ∧
      (¬ (w.1 < 8 ↔ m.1 = 36) → Completes (.hstFwDataRead m w) s fun t => s.answered t m 0 b)) ∧
    (s.writes m (aHST_FW_DATA w 0) v →
      (8 ≤ w.1 → m.1 = 36 → ws.length < 1024 → Completes (.hstFwDataWrite m w v) s fun t =>
        s.becomes t { b with host.fw := b.host.fw.set w (ws ++ [v]) } page ∧ shown t (ws.length + 1)) ∧
      (8 ≤ w.1 → m.1 = 36 → 1024 ≤ ws.length → Completes (.hstFwDataWrite m w v) s fun t =>
        s.keepsBut t (· = aHST_FW_STAT w) ∧ t.blk.flag (HST_FW_STAT_OVER w) = true) ∧
      (¬ (8 ≤ w.1 ∧ m.1 = 36) → Completes (.hstFwDataWrite m w v) s (· = s)))

/-- 17_host_interface.md R524 (a read of IRQ_S_TIME_LO latches the stamp record), R525 (an acknowledgement with the source's count clears
it), R527 (a request), R529 (an image is complete).
What the manual leaves open here is the model's choice, log entries 5 and 95. -/
def Obligations.InterruptsAndSnapshots : Prop :=
  ∀ (s : State) (m : Fin 39) (n : Fin 256) (count : BitVec 16) (h r ti fr an : Nat),
    let b := s.blk
    (s.reads m (aIRQ_S_TIME_LO n) → Completes (.stampLatch m n) s fun t =>
      s.answered t m (b.rd (aIRQ_S_TIME_LO n)) { b with stampLatch := b.stampLatch.set m.1 (b.stampRecord n) m.2 }) ∧
    (s.writes m (aIRQ_S_ACK n) (count.zeroExtend 32) →
      (count.toNat = b.get (IRQ_S_FLAGS_CNT n) →
        (∀ j < 4, b.capLevel j = true → b.pendingIrq (188 + j) = true ∧ 188 + j ≠ n.1) → Completes (.irqSAck m n count) s fun t =>
          s.keepsBut t (· = aIRQ_PEND (n / 32)) ∧
          t.blk.rd (aIRQ_PEND (n / 32)) = b.rd (aIRQ_PEND (n / 32)) &&& ~~~(1#32 <<< (n.1 % 32))) ∧
      (count.toNat ≠ b.get (IRQ_S_FLAGS_CNT n) → Completes (.irqSAck m n count) s (· = s))) ∧
    (s.writes m aSNP_CTL 1 → Completes (.snapshotRequest m) s fun t =>
      s.keepsBut t (fun a => m.1 = 36 ∧ a = aSNP_STAT) ∧
      t.blk.rd aSNP_STAT = if m.1 = 36 then b.rd aSNP_STAT ||| 1 else b.rd aSNP_STAT) ∧
    (b.host.writing = some h → b.host.tags = (r, ti, fr, an) → Completes .snapshotComplete s fun t =>
      s.becomes t { b with host.writing := none } (fun a => (aSNP_STAT ≤ a ∧ a ≤ aSNP_ANG + 4) ∨ irqReg 181 a) ∧
      t.blk.get SNP_STAT_BUSY = 0 ∧ t.blk.get SNP_STAT_READY = 1 ∧ t.blk.get SNP_STAT_IMG = h % 2 ∧
      t.blk.get SNP_GEN = b.host.gen % 2 ^ 32 ∧ t.blk.get SNP_ROUND = r % 2 ^ 48 ∧ t.blk.get SNP_TIME = ti % 2 ^ 64 ∧
      t.blk.get SNP_TFRAC = fr % 2 ^ 32 ∧ t.blk.get SNP_ANG = an % 2 ^ 64 ∧ s.asserted t 181)

/-- 17_host_interface.md R516 (Table 17.7: commands, arguments, replies, RESULT), R517 (DEAL), R518 (ABORT); 02_trust.md R45 (PROVISION);
03_deck.md R94 (STORE).
What the manual leaves open here is the model's choice, log entry 47. -/
def Obligations.Mailbox : Prop :=
  ∀ (s : State) (m : Fin 39) (args : List Word) (len n : Nat) (w : Word) (rest : List Word) (d : Deck) (ok : Bool),
    let b := s.blk
    let mb := b.host.mb
    let page (a : Nat) : Prop := a = aHST_MB_STAT ∨ a = aHST_MB_LEFT
    let told (t : State) (result : Nat) : Prop :=
      t.blk.get HST_MB_STAT_BUSY = 0 ∧ t.blk.get HST_MB_STAT_DONE = 1 ∧ t.blk.get HST_MB_STAT_RESULT = result ∧
      t.blk.get HST_MB_STAT_RWORDS = t.blk.host.mb.reply.length ∧ t.blk.get HST_MB_LEFT = 0 ∧ s.asserted t 180
    let ended (c : Instr) (result : Nat) (reply : List Word) : Prop := Completes c s fun t =>
      s.becomes t { b with host.mb := ⟨0, 0, [], false, false, reply⟩ } (fun a => page a ∨ irqReg 180 a) ∧ told t result
    let k : Nat := if b.flag DCK_FLASH_VALID ∧ b.get DCK_FLASH_SLOT = 0 then 1 else 0
    let seq := (b.get DCK_SEQ + 1) % 2 ^ 32
    (s.writes m aHST_MB_CMD 1 → b.flag HST_MB_STAT_BUSY = false → ended (.version m) 0 [Config.romVersion, 1]) ∧
    (s.writes m aHST_MB_CMD 1 → b.flag HST_MB_STAT_BUSY = true → Completes (.version m) s fun t =>
      s.keepsBut t (· = aHST_MB_STAT) ∧ t.blk.rd aHST_MB_STAT = b.rd aHST_MB_STAT ||| 0x4) ∧
    (s.writes m aHST_MB_CMD 0 → b.flag HST_MB_STAT_BUSY = true → mb.waiting = true → b.boot.dealing = false →
      ended (.abort m) 5 []) ∧
    (s.reads m aHST_MB_REPLY → mb.reply = w :: rest → Completes (.mbReply m) s fun t =>
      s.answered t m w ({ b with host.mb.reply := rest }.set HST_MB_STAT_RWORDS rest.length)) ∧
    (s.reads m aHST_MB_REPLY → mb.reply = [] → Completes (.mbReply m) s fun t => s.answered t m 0 b) ∧
    (s.writes m aHST_MB_CMD (BitVec.ofNat 32 (0x20 + len * 2 ^ 8)) → 0 < len → len < 2 ^ 21 → b.flag HST_MB_STAT_BUSY = false →
      b.mayDeal = true → b.boot.dealing = false → Completes (.deal m len) s fun t =>
        s.becomes t { b with host.mb := ⟨0x20, len, [], false, true, []⟩ } page ∧
        t.blk.get HST_MB_LEFT = len ∧ t.blk.rd aHST_MB_STAT = b.rd aHST_MB_STAT ||| 1) ∧
    (s.writes m aHST_MB_DATA w → mb.waiting = true → mb.code = 0x20 → b.boot.dealing = true → b.get HST_MB_LEFT = n + 1 →
      Completes (.mbData m w) s fun t => t.blk.get HST_MB_LEFT = n ∧
        let staged : Block := { b with boot.stage := b.boot.stage ++ bytesBE 4 w.toNat }
        s.becomes t (if n = 0 then { staged with host.mb.waiting := false, host.mb.running := true, boot.staging := false } else staged)
          (· = aHST_MB_LEFT)) ∧
    (s.writes m aHST_MB_DATA w → mb.waiting = true → mb.code = 0x20 → b.boot.dealing = false → b.get HST_MB_LEFT = n + 1 →
      Completes (.mbData m w) s fun t => t.pending = s.pending ∧ t.nv = s.nv ∧ t.blk.get HST_MB_LEFT = n ∧ t.blk.boot.dealing = true ∧
        t.blk.boot.fromFlash = false ∧ t.blk.boot.staging = decide (n ≠ 0) ∧ t.blk.boot.stage = bytesBE 4 w.toNat ∧
        t.blk.get DCK_STAT_STATE = 2 ∧ (b.get DEV_BOOT_PHASE ≠ 14 → t.blk.get DEV_BOOT_PHASE = 2) ∧ t.blk.shadow = [] ∧
        t.blk.dealt = b.dealt ∧ t.blk.mem = b.mem) ∧
    (s.writes m aHST_MB_DATA w → mb.waiting = false → Completes (.mbData m w) s fun t =>
      s.keepsBut t (· = aHST_MB_STAT) ∧ t.blk.rd aHST_MB_STAT = b.rd aHST_MB_STAT ||| 0x8) ∧
    (s.writes m aHST_MB_CMD 0x1510 → (∀ w ∈ args, s.writes m aHST_MB_DATA w) → args.length = 21 →
      b.flag HST_MB_STAT_BUSY = false → s.nv.otp.provisioned = false → Completes (.provision m args) s fun t =>
        let otp := { s.nv.otp with
          provisioned := true, slots := s.nv.otp.slots.set 0 ⟨BitVec.ofNat 384 (wordsNat args 0 12), wordsNat args 12 1⟩
          wrapped := s.nv.otp.wrapKey (BitVec.ofNat 256 (wordsNat args 13 8)) (BitVec.ofNat 96 (Config.random b.free).toNat) }
        { s with nv := { s.nv with otp } }.becomes t
          { b with free := b.free + 1, host.mb := ⟨0, 0, [], false, false, []⟩ }
          (fun a => page a ∨ a = aTRU_STAT ∨ irqReg 180 a) ∧
        told t 0 ∧ t.blk.rd aTRU_STAT = b.rd aTRU_STAT ||| 1) ∧
    (s.writes m aHST_MB_CMD 0x21 → b.flag HST_MB_STAT_BUSY = false →
      (b.get DCK_STAT_STATE = 4 → Completes (.store m) s fun t =>
        s.becomes t { b with host.mb := ⟨0x21, 0, [], true, false, []⟩ } (fun a => page a ∨ a = aDCK_STAT ∨ irqReg 2 a) ∧
        t.blk.get DCK_STAT_STATE = 7 ∧ t.blk.flag HST_MB_STAT_BUSY = true ∧ s.asserted t 2) ∧
      (b.get DCK_STAT_STATE ≠ 4 → ended (.store m) 3 [b.rd aDCK_STAT])) ∧
    (b.get DCK_STAT_STATE = 7 → b.dealt = some d → mb.code = 0x21 → mb.running = true → Completes (.storeDone ok) s fun t =>
      let erased := flashErase s.nv.flash k
      let flash := if ok then flashWrite (flashWrite erased (slotBase k + 0x1000) d.raw) (slotBase k) (descBytes seq d.bytes) else erased
      { s with nv := { s.nv with flash } }.becomes t
        { b with host.mb := ⟨0, 0, [], false, false, [t.blk.rd aDCK_STAT]⟩ }
        (fun a => page a ∨ a = aDCK_STAT ∨ (ok = true ∧ (a = aDCK_FLASH ∨ a = aDCK_SEQ)) ∨ irqReg 2 a ∨ irqReg 180 a) ∧
      told t 0 ∧ t.blk.get DCK_STAT_STATE = 4 ∧
      (if ok then t.blk.get DCK_FLASH_SLOT = k ∧ t.blk.flag DCK_FLASH_VALID = true ∧ t.blk.get DCK_SEQ = seq
        else t.blk.flag DCK_STAT_STORE_ERR = true))

/-- 03_deck.md R93 (the slot of the boot flash), R97 (the end of dealing), R98 (a refusal), R99 (OTP); Tables 3.9, 3.13, 3.14; R225 (source
16+4s of a segment that dealing stops).
What the manual leaves open here is the model's choice, log entries 23, 36, 44, 47, 49, 50 and 114. -/
def Obligations.Dealing : Prop :=
  ∀ (s : State) (pcrc : Word × Word) (d : Deck) (c : Chk) (k : Nat),
    let b := s.blk
    let deck := parseDeck s.nv.otp b.boot.stage
    let mailbox : Prop := b.host.mb.code = 0x20 ∧ b.host.mb.running = true
    (b.boot.dealing = false ∨ b.boot.staging = true → Completes (.dealingEnd pcrc) s (· = s)) ∧
    (b.boot.dealing = true → b.boot.staging = false →
      -- the checks
      (b.passed = none → b.deckFault s.nv.otp deck = none → Completes (.dealingEnd pcrc) s fun t =>
        s.becomes t { b with passed := some deck } (fun a => a = aDCK_STAT ∨ irqReg 2 a) ∧ t.blk.get DCK_STAT_STATE = 3) ∧
      (b.passed = none → b.deckFault s.nv.otp deck = some c → b.boot.fromFlash = false → mailbox → b.get DCK_STAT_STATE = 2 →
        (∀ e, b.dealt = some e → e.sharedBytes (e.hands (b.deckPool e)) + b.stageBytes ≤ 0x800000) →
        c.sect < 16 → c.rtype < 2 ^ 16 → Completes (.dealingEnd pcrc) s fun t =>
          s.becomes t { b with
              passed := none, scp := t.blk.scp, boot := { b.boot with dealing := false, staging := false, stage := [] }
              safety.a.halves := t.blk.safety.a.halves, safety.b.halves := t.blk.safety.b.halves
              host.mb := ⟨0, 0, [], false, false, [t.blk.rd aDCK_STAT]⟩ }
            (fun a => a = aDCK_STAT ∨ a = aDCK_SECT ∨ irqReg 2 a ∨ eventReg a ∨ a = aHST_MB_STAT ∨ a = aHST_MB_LEFT ∨ irqReg 180 a ∨
              a = aDEV_BOOT ∨ a = aCPR_STAT ∨ irqReg 1 a ∨ (0x160000 ≤ a ∧ a < 0x170000) ∨ irqReg 145 a ∨ a = aFLD_DOUT_ST ∨
              a = aFLD_STAT ∨ irqReg 159 a) ∧
          t.blk.get DCK_STAT_STATE = 5 ∧ t.blk.get DCK_STAT_REASON = c.reason % 256 ∧ t.blk.get DCK_SECT_SECT = c.sect ∧
          t.blk.get DCK_SECT_RTYPE = c.rtype ∧ t.blk.get HST_MB_STAT_RESULT = 3 ∧ s.asserted t 2 ∧ s.asserted t 180 ∧
          (b.get DEV_BOOT_PHASE = 2 → b.boot.phase < 6 → t.blk.get DEV_BOOT_PHASE = b.boot.phase) ∧
          (b.safety.lockout = true → t.blk.flag SAF_STAT_PERMITTED = false) ∧
          (b.flag SAF_STAT_LOCKOUT = b.safety.lockout → s.logged t 7 2 (c.reason + c.sect * 2 ^ 8) c.rtype)) ∧
      -- the distribution
      (b.passed = some d → Completes (.dealingEnd pcrc) s fun t =>
        t.pending = s.pending ∧ t.blk.dealt = some d ∧ t.blk.passed = none ∧ t.blk.trust.loaded = true ∧ t.blk.trust.policy = d.policy ∧
        t.blk.boot.dealing = false ∧ t.blk.boot.step3 = true ∧ t.blk.get DCK_STAT_STATE = 4 ∧
        t.blk.get TRU_STAT_DECK_SLOT = d.header.slot % 4 ∧
        (∀ j < 12, t.blk.rd (aDCK_HASH j) = hashWord d.digest j) ∧ t.blk.get DCK_SECVER = t.nv.otp.secver % 2 ^ 9 ∧
        t.nv = { s.nv with otp := t.nv.otp } ∧
        (t.nv.otp = s.nv.otp.program d ∨ (t.nv.otp = s.nv.otp ∧ t.blk.flag DCK_STAT_OTP_ERR = true)) ∧
        (∀ j < 8, b.get (SEG_STAT_STATE j) ≠ 0 → t.blk.get (SEG_STAT_STATE j) = 0 ∧ t.blk.pendingIrq (16 + 4 * j) = true) ∧
        (mailbox → t.blk.get HST_MB_STAT_RESULT = 0 ∧ t.blk.get HST_MB_STAT_BUSY = 0))) ∧
    -- the boot flash
    (b.boot.dealing = true → b.boot.staging = true → b.boot.fromFlash = true → Completes .deckFlashRead s fun t =>
      s.becomes t { b with boot.staging := false, boot.stage := s.nv.flashDeck b.boot.flashSlot } (fun a => a = aDCK_STAT ∨ irqReg 2 a) ∧
      t.blk.get DCK_STAT_STATE = 2) ∧
    (b.boot.dealing = false → b.domainOn 1 = false ∨ b.domainOn 7 = false → Completes .deckFlashRead s (· = s)) ∧
    (b.boot.released = true → b.get DEV_BOOT_PHASE = 1 → b.boot.step3 = false → b.boot.dealing = false → b.domainOn 1 = true →
      b.domainOn 7 = true →
      let slot0 := s.nv.flashDesc 0
      let slot1 := s.nv.flashDesc 1
      let chosen (x : FlashDesc) : Prop := Completes .deckFlashRead s fun t =>
        t = { s with blk := t.blk } ∧ t.blk.boot.dealing = true ∧ t.blk.boot.staging = true ∧ t.blk.boot.flashSlot = k ∧
        t.blk.boot.fromFlash = true ∧ t.blk.get DEV_BOOT_PHASE = 2 ∧ t.blk.get DCK_STAT_STATE = 1 ∧ t.blk.get DCK_FLASH_SLOT = k ∧
        t.blk.flag DCK_FLASH_VALID = true ∧ t.blk.get DCK_SEQ = x.seq % 2 ^ 32
      (bit (b.get CPR_STRAP) 2 = true → b.get DCK_STAT_STATE ≠ 6 → Completes .deckFlashRead s fun t =>
        s.becomes t { b with boot.step1 := true } (fun a => a = aDEV_BOOT ∨ a = aDCK_STAT ∨ irqReg 1 a ∨ irqReg 2 a) ∧
        t.blk.get DEV_BOOT_PHASE = 2 ∧ t.blk.get DCK_STAT_STATE = 6 ∧ s.asserted t 1 ∧ s.asserted t 2) ∧
      (bit (b.get CPR_STRAP) 2 = false → slot0.valid = true → k = 0 →
        (slot1.valid = true → laterThan 32 slot1.seq slot0.seq = false) → chosen slot0) ∧
      (bit (b.get CPR_STRAP) 2 = false → slot1.valid = true → k = 1 →
        (slot0.valid = true → laterThan 32 slot1.seq slot0.seq = true) → chosen slot1) ∧
      (bit (b.get CPR_STRAP) 2 = false → slot0.valid = false → slot1.valid = false → b.dealt = none → Completes .deckFlashRead s fun t =>
        t = { s with blk := t.blk } ∧ t.blk.boot.dealing = false ∧ t.blk.get DCK_STAT_STATE = 5 ∧ t.blk.get DCK_STAT_REASON = 0x15 ∧
        t.blk.get DEV_BOOT_PHASE = 14 ∧ t.blk.get DEV_BOOT_FAIL_STEP = 3))

/-- 03_deck.md R103 (a write of RWV fields enters the queue of 64; validation in order, with its reasons), R104 (the commit latch), R105
(VSTAT and RANGE_ERR); Table 3.10 (a basic page at expert level). Shown for one-word registers of the axis pages.
What the manual leaves open here is the model's choice, log entries 24, 31 and 138. -/
def Obligations.ValidatedWrites : Prop :=
  ∀ (s : State) (m : Fin 39) (x : Nat) (v : Word) (r : Hit) (a : AxisRec),
    let b := s.blk
    let refused (c : Instr) (b : Block) (vstat off reason : Nat) : Prop := Completes c s fun t =>
      s.becomes t b (fun a => a = vstat ∨ a = aDEV_STAT ∨ irqReg 0 a) ∧ t.blk.flag DEV_STAT_RANGE_ERR = true ∧
      t.blk.rd vstat = BitVec.ofNat 32 (reason + off % 2 ^ 16 * 2 ^ 8)
    (0x80000 ≤ x → x < 0xC0000 → x % 4 = 0 → s.writes m x v → findReg (x + 0x40000) = some r → r.desc.wide = false →
      (∀ f ∈ r.desc.fields, f.basic = .rwv) → r.desc.fields ≠ [] → b.layout.isRaw x = false →
      b.axisRec ((x - 0x80000) / 0x400) = some a →
        let vstat := aAX_VSTAT ((x - 0x80000) / 0x400)
        (a.level = 0 → b.vq.length < 64 → Completes (.rwvWrite m x v) s fun t =>
          t = s.onBlk ({ · with vq := b.vq ++
            [⟨x + 0x40000, v.toNat, r.desc.fields.map fun f => ⟨x + 0x40000, f.lo, f.w⟩, vstat, x % 0x400⟩] })) ∧
        (a.level = 0 → 64 ≤ b.vq.length → refused (.rwvWrite m x v) b vstat (x % 0x400) 6) ∧
        (a.level ≠ 0 → refused (.rwvWrite m x v) b vstat (x % 0x400) 5)) ∧
    (∀ w rest f d k, b.vq = w :: rest → w.flds = [f] → rwvAt w.addr f.lo f.w = some d → b.dealt = some k →
      ¬ (0x101000 ≤ f.addr ∧ f.addr < 0x102000) →
      w.vstat ≠ aDEV_STAT → ¬ irqReg 0 w.vstat →
        let q := k.rangeOf w.addr d
        let n := bits w.value f.lo f.w
        let y := d.value n
        let far := q.2.2.1 ≠ 0 ∧ q.2.2.1 < (y - d.value (b.comingValue f)).natAbs
        let inside := q.1 ≤ y ∧ y ≤ q.2.1 ∧ b.inModulus f y = true
        (y < q.1 → refused .rwvValidation { b with vq := rest } w.vstat w.off 1) ∧
        (q.1 ≤ y → q.2.1 < y → refused .rwvValidation { b with vq := rest } w.vstat w.off 2) ∧
        (inside → far → refused .rwvValidation { b with vq := rest } w.vstat w.off 3) ∧
        (inside → ¬ far → q.2.2.2 = true → b.stillFor f.addr = false →
          refused .rwvValidation { b with vq := rest } w.vstat w.off 4) ∧
        (inside → ¬ far → (q.2.2.2 = true → b.stillFor f.addr = true) → b.limitsOrdered f y = false →
          refused .rwvValidation { b with vq := rest } w.vstat w.off 0xB) ∧
        (inside → ¬ far → (q.2.2.2 = true → b.stillFor f.addr = true) → b.limitsOrdered f y = true → Completes .rwvValidation s fun t =>
          t = s.onBlk ({ · with vq := rest, valid := b.valid.filter (·.fld ≠ f) ++ [⟨f, n, q.2.2.2, w.vstat, w.off⟩] }))) ∧
    (b.latchCloses = false → Completes .commitLatchClose s (· = s)) ∧
    (b.latchCloses = true → (∀ f ∈ b.valid, f.ss = true → b.stillFor f.fld.addr = true) → b.due = [] →
      b.valid.Pairwise (·.fld ≠ ·.fld) → Completes .commitLatchClose s fun t =>
        t = s.onBlk ({ · with due := b.valid, valid := [] })) ∧
    (∀ f, b.latchCloses = true → b.valid = [f] → f.ss = true → b.stillFor f.fld.addr = false → f.vstat ≠ aDEV_STAT → ¬ irqReg 0 f.vstat →
      refused .commitLatchClose { b with valid := [] } f.vstat f.off 4)

/-- 02_trust.md R67 (challenges, void after 60 s), R73 (an unlock ends), R75, R76 (Tables 2.10, 2.13): the requests of TRU_CTL but for
tokens, and TRU_FIFO.
What the manual leaves open here is the model's choice, log entries 2 and 40. -/
def Obligations.TrustPage : Prop :=
  ∀ (s : State) (m : Fin 39) (w : Word) (rest : List Word),
    let b := s.blk
    let fresh := randomWords (Config.random b.free)
    (s.writes m aTRU_CTL 1 → Completes (.chalNew m) s fun t =>
      s.becomes t { b with free := b.free + 1, trust.hostChal := some b.up } (fun a => ∃ j < 8, a = aTRU_CHAL j) ∧
      ∀ j < 8, fresh[j]? = some (t.blk.rd (aTRU_CHAL j))) ∧
    (Completes .debugPortChallenge s fun t =>
      t = s.onBlk fun b => { b with free := b.free + 1, trust.dbgChal := some (fresh, b.up), trust.tap := .challenge }) ∧
    (∀ made, b.trust.hostChal = some made → Completes (.challengeExpiry false) s fun t =>
      t = if made + 60000000000 ≤ b.up then s.onBlk ({ · with trust.hostChal := none }) else s) ∧
    (∀ ws made, b.trust.dbgChal = some (ws, made) → Completes (.challengeExpiry true) s fun t =>
      t = if made + 60000000000 ≤ b.up then s.onBlk ({ · with trust.dbgChal := none }) else s) ∧
    (s.writes m aTRU_FIFO w → Completes (.truFifo m (some w)) s fun t =>
      t = s.onBlk ({ · with trust.fifo := b.trust.fifo ++ [w] })) ∧
    (s.reads m aTRU_FIFO → b.trust.fifo = w :: rest → Completes (.truFifo m none) s fun t =>
      let c : Block := { b with trust.fifo := rest, trust.quoteLeft := b.trust.quoteLeft - 1 }
      s.answered t m w (if b.trust.quoteLeft = 1 then c.off TRU_STAT_QUOTE_READY else c)) ∧
    (s.writes m aTRU_CTL 16 → Completes (.fifoClr m) s fun t =>
      s.becomes t { b with trust.fifo := [], trust.quoteLeft := 0 } (· = aTRU_STAT) ∧
      t.blk.rd aTRU_STAT = b.rd aTRU_STAT &&& ~~~0x10) ∧
    (s.writes m aTRU_CTL 4 → 8 ≤ b.trust.fifo.length → b.trust.quoteLeft = 0 → Completes (.quoteReq m) s fun t =>
      t = s.onBlk ({ · with trust.nonce := some (b.trust.fifo.take 8), trust.fifo := b.trust.fifo.drop 8, trust.quoteBody := [] })) ∧
    (b.trust.quoteBody ≠ [] → ∀ r q, Config.ecdsaSign s.nv.otp.attestKey (Config.sha384 b.trust.quoteBody) = (r, q) → Completes .quoteReady s fun t =>
      s.becomes t { b with trust.quoteLeft := 76, trust.nonce := none, trust.quoteBody := []
                           trust.fifo := bytesWords 76 (b.trust.quoteBody ++ bytesBE 48 r.toNat ++ bytesBE 48 q.toNat) }
        (fun a => a = aTRU_STAT ∨ irqReg 3 a) ∧
      t.blk.rd aTRU_STAT = b.rd aTRU_STAT ||| 0x10 ∧ s.asserted t 3) ∧
    (s.writes m aTRU_CTL 8 → b.trust.unlock.isSome = true → Completes (.dbgLock m) s fun t =>
      s.becomes t { b with trust.unlock := none, scp := t.blk.scp } (fun a => a = aTRU_STAT ∨ irqReg 5 a ∨ eventReg a) ∧
      t.blk.rd aTRU_STAT = b.rd aTRU_STAT &&& ~~~0x8 ∧ s.asserted t 5 ∧ s.logged t 0x12 1 0 0)

/-- 02_trust.md R67 (a presentation uses the challenge up), R68 (the checks and the report), R69 (release), R71, R73 (debug unlock),
R74 (return unlock): presenting a token, and the end of its verification.
What the manual leaves open here is the model's choice, log entries 18 and 39. -/
def Obligations.Tokens : Prop :=
  ∀ (s : State) (m : Fin 39) (ws : List Word) (chal : Option (List Word)) (k : Token),
    let b := s.blk
    let r := b.tokenReason s.nv.otp ws chal
    let verified (nv : NonVol) (c : Block) (p : Nat → Prop) (stat : Word) (q : State → Prop) : Prop :=
      Completes .tokenVerified s fun t =>
        { s with nv }.becomes t c (fun a => a = aTRU_STAT ∨ irqReg 3 a ∨ p a) ∧
        t.blk.rd aTRU_STAT &&& ~~~0x4 = (b.rd aTRU_STAT &&& ~~~0x24) ||| stat ∧ s.asserted t 3 ∧ q t
    (s.writes m aTRU_CTL 2 → b.flag TRU_STAT_TOKEN_BUSY = false → 65 ≤ b.trust.fifo.length → b.trust.quoteLeft = 0 →
      Completes (.tokenGo m) s fun t =>
        s.becomes t { b with trust.fifo := b.trust.fifo.drop 65, trust.hostChal := none
                             trust.token := some (b.trust.fifo.take 65,
                               b.trust.hostChal.map fun _ => (List.range 8).map fun j => b.rd (aTRU_CHAL j)) } (· = aTRU_STAT) ∧
        t.blk.rd aTRU_STAT = b.rd aTRU_STAT ||| 0x20) ∧
    (b.flag TRU_STAT_TOKEN_BUSY = false → Completes (.debugToken ws) s fun t =>
      s.becomes t { b with trust.token := some (ws, b.trust.dbgChal.map (·.1)), trust.dbgChal := none, trust.tap := .token } (· = aTRU_STAT) ∧
      t.blk.rd aTRU_STAT = b.rd aTRU_STAT ||| 0x20) ∧
    (b.trust.token = some (ws, chal) →
      (r ≠ 0 → Completes .tokenVerified s fun t =>
        s.becomes t { b with trust.token := none } (fun a => a = aTRU_STAT ∨ irqReg 3 a) ∧ s.asserted t 3 ∧
        t.blk.rd aTRU_STAT = (b.rd aTRU_STAT &&& ~~~0xFF20) ||| 0x40 ||| BitVec.ofNat 32 (r * 2 ^ 8)) ∧
      (r = 0 → parseToken ws = some k →
        let unlocked (nv : NonVol) (stat : Word) : Prop :=
          ∃ scp, verified nv { b with trust.token := none, trust.unlock := some k.scope, scp } (fun a => irqReg 5 a ∨ eventReg a)
            stat fun t => t.blk.get TRU_STAT_FROZEN_ANY = b.get TRU_STAT_FROZEN_ANY ∧ s.asserted t 5 ∧
              s.logged t 0x12 1 k.scope 0
        (k.type = 1 → unlocked s.nv 0x8) ∧
        (k.type = 3 → unlocked { s.nv with otp := { s.nv.otp with kill := true } } 0xA) ∧
        (k.type = 2 → ¬ (2 ≤ k.arg ∧ k.arg ≤ 33) → k.arg ≠ 35 → k.arg ≠ 38 →
          ∃ scp, verified s.nv { b with trust.token := none, scp } (fun a => a = aTRU_FRZ_LO ∨ a = aTRU_FRZ_HI ∨ eventReg a) 0
            fun t => t.blk.frozen k.arg = false ∧ (∀ j < 39, j ≠ k.arg → t.blk.frozen j = b.frozen j) ∧
              t.blk.flag TRU_STAT_FROZEN_ANY = (List.range 39).any t.blk.frozen ∧ s.logged t 0x11 0 k.arg 0)))

/-- 02_trust.md R55 (the check), R57 (TRU_VIOL_CNT, _MASTER, _ADDR, source 4), R58 (the freeze; a dropped read answers 0; a frozen master's
attempts are counted), R60 (the dispatcher is not frozen; an event of the safety functions; accesses of one cycle act in ascending order),
R70 (a locked debug port has no path to the fabric). For masters whose freeze has no effect of its own.
What the manual leaves open here is the model's choice, log entry 41. -/
def Obligations.Violations : Prop :=
  ∀ (s : State) (x y : Access),
    let b := s.blk
    let m := x.m
    let c : Instr := .violation x.m x.addr x.len x.write ⟨x.cyclic, []⟩
    let bad (x : Access) := b.allowed x.m x.addr x.len x.write x.cyclic = false
    let plain (m : Fin 39) := b.frozen m = false ∧ ¬ (2 ≤ m.1 ∧ m.1 ≤ 35) ∧ m.1 ≠ 37
    let answers (x : Access) (d : Vector Word 39) := if x.write then d else d.set x.m.1 0 x.m.2
    let last (t : State) (x : Access) : Prop :=
      t.blk.get TRU_VIOL_MASTER_MASTER = x.m ∧ t.blk.get TRU_VIOL_MASTER_WRITE = b2n x.write ∧
      t.blk.rd aTRU_VIOL_ADDR = BitVec.ofNat 32 x.addr
    let shown (t : State) : Prop :=
      t.blk.get TRU_VIOL_CNT = satInc TRU_VIOL_CNT.w (b.get TRU_VIOL_CNT) ∧ last t x ∧ s.asserted t 4
    let viol (a : Nat) : Prop := a = aTRU_VIOL_CNT ∨ a = aTRU_VIOL_MASTER ∨ a = aTRU_VIOL_ADDR ∨ irqReg 4 a ∨ eventReg a
    let frz (a : Nat) : Prop := a = aTRU_FRZ_LO ∨ a = aTRU_FRZ_HI ∨ a = aTRU_STAT
    let freezes (b : Block) (x : Access) : Block := b.event 0x10 2 (x.m + 256 * b2n x.write) x.addr
    (¬ bad x → b.barred m x.addr = false → Completes c s (· = s)) ∧
    (m.1 = 37 → b.trust.unlock = none → Completes c s (· = s)) ∧
    (b.frozen m = true → b.barred m x.addr = true → (m.1 = 37 → b.trust.unlock.isSome = true) → Completes c s fun t =>
      s.becomes t { b with readData := answers x b.readData } (· = aTRU_VIOL_CNT) ∧
      t.blk.get TRU_VIOL_CNT = satInc TRU_VIOL_CNT.w (b.get TRU_VIOL_CNT)) ∧
    (bad x → b.frozen m = false →
      (m.1 = 34 → Completes c s fun t =>
        s.becomes t { b with scp := t.blk.scp, readData := answers x b.readData, safety.events := b.safety.events ++ [(0x20, [])] } viol ∧
        shown t ∧ s.logged t 0x14 3 x.addr 0) ∧
      (plain m → Completes c s fun t =>
        s.becomes t { b with scp := t.blk.scp, readData := answers x b.readData } (fun a => viol a ∨ frz a) ∧ shown t ∧
        t.blk.frozen m = true ∧ (∀ j < 39, j ≠ m.1 → t.blk.frozen j = b.frozen j) ∧ t.blk.rd aTRU_STAT = b.rd aTRU_STAT ||| 0x4 ∧
        t.blk.scp = (freezes b x).scp)) ∧
    (bad x → bad y → plain x.m → plain y.m → y.m.1 < x.m.1 → Completes (.violation x.m x.addr x.len x.write ⟨x.cyclic, [y]⟩) s fun t =>
      s.becomes t { b with scp := t.blk.scp, readData := answers x (answers y b.readData) } (fun a => viol a ∨ frz a) ∧ last t x ∧
      t.blk.frozen x.m = true ∧ t.blk.frozen y.m = true ∧ t.blk.scp = (freezes (freezes b y) x).scp)

/-- 04_line_angle.md R110 (ANG_CTL), R114 (a sample corrects the estimate, is dropped, or steps it: R116; its mark: R112), R117 (virtual
rate), R121 (a handover abandoned), R122 (loss of source, ramp). What the manual leaves open here is the model's choice, log entries 34,
35 and 53. -/
def Obligations.AngleSource : Prop :=
  ∀ (s : State) (m : Fin 39) (v : Word) (x : DWord) (index tk t0 : Nat) (unc : Bool),
    let b := s.blk
    let a := b.ang
    let stat (a : Nat) : Prop := a = aANG_STAT
    let put (fs : List Fld) : List (Fld × Nat) := b.shadow.filter (fun y => decide (y.1 ∉ fs)) ++ fs.map fun f => (f, bits v.toNat f.lo f.w)
    let theta := (x.toNat + a.ofs) % 2 ^ 64
    let late : Int := (b.ns : Int) - tk
    let dt : Int := (tk : Int) - a.lastT
    let e := angleDiff theta (wrapN 96 ((a.th : Int) - (a.w + a.c) * late) / 2 ^ 32)
    let corr := divRound (e * 2 ^ 32) dt
    let w := a.w + divRound corr (2 ^ b.kwShift)
    let fresh := divRound (angleDiff theta a.lastTheta * 2 ^ 32) dt
    let stepTo := wrapN 96 ((theta : Int) * 2 ^ 32 + (a.w + a.c) * late)
    let uncert := (b.rd aANG_STAT &&& ~~~0x20) ||| if unc then 0x20 else 0
    let sample := Instr.angleSample 4 index x tk unc
    let slewed := a.w + clampI (-(b.get ANG_VSLEW : Int)) (b.get ANG_VSLEW) (b.geti ANG_VRATE - a.w)
    (b.basicLevel aANG_CTL = false → s.writes m aANG_CTL v →
      (validSource v.toNat = true → Completes (.angCtl m v) s fun t =>
        t = s.onBlk ({ · with shadow := put [ANG_CTL_RUN, ANG_CTL_KIND, ANG_CTL_INDEX, ANG_CTL_LOSS_ACT] })) ∧
      (validSource v.toNat = false → Completes (.angCtl m v) s fun t =>
        s.becomes t { b with shadow := put [ANG_CTL_RUN, ANG_CTL_LOSS_ACT] } (fun a => stat a ∨ irqReg 184 a) ∧
        t.blk.rd aANG_STAT = b.rd aANG_STAT ||| 0x100 ∧ s.asserted t 184)) ∧
    (b.flag ANG_STAT_RUNNING = false → Completes sample s (· = s)) ∧
    (b.flag ANG_STAT_RUNNING = true → a.handover = none → a.kind = 4 → a.index = index → a.accepted = 2 →
      (tk ≤ a.lastT ∨ (2 * b.roundNs : Int) < late → Completes sample s fun t =>
        s.keepsBut t (fun a => stat a ∨ a = aANG_DROP_CNT) ∧ t.blk.get ANG_DROP_CNT = satInc 32 (b.get ANG_DROP_CNT) ∧
        t.blk.rd aANG_STAT = b.rd aANG_STAT ||| 0x2000) ∧
      (a.lastT < tk → late ≤ 2 * b.roundNs → b.flag ANG_STAT_LOST = false →
        (e.natAbs ≤ b.get ANG_RESYNC_TH → w.natAbs < 2 ^ 48 → Completes sample s fun t =>
          s.becomes t { b with ang := { a with
            w, c := corr, cLeft := tk - a.lastT, saturated := false, lastTheta := theta, lastT := tk, lastAccept := b.up } } stat ∧
          t.blk.rd aANG_STAT = uncert) ∧
        (b.get ANG_RESYNC_TH < e.natAbs → fresh.natAbs < 2 ^ 48 → b.allEvents = [] → Completes sample s fun t =>
          s.becomes t { b with ang := t.blk.ang, safety.events := b.safety.events ++ [(0x11, [])] }
            (fun a => stat a ∨ a = aANG_RESYNC_CNT ∨ irqReg 185 a) ∧
          t.blk.ang.th = stepTo ∧ t.blk.ang.w = fresh ∧ t.blk.ang.c = 0 ∧ t.blk.ang.lastTheta = theta ∧ t.blk.ang.lastT = tk ∧
          t.blk.get ANG_RESYNC_CNT = satInc 32 (b.get ANG_RESYNC_CNT) ∧ t.blk.rd aANG_STAT = uncert ||| 0x200 ∧
          s.asserted t 185))) ∧
    (b.flag ANG_STAT_RUNNING = true → a.kind = 3 → slewed.natAbs < 2 ^ 48 → Completes .virtualRateSlew s fun t =>
      t = s.onBlk ({ · with ang.w := slewed, ang.saturated := false })) ∧
    (∀ h, a.handover = some h → b.up < h.since + 2 * b.roundNs → Completes .handoverAbandon s (· = s)) ∧
    (∀ h, a.handover = some h → h.since + 2 * b.roundNs ≤ b.up → Completes .handoverAbandon s fun t =>
      s.becomes t { b with ang.handover := none } (fun a => stat a ∨ a = aANG_CTL ∨ irqReg 184 a) ∧
      t.blk.rd aANG_STAT = (b.rd aANG_STAT &&& ~~~0x10) ||| 0x100 ∧ t.blk.get ANG_CTL_KIND = a.kind % 8 ∧
      t.blk.get ANG_CTL_INDEX = a.index % 256 ∧ t.blk.get ANG_CTL_RUN = b.get ANG_CTL_RUN ∧ s.asserted t 184) ∧
    (b.up < a.lastAccept + 1000 * max 1 (b.get ANG_LOSS_TO) → Completes .sourceLost s (· = s)) ∧
    (b.flag ANG_STAT_RUNNING = true → a.kind ≠ 3 → b.flag ANG_STAT_LOST = false →
      a.lastAccept + 1000 * max 1 (b.get ANG_LOSS_TO) ≤ b.up →
      let lost (y : Ang) (ramp : Word) : Prop := Completes .sourceLost s fun t =>
        s.becomes t { b with ang := y, safety.events := b.safety.events ++ [(0x10, [])] } (fun a => stat a ∨ irqReg 184 a) ∧
        t.blk.rd aANG_STAT = b.rd aANG_STAT ||| 4 ||| ramp ∧ s.asserted t 184
      (b.flag ANG_CTL_LOSS_ACT = false → lost { a with c := 0, cLeft := 0 } 0) ∧
      (b.flag ANG_CTL_LOSS_ACT = true → b.get ANG_RAMP = 0 → lost { a with w := 0, saturated := false } 0) ∧
      (b.flag ANG_CTL_LOSS_ACT = true → b.get ANG_RAMP ≠ 0 → lost { a with lossW := a.w, lossAt := some b.up } 8)) ∧
    (a.lossAt = some t0 → b.flag ANG_STAT_RAMP = true → b.get ANG_RAMP ≠ 0 →
      (b.up < t0 + 1000 * b.get ANG_RAMP → Completes .rateRamp s fun t =>
        let w := signI a.w * ((a.w.natAbs - a.lossW.natAbs / b.get ANG_RAMP : Nat) : Int)
        t = s.onBlk ({ · with ang := { a with w, saturated := a.saturated && decide (2 ^ 48 ≤ w.natAbs) } })) ∧
      (t0 + 1000 * b.get ANG_RAMP ≤ b.up → Completes .rateRamp s fun t =>
        s.becomes t { b with ang := { a with w := 0, saturated := false, lossAt := none } } stat ∧ t.blk.rd aANG_STAT = b.rd aANG_STAT &&& ~~~8))

/-- 04_line_angle.md R113 (the estimate in one nanosecond), R132 (a command while BUSY), R137 (the end of a pulse), R143 and
R144 (a CAPIN edge enters its FIFO, or is discarded; the holding registers); 18_plant_time.md R536 (plant time in one
nanosecond). The link to a partner is left to R435's statement.
What the manual leaves open here is the model's choice, log entries 11, 51 and 104. -/
def Obligations.LineAngleTime : Prop :=
  ∀ (s : State) (m : Fin 39) (i : Fin 8) (pin : Fin 16) (rising : Bool) (e : CapinEntry) (rest : List CapinEntry) (at' : Nat),
    let b := s.blk
    let a := b.ang
    let fifo := a.capFifo[i]
    let back : Int := 8 * a.capCfg[i].2
    let here : CapinEntry := let (th, tm) := b.pathAt (8 * a.capCfg[i].2)
      ⟨rising, th / 2 ^ 32, tm / 2 ^ 32 % 2 ^ 64⟩
    let quiet := (nextTx b.partner.tx = none ∧ b.partner.helloAt = none ∧
      ¬ (b.get PTN_STAT_ROLE = 1 ∧ b.flag PTN_STAT_XFER = true ∧ b.partner.bulkDue = false))
    let time := wrapN 96 ((b.time : Int) + 2 ^ 32 + sar (b.geti PLT_RATE) 8)
    (b.boot.frozen = true → quiet → (∀ g < 8, b.get (CAP_G_CFG_TKIND g) ≠ 2) → b.flag ANG_STAT_LOCKED = false →
      Completes .extrapolatorStep s fun t =>
        t = s.onBlk (fun b => { b with
          time, up := b.up + 1
          ang := if b.flag ANG_STAT_RUNNING
            then
              let th := wrapN 96 (a.th + a.w + a.c)
              { a with
                th, mTh := th, mW := a.w, cLeft := a.cLeft - 1, c := if a.cLeft ≤ 1 then 0 else a.c
                cycList := t.blk.ang.cycList, past := t.blk.ang.past }
            else { a with mTh := a.th, mW := a.w, cycList := t.blk.ang.cycList, past := t.blk.ang.past } }) ∧
        t.blk.ang.cycList.map (fun x => (x.handle, x.words, x.sent)) = a.cycList.map fun x => (x.handle, x.words, x.sent)) ∧
    -- the way back of R143: from the newest point not later than the first transition
    (∀ p rest, a.past = p :: rest → (p.up : Int) + back ≤ b.up → 0 < back →
      here = ⟨rising, wrapN 96 (p.th + p.v * ((b.up : Int) - back - p.up)) / 2 ^ 32,
        wrapN 96 (p.time + p.tv * ((b.up : Int) - back - p.up)) / 2 ^ 32 % 2 ^ 64⟩) ∧
    (Completes .extrapolatorStep s fun t => t.blk.time = time ∧ t.blk.up = b.up + 1 ∧ t.nv = s.nv ∧
      t.blk.ang.th = if b.flag ANG_STAT_RUNNING then wrapN 96 (a.th + a.w + a.c) else a.th) ∧
    (b.flag ANG_EVT_RES_BUSY = true →
      (s.writes m aANG_EVT_CMD 1 → Completes (.evtInsert m) s fun t =>
        s.keepsBut t (fun a => a = aANG_STAT ∨ irqReg 186 a) ∧ t.blk.rd aANG_STAT = b.rd aANG_STAT ||| 0x4000 ∧
        s.asserted t 186)) ∧
    (a.pulses[pin] = some at' → Completes (.pulseEnd pin) s fun t =>
      t = if at' ≤ b.up then s.onBlk ({ · with
        ang.pins := setBits a.pins pin.1 1 0, ang.pulses := a.pulses.set pin none }) else s) ∧
    (bit a.capCfg[i].1 (if rising then 0 else 1) = true → (∀ g < 8, b.get (CAP_G_CFG_TKIND g) ≠ 3) →
      (16 ≤ fifo.length → Completes (.capinEdge i rising) s fun t =>
        s.keepsBut t (fun a => a = aANG_CAP_FLAGS i ∨ a = aANG_STAT) ∧ t.blk.flag (ANG_CAP_FLAGS_OVF i) = true ∧
        t.blk.rd aANG_STAT = b.rd aANG_STAT ||| 0x8000) ∧
      (fifo.length < 16 → Completes (.capinEdge i rising) s fun t =>
        s.becomes t { b with ang.capFifo := a.capFifo.set i (fifo ++ [here]) }
          (fun x => x = aANG_CAP_FLAGS i ∨ (b.capLevel (i / 2) = false ∧ irqReg (188 + i / 2) x)) ∧
        t.blk.get (ANG_CAP_FLAGS_QUEUED i) = fifo.length + 1 ∧
        (b.capLevel (i / 2) = false → s.asserted t (188 + i / 2)))) ∧
    (s.writes m (aANG_CAP_POP i) 0 →
      (fifo = [] → Completes (.angCapPop m i) s fun t =>
        s.keepsBut t (· = aANG_CAP_FLAGS i) ∧ t.blk.get (ANG_CAP_FLAGS_VALID i) = 0) ∧
      (fifo = e :: rest → rest.length < 16 → Completes (.angCapPop m i) s fun t =>
        s.becomes t { b with ang.capFifo := a.capFifo.set i rest }
          (fun x => aANG_CAP_FLAGS i ≤ x ∧ x ≤ aANG_CAP_TIME i + 4) ∧
        t.blk.get (ANG_CAP_FLAGS_VALID i) = 1 ∧ t.blk.get (ANG_CAP_FLAGS_RISING i) = b2n e.rising ∧
        t.blk.get (ANG_CAP_FLAGS_QUEUED i) = rest.length ∧ t.blk.get (ANG_CAP_ANG i) = e.angle % 2 ^ 64 ∧
        t.blk.get (ANG_CAP_TIME i) = e.time % 2 ^ 64))

/-- 04_line_angle.md R132 (commands and BUSY), R133 (insertion and its refusals), R134 (an edit takes effect as it completes, replacement),
Table 4.5: the event table. For a device without a partner, which mirrors nothing.
What the manual leaves open here is the model's choice, log entries 52 and 119. -/
def Obligations.EventTable : Prop :=
  ∀ (s : State) (m : Fin 39) (h : Nat) (r : EvtRec) (w : EvtWords),
    let b := s.blk
    let all := b.allEvents
    let op (k : Nat) : Word := BitVec.ofNat 32 (k + h % 2 ^ 12 * 2 ^ 16)
    let without : Ang := { b.ang with
      edit := none, absList := b.ang.absList.filter (·.handle ≠ h), cycList := b.ang.cycList.filter (·.handle ≠ h)
      dueAbs := b.ang.dueAbs.filter (·.handle ≠ h), dueCyc := b.ang.dueCyc.filter (·.handle ≠ h) }
    let joined (a : Ang) : Ang := let x : EvtRec := ⟨h, w, none, none, false⟩
      if w.cyclic then { a with edit := none, cycList := a.cycList ++ [x] } else { a with edit := none, absList := a.absList ++ [x] }
    -- a command begins an edit with the record staged now
    let begins (c : Instr) (v : Word) : Prop := s.writes m aANG_EVT_CMD v → Completes c s fun t =>
      s.becomes t { b with ang.edit := some (v.toNat, b.staged) } (· = aANG_EVT_RES) ∧
      t.blk.rd aANG_EVT_RES = b.rd aANG_EVT_RES ||| 1
    -- the edit ends
    let result (a : Ang) (result handle : Nat) (p : Nat → Prop) : Prop := Completes .editComplete s fun t =>
      s.becomes t { b with ang := a } (fun a => a = aANG_EVT_RES ∨ irqReg 186 a ∨ p a) ∧ t.blk.get ANG_EVT_RES_BUSY = 0 ∧
      t.blk.get ANG_EVT_RES_RESULT = result ∧ t.blk.get ANG_EVT_RES_HANDLE = handle ∧ s.asserted t 186
    let as : Ang := { b.ang with edit := none }
    let changed (a : Ang) (n : Nat) : Prop :=
      result a 0 h (· = aANG_EVT_COUNT) ∧ Completes .editComplete s fun t => t.blk.get ANG_EVT_COUNT = n % 2 ^ 13
    let nowhere (_ : Nat) : Prop := False
    b.flag PTN_STAT_PAIRED = false → h < 4096 →
    (b.flag ANG_EVT_RES_BUSY = false →
      begins (.evtInsert m) 1 ∧ begins (.evtDelete m h) (op 2) ∧ begins (.evtReplace m h) (op 3) ∧ begins (.evtRead m h) (op 0) ∧
      Completes .editComplete s (· = s)) ∧
    (b.flag ANG_EVT_RES_BUSY = true →
      (b.ang.edit = some (1, w) →
        (w.valid = false → result as 4 0 nowhere) ∧
        (w.valid = true → 4096 ≤ all.length → result as 1 0 nowhere) ∧
        (w.valid = true → all.length < 4096 → b.pastKey w = true → result as 2 0 nowhere) ∧
        (w.valid = true → all.length < 4096 → b.pastKey w = false → (∀ x ∈ all, x.handle ≠ h) →
          (∀ k < h, ∃ x ∈ all, x.handle = k) → changed (joined b.ang) (all.length + 1))) ∧
      (b.ang.edit = some ((op 2).toNat, w) →
        ((∀ x ∈ all, x.handle ≠ h) → result as 3 h nowhere) ∧
        (r ∈ all → r.handle = h → changed without ((all.filter (·.handle ≠ h)).length))) ∧
      (b.ang.edit = some ((op 3).toNat, w) →
        ((∀ x ∈ all, x.handle ≠ h) → result as 3 h nowhere) ∧
        (r ∈ all → r.handle = h →
          (w.valid = false → result as 4 h nowhere) ∧
          (w.valid = true → b.pastKey w = true → result as 2 h nowhere) ∧
          (w.valid = true → b.pastKey w = false →
            changed (joined without) ((all.filter (·.handle ≠ h)).length + 1)))) ∧
      (b.ang.edit = some ((op 0).toNat, w) →
        ((∀ x ∈ all, x.handle ≠ h) → result as 3 h nowhere) ∧
        (all.find? (·.handle = h) = some r →
          (result as 0 h fun a => ∃ j < 4, a = aANG_EVT_REC j) ∧
          Completes .editComplete s fun t => t.blk.staged = r.words)))

/-- 05_thrumlos_link_and_frames.md R153 (a receiver in and out of lock), R183 (a valid break notice splits the ring; a loss of lock
without one leaves it open), R185 (Table 5.11, the closure). Source 16 + 4k is the state interrupt of segment k. What the manual leaves
open here is the model's choice, log entry 59. -/
def Obligations.SegmentLinks : Prop :=
  ∀ (s : State) (port : Fin 9) (ring : Fin 4) (f : Frame),
    let b := s.blk
    let g := port.1 / 2 * 2
    let r := 2 * ring.1
    let x := b.sg r
    let stat (k a : Nat) : Prop := a = aSEG_STAT k ∨ irqReg (16 + 4 * k) a
    let lock : Block := { b with ports := b.ports.set port (some b.up) }
    let lost : Block := { b with ports := b.ports.set port none }
    (b.ports[port] = none →
      (port.1 = 8 → b.flag PTN_STAT_LINK = false → Completes (.receiverLock port) s fun t =>
        s.becomes t lock (fun a => a = aPTN_STAT ∨ irqReg 7 a) ∧ t.blk.flag PTN_STAT_LINK = true ∧ s.asserted t 7) ∧
      (port.1 < 8 → (port.1 % 2 = 0 ∨ b.flag (SEG_STAT_OPEN g) = false ∨ b.flag (SEG_STAT_SPLIT g) = true) →
        Completes (.receiverLock port) s (· = { s with blk := lock })) ∧
      (port.1 < 8 → port.1 % 2 = 1 → b.flag (SEG_STAT_OPEN g) = true → b.flag (SEG_STAT_SPLIT g) = false →
        Completes (.receiverLock port) s fun t =>
          s.becomes t lock (stat g) ∧ t.blk.flag (SEG_STAT_OPEN g) = false ∧ s.asserted t (16 + 4 * g))) ∧
    (b.ports[port].isSome = true →
      (port.1 = 8 → b.flag PTN_STAT_LINK = true → Completes (.lossOfLock port) s fun t =>
        s.becomes t lost (fun a => a = aPTN_STAT ∨ irqReg 7 a) ∧ t.blk.flag PTN_STAT_LINK = false ∧ s.asserted t 7) ∧
      (port.1 < 8 → (port.1 % 2 = 0 ∨ b.segRing g = false ∨ b.flag (SEG_STAT_SPLIT g) = true) →
        Completes (.lossOfLock port) s (· = { s with blk := lost })) ∧
      (port.1 < 8 → port.1 % 2 = 1 → b.segRing g = true → b.get (SEG_STAT_STATE g) = 6 → b.flag (SEG_STAT_SPLIT g) = false →
        b.flag (SEG_STAT_OPEN g) = false → Completes (.lossOfLock port) s fun t =>
          s.becomes t lost (stat g) ∧ t.blk.flag (SEG_STAT_OPEN g) = true ∧ s.asserted t (16 + 4 * g))) ∧
    (b.noticeOk r f = false → Completes (.breakNotice ⟨ring, f⟩) s (· = s)) ∧
    (b.segRing r = true → b.get (SEG_STAT_STATE r) = 6 → b.flag (SEG_STAT_SPLIT r) = false → b.noticeOk r f = true →
      Completes (.breakNotice ⟨ring, f⟩) s fun t => s.inSegment t r { x with noticeAt := some b.up, heal := 0 } (stat r) ∧ t.blk.flag (SEG_STAT_SPLIT r) = true ∧
      s.asserted t (16 + 4 * r)) ∧
    (x.closeAt = some (b.roundIn 1) → Completes (.ringClosure ring) s fun t =>
      s.inSegment t r { x with closeAt := none, closedAt := x.closeAt, noticeAt := none, heal := 0 } (stat r) ∧
      t.blk.flag (SEG_STAT_SPLIT r) = false ∧ t.blk.flag (SEG_STAT_CLOSING r) = false ∧ t.blk.flag (SEG_STAT_OPEN r) = false ∧
      s.asserted t (16 + 4 * r))

/-- 06_thrumlos_start_and_schedules.md R224 (START and STOP), R211, R213 (a switch requested; ignored while one is pending), Table 6.11
(CONTRACT and RESTART), R188 (START_TIMEOUT). For a device without a partner and a ring neither split nor open.
What the manual leaves open here is the model's choice, log entries 20 and 58. -/
def Obligations.SegmentControl : Prop :=
  ∀ (s : State) (m : Fin 39) (k c : Fin 8),
    let b := s.blk
    let x := b.sg k
    let st := b.get (SEG_STAT_STATE k)
    let listens (cmd : Instr) : Prop := Completes cmd s fun t =>
      s.inSegment t k { Reset.seg with listen := x.listen, fresh := true, stop := x.stop } (fun a => a = aSEG_STAT k ∨ a = aSEG_OPENER k ∨
        a = aSEG_KITTY k ∨ a = aSEG_B_REQ k ∨ (∃ p < 64, a = aSEG_NSTAT k p) ∨ irqReg (16 + 4 * k) a) ∧
      t.blk.get (SEG_STAT_STATE k) = 1 ∧ t.blk.get (SEG_STAT_CONTRACT k) = 0 ∧ t.blk.get (SEG_STAT_NEXT k) = 0 ∧
      t.blk.get (SEG_STAT_PLACED k) = 0 ∧ t.blk.get (SEG_STAT_SESSIONS k) = 0 ∧ t.blk.get (SEG_OPENER_VALID k) = 0 ∧
      (∀ p < 64, t.blk.get (SEG_NSTAT_STATE k p) = 0) ∧ s.asserted t (16 + 4 * k)
    let ignored (cmd : Instr) (p : Nat → Prop) : Prop := Completes cmd s fun t =>
      s.keepsBut t (fun a => a = aSEG_FLAGS k ∨ irqReg (18 + 4 * k) a ∨ p a) ∧ t.blk.flag (SEG_FLAGS_SW_IGN k) = true ∧
      s.asserted t (18 + 4 * k)
    b.flag PTN_STAT_PAIRED = false → b.segUsed k = true → b.flag (SEG_STAT_SPLIT k) = false → b.flag (SEG_STAT_OPEN k) = false →
    b.flag (SEG_STAT_CLOSING k) = false →
    (s.writes m (aSEG_CTL k) 1 →
      (st = 0 → listens (.segStart m k)) ∧ (st ≠ 0 → Completes (.segStart m k) s (· = s))) ∧
    (s.writes m (aSEG_CTL k) 2 → st ≠ 0 → Completes (.segStop m k) s fun t =>
      s.inSegment t k { x with stop := true } fun _ => False) ∧
    (s.writes m (aSEG_CTL k) (BitVec.ofNat 32 (0x80 + c * 2 ^ 4)) →
      (st = 6 → x.switchAt = none → x.want = none → Completes (.switchGo m k c) s fun t =>
        s.inSegment t k { x with want := some c } fun _ => False) ∧
      (st = 6 → x.switchAt.isSome = true → ignored (.switchGo m k c) fun _ => False)) ∧
    (c.1 = b.get (SEG_STAT_CONTRACT k) → Completes (.contractRequest k c) s fun t =>
      s.keepsBut t (· = aSEG_B_REQ k) ∧ t.blk.get (SEG_B_REQ_CONTRACT k) = c) ∧
    (c.1 ≠ b.get (SEG_STAT_CONTRACT k) →
      (st = 6 → x.switchAt = none → x.want = none → Completes (.contractRequest k c) s fun t =>
        s.inSegment t k { x with want := some c } (· = aSEG_B_REQ k) ∧ t.blk.get (SEG_B_REQ_CONTRACT k) = c) ∧
      (x.switchAt.isSome = true → ignored (.contractRequest k c) (· = aSEG_B_REQ k))) ∧
    (1 < st → st < 6 → listens (.segmentRestart k)) ∧
    (1 < st → st < 6 → x.switchAt = none → 256 ≤ x.sr → b.segDue k = true → Completes (.startTimeout k) s fun t =>
      t.blk.get (SEG_STAT_STATE k) = 1 ∧ t.blk.get (SEG_START_RND k) = 256 ∧ t.blk.flag (SEG_FLAGS_START_ERR k) = true ∧
      t.blk.flag DEV_STAT_SEG_START_ERR = true ∧ t.blk.sg k = { Reset.seg with listen := x.listen, fresh := true, stop := x.stop } ∧
      (∀ j, j ≠ k.1 → t.blk.sg j = b.sg j) ∧
      (b.get DEV_BOOT_PHASE ≠ 4 → b.get DEV_BOOT_PHASE ≠ 5 → s.logged t 0x20 2 k 256))

/-- 06_thrumlos_start_and_schedules.md R187 (Table 6.1: Listen, Cold, Integrate), R195 (the opener), R198 (an answer to ENUM gives the
delays), R200 (the end of the walk), R191 and R204 (an arrival in the walk window, and a tag under K_0; any other frame is discarded).
What the manual leaves open here is the model's choice, log entries 2, 57 and 60. -/
def Obligations.SegmentStart : Prop :=
  ∀ (s : State) (k : Fin 8) (arrival : Nat) (poison : Bool) (body crc : List Byte) (w : Walk),
    let f : Frame := ⟨poison, body ++ crc⟩
    let b := s.blk
    let x := b.sg k
    let st := b.get (SEG_STAT_STATE k)
    let kl : BitVec 128 := BitVec.ofNat 128 (Config.random b.free).toNat
    let entered (t : State) (n : Nat) : Prop := t.blk.get (SEG_STAT_STATE k) = n ∧ s.asserted t (16 + 4 * k)
    let stat (a : Nat) : Prop := a = aSEG_STAT k ∨ irqReg (16 + 4 * k) a
    let p := w.pos
    let n := b.sn k (p - 1)
    let rtt : Int := (arrival * 4 : Nat) - ((x.lead.map (·.bofs)).getD 0 : Nat) - 12000
    let link : Int := if p = 0 then (rtt + 1) / 2
      else (rtt - n.rtt - b.get (SEG_NLAT_LD k (p - 1)) - b.get (SEG_NLAT_LU k (p - 1)) + 1) / 2
    let down : Int := if p = 0 then link else b.get (SEG_NDLY_DOWN k (p - 1)) + b.get (SEG_NLAT_LD k (p - 1)) + link
    let up : Int := if p = 0 then link else b.get (SEG_NDLY_UP k (p - 1)) + b.get (SEG_NLAT_LU k (p - 1)) + link
    (st = 1 → x.fresh = false → x.listen ≤ x.k + 1 → b.segDue k = true → b.get PTN_STAT_ROLE ≠ 2 → b.flag PTN_STAT_PAIRED = false →
      Completes (.listenEnd k) s fun t =>
        (s.onBlk ({ · with free := b.free + 1 })).inSegment t k
          { x with fresh := true, k := 0, kl, hasKl := true, walkerP := b.get PTN_STAT_P } (fun a => stat a ∨ a = aPTN_STAT) ∧
        entered t 2 ∧ t.blk.rd aPTN_STAT = b.rd aPTN_STAT &&& ~~~(1#32 <<< (16 + k.1 / 2))) ∧
    (st = 2 → x.fresh = false → x.call = none →
      (b.walkFrame k arrival f 0x81 = true → Completes (.call k arrival f) s fun t =>
        s.inSegment t k { x with call := some (f.pay 4 4, f.pay 8 8) } fun _ => False) ∧
      (b.walkFrame k arrival f 0x81 = false → Completes (.call k arrival f) s (· = s)) ∧
      (8 ≤ x.k + 1 → b.segDue k = true → Completes (.coldTimeout k) s fun t =>
        s.inSegment t k { x with fresh := true, k := 0 } stat ∧ entered t 1)) ∧
    (st = 3 → x.fresh = false → 4 ≤ x.k + 1 → b.segDue k = true → Completes (.integrateEnd k) s fun t =>
      s.inSegment t k { x with fresh := true, k := 0, walk := none, chunk := 0 } stat ∧ entered t 4) ∧
    (st = 4 → x.walk = some w → w.placing = false → w.answered = false → p < 64 →
      (b.walkFrame k arrival f 0x82 = false → Completes (.enumR k arrival poison body crc) s (· = s)) ∧
      (b.walkFrame k arrival f 0x82 = true → 0 ≤ down → 0 ≤ up → down ≤ 60000 → up ≤ 60000 → Completes (.enumR k arrival poison body crc) s fun t =>
        s.atNode t k p { x with walk := some { w with answered := true } } { b.sn k p with rtt }
          (fun a => aSEG_NID_LO k p ≤ a ∧ a ≤ aSEG_NLAT k p) ∧
        (t.blk.get (SEG_NDLY_DOWN k p) : Int) = down ∧ (t.blk.get (SEG_NDLY_UP k p) : Int) = up ∧
        t.blk.get (SEG_NLAT_LD k p) = f.pay 2 2 ∧ t.blk.get (SEG_NLAT_LU k p) = f.pay 4 2 ∧
        t.blk.nodeSerial k p = f.pay 12 4 + f.pay 8 4 * 2 ^ 32) ∧
      (b.walkFrame k arrival f 0x82 = true → 60000 < down ∨ 60000 < up → Completes (.enumR k arrival poison body crc) s fun t =>
        entered t 5 ∧ t.blk.flag (SEG_FLAGS_WALK_LIM k) = true ∧ (t.blk.sg k).walk = none ∧
        t.blk.get (SEG_NSTAT_STATE k p) = b.get (SEG_NSTAT_STATE k p)) ∧
      (b.segDue k = true →
        (w.missed = 0 → Completes (.enumUnanswered k) s fun t =>
          s.inSegment t k { x with walk := some { w with missed := 1 } } fun _ => False) ∧
        (1 ≤ w.missed → Completes (.enumUnanswered k) s fun t => entered t 5 ∧ (t.blk.sg k).walk = none)))

/-- 06_thrumlos_start_and_schedules.md R203, R205 (the exchange that begins a session, and its times), R206 (a node refused), R211 (a
NACK), R215 (claims), R216 (a kitty window freed; a node that joined in Run starts with its first valid turn). For a device without a
partner. What the manual leaves open here is the model's choice, log entries 55, 56 and 120. -/
def Obligations.SegmentNodes : Prop :=
  ∀ (s : State) (k : Fin 8) (p : Fin 64) (poison : Bool) (body crc : List Byte) (j : Nat) (h : Fin 4) (z : Kitty),
    let f : Frame := ⟨poison, body ++ crc⟩
    let b := s.blk
    let x := b.sg k
    let n := b.sn k p
    let st := b.get (SEG_STAT_STATE k)
    let shown := b.get (SEG_NSTAT_STATE k p)
    let serial := b.nodeSerial k p
    let nn : BitVec 128 := BitVec.ofNat 128 (f.pay 4 16)
    let ks := b.sessionKey k serial (b.get PTN_EPOCH) n.nh nn
    let proof := cmac12 ks (ascii "NPRF" ++ bytesBE 8 serial ++ bytesBE 1 k ++ bytesBE 1 p ++
      bytesBE 2 (b.get (SEG_NDLY_DOWN k p)) ++ bytesBE 2 (b.get (SEG_NDLY_UP k p)) ++ bytesBE 16 n.nh.toNat ++ bytesBE 16 nn.toNat)
    let confirm := cmac12 n.ks (ascii "NCNF" ++ bytesBE 12 n.d.toNat ++ bytesBE 16 n.nh.toNat)
    let nowhere (_ : Nat) : Prop := False
    let ignored (cmd : Instr) : Prop := Completes cmd s (· = s)
    let refused (cmd : Instr) : Prop := Completes cmd s fun t =>
      (s.onBlk ({ · with scp := t.blk.scp })).atNode t k p x { n with auth := .none }
        (fun a => a = aSEG_NSTAT k p ∨ a = aSEG_FLAGS k ∨ irqReg (17 + 4 * k) a ∨ eventReg a) ∧
      t.blk.get (SEG_NSTAT_STATE k p) = 5 ∧ t.blk.flag (SEG_FLAGS_AUTH_ERR k) = true ∧ s.asserted t (17 + 4 * k) ∧
      s.logged t 0x21 2 (k + p * 2 ^ 8) 2
    let dropped (t : State) : Prop := t.blk.get (SEG_NSTAT_STATE k p) = if shown = 2 then b.idleState k p else shown
    let ended (cmd : Instr) : Prop := Completes cmd s fun t =>
      s.atNode t k p x { n with auth := .none, claimed := false } (· = aSEG_NSTAT k p) ∧ dropped t
    let begun := { n with session := true, auth := .none, claimed := false, first := false, missRun := 0, lastOutcome := some b.round }
    let joined (t : State) : Prop := t.blk.get (SEG_NSTAT_STATE k p) = (if b.hasTurn k p then 3 else 6) ∧
      t.blk.get (SEG_STAT_SESSIONS k) = ((List.range 64).filter fun q => (t.blk.sn k q).session).length
    let claims (window : Fin 68) (P : State → Prop) : Prop := Completes (.claim k window poison f.bytes) s P
    let own : Fin 68 := ⟨p.1, by omega⟩
    let kitty : Fin 68 := ⟨64 + h.1, by omega⟩
    let head := (4 + Config.mgmtType h % 4, Config.kittyTurn h p % 2 ^ 16)
    (n.auth = .sent1 j →
      (b.authForm k p f 0x92 = false → ignored (.auth2 k p poison body crc)) ∧
      (b.authForm k p f 0x92 = true → b.mgmtTag k f ks = true → proof.toNat = f.pay 20 12 → Completes (.auth2 k p poison body crc) s fun t =>
        s.atNode t k p x { n with nn, ks, hasKs := true, auth := .due3 } nowhere) ∧
      (b.authForm k p f 0x92 = true → b.mgmtTag k f ks = false ∨ proof.toNat ≠ f.pay 20 12 → refused (.auth2 k p poison body crc)) ∧
      (4 ≤ j → b.segDue k = true → ended (.authTimeout k p))) ∧
    (n.auth = .sent3 j →
      (b.authForm k p f 0x94 = false → ignored (.auth4 k p poison f.bytes)) ∧ (b.authForm k p f 0x95 = false → ignored (.auth4Nak k p f)) ∧
      (b.authForm k p f 0x94 = true → b.mgmtTag k f n.ks = true → f.pay 4 12 ≠ confirm.toNat → ignored (.auth4 k p poison f.bytes)) ∧
      (b.authForm k p f 0x94 = true → b.mgmtTag k f n.ks = true → f.pay 4 12 = confirm.toNat → b.flag PTN_STAT_PAIRED = false →
        (n.claimed = false → (∀ y ∈ x.kitty, y.pos ≠ p) → Completes (.auth4 k p poison f.bytes) s fun t =>
          s.atNode t k p x begun (fun a => a = aSEG_NSTAT k p ∨ a = aSEG_STAT k) ∧ joined t ∧ t.blk.flag (SEG_NSTAT_LATE k p) = false) ∧
        (n.claimed = true → st = 5 → (∀ y ∈ x.kitty, y.pos ≠ p) → Completes (.auth4 k p poison f.bytes) s fun t =>
          s.atNode t k p x begun (fun a => a = aSEG_NSTAT k p ∨ a = aSEG_STAT k ∨ irqReg (19 + 4 * k) a) ∧ joined t ∧
          t.blk.flag (SEG_NSTAT_LATE k p) = true ∧ s.asserted t (19 + 4 * k)) ∧
        (n.claimed = true → st = 6 → Completes (.auth4 k p poison f.bytes) s fun t =>
          (s.onBlk ({ · with axes := t.blk.axes })).atNode t k p { x with kitty := x.kitty.filter (·.pos ≠ p) } { begun with first := true }
            (fun a => a = aSEG_NSTAT k p ∨ a = aSEG_STAT k ∨ a = aSEG_KITTY k ∨ irqReg (19 + 4 * k) a) ∧ joined t ∧
          (∀ i, (i ∈ b.nodeAxes k p → t.blk.ax i = { b.ax i with joined := true }) ∧ (i ∉ b.nodeAxes k p → t.blk.ax i = b.ax i)) ∧
          t.blk.flag (SEG_NSTAT_LATE k p) = true ∧ s.asserted t (19 + 4 * k))) ∧
      (b.authForm k p f 0x94 = true → b.mgmtTag k f n.ks = false → refused (.auth4 k p poison f.bytes)) ∧
      (b.authForm k p f 0x95 = true → b.mgmtTag k f n.ks = false → refused (.auth4Nak k p f)) ∧
      (b.authForm k p f 0x95 = true → b.mgmtTag k f n.ks = true → ended (.auth4Nak k p f)) ∧
      (12 ≤ j → b.segDue k = true → ended (.authTimeout k p))) ∧
    (n.session = true → x.switchAt.isSome = true → b.nackOk k p f = true → Completes (.nack k p f) s fun t =>
      s.atNode t k p { x with nack := true } { n with lastOutcome := some b.round, missRun := 0 } nowhere) ∧
    (f.pay 1 1 = p →
      (shown = 5 → ignored (.claim k own poison f.bytes) ∧ ignored (.claim k kitty poison f.bytes)) ∧
      (shown ≠ 0 → shown ≠ 5 →
        (b.claimOk k p f (4, p) = false → ignored (.claim k own poison f.bytes)) ∧
        (b.claimOk k p f head = false → ignored (.claim k kitty poison f.bytes)) ∧
        (st = 5 → b.claimOk k p f (4, p) = true →
          (n.session = false → claims own fun t => s.atNode t k p x { n with auth := .due1, claimed := true } nowhere) ∧
          (n.session = true → b.flag PTN_STAT_PAIRED = false → claims own fun t =>
            s.atNode t k p x { n with session := false, first := false, auth := .due1, claimed := true }
              (fun a => a = aSEG_NSTAT k p ∨ a = aSEG_STAT k) ∧ t.blk.get (SEG_NSTAT_STATE k p) = b.idleState k p)) ∧
        (st = 6 → h.1 < ((b.contract k (b.get (SEG_STAT_CONTRACT k))).map (·.kcount)).getD 0 → (∀ y ∈ x.kitty, y.window ≠ h) →
          b.claimOk k p f head = true → n.session = false →
          (b.hasTurn k p = true → claims kitty fun t =>
            s.inSegment t k { x with claims := x.claims ++ [⟨h, p, f.pay 4 4, f.pay 8 8⟩] } nowhere) ∧
          (b.hasTurn k p = false → claims kitty fun t =>
            s.keepsBut t (fun a => a = aSEG_FLAGS k ∨ irqReg (19 + 4 * k) a) ∧ t.blk.flag (SEG_FLAGS_EXTRA k) = true ∧
            s.asserted t (19 + 4 * k))))) ∧
    (x.kitty = [z] → z.window = h → z.pos = p → 8 ≤ z.rounds → Completes (.kittyTimeout k h) s fun t =>
      s.atNode t k p { x with kitty := [] } { n with auth := .none, claimed := false }
        (fun a => a = aSEG_NSTAT k p ∨ a = aSEG_KITTY k ∨ a = aSEG_FLAGS k ∨ irqReg (19 + 4 * k) a) ∧
      dropped t ∧ t.blk.flag ⟨aSEG_KITTY k, h, 1⟩ = false ∧ t.blk.flag (SEG_FLAGS_KITTY_TO k) = true ∧ s.asserted t (19 + 4 * k))

/-- 06_thrumlos_start_and_schedules.md R217 (one outcome of a turn per round, Table 6.9), R218 (Edge), R219 (a missing node), R211 (Table
6.8: the decision at s + 8 and the switch at C); 05_thrumlos_link_and_frames.md Table 5.5 (what a turn reports of its axis), R183 (of a
split ring, the first valid copy of a turn), Table 5.11 (no turn from beyond the break in round C).
What the manual leaves open here is the model's choice, log entries 20, 54, 62 and 120. -/
def Obligations.TurnsAndSwitches : Prop :=
  ∀ (s : State) (k : Fin 8) (p : Fin 64) (far : Bool) (ofs : Int) (f : Frame) (r : TurnRec) (i : Fin 256) (a : AxisRec),
    let b := s.blk
    let x := b.sg k
    let n := b.sn k p
    let st := b.get (SEG_STAT_STATE k)
    let w (q c : Nat) : Nat := ofBytesBE ((((f.bytes.drop 7).take 32).drop q).take c)
    let missed := { n with lastOutcome := some b.round, missRun := n.missRun + 1 }
    let took : State := s.onBlk ({ · with free := b.free + 1 })
    let counted (t : State) (node total : Fld) : Prop :=
      t.blk.get node = satInc 32 (b.get node) ∧ t.blk.get total = satInc 32 (b.get total)
    let only (node total : Nat) (a : Nat) : Prop := a = node ∨ a = total
    let split := b.flag (SEG_STAT_SPLIT k) = true
    let comes (P : State → Prop) : Prop := Completes (.upstreamTurn k p far ofs f) s P
    let failsAs (node total : Nat) (cn ct : Fld) : Prop := comes fun t =>
      took.atNode t k p x missed (only node total) ∧ counted t cn ct
    let valid := f.crcOk = true ∧ f.turnOk r b.round = true ∧ f.tagged n.ks true k b.round = true
    let took' (t : State) : Prop := t.blk.sn k p = { n with
      lastOutcome := some b.round, lastValid := some b.round, far := far, first := false, missRun := 0
      lastHeal := if bit (f.byte 7) 5 then some b.round else n.lastHeal }
    let nodes (a : Nat) : Prop := ∃ q < 64, a = aSEG_NSTAT k q
    let shows (t : State) : Prop := ∀ q < 64,
      let old := b.get (SEG_NSTAT_STATE k q)
      t.blk.get (SEG_NSTAT_STATE k q) = if old = 6 ∧ t.blk.hasTurn k q = true then (if (b.sn k q).session then 3 else 1)
        else if (old = 1 ∨ old = 3) ∧ t.blk.hasTurn k q = false then 6 else old
    (b.openTurn k p = some r →
      (b.windowClosed k p = false → Completes (.turnWindowClose k p) s (· = s)) ∧
      (b.windowClosed k p = true →
        (x.closedAt = some b.round → n.far = true → Completes (.turnWindowClose k p) s fun t =>
          s.atNode t k p x { n with lastOutcome := some b.round } fun _ => False) ∧
        (x.closedAt ≠ some b.round ∨ n.far = false →
          (b.badCopy k p = none → Completes (.turnWindowClose k p) s fun t =>
            s.atNode t k p x missed (only (aSEG_EMPTY_CNT k p) (aSEG_EMPTY_TOT k)) ∧ counted t (SEG_EMPTY_CNT k p) (SEG_EMPTY_TOT k)) ∧
          (b.badCopy k p = some .crc → Completes (.turnWindowClose k p) s fun t =>
            s.atNode t k p x missed (only (aSEG_CRC_CNT k p) (aSEG_CRC_TOT k)) ∧ counted t (SEG_CRC_CNT k p) (SEG_CRC_TOT k)))) ∧
      (far = true → ¬ split → comes (· = s)) ∧
      (far = false → ¬ split → b.badCopy k p = none →
        (84 < ofs.natAbs → failsAs (aSEG_CLIP_CNT k p) (aSEG_CLIP_TOT k) (SEG_CLIP_CNT k p) (SEG_CLIP_TOT k)) ∧
        (ofs.natAbs ≤ 80 → f.crcOk = false → failsAs (aSEG_CRC_CNT k p) (aSEG_CRC_TOT k) (SEG_CRC_CNT k p) (SEG_CRC_TOT k)) ∧
        (ofs.natAbs ≤ 80 → f.crcOk = true → f.turnOk r b.round = false →
          failsAs (aSEG_FMT_CNT k p) (aSEG_FMT_TOT k) (SEG_FMT_CNT k p) (SEG_FMT_TOT k)) ∧
        (ofs.natAbs ≤ 80 → f.crcOk = true → f.turnOk r b.round = true → f.tagged n.ks true k b.round = false →
          failsAs (aSEG_TAG_CNT k p) (aSEG_TAG_TOT k) (SEG_TAG_CNT k p) (SEG_TAG_TOT k))) ∧
      (split → ofs.natAbs ≤ 80 → f.crcOk = false →
        (b.badCopy k p = none → comes fun t => took.atNode t k p x { n with bad := some (b.round, .crc) } fun _ => False) ∧
        (b.badCopy k p = some .tag → comes fun t =>
          took.atNode t k p x missed (only (aSEG_TAG_CNT k p) (aSEG_TAG_TOT k)) ∧ counted t (SEG_TAG_CNT k p) (SEG_TAG_TOT k))) ∧
      (ofs.natAbs ≤ 80 → valid → far = false ∨ split →
        (comes fun t => took' t ∧ (t.blk.get (SEG_NSTAT_STATE k p) = if b.get (SEG_NSTAT_STATE k p) = 4 then 3
          else b.get (SEG_NSTAT_STATE k p))) ∧
        (20 < ofs.natAbs → comes fun t => counted t (SEG_EDGE_CNT k p) (SEG_EDGE_TOT k) ∧
          t.blk.get (SEG_EDGE_OFS_CONSEC k p) = min 16 (b.get (SEG_EDGE_OFS_CONSEC k p) + 1) ∧
          (b.get (SEG_EDGE_OFS_CONSEC k p) = 15 → t.blk.flag (SEG_NSTAT_EDGE_FLAG k p) = true ∧ t.blk.flag (SEG_FLAGS_EDGE k) = true ∧
            t.blk.pendingIrq (17 + 4 * k) = true)) ∧
        (ofs.natAbs ≤ 20 → b.get (SEG_NSTAT_STATE k p) = 3 → r.axes = 1 → b.axisAt k p 0 = some i → b.axisRec i = some a →
          a.feedback ≠ 0 → comes fun t =>
          (took.onBlk ({ · with axes := t.blk.axes })).atNode t k p x (t.blk.sn k p)
            (fun a => a = aSEG_NSTAT k p ∨ a = aSEG_EDGE_OFS k p ∨ a = aSEG_NLEAD_CNT k p ∨ a = aAX_ACTTRQ i ∨
              a = aAX_NSTATUS i ∨ a = aAX_NERR i ∨ a = aAX_STAT i) ∧
          (∀ j, j ≠ i.1 → t.blk.ax j = b.ax j) ∧
          t.blk.ax i = { b.ax i with node := ⟨w 30 1, w 20 4, w 24 4, sgn 64 (w 0 8), sgn 32 (w 8 4), sgn 32 (w 12 4),
            bit (w 31 1) 0, w 16 4, bit (w 31 1) 1⟩ } ∧
          t.blk.get (SEG_NSTAT_NSTAT k p) = f.byte 7 ∧ t.blk.get (SEG_EDGE_OFS_CONSEC k p) = 0 ∧
          t.blk.get (SEG_NLEAD_CNT k p) = (if bit (f.byte 7) 0 then b.get (SEG_NLEAD_CNT k p)
            else satInc 32 (b.get (SEG_NLEAD_CNT k p))) ∧ t.blk.get (AX_NERR i) = w 24 4 % 2 ^ (AX_NERR i).w))) ∧
    (b.get (SEG_NSTAT_STATE k p) = 3 → b.segMiss k ≤ n.missRun →
      (Completes (.nodeMissing k p) s fun t =>
        t.blk.get (SEG_NSTAT_STATE k p) = 4 ∧ t.blk.flag (SEG_FLAGS_MISS k) = true ∧ s.asserted t (17 + 4 * k)) ∧
      (b.nodeAxes k p = [] → Completes (.nodeMissing k p) s fun t =>
        s.keepsBut t (fun a => a = aSEG_NSTAT k p ∨ a = aSEG_FLAGS k ∨ irqReg (17 + 4 * k) a))) ∧
    (x.switchAt.isSome = true → b.roundsSince x.announced + 1 = 8 * (if st = 6 then 1 else 2 ^ b.rateCode) →
      (x.nack = true → Completes (.switchDecision k) s fun t =>
        s.inSegment t k { x with switchAt := none, nack := false, aborted := true }
          (fun a => a = aSEG_STAT k ∨ a = aSEG_FLAGS k ∨ irqReg (18 + 4 * k) a) ∧
        t.blk.get (SEG_STAT_NEXT k) = b.get (SEG_STAT_CONTRACT k) ∧ t.blk.flag (SEG_FLAGS_SW_ABORT k) = true ∧
        s.asserted t (18 + 4 * k)) ∧
      (x.nack = false → Completes (.switchDecision k) s (· = s))) ∧
    (x.switchAt = some (b.roundIn 1) → x.kitty = [] →
      (st = 6 → Completes (.contractSwitch k) s fun t =>
        s.inSegment t k { x with switchAt := none } (fun a => a = aSEG_STAT k ∨ irqReg (18 + 4 * k) a ∨ nodes a) ∧ shows t ∧
        t.blk.get (SEG_STAT_CONTRACT k) = b.get (SEG_STAT_NEXT k) ∧ t.blk.get (SEG_STAT_STATE k) = 6 ∧ s.asserted t (18 + 4 * k)) ∧
      (st = 5 → Completes (.contractSwitch k) s fun t =>
        s.inSegment t k { x with switchAt := none, fresh := true, k := 0 }
          (fun a => a = aSEG_STAT k ∨ a = aDIS_STAT ∨ irqReg (18 + 4 * k) a ∨ irqReg (16 + 4 * k) a ∨ nodes a) ∧ shows t ∧
        t.blk.get (SEG_STAT_CONTRACT k) = b.get (SEG_STAT_NEXT k) ∧ t.blk.get (SEG_STAT_STATE k) = 6 ∧
        t.blk.flag ⟨aDIS_STAT, 8 + k, 1⟩ = true ∧ s.asserted t (18 + 4 * k) ∧ s.asserted t (16 + 4 * k)))

/-- 07_axis_loop_law.md R237 and R238 (axis faults), R243 (RC_CLEAR), R245 to R247 (automatic and manual), R248 (injection), R250 and R251
(enable and disable).
What the manual leaves open here is the model's choice, log entries 13, 15 and 65. -/
def Obligations.AxisCommands : Prop :=
  ∀ (s : State) (i : Fin 256) (j : Injection),
    let b := s.blk
    let x := b.ax i
    let code := b.get (AX_STAT_FCODE i)
    let blocks := ((b.graphOf i).map (·.blocks)).getD 0
    let fits := x.nmode = 1 → (b.presetGain i blocks).isSome = true
    let ctl (a : Nat) : Prop := a = aAX_CTL i
    let stat (a : Nat) : Prop := a = aAX_CTL i ∨ a = aAX_STAT i
    let only (c : Instr) (p : Nat → Prop) (q : State → Prop) : Prop := Completes c s fun t => s.keepsBut t p ∧ q t
    let axis (t : State) (y : Axis) (p : Nat → Prop) : Prop :=
      t = { s with blk := { b with regs := t.blk.regs, axes := t.blk.axes } } ∧ s.regsBut t p ∧ t.blk.ax i = y ∧
      ∀ k, k ≠ i.1 → t.blk.ax k = b.ax k
    let modeOk := if b.stepper i then b.get (AX_CTL_NMODE i) = 4 else 1 ≤ b.get (AX_CTL_NMODE i) ∧ b.get (AX_CTL_NMODE i) ≤ 3
    let may := b.get DEV_BOOT_PHASE = 7 ∧ b.nodeInRun i = true ∧ b.flag (AX_STAT_FAULT i) = false ∧ bit x.node.status 5 = false ∧ modeOk
    let off := x.en = .off ∨ x.en = .stopping
    let enabled := b.flag (AX_STAT_ENABLED i) = true
    let actual : Gen := ⟨⟨b.geti (AX_ACTPOS i) * 2 ^ 32, b.geti (AX_ACTVEL i) * 2 ^ 32, 0⟩, none, x.gen.lim, false⟩
    let map : Fld := ⟨aAX_FLT_MAP (i / 32), i % 32, 1⟩
    let runs := x.inj = none ∧ x.en = .on ∧ b.flag (AX_STAT_AUTO i) = true ∧ b.flag (AX_STAT_FAULT i) = false ∧ b.rawAxis i = false
    let late := x.enAt + (if b.rawAxis i then 200 else b.get (AX_ENTO i)) * 1000000 ≤ b.up
    (b.axisExists i = false →
      ∀ c ∈ [Instr.enable i, .disable i, .enableTimeout i, .automatic i, .manual i, .axFaultAck i, .rcClear i, .injection i, .injectionEnd i],
        Completes c s (· = s)) ∧
    (b.axisExists i = true →
      (off → may → Completes (.enable i) s fun t =>
        axis t { x with en := .asked, enAt := b.roundAt, nmode := b.get (AX_CTL_NMODE i), preset := none } stat ∧
        t.blk.flag (AX_CTL_ENABLE i) = true ∧ t.blk.flag (AX_STAT_ENABLED i) = false) ∧
      (off → ¬ may → only (.enable i) stat fun t =>
        t.blk.flag (AX_CTL_ENABLE i) = false ∧ t.blk.flag (AX_STAT_EN_REF i) = true) ∧
      (¬ off → only (.enable i) ctl fun t => t.blk.flag (AX_CTL_ENABLE i) = true) ∧
      (b.virtual i = false → x.en ≠ .off → Completes (.disable i) s fun t =>
        axis t { x with en := .stopping, preset := none, inj := none } stat ∧ t.blk.flag (AX_CTL_ENABLE i) = false ∧
        t.blk.flag (AX_STAT_INJ_ACTIVE i) = false) ∧
      (b.virtual i = true ∨ x.en = .off → only (.disable i) ctl fun t => t.blk.flag (AX_CTL_ENABLE i) = false) ∧
      (x.en = .asked ∨ x.en = .waiting ∨ x.en = .powering → late →
        (b.flag (AX_STAT_FAULT i) = false → x.engine < 32 → Completes (.enableTimeout i) s fun t =>
          t = { s with blk := { b with
            regs := t.blk.regs, axes := t.blk.axes, scp := t.blk.scp, safety.events := b.safety.events ++ [(4, [i.1])] } } ∧
          s.regsBut t (fun a => stat a ∨ a = map.addr ∨ a = aAX_FAULT_RND i ∨ irqReg (48 + x.engine) a ∨ eventReg a) ∧
          t.blk.ax i = { x with en := .stopping, preset := none, inj := none } ∧ (∀ k, k ≠ i.1 → t.blk.ax k = b.ax k) ∧
          t.blk.flag (AX_STAT_FAULT i) = true ∧ t.blk.get (AX_STAT_FCODE i) = 4 ∧ t.blk.flag map = true ∧
          t.blk.flag (AX_CTL_ENABLE i) = false ∧ t.blk.get (AX_FAULT_RND i) = b.round % 2 ^ 32 ∧ s.asserted t (48 + x.engine) ∧
          s.logged t 0x30 2 i 4) ∧
        (b.flag (AX_STAT_FAULT i) = true → Completes (.enableTimeout i) s (· = s))) ∧
      (x.en = .off ∨ x.en = .on ∨ x.en = .stopping ∨ ¬ late → Completes (.enableTimeout i) s (· = s)) ∧
      (¬ enabled ∨ b.flag (AX_STAT_AUTO i) = true → only (.automatic i) ctl fun t => t.blk.flag (AX_CTL_AUTO i) = true) ∧
      (enabled → b.flag (AX_STAT_AUTO i) = false →
        (¬ fits → only (.automatic i) stat fun t => t.blk.flag (AX_STAT_EN_REF i) = true ∧ t.blk.flag (AX_CTL_AUTO i) = false) ∧
        (fits → Completes (.automatic i) s fun t =>
          t.blk.flag (AX_STAT_AUTO i) = true ∧ (t.blk.ax i).preset = some x.record.trq ∧ (t.blk.ax i).jog = false ∧
          (t.blk.ax i).en = x.en ∧ (∀ k, k ≠ i.1 → t.blk.ax k = b.ax k) ∧
          (b.get (AX_MCTL_CMODE i) = 0 → b.geti (AX_ACTVEL i) = 0 → (t.blk.ax i).gen = actual ∧ (t.blk.ax i).cmode = 0))) ∧
      (¬ enabled ∨ b.flag (AX_STAT_AUTO i) = false → only (.manual i) ctl fun t => t.blk.flag (AX_CTL_AUTO i) = false) ∧
      (enabled → b.flag (AX_STAT_AUTO i) = true → Completes (.manual i) s fun t =>
        t.blk.flag (AX_STAT_AUTO i) = false ∧ t.blk.flag (AX_CTL_AUTO i) = false ∧
        (b.rawAxis i = false → t.blk.get (AX_MAN_TRQ i) = wrapN 32 x.record.trq ∧ t.blk.get (AX_MAN_VEL i) = wrapN 32 x.record.vel) ∧
        (b.rawAxis i = true → t.blk.get (AX_MAN_TRQ i) = b.get (AX_MAN_TRQ i) ∧ t.blk.get (AX_MAN_VEL i) = b.get (AX_MAN_VEL i)) ∧
        t.blk.flag (AX_STAT_INJ_ACTIVE i) = false ∧
        (b.stepper i = true → (t.blk.ax i).jog = true ∧ (t.blk.ax i).cmode = 3 ∧ (t.blk.ax i).inj = none) ∧
        (b.stepper i = false →
          axis t { x with
            inj := none, gen := actual, cmode := 0, gear := { x.gear with blend := none, armed := none, armedRatio := none } }
            (fun a => stat a ∨ a = aAX_MAN_TRQ i ∨ a = aAX_MAN_VEL i))) ∧
      ((b.axisRec i).any (·.feedback = 0) = false →
        (b.flag (AX_STAT_FAULT i) = true → b.faultHolds i code = false → only (.axFaultAck i) (fun a => stat a ∨ a = map.addr) fun t =>
          t.blk.flag (AX_STAT_FAULT i) = false ∧ t.blk.get (AX_STAT_FCODE i) = 0 ∧ t.blk.flag map = false ∧
          t.blk.flag (AX_CTL_FAULT_ACK i) = false) ∧
        (b.flag (AX_STAT_FAULT i) = false ∨ b.faultHolds i code = true → only (.axFaultAck i) ctl fun t =>
          t.blk.flag (AX_CTL_FAULT_ACK i) = false)) ∧
      ((b.axisRec i).any (·.feedback = 0) = true → only (.axFaultAck i) (fun a => stat a ∨ a = map.addr ∨ a = aFB_N_STAT i) fun t =>
        let holds := b.get (FB_N_STAT_FCODE i) = 7 ∧ b.flag (FB_N_STAT_SLIM i) = true
        (¬ holds → t.blk.flag (FB_N_STAT_FAULT i) = false ∧ t.blk.get (FB_N_STAT_FCODE i) = 0) ∧
        (code ≠ 5 → b.faultHolds i code = false → t.blk.flag (AX_STAT_FAULT i) = false) ∧
        (code ≠ 5 → b.faultHolds i code = true → t.blk.flag (AX_STAT_FAULT i) = b.flag (AX_STAT_FAULT i)) ∧
        (code = 5 → b.virtual i = false → t.blk.flag (AX_STAT_FAULT i) =
          (b.flag (AX_STAT_FAULT i) && decide (holds ∧ b.flag (FB_N_STAT_FAULT i) = true)))) ∧
      (Completes (.rcClear i) s fun t =>
        axis t { x with
          rc := [], rcPoint := none, rcSum := 0, rcCount := 0, rcCleared := false
          rcSkip := some (b.get ANG_ROUND % 2 ^ 32 * b.rcPoints i / 2 ^ 32) } ctl ∧ t.blk.flag (AX_CTL_RC_CLEAR i) = false) ∧
      (runs → b.injConfig i = some j → Completes (.injection i) s fun t =>
        axis t { x with inj := some j } stat ∧ t.blk.flag (AX_STAT_INJ_ACTIVE i) = true ∧ t.blk.flag (AX_CTL_INJ_EN i) = true) ∧
      (runs → b.injConfig i = none → only (.injection i) stat fun t =>
        t.blk.flag (AX_STAT_EN_REF i) = true ∧ t.blk.flag (AX_CTL_INJ_EN i) = true) ∧
      (¬ runs → only (.injection i) ctl fun t => t.blk.flag (AX_CTL_INJ_EN i) = true) ∧
      (x.inj = some j → j.len ≠ 0 → j.len ≤ j.k → Completes (.injectionEnd i) s fun t =>
        axis t { x with inj := none } stat ∧ t.blk.flag (AX_STAT_INJ_ACTIVE i) = false ∧ t.blk.flag (AX_CTL_INJ_EN i) = false) ∧
      (x.inj = none ∨ (x.inj = some j ∧ (j.len = 0 ∨ j.k < j.len)) → Completes (.injectionEnd i) s (· = s)))

/-- 08_profiles_and_gearing.md R255, R256 (command modes), R257 (STOP), R260 to R263 (moves), R267 (velocity mode), R268 and R269 (modulo
axes), R271 and R272 (engagement, disengagement, offset moves), R273 and R274 (armed changes, GCANCEL).
What the manual leaves open here is the model's choice, log entries 15, 33 and 70. -/
def Obligations.MotionCommands : Prop :=
  ∀ (s : State) (i : Fin 256) (m : Fin 4) (v : DWord),
    let b := s.blk
    let x := b.ax i
    let tr := b.cmd i
    let l := b.limits i
    let w := b.ang.w
    let M : Int := b.get (AX_MODULUS i) * 2 ^ 32
    let stop := to48 (stopEnd tr.rat l)
    let show' (a : Nat) : Prop := a ∈ [aAX_CMDPOS i, aAX_CMDPOS i + 4, aAX_CMDVEL i, aAX_OFSPOS i, aAX_OFSPOS i + 4, aAX_MSTAT i,
      aAX_GRIN i, aAX_GRIN i + 4, aAX_SCUR i] ∨ (b.virtual i = true ∧ a ∈ [aAX_ACTPOS i, aAX_ACTPOS i + 4, aAX_ACTVEL i])
    let only (c : Instr) (p : Nat → Prop) (q : State → Prop) : Prop := Completes c s fun t => s.keepsBut t p ∧ q t
    -- the axis becomes y, but for the rest counts and the late start of a stepper (R278)
    let axis (t : State) (y : Axis) (p : Nat → Prop) : Prop :=
      t = { s with blk := { b with regs := t.blk.regs, axes := t.blk.axes } } ∧ s.regsBut t (fun a => show' a ∨ p a) ∧
      t.blk.ax i = { y with rest := (t.blk.ax i).rest, rested := (t.blk.ax i).rested, startAt := (t.blk.ax i).startAt } ∧
      ∀ k, k ≠ i.1 → t.blk.ax k = b.ax k
    let gear : Gear := if x.cmode = 2 then { x.gear with blend := none, armed := none, armedRatio := none } else x.gear
    let held (k : Nat) (t : State) (p : Nat → Prop) : Prop :=
      let y := { x with cmode := k, gear }
      (tr.v = 0 → tr.a = 0 → axis t { y with gen := ⟨tr, none, x.gen.lim, false⟩ } p) ∧
      (tr.v ≠ 0 ∨ tr.a ≠ 0 →
        (l.dec = 0 → axis t { y with gen := ⟨⟨tr.x, 0, 0⟩, none, x.gen.lim, false⟩ } p ∧ t.blk.flag (AX_MSTAT_PARAM_ERR i) = true) ∧
        (l.dec ≠ 0 → axis t { y with gen := ⟨tr, some ⟨tr, stopPhases tr.rat l false, 0, none⟩, l, false⟩ } p))
    let ctl (a : Nat) : Prop := a = aAX_MCTL i
    let free := x.jog = false ∧ b.helperRuns i = true
    let zero := l.vel = 0 ∨ l.acc = 0 ∨ l.dec = 0
    let T (n : Nat) : Int := sgn 64 n * 2 ^ 32
    let aims (tgt : Int) (n : Nat) : Prop :=
      (b.modulo i = false → tgt = T n) ∧
      (b.modulo i = true → M ∣ tgt - T n ∧
        (b.flag (AX_CFG_MOD_SHORT i) = true → 2 * (tgt - stop).natAbs ≤ M) ∧
        (b.flag (AX_CFG_MOD_SHORT i) = false → b.flag (AX_CFG_MDIR i) = false → stop ≤ tgt ∧ tgt < stop + M) ∧
        (b.flag (AX_CFG_MOD_SHORT i) = false → b.flag (AX_CFG_MDIR i) = true → stop - M < tgt ∧ tgt ≤ stop))
    let target (a : Nat) : Prop := a = aAX_TARGET i ∨ a = aAX_TARGET i + 4
    let moving := x.gen.plan.any (·.target.isSome)
    let keeps := x.gen.kept && moving
    let k := x.gen.lim
    let l0 : Limits := if keeps then { l with dec := k.dec, jerk := k.jerk } else l
    let l' : Limits := if moving then
        { l0 with
          vel := if l0.vel = 0 then k.vel else l0.vel, acc := if l0.acc = 0 then k.acc else l0.acc
          dec := if l0.dec = 0 then k.dec else l0.dec }
      else l0
    (b.axisExists i = false → ∀ c ∈ [Instr.cmode i m, .axStop i, .gcancel i, .target i v, .gang i v, .gratio i v],
      Completes c s (· = s)) ∧
    (b.axisExists i = true →
      (¬ free → only (.cmode i m) ctl fun t => t.blk.get (AX_MCTL_CMODE i) = m) ∧
      (free →
        (m = 0 → Completes (.cmode i m) s fun t => held 0 t ctl ∧ t.blk.get (AX_MCTL_CMODE i) = 0) ∧
        (m = 1 →
          (zero ∨ (b.modulo i = true ∧ M = 0) → Completes (.cmode i m) s fun t =>
            held 1 t (fun a => ctl a ∨ a = aAX_STAT i) ∧ t.blk.flag (AX_MSTAT_PARAM_ERR i) = true) ∧
          (¬ zero → (b.modulo i = true → M ≠ 0) → Completes (.cmode i m) s fun t =>
            ∃ tgt, aims tgt (b.get (AX_TARGET i)) ∧
              axis t { x with
                cmode := 1, gear, gen := ⟨tr, some ⟨tr, movePhases tr.rat l (rat48 tgt), 0, some tgt⟩, l, false⟩ }
                (fun a => ctl a ∨ a = aAX_STAT i) ∧
              t.blk.get (AX_MCTL_CMODE i) = 1 ∧ t.blk.flag (AX_MSTAT_DONE i) = false ∧
              t.blk.flag (AX_STAT_ACC_DEFERRED i) = false)) ∧
        (m = 2 →
          (b.flag ANG_STAT_LOCKED = true → w ≠ 0 ∨ tr.v = 0 → Completes (.cmode i m) s fun t =>
            let g := (t.blk.ax i).gear
            axis t { x with cmode := 2, gear := g, gen := ⟨⟨0, 0, 0⟩, none, x.gen.lim, false⟩ } ctl ∧ g.x = tr.x * 2 ^ 16 ∧
            g.armed = none ∧ g.armedRatio = none ∧ t.blk.flag (AX_MSTAT_GEARED i) = true ∧
            (b.get (AX_GBLEND i) = 0 → g.ratioAt (b.get ANG_ROUND) = (b.geti (AX_GRATIO i) * 2 ^ 32 : Int)) ∧
            (b.get (AX_GBLEND i) ≠ 0 → g.ratioAt (b.get ANG_ROUND) =
              (if w = 0 then 0 else clampI (-(2 ^ 95)) (2 ^ 95 - 1) (divRound (tr.v * 2 ^ 80) (w * 1000)) : Int))) ∧
          (b.flag ANG_STAT_LOCKED = false ∨ (w = 0 ∧ tr.v ≠ 0) → Completes (.cmode i m) s fun t =>
            t.blk.flag (AX_MSTAT_ENG_ERR i) = true ∧
            (x.cmode = 1 ∨ x.cmode = 3 → axis t x ctl ∧ t.blk.get (AX_MCTL_CMODE i) = x.cmode) ∧
            (x.cmode = 0 ∨ x.cmode = 2 → held 0 t ctl ∧ t.blk.get (AX_MCTL_CMODE i) = 0))) ∧
        (m = 3 →
          let j := b.geti (AX_JVEL i)
          let j' := mkRat (clampI (-(l.vel : Int)) l.vel j) (2 ^ 16)
          let lacks := ((velNeeds tr.rat l j').1 = true ∧ l.acc = 0) ∨ ((velNeeds tr.rat l j').2 = true ∧ l.dec = 0)
          (¬ lacks → Completes (.cmode i m) s fun t =>
            axis t { x with cmode := 3, gear, gen := ⟨tr, some ⟨tr, velPhases tr.rat l j', 0, none⟩, l, false⟩ } ctl ∧
            ((l.vel : Int) < j.natAbs → t.blk.flag (AX_MSTAT_PARAM_ERR i) = true)) ∧
          (lacks → Completes (.cmode i m) s fun t => held 3 t ctl ∧ t.blk.flag (AX_MSTAT_PARAM_ERR i) = true)) ∧
        (b.stepper i = true → b.flag (AX_MSTAT_CUR_RED i) = true → m = 1 ∨ m = 3 → ¬ zero → (b.modulo i = true → M ≠ 0) →
          Completes (.cmode i m) s fun t => (t.blk.ax i).startAt = true ∧ t.blk.flag (AX_MSTAT_CUR_RED i) = false)) ∧
      (b.helperRuns i = true → Completes (.axStop i) s fun t =>
        held 0 t (fun a => ctl a ∨ target a) ∧ t.blk.get (AX_TARGET i) = wrapN 64 (b.shownPos i stop) ∧
        t.blk.get (AX_MCTL_CMODE i) = 0 ∧ t.blk.get (AX_MCTL_STOP i) = 0) ∧
      (b.helperRuns i = false → only (.axStop i) (fun a => ctl a ∨ target a) fun t =>
        t.blk.get (AX_TARGET i) = wrapN 64 (b.shownPos i tr.x) ∧ t.blk.get (AX_MCTL_CMODE i) = 0 ∧ t.blk.get (AX_MCTL_STOP i) = 0) ∧
      (Completes (.gcancel i) s fun t =>
        axis t { x with gear := { x.gear with armed := none, armedRatio := none } } ctl ∧ t.blk.get (AX_MCTL_GCANCEL i) = 0 ∧
        t.blk.flag (AX_MSTAT_GPEND i) = false) ∧
      (¬ free ∨ (x.cmode ≠ 1 ∧ x.cmode ≠ 2) → only (.target i v) target fun t => t.blk.get (AX_TARGET i) = v.toNat) ∧
      (free → x.cmode = 2 ∨ (x.cmode = 1 ∧ (b.modulo i = true → M ≠ 0)) → l'.vel ≠ 0 → l'.acc ≠ 0 → l'.dec ≠ 0 →
        Completes (.target i v) s fun t =>
          ∃ tgt, (x.cmode = 2 → tgt = T v.toNat) ∧ (x.cmode = 1 → b.modulo i = false ∨ l' = l → aims tgt v.toNat) ∧
            axis t { x with
              gen := ⟨x.gen.tr, some ⟨x.gen.tr, movePhases x.gen.tr.rat l' (rat48 tgt), 0, some tgt⟩, l', keeps⟩ }
              (fun a => target a ∨ a = aAX_STAT i) ∧
            t.blk.get (AX_TARGET i) = v.toNat ∧ t.blk.flag (AX_MSTAT_DONE i) = false) ∧
      (free → x.cmode = 1 → moving = false → zero → Completes (.target i v) s fun t =>
        held 1 t (fun a => target a ∨ a = aAX_STAT i) ∧ t.blk.flag (AX_MSTAT_PARAM_ERR i) = true) ∧
      (b.helperRuns i = false ∨ x.cmode ≠ 2 →
        (only (.gang i v) (fun a => a = aAX_GANG i ∨ a = aAX_GANG i + 4) fun t => t.blk.get (AX_GANG i) = v.toNat) ∧
        (only (.gratio i v) (fun a => a = aAX_GRATIO i ∨ a = aAX_GRATIO i + 4) fun t => t.blk.get (AX_GRATIO i) = v.toNat)) ∧
      (b.helperRuns i = true → x.cmode = 2 →
        (Completes (.gang i v) s fun t =>
          axis t { x with gear := { x.gear with armed := some ⟨v.toNat, b.geti (AX_GNEW i) * 2 ^ 32, b.get (AX_GBLEND i), b.round⟩ } }
            (fun a => a = aAX_GANG i ∨ a = aAX_GANG i + 4) ∧
          t.blk.get (AX_GANG i) = v.toNat ∧ t.blk.flag (AX_MSTAT_GPEND i) = true) ∧
        (Completes (.gratio i v) s fun t =>
          axis t { x with gear := { x.gear with
            armed := x.gear.armed.filter (·.round = b.round)
            armedRatio := some ⟨b.get ANG_ROUND, T v.toNat, b.get (AX_GBLEND i), b.round⟩ } }
            (fun a => a = aAX_GRATIO i ∨ a = aAX_GRATIO i + 4) ∧
          t.blk.get (AX_GRATIO i) = v.toNat ∧ t.blk.flag (AX_MSTAT_GPEND i) = true)))

/-- 09_position_feedback.md R282, R296 (a channel is enabled or refused), R283 to R286 (the decoder), R287 (a latched position), R288 to
R290 (the index), R291 (LOAD), R294 and R295 (SSI frames), R303 and R304 (faults), R306 (counters cleared). What the manual leaves open
here is the model's choice, log entries 74 and 75. -/
def Obligations.FeedbackChannels : Prop :=
  ∀ (s : State) (c : Fin 16) (la lb lz : Bool) (word : Nat) (high low : Bool) (f0 : Nat) (p0 v0 : Int) (pf : Bool),
    let b := s.blk
    let x := b.ch c
    let on := b.flag (FB_STAT_ENABLED c) = true
    let ty := b.get (FB_CFG_TYPE c)
    let src (a : Nat) : Prop := irqReg (128 + c) a
    let channel (t : State) (y : Channel) (p : Nat → Prop) : Prop :=
      t = { s with blk := { b with regs := t.blk.regs, chans := t.blk.chans } } ∧ s.regsBut t p ∧ t.blk.ch c = y ∧
      ∀ k, k ≠ c.1 → t.blk.ch k = b.ch k
    let faulted (t : State) (code : Nat) : Prop := t.blk.flag (FB_STAT_FAULT c) = true ∧ (t.blk.ch c).faultNow = true ∧
      (b.flag (FB_STAT_FAULT c) = false → t.blk.get (FB_STAT_FCODE c) = code ∧ t.blk.pendingIrq (128 + c) = true)
    let stat (a : Nat) : Prop := a = aFB_STAT c ∨ src a
    -- R283 to R286, R288 to R290
    let lv : Vector Bool 3 := #v[la, lb, lz]
    let filt := b.get (FB_CFG_FILT c)
    let run (k : Fin 3) : Nat := if x.raw[k] = lv[k] then min 255 (x.same[k] + 1) else 1
    let acc (k : Fin 3) : Bool := if filt + 1 ≤ run k then lv[k] else x.acc[k]
    let d := (quadPhase (acc 0) (acc 1) + 4 - quadPhase x.acc[0] x.acc[1]) % 4
    let fwd := if d = 1 then !b.flag (FB_CFG_INV c) else if d = 3 then b.flag (FB_CFG_INV c) else x.edges.fwd
    let q : Int := if d = 1 ∨ d = 3 then x.count + (if fwd then 2 ^ 16 else -(2 ^ 16)) else x.count
    let gate := acc 2 && (!b.flag (FB_CFG_ZGATE c) || (acc 0 && acc 1))
    let index := gate ≠ x.gate ∧ gate = fwd
    let lines : Int := b.chLines c
    let N : Int := if pf = fwd then (if fwd then lines else -lines) else 0
    let D : Int := (q - p0) / 2 ^ 16 - N
    let since := x.sinceIndex + if d = 2 then 1 else 0
    let mayCorrect := b.flag (FB_CFG_ZCORR c) = true ∧ (b.flag (FB_STAT_UNCERT c) = true ∨ d = 2) ∧ D.natAbs ≤ 2 * since
    (¬ on ∨ ty ≠ 0 ∨ b.sampleDue c = false → Completes (.decoderSample c la lb lz) s (· = s)) ∧
    (on → ty = 0 → b.sampleDue c = true → (x.count.natAbs : Int) + 2 ^ 16 < countMax → Completes (.decoderSample c la lb lz) s fun t =>
      let y := t.blk.ch c
      channel t { x with
        raw := lv, same := y.same, acc := y.acc, gate, samples := x.samples + 1, sampled := b.up, count := y.count
        edges := y.edges, doubles := y.doubles, sinceIndex := y.sinceIndex, index := y.index, faultNow := y.faultNow }
        (fun a => stat a ∨ a = aFB_ERR c ∨ a = aFB_ZPOS c ∨ a = aFB_ZPOS c + 4 ∨ a = aFB_ZDIFF c) ∧
      (∀ k : Fin 3, y.same[k] = run k ∧ y.acc[k] = acc k) ∧
      (d = 1 ∨ d = 3 → y.edges.fwd = fwd ∧ t.blk.flag (FB_STAT_DIR c) = !fwd ∧ y.edges.last.t = (b.up : Int) - 8 * filt) ∧
      (d = 2 → t.blk.get (FB_ERR_QSKIP c) = satInc 16 (b.get (FB_ERR_QSKIP c)) ∧
        (4 ≤ x.doubles.length → x.samples + 1 ≤ x.doubles.getD (x.doubles.length - 4) 0 + 1024 →
          t.blk.flag (FB_STAT_FAULT c) = true)) ∧
      (¬ index → y.count = q ∧ y.sinceIndex = since ∧ y.index = x.index ∧ (d = 2 → t.blk.flag (FB_STAT_UNCERT c) = true)) ∧
      (index → t.blk.flag (FB_STAT_ZVALID c) = true ∧ y.sinceIndex = 0 ∧ (y.count.natAbs < 2 ^ 63 → y.index = some (y.count, fwd)) ∧
        t.blk.get (FB_ZPOS c) = wrapN 64 y.count ∧ (b.flag (FB_CTL_ZIRQ c) = true → t.blk.pendingIrq (128 + c) = true) ∧
        (x.index = none ∨ lines = 0 → y.count = q) ∧
        (x.index = some (p0, pf) → lines ≠ 0 → t.blk.get (FB_ZDIFF c) = wrapN 32 D ∧
          (D.natAbs ≤ b.get (FB_ZTOL c) → y.count = q ∧ t.blk.flag (FB_STAT_UNCERT c) = false) ∧
          (b.get (FB_ZTOL c) < D.natAbs → mayCorrect → b.loadDue c = true → y.count = q ∧
            t.blk.get (FB_ERR_ZCORR c) = b.get (FB_ERR_ZCORR c)) ∧
          (b.get (FB_ZTOL c) < D.natAbs → mayCorrect → b.loadDue c = false → (q - D * 2 ^ 16).natAbs < 2 ^ 63 →
            y.count = q - D * 2 ^ 16 ∧ t.blk.flag (FB_STAT_UNCERT c) = false ∧
            t.blk.get (FB_ERR_ZCORR c) = satInc 8 (b.get (FB_ERR_ZCORR c))) ∧
          (b.get (FB_ZTOL c) < D.natAbs → ¬ mayCorrect → y.count = q ∧ t.blk.flag (FB_STAT_FAULT c) = true ∧
            (b.flag (FB_STAT_FAULT c) = false → d ≠ 2 → t.blk.get (FB_STAT_FCODE c) = 2))))) ∧
    -- R287
    (¬ on ∨ b.reached 250 0 = false ∨ b.flag ANG_STAT_RUNNING = false → Completes (.positionLatch c) s (· = s)) ∧
    (on → b.reached 250 0 = true → (b.chReported c).natAbs < 2 ^ 63 → Completes (.positionLatch c) s fun t =>
      exec (.angleSample 1 c (BitVec.ofInt 64 (b.chReported c)) b.ns (b.flag (FB_STAT_UNCERT c) || b.flag (FB_STAT_FAULT c))) s = .next t) ∧
    -- R294 to R296
    (let f := b.ssiField c word
     let w := b.ssiWidth c
     let latch := (b.up : Int) - b.ssiFrameNs c
     let due := b.ssiFrameDue c = true ∧ x.sampled < latch
     let values (a : Nat) : Prop := stat a ∨ (latch = b.roundAt ∧ (a = aFB_VEL c ∨ a = aFB_POS c ∨ a = aFB_POS c + 4))
     (¬ on ∨ ty ≠ 1 ∨ ¬ due → Completes (.ssiFrameEnd c word high low) s (· = s)) ∧
     (b.flag (FB_SSI_FMT_GRAY c) = false → f = bits (word % 2 ^ b.ssiBits c) (b.ssiLsb c) w) ∧
     (on → ty = 1 → due → high = true → low = true → Completes (.ssiFrameEnd c word high low) s fun t =>
       let y := t.blk.ch c
       let p : Int := if b.flag (FB_SSI_FMT_UNWRAP c) = true ∧ x.fieldV = some (f0, v0) then v0 + sgn w (f + 2 ^ w - f0) * 2 ^ 16
         else f * 2 ^ 16
       channel t { x with
         fieldV := y.fieldV, fails := 0, sampled := latch, count := y.count, edges := y.edges, faultNow := y.faultNow } values ∧
       (b.flag (FB_SSI_FMT_UNWRAP c) = false ∨ x.fieldV = none ∨ x.fieldV = some (f0, v0) →
         y.fieldV = some (f, p) ∧ y.count = p ∧ y.edges.prev = some p ∧
         (b.get (FB_JUMP c) ≠ 0 → x.edges.prev = some p0 → (b.get (FB_JUMP c) : Int) * 2 ^ 16 < (p - p0).natAbs → faulted t 4)) ∧
       t.blk.flag (FB_STAT_UNCERT c) = false ∧ (latch = b.roundAt → t.blk.get (FB_POS c) = wrapN 64 (t.blk.chReported c))) ∧
     (on → ty = 1 → due → high = false ∨ low = false → Completes (.ssiFrameEnd c word high low) s fun t =>
       let y := t.blk.ch c
       channel t { x with
         count := x.count + divRound (b.geti (FB_VEL c) * (latch - x.sampled)) 1000, fails := x.fails + 1, sampled := latch
         edges := y.edges, faultNow := y.faultNow } (fun a => values a ∨ a = aFB_ERR c) ∧
       t.blk.get (FB_ERR_SSIERR c) = satInc 8 (b.get (FB_ERR_SSIERR c)) ∧ t.blk.flag (FB_STAT_UNCERT c) = true ∧
       t.blk.pendingIrq (128 + c) = true ∧ (2 ≤ x.fails → b.get (FB_JUMP c) = 0 → b.flag (FB_CFG_SLFLT c) = false → faulted t 3))) ∧
    -- R303, R304
    (¬ on ∨ high = false → Completes (.inputBelowThreshold c high) s fun t => channel t { x with below := high } fun _ => False) ∧
    (on → Completes (.inputBelowThreshold c true) s fun t => channel t { x with below := true, faultNow := true } stat ∧ faulted t 6) ∧
    (let code := b.get (FB_STAT_FCODE c)
     let holds := (code = 6 ∧ x.below = true) ∨ (code = 7 ∧ b.flag (FB_STAT_SLIM c) = true) ∨ x.faultNow = true
     Completes (.fbFaultAck c) s fun t =>
       s.keepsBut t (fun a => a = aFB_CTL c ∨ (¬ holds ∧ a = aFB_STAT c)) ∧ t.blk.flag (FB_CTL_FAULT_ACK c) = false ∧
       (¬ holds → t.blk.flag (FB_STAT_FAULT c) = false ∧ t.blk.get (FB_STAT_FCODE c) = 0)) ∧
    -- R282, R296
    (let bad := ty = 2 ∨ ty = 3 ∨ (ty = 1 ∧ (c.1 < 8 ∨ b.ssiFits c = false ∨ (b.on (FB_CTL_EN c)).chLate c = true))
     let ctl (a : Nat) : Prop := a = aFB_CTL c
     (on → Completes (.fbEnable c) s fun t => s.keepsBut t ctl ∧ t.blk.flag (FB_CTL_EN c) = true) ∧
     (¬ on → bad → Completes (.fbEnable c) s fun t =>
       s.keepsBut t (fun a => ctl a ∨ stat a) ∧ t.blk.flag (FB_CTL_EN c) = false ∧ t.blk.flag (FB_STAT_CFG_ERR c) = true ∧
       s.asserted t (128 + c)) ∧
     (¬ on → ¬ bad → Completes (.fbEnable c) s fun t =>
       channel t { Reset.channel with
         count := x.count, raw := x.raw, acc := x.acc, same := x.same, below := x.below, sampled := b.up - 1
         faultNow := (t.blk.ch c).faultNow, edges := if ty = 1 then Reset.edges else Edges.start ⟨b.up, x.count⟩ }
         (fun a => ctl a ∨ stat a ∨ a = aFB_VEL c ∨ a = aFB_POS c ∨ a = aFB_POS c + 4) ∧
       t.blk.get (FB_VEL c) = 0 ∧ t.blk.get (FB_POS c) = wrapN 64 (b.chReported c) ∧
       t.blk.flag (FB_CTL_EN c) = true ∧ t.blk.flag (FB_STAT_ENABLED c) = true ∧ t.blk.flag (FB_STAT_STANDSTILL c) = false ∧
       (x.below = true → b.flag (FB_CFG_SLFLT c) = false → faulted t 6))) ∧
    -- R291, R289, R306
    (let p := b.geti (FB_SETPOS c)
     let k := p - x.count
     Completes (.load c) s fun t =>
       channel t { x with
         count := p, edges := x.edges.shift k, index := none, faultNow := (t.blk.ch c).faultNow
         fieldV := x.fieldV.map fun v => (v.1, v.2 + k) } (fun a => a = aFB_CTL c ∨ a = aFB_ZPOS c ∨ a = aFB_ZPOS c + 4 ∨ stat a) ∧
       t.blk.flag (FB_CTL_LOAD c) = false ∧ t.blk.get (FB_ZPOS c) = wrapN 64 (b.geti (FB_ZPOS c) + k) ∧
       t.blk.flag (FB_STAT_UNCERT c) = b.flag (FB_STAT_UNCERT c)) ∧
    (Completes (.uncClr c) s fun t =>
      s.keepsBut t (fun a => a = aFB_CTL c ∨ (lines = 0 ∧ stat a)) ∧ t.blk.flag (FB_CTL_UNC_CLR c) = false ∧
      (lines = 0 → t.blk.flag (FB_STAT_UNCERT c) = false)) ∧
    (Completes (.fbCntClr c) s fun t =>
      s.keepsBut t (fun a => a = aFB_CTL c ∨ a = aFB_ERR c) ∧ t.blk.rd (aFB_ERR c) = 0 ∧ t.blk.flag (FB_CTL_CNT_CLR c) = false)

/-- 01_dealer_and_helpers.md R30 and R31 (the builder fetches a record at its instant, in turn order, and with the last one of a node
sends its block; a slot without a record released by then goes out stale), 05_thrumlos_link_and_frames.md R160 to R162, R165, R166 (the
node block), 10_task_dispatch.md R327 (the flow releases what follows), R330 (a result that is late is skipped, and closed results behind
it are delivered). What the manual leaves open here is the model's choice, log entries 19, 26, 61 and 120. -/
def Obligations.SetpointFlows : Prop :=
  ∀ (s : State) (i : Fin 256) (j : Nat) (ar : AxisRec) (tr : TurnRec) (f : Fin 16) (r r' : FlowResult) (rest : List FlowResult) (w : Fin 16),
    let b := s.blk
    let x := b.ax i
    let seg := ar.segment
    let contract := b.get (SEG_STAT_CONTRACT seg)
    let hand := (b.desc i).hand
    let instant := b.fetchTime i seg false
    let inTime := x.cur.st = .released ∧ (x.cur.rel : Int) ≤ instant
    -- the node block: of a turn with this record alone it is its 24 bytes, sealed; while others are still to be fetched there is none
    let sends (t : State) (data : SetRec) (stale : Bool) : Prop :=
      (∀ k, k ≠ seg → t.blk.sg k = b.sg k) ∧ t.blk.sg seg = { b.sg seg with frame := (t.blk.sg seg).frame } ∧
      (b.turnOf seg contract ar.node = none → t.blk.segs = b.segs) ∧
      (b.turnOf seg contract ar.node = some tr →
        ((∃ k ∈ b.turnAxes seg tr, k ≠ i.1 ∧ (b.ax k).cur.unfetched = true) → t.blk.segs = b.segs) ∧
        (tr.axes = 1 → tr.slots = 0 → b.axisAt seg tr.pos 0 = some i.1 →
          (t.blk.sg seg).frame = insertKey (·.1)
            ((blockStart (b.order seg contract) 96 tr.pos).getD 0 * 32,
              b.downBlock seg (b.nodeTagKey seg tr.pos) 1 tr.turn (data.bytes stale)) (b.sg seg).frame))
    let counted (t : State) : Prop :=
      t = { s with blk := { b with regs := t.blk.regs, axes := t.blk.axes, flows := t.blk.flows, segs := t.blk.segs } } ∧
      s.regsBut t (fun a => a = aDIS_D_STALE i ∨ a = aDIS_F_STALE seg ∨ a = aDIS_F_REL seg ∨ a = aDEV_STAT ∨ a = aDIS_FLAGS ∨
        irqReg (48 + hand) a) ∧
      (∀ k, k ≠ seg → t.blk.flow k = b.flow k) ∧
      (∀ k, k ≠ i.1 → t.blk.ax k = { b.ax k with cur := (t.blk.ax k).cur, nxt := (t.blk.ax k).nxt, sent := (t.blk.ax k).sent }) ∧
      (t.blk.ax i).cur.st = .stale ∧ (t.blk.ax i).cur.data = (if x.cur.st = .released then x.cur.prev else x.sent) ∧
      sends t (if x.cur.st = .released then x.cur.prev else x.sent) true ∧
      t.blk.get (DIS_D_STALE i) = satInc 32 (b.get (DIS_D_STALE i)) ∧
      t.blk.get (DIS_F_STALE seg) = satInc 32 (b.get (DIS_F_STALE seg)) ∧ t.blk.flag DEV_STAT_STALE = true ∧
      t.blk.flag DIS_FLAGS_STALE = true ∧ (bit (b.get DIS_IRQ_EN) 1 = true → s.asserted t (48 + hand))
    let y := b.flow f
    let flowFrame (t : State) (p : Nat → Prop) : Prop :=
      s.regsBut t (fun a => a = aDIS_F_STALE f ∨ a = aDIS_FLAGS ∨ p a) ∧ (∀ k, k ≠ f.1 → t.blk.flow k = b.flow k) ∧
      t.blk.get (DIS_F_STALE f) = satInc 32 (b.get (DIS_F_STALE f)) ∧ t.blk.flag DIS_FLAGS_FLOW_TO = true
    (b.axisRec i = none ∨ x.cur.unfetched = false ∨ b.fetchDue i = false → Completes (.builderFetch i) s (· = s)) ∧
    (b.axisRec i = some ar → x.cur.unfetched = true → b.fetchDue i = true →
      (inTime → Completes (.builderFetch i) s fun t =>
        t = { s with blk := { b with axes := t.blk.axes, segs := t.blk.segs } } ∧ t.blk.ax i = { x with cur.st := .none } ∧
        (∀ k, k ≠ i.1 → t.blk.ax k = b.ax k) ∧ sends t x.cur.data false) ∧
      (¬ inTime → Completes (.builderFetch i) s counted) ∧
      (¬ inTime → b.slotSeq seg = [(i.1, false), (j, false)] → j ≠ i.1 → (b.ax j).cur.st = .complete →
        Completes (.builderFetch i) s fun t =>
          counted t ∧ (t.blk.ax j).cur.st = .released ∧ (t.blk.ax j).cur.rel = b.up + 16 ∧ (t.blk.ax j).sent = (b.ax j).cur.data ∧
          (t.blk.ax j).cur.prev = (b.ax j).sent ∧ t.blk.get (DIS_F_REL seg) = satInc 32 (b.get (DIS_F_REL seg)))) ∧
    (y.results = [] ∨ (y.results = r :: rest ∧ (r.closed = true ∨ b.up < r.opened + b.flowTo)) →
      Completes (.flowTimeout f) s (· = s)) ∧
    (y.results = r :: rest → r.closed = false → r.opened + b.flowTo ≤ b.up → y.out = [] →
      ((rest.head?.map (·.closed)).getD false = false → Completes (.flowTimeout f) s fun t =>
        t = { s with blk := { b with regs := t.blk.regs, flows := t.blk.flows } } ∧ flowFrame t (fun _ => False) ∧
        t.blk.flow f = { y with results := rest }) ∧
      (rest = [r'] → r'.closed = true → b.flowWindow f = some w → b.host.fw[w].length + 1 + r'.words.length ≤ fwDepth w →
        Completes (.flowTimeout f) s fun t =>
          t = { s with blk := { b with
            regs := t.blk.regs, flows := t.blk.flows, host.fw := b.host.fw.set w (b.host.fw[w] ++ r'.delivered) } } ∧
          flowFrame t (fun a => a = aDIS_F_REL f ∨ a = aHST_FW_LEVEL w ∨ a = aHST_FW_STAT w ∨ a = aHST_FW_IRQ ∨ irqReg 182 a) ∧
          t.blk.flow f = { y with results := [] } ∧ t.blk.get (DIS_F_REL f) = satInc 32 (b.get (DIS_F_REL f)) ∧
          t.blk.get (HST_FW_LEVEL w) = b.host.fw[w].length + 1 + r'.words.length))

/-- 10_task_dispatch.md R313 and R314 (a wait ends with its turn, or times out), R316 (a wake while the task still runs is deferred), R321
and R322 (placement on the hand, or an override), 01_dealer_and_helpers.md R23 (an axis's state is written back before it moves), R324 and
R367 (a task starts, a background task is pre-empted), R326 (the entry block), R317, R318 and R325 (releases of background tasks). What
the manual leaves open here is the model's choice, log entries 17, 77 and 111. -/
def Obligations.TaskWakes : Prop :=
  ∀ (s : State) (d : Fin 1024) (extrap : Bool) (q : Nat) (r : Run),
    let b := s.blk
    let x := b.desc d
    let h := x.hand
    let y := b.eng h
    let n : Inst := ⟨d, extrap, x.cold, b.round, b.up, 0⟩
    let cmd := if extrap then Instr.waitTimeout d else .wake d
    let node := b.sn (b.descSeg d) (b.descNode d)
    -- R32: what a task waits for has come, or its window has ended
    let wakes := x.armed = true ∧
      if extrap then x.kind ≠ 3 ∧ node.first = false ∧ b.waitOver d = true ∧ b.woken d = false
      else if x.kind = 3 then b.waitOver d = true else
        node.lastValid = some b.round ∧ b.roundAt * 10 + b.wakeAt d ≤ b.up * 10
    let timeout (a : Nat) : Prop := extrap = true ∧ (a = aDIS_D_TO d ∨ a = aDIS_FLAGS ∨ irqReg (48 + h) a)
    let counted (t : State) : Prop := extrap = true →
      t.blk.get (DIS_D_TO d) = satInc 32 (b.get (DIS_D_TO d)) ∧ t.blk.flag DIS_FLAGS_TIMEOUT = true ∧
      (bit (b.get DIS_IRQ_EN) 0 = true → s.asserted t (48 + h))
    let descs (t : State) (x' : Desc) : Prop := t.blk.desc d = x' ∧ ∀ k, k ≠ d → t.blk.desc k = b.desc k
    let engine (t : State) (e : Nat) (y' : Engine) : Prop := t.blk.eng e = y' ∧ ∀ k, k ≠ e → t.blk.eng k = b.eng k
    let frame (t : State) (p : Nat → Prop) : Prop :=
      t = { s with blk := { b with regs := t.blk.regs, descs := t.blk.descs, engines := t.blk.engines, mem := t.blk.mem, ecc := t.blk.ecc } } ∧
      s.regsBut t p
    let starts (c : Inst) (e : Nat) (y' : Engine) (t : State) : Prop :=
      let k := (b.desc c.desc).kind
      engine t e { y' with
        regs := { Reset.eregs with
          pc := BitVec.ofNat 16 (b.taskEntry (b.desc c.desc).task), extrap := c.extrap, cold := c.cold, bkg := k = 4 }
        run := some ⟨c, .code, b.up, 0, ⟨0, 0, false, false, false⟩, ⟨0, 0, 0, 0, 0, 0⟩⟩, loads := y'.loads.filter (·.held) } ∧
      (List.range 8).map (fun j => t.blk.xWord e (0xFFE0 + 4 * j)) =
        [BitVec.ofNat 32 (c.desc + k * 2 ^ 16), (b.desc c.desc).words[1], BitVec.ofNat 32 c.round, BitVec.ofNat 32 (c.round / 2 ^ 32),
          (b.desc c.desc).words[7], BitVec.ofNat 32 (if k = 4 then c.seq else 0), 0,
          BitVec.ofNat 32 (b2n c.extrap + 2 * b2n c.cold)] ∧
      (∀ a, a < engBase e + 0x1FFE0 ∨ engBase e + 0x20000 ≤ a → Memory.read t.blk.mem a = Memory.read b.mem a) ∧
      t.blk.get (DIS_D_HAND_ENG c.desc) = e ∧ t.blk.get (DIS_D_LAST c.desc) = b.round % 2 ^ 32
    let shown (e a : Nat) : Prop := engineReg e a ∨ a = aDIS_D_WAITMAX d ∨ a = aDIS_D_HAND d ∨ a = aDIS_D_LAST d
    -- R313 to R316
    (¬ wakes → extrap = false ∨ b.woken d = false → Completes cmd s (· = s)) ∧
    (b.woken d = true → x.armed = true → x.kind ≠ 3 → node.first = false → b.waitOver d = true →
      exec (.waitTimeout d) s = exec (.wake d) s) ∧
    (wakes → b.live d = true → Completes cmd s fun t =>
      frame t (fun a => a = aDIS_FLAGS ∨ a = aDIS_D_OVR d ∨ timeout a) ∧ t.blk.engines = b.engines ∧ t.blk.mem = b.mem ∧
      descs t { x with armed := false, deferred := some { n with cold := false } } ∧ t.blk.flag DIS_FLAGS_DEFER = true ∧
      (x.deferred.isSome = true → t.blk.get (DIS_D_OVR d) = satInc 32 (b.get (DIS_D_OVR d))) ∧ counted t) ∧
    (wakes → b.live d = false → b.inPool h = true →
      -- R321: on its hand
      (y.run.isSome = true → b.runsBkg h = false → y.cq.length < b.qmax → Completes cmd s fun t =>
        frame t (fun a => engineReg h a ∨ timeout a) ∧ t.blk.mem = b.mem ∧ descs t { x with armed := false, cold := false } ∧
        engine t h { y with cq := y.cq ++ [n] } ∧ counted t) ∧
      -- R324, R326: an idle engine starts it
      (y.run = none → y.cq = [] →
        (x.kind ≠ 1 → x.kind ≠ 4 → Completes cmd s fun t =>
          frame t (fun a => shown h a ∨ timeout a) ∧ descs t { x with armed := false, cold := false, out := [] } ∧
          starts n h y t ∧ counted t) ∧
        (x.kind = 1 → Completes cmd s fun t => (t.blk.eng h).run.map (·.inst) = some n)) ∧
      -- R367: a background task is pre-empted
      (y.run = some r → b.runsBkg h = true → y.cq = [] → y.held = none → x.kind ≠ 1 → x.kind ≠ 4 → Completes cmd s fun t =>
        frame t (fun a => shown h a ∨ timeout a ∨ a = aDIS_LE_PREEMPT h) ∧
        descs t { x with armed := false, cold := false, out := [] } ∧
        starts n h { y with
          held := some (y.regs, { r with busy := r.busy + (b.up - r.since) }, (List.range 8).map fun j => b.xWord h (0xFFE0 + 4 * j))
          loads := y.loads.map fun l => { l with held := true }, bkg := y.bkg + (b.up - max r.since b.roundAt) } t ∧
        t.blk.get (DIS_LE_PREEMPT h) = satInc 32 (b.get (DIS_LE_PREEMPT h)) ∧ counted t) ∧
      -- R321, R322: an override
      (∀ e : Fin 32, b.qmax ≤ y.cq.length → x.pin = false → b.bestEngine (b.pool.filter (· ≠ h)) = some e.1 →
        (b.eng e).run.isSome = true → b.runsBkg e = false → Completes cmd s fun t =>
          frame t (fun a => engineReg h a ∨ engineReg e a ∨ a = aDIS_D_HAND d ∨ a = aDIS_LE_OVR e ∨ a = aDIS_FLAGS ∨
            irqReg (48 + e) a ∨ timeout a) ∧ t.blk.mem = (b.writeBack d).mem ∧
          descs t { x with
            armed := false, cold := false
            slot := if x.kind = 1 then (List.range 16).find? (fun j => !(b.slotsHeld d e).contains j) else none
            words := x.words.set 2 (BitVec.ofNat 32 (setBits x.words[2].toNat 0 5 e)) } ∧
          engine t e { b.eng e with cq := (b.eng e).cq ++ [{ n with cold := true }] } ∧ t.blk.get (DIS_D_HAND_HAND d) = e ∧
          t.blk.get (DIS_LE_OVR e) = satInc 32 (b.get (DIS_LE_OVR e)) ∧ t.blk.flag DIS_FLAGS_OVERRIDE = true ∧ counted t)) ∧
    -- R317, R318, R325
    (b.boot.dealing = false → b.dealt.isSome = true → (b.used.filter fun k => (b.desc k).kind = 4 && !(b.desc k).deleting) = [d.1] →
      x.kick = false → x.flowOf = 0 → q = x.words[4].toNat → b.reached 1000 0 = true →
      let due' : Desc := if q = 0 then { x with live := true, words := x.words.set 0 (BitVec.ofNat 32 (setBits x.words[0].toNat 3 1 0)) }
        else { x with live := true, due := (x.due + 1000 * q) % 2 ^ 64 }
      (x.enabled = false ∨ b.dueBy x.due = false → Completes .delayListTick s fun t =>
        frame t (· = aDIS_STAT) ∧ descs t { x with live := true } ∧ t.blk.engines = b.engines ∧ t.blk.mem = b.mem ∧
        t.blk.flag DIS_STAT_BKG_RUN = true) ∧
      (x.enabled = true → b.dueBy x.due = true →
        (b.live d = true → Completes .delayListTick s fun t =>
          frame t (fun a => a = aDIS_STAT ∨ a = aDIS_D_HAND d ∨ a = aDIS_FLAGS ∨ irqReg (48 + b.get (DIS_D_HAND_ENG d)) a) ∧
          descs t due' ∧ t.blk.engines = b.engines ∧ t.blk.mem = b.mem ∧
          t.blk.get (DIS_D_HAND_SKIPPED d) = satInc 16 (b.get (DIS_D_HAND_SKIPPED d)) ∧ t.blk.flag DIS_FLAGS_SKIP = true) ∧
        (b.live d = false → b.inPool h = true → x.words[3] = 0 ∨ x.words[3].getLsbD h = true → y.bq.length < b.bqmax →
          let c : Inst := ⟨d, false, false, b.round, b.up, 0⟩
          (y.run.isSome = true → Completes .delayListTick s fun t =>
            frame t (fun a => a = aDIS_STAT ∨ engineReg h a) ∧ descs t due' ∧ t.blk.mem = b.mem ∧
            engine t h { y with bq := b.insertBkg c y.bq }) ∧
          (y.run = none → y.cq = [] → y.held = none → y.bq = [] → Completes .delayListTick s fun t =>
            frame t (fun a => a = aDIS_STAT ∨ shown h a) ∧ descs t { due' with out := [] } ∧ starts c h y t))))

/-- 12_loop_engine_instructions.md R394, R397; 10_task_dispatch.md R334 (Table 10.8): END of a node, segment or background task with
nothing waiting for its engine idles the engine, and the run time of the task is kept, an overrun counted; while a load of the task is
outstanding, END waits for it. FSYNC retires once the task has no store outstanding and waits till then. No stored word is in error
(11_loop_engine_model.md R343). What the manual leaves open here is the model's choice, log entries 16 and 80. -/
def Obligations.TaskEnd : Prop :=
  ∀ (s : State) (e : Fin 32) (r : Run),
    let y := s.blk.eng e.1
    let d := r.inst.desc
    let x := s.blk.desc d
    let spent := r.busy + (s.blk.up - r.since)
    y.run = some r → r.stage = .code → d < 1024 → s.blk.ecc = [] →
    (s.blk.wordAt e.1 = controlWord 8 0 → y.loads.any (!·.held) = true → Completes (.leEnd e) s fun t =>
      t = { s with blk := { s.blk with engines := t.blk.engines } } ∧
      t.blk.eng e.1 = { y with run := some { r with stage := .ended } } ∧ ∀ k, k ≠ e.1 → t.blk.eng k = s.blk.eng k) ∧
    (s.blk.wordAt e.1 = controlWord 8 0 → y.loads.any (!·.held) = false → (x.kind = 2 ∨ x.kind = 3 ∨ (x.kind = 4 ∧ x.flowOf = 0)) →
      y.cq = [] → y.bq = [] → y.held = none → x.deleting = false → x.deferred = none → s.blk.frozen (e.1 + 2) = false →
      Completes (.leEnd e) s fun t =>
        t = { s with blk := { s.blk with regs := t.blk.regs, engines := t.blk.engines } } ∧
        (t.blk.eng e.1).run = none ∧ (t.blk.eng e.1).regs = Reset.eregs ∧ (∀ k, k ≠ e.1 → t.blk.eng k = s.blk.eng k) ∧
        t.blk.get (DIS_D_RUN d) = min spent (2 ^ 32 - 1) ∧
        t.blk.get (DIS_D_RUNMAX d) = max (s.blk.get (DIS_D_RUNMAX d)) (min spent (2 ^ 32 - 1)) ∧
        (if x.runMax < spent ∨ (x.kind ≠ 4 ∧ r.inst.round ≠ s.blk.round) then
          t.blk.get (DIS_D_OVR d) = satInc (DIS_D_OVR d).w (s.blk.get (DIS_D_OVR d)) ∧ t.blk.flag DEV_STAT_OVERRUN = true
         else t.blk.get (DIS_D_OVR d) = s.blk.get (DIS_D_OVR d) ∧
          t.blk.get DEV_STAT_OVERRUN = s.blk.get DEV_STAT_OVERRUN)) ∧
    ((∃ z ∈ y.stores, z.desc = d ∧ z.seq = r.inst.seq) → exec (.leFsync e) s = .next s) ∧
    ((∀ z ∈ y.stores, ¬ (z.desc = d ∧ z.seq = r.inst.seq)) → s.blk.wordAt e.1 = controlWord 11 0 →
      s.mayGo e.1 (s.nextOf e.1).2 → Completes (.leFsync e) s fun t => s.retires t e.1 y.regs false)

/-- 10_task_dispatch.md R310 (DIS_CMD), R311 (admission), R312 (delete), R317 (kick), R323 (rehome), R333 (statistics cleared).
What the manual leaves open here is the model's choice, log entries 76 and 78. -/
def Obligations.DescriptorCommands : Prop :=
  ∀ (s : State) (m : Fin 39) (d : Fin 1024) (e : Fin 32) (all : Bool) (rec : TaskRec) (y : Engine) (i : Nat) (z : Desc),
    let b := s.blk
    let x := b.desc d
    let word (op : Nat) : Word := BitVec.ofNat 32 (op + (if op = 4 then e.1 else 0) * 2 ^ 6 + (if op = 5 then b2n all else 0) * 2 ^ 11 +
      d.1 * 2 ^ 16)
    let given (op : Nat) : Prop := s.writes m aDIS_CMD (word op)
    let free (op : Nat) : Prop := given op ∧ b.flag DIS_RES_BUSY = false
    let resulted (t : State) (result : Nat) : Prop :=
      t.blk.get DIS_RES_BUSY = 0 ∧ t.blk.get DIS_RES_RESULT = result ∧ t.blk.get DIS_RES_INDEX = d
    let only (c : Instr) (result : Nat) : Prop := Completes c s fun t => s.keepsBut t (· = aDIS_RES) ∧ resulted t result
    let queued (op : Nat) : List MirItem :=
      (b.mirror (.commit ((b.round + 1) % 2 ^ 16) aDIS_CMD ((List.range 8).map (fun j => b.rd (aDIS_DESC j)) ++ [word op]))).partner.queue
    let descs (t : State) (x' : Desc) : Prop := t.blk.desc d = x' ∧ ∀ k, k ≠ d.1 → t.blk.desc k = b.desc k
    let frame (t : State) (q : List MirItem) (p : Nat → Prop) : Prop :=
      t = { s with blk := { b with regs := t.blk.regs, descs := t.blk.descs, partner.queue := q } } ∧
      s.regsBut t (fun a => a = aDIS_RES ∨ p a)
    let used (a : Nat) : Prop := a = aDIS_STAT
    let staged : Desc := { Reset.desc with words := b.stagedDesc }
    let h := b.newHand staged.hand
    let ws := b.stagedDesc.set 6 (BitVec.ofNat 32 rec.wcet)
    let unused := 256 ≤ d.1 ∧ x.kind = 0
    let runs := b.engines.any fun p => p.2.run.any (·.inst.desc = d.1) || p.2.held.any (·.2.1.inst.desc = d.1)
    let cleared (t : State) (k : Nat) : Prop :=
      ∀ f ∈ [DIS_D_WAITMAX k, DIS_D_RUNMAX k, DIS_D_TO k, DIS_D_STALE k, DIS_D_OVR k, DIS_D_HAND_SKIPPED k], t.blk.get f = 0
    -- Table 10.5: a command while another runs
    (∀ c op, (c, op) ∈ [(Instr.disRead m d, 0), (.create m d, 1), (.disDelete m d, 2), (.kick m d, 3), (.rehome m d e, 4), (.statclr m d all, 5)] →
      given op → b.flag DIS_RES_BUSY = true → Completes c s fun t =>
        s.keepsBut t (· = aDIS_RES) ∧ t.blk.get DIS_RES_RESULT = 2 ∧ t.blk.get DIS_RES_BUSY = 1) ∧
    (free 0 → Completes (.disRead m d) s fun t =>
      s.keepsBut t (fun a => a = aDIS_RES ∨ ∃ j < 8, a = aDIS_DESC j) ∧ resulted t 0 ∧
      ∀ j : Fin 8, t.blk.rd (aDIS_DESC j) = x.words[j]) ∧
    (free 1 →
      (¬ unused → only (.create m d) 1) ∧ (unused → b.validDesc staged = false → only (.create m d) 2) ∧
      (unused → b.validDesc staged = true → b.taskRec staged.task = none → only (.create m d) 4) ∧
      (unused → b.validDesc staged = true → b.taskRec staged.task = some rec →
        (staged.kind = 4 → Completes (.create m d) s fun t =>
          frame t (queued 1) used ∧ descs t { staged with words := ws, due := b.firstDue ws[5].toNat } ∧ resulted t 0 ∧
          t.blk.get DIS_STAT_USED = t.blk.used.length % 2 ^ 11) ∧
        (staged.kind ≠ 4 → Completes (.create m d) s fun t =>
          frame t (queued 1) (fun a => a = aDIS_D_HAND d ∨ engineReg staged.hand a ∨ engineReg h a) ∧
          descs t { staged with
            words := ws.set 2 (BitVec.ofNat 32 (setBits ws[2].toNat 0 5 h)), admitting := true } ∧
          t.blk.get DIS_RES_BUSY = 1 ∧ t.blk.get DIS_RES_INDEX = d ∧ t.blk.get (DIS_D_HAND_HAND d) = h % 2 ^ 5))) ∧
    (b.descs.find? (·.2.admitting) = some (i, z) → i < 1024 →
      (b.pathCheck none = true → Completes .descriptorAdmission s fun t =>
        t = { s with blk := { b with regs := t.blk.regs, descs := t.blk.descs } } ∧
        s.regsBut t (fun a => a = aDIS_RES ∨ used a) ∧ t.blk.desc i = { b.desc i with admitting := false } ∧
        (∀ k, k ≠ i → t.blk.desc k = b.desc k) ∧ t.blk.get DIS_RES_BUSY = 0 ∧ t.blk.get DIS_RES_RESULT = 0 ∧
        t.blk.get DIS_RES_INDEX = i ∧ t.blk.get DIS_STAT_USED = t.blk.used.length % 2 ^ 11) ∧
      (b.pathCheck none = false → Completes .descriptorAdmission s fun t =>
        t = { s with blk := { b with regs := t.blk.regs, descs := t.blk.descs } } ∧
        s.regsBut t (fun a => a = aDIS_RES ∨ used a ∨ engineReg (b.desc i).hand a) ∧ t.blk.desc i = Reset.desc ∧
        (∀ k, k ≠ i → t.blk.desc k = b.desc k) ∧ t.blk.get DIS_RES_BUSY = 0 ∧ t.blk.get DIS_RES_RESULT = 3 ∧
        t.blk.get DIS_RES_INDEX = i)) ∧
    (free 2 →
      (d.1 < 256 → only (.disDelete m d) 5) ∧ (256 ≤ d.1 → x.kind = 0 → only (.disDelete m d) 2) ∧
      (256 ≤ d.1 → x.kind ≠ 0 →
        (b.live d = false → Completes (.disDelete m d) s fun t =>
          frame t (queued 2) (fun a => used a ∨ engineReg x.hand a) ∧ descs t Reset.desc ∧ resulted t 0) ∧
        (runs = true → (∀ k < 32, ∀ n ∈ (b.eng k).cq ++ (b.eng k).bq, n.desc ≠ d.1) → Completes (.disDelete m d) s fun t =>
          frame t (queued 2) used ∧ descs t { x with deleting := true, armed := false, deferred := none } ∧ resulted t 0) ∧
        (b.engines = [(e.1, y)] → runs = false → (∃ n ∈ y.cq ++ y.bq, n.desc = d.1) → Completes (.disDelete m d) s fun t =>
          descs t Reset.desc ∧ t.blk.eng e = { y with cq := y.cq.filter (·.desc ≠ d.1), bq := y.bq.filter (·.desc ≠ d.1) } ∧
          (∀ k, k ≠ e.1 → t.blk.eng k = b.eng k) ∧ resulted t 0))) ∧
    (free 3 → (x.kind ≠ 4 → only (.kick m d) 2) ∧
      (x.kind = 4 → Completes (.kick m d) s fun t =>
        frame t b.partner.queue (fun _ => False) ∧ descs t { x with kick := true } ∧ resulted t 0)) ∧
    (free 4 → (x.cyclic = false ∨ b.inPool e = false → only (.rehome m d e) 2) ∧
      (x.cyclic = true → b.inPool e = true → Completes (.rehome m d e) s fun t =>
        frame t (queued 4) (fun _ => False) ∧ descs t { x with rehome := some e.1 } ∧ resulted t 0)) ∧
    (free 5 → Completes (.statclr m d all) s fun t =>
      resulted t 0 ∧ cleared t d ∧
      (∀ k < 1024, ∀ f ∈ [DIS_D_HAND_ENG k, DIS_D_HAND_HAND k, DIS_D_RUN k, DIS_D_LAST k], t.blk.get f = b.get f) ∧
      (all = false → s.keepsBut t (fun a => a = aDIS_RES ∨
        a ∈ [aDIS_D_WAITMAX d, aDIS_D_RUNMAX d, aDIS_D_TO d, aDIS_D_STALE d, aDIS_D_OVR d, aDIS_D_HAND d])) ∧
      (all = true →
        s.keepsBut t (fun a => a = aDIS_RES ∨ (0x112000 ≤ a ∧ a < 0x112400) ∨ (0x113000 ≤ a ∧ a < 0x113200) ∨
          (0x118000 ≤ a ∧ a < 0x120000)) ∧ (∀ k < 1024, cleared t k) ∧
        (∀ k < 32, ∀ f ∈ [DIS_LE_PEAK k, DIS_LE_Q_CPEAK k, DIS_LE_Q_BPEAK k, DIS_LE_PREEMPT k, DIS_LE_OVR k], t.blk.get f = 0) ∧
        ∀ k < 16, ∀ f ∈ [DIS_F_REL k, DIS_F_STALE k, DIS_F_DROP k], t.blk.get f = 0))

/-- 11_loop_engine_model.md R376 (a halt, its end, its clearing), 10_task_dispatch.md R323 (a hand moves; the state of its axes is
written back first, 01_dealer_and_helpers.md R23), 02_trust.md R63 to R65 (the hand of
a frozen engine: its axes restart from a preset with their tables cleared, or channel B stops them).
What the manual leaves open here is the model's choice, log entries 41 and 111. -/
def Obligations.EngineHalts : Prop :=
  ∀ (s : State) (e h : Fin 32) (k : Nat),
    let b := s.blk
    let y := b.eng e
    let frozen := b.frozen (e + 2) = true
    let others := b.pool.filter (· ≠ e.1)
    let engine (t : State) (y' : Engine) : Prop := t.blk.eng e = y' ∧ ∀ j, j ≠ e.1 → t.blk.eng j = b.eng j
    let only (c : Instr) (v : Bool) : Prop := Completes c s fun t => s.keepsBut t (· = aLE_CTL e) ∧ t.blk.flag (LE_CTL e) = v
    let idle := y.cq = [] ∧ y.bq = [] ∧ y.held = none
    let moved (t : State) : Prop :=
      (∀ d, (d ∈ b.handList e → (t.blk.desc d).hand ∈ b.pool ∧ (t.blk.desc d).hand ≠ e ∧ (t.blk.desc d).cold = true) ∧
        (d ∉ b.handList e → t.blk.desc d = b.desc d)) ∧
      engine t { y with leftAt := none } ∧
      s.regsBut t (fun a => (∃ d ∈ b.handList e, a = aDIS_D_HAND d) ∨ ∃ j < 32, engineReg j a) ∧
      (b.handList e = [k] → b.bestEngine others = some h.1 →
        t.blk.desc k = { b.desc k with
          cold := true
          slot := if (b.desc k).kind = 1 then (List.range 16).find? (fun j => !(b.slotsHeld k h).contains j) else none
          words := (b.desc k).words.set 2 (BitVec.ofNat 32 (setBits (b.desc k).words[2].toNat 0 5 h)) } ∧
        t.blk.get (DIS_D_HAND_HAND k) = h)
    (frozen ∨ y.leftAt.isSome = true ∨ b.flag (LE_STAT_HALTED e) = true → only (.halt e) true) ∧
    (¬ frozen → y.leftAt = none → b.flag (LE_STAT_HALTED e) = false → Completes (.halt e) s fun t =>
      t = { s with blk := { b with regs := t.blk.regs, engines := t.blk.engines } } ∧
      s.regsBut t (fun a => a = aLE_CTL e ∨ engineReg e a) ∧ engine t { y with leftAt := some b.up } ∧
      t.blk.flag (LE_CTL e) = true ∧ t.blk.flag (DIS_LE_STAT_POOL e) = false) ∧
    (b.flag (LE_CTL e) = true → b.flag (LE_STAT_HALTED e) = false → ¬ frozen → y.run = none → idle → Completes (.haltDone e) s fun t =>
      t = { s with blk := { b with
        regs := t.blk.regs
        pd0.gatePend := if b.gateClosed e ∨ e.1 ∈ b.pd0.gatePend then b.pd0.gatePend else b.pd0.gatePend ++ [e.1] } } ∧
      s.regsBut t (fun a => engineReg e a ∨ irqReg (80 + e) a) ∧ t.blk.flag (LE_STAT_HALTED e) = true ∧
      t.blk.flag (DIS_LE_STAT_HALTED e) = true ∧ s.asserted t (80 + e)) ∧
    (b.flag (LE_CTL e) = false ∨ b.flag (LE_STAT_HALTED e) = true ∨ frozen ∨ y.run.isSome = true ∨ ¬ idle →
      Completes (.haltDone e) s (· = s)) ∧
    (frozen → only (.haltClear e) false) ∧
    (¬ frozen → b.handList e = [] → y.run.isSome = true ∨ idle → Completes (.haltClear e) s fun t =>
      t = { s with blk := { b with
        regs := t.blk.regs, engines := t.blk.engines, pd0.gatePend := b.pd0.gatePend.filter (· ≠ e.1) } } ∧
      s.regsBut t (fun a => a = aLE_CTL e ∨ engineReg e a ∨ a = aCPR_GATE_LO) ∧ engine t { y with leftAt := none } ∧
      t.blk.flag (LE_CTL e) = false ∧ t.blk.flag (LE_STAT_HALTED e) = false ∧ t.blk.gateClosed e = false ∧
      t.blk.flag (DIS_LE_STAT_POOL e) = b.engineOn e) ∧
    (¬ frozen → b.inPool e = false → b.leftLongAgo e = true → b.atPhase = true → others ≠ [] → Completes (.handMove e) s fun t =>
      t = { s with blk := { b with regs := t.blk.regs, engines := t.blk.engines, descs := t.blk.descs, mem := t.blk.mem, ecc := t.blk.ecc } } ∧
      moved t ∧ (b.handList e = [k] → t.blk.mem = (b.writeBack k).mem) ∧
      ∀ a, (∀ d ∈ b.handList e, (b.desc d).slot.isSome = true →
          let area := 0x20000000 + Config.slotArea ((b.desc d).fld 1 0 8)
          a < area ∨ area + 0x800 ≤ a) → Memory.read t.blk.mem a = Memory.read b.mem a) ∧
    (frozen ∨ b.inPool e = true ∨ b.leftLongAgo e = false ∨ b.atPhase = false → Completes (.handMove e) s (· = s)) ∧
    (frozen → b.leftLongAgo e = true → b.atPhase = true →
      (others ≠ [] → (b.moveHand e true).pathCheck none = true → Completes (.frozenHandMove e) s fun t =>
        t = { s with blk := { b with regs := t.blk.regs, engines := t.blk.engines, descs := t.blk.descs, axes := t.blk.axes } } ∧
        moved t ∧
        (b.handList e = [k] → (b.desc k).kind = 1 →
          let i := (b.desc k).fld 1 0 8
          t.blk.ax i = { b.ax i with
            preset := if (b.ax i).en = .on then some (b.ax i).sent.trq else (b.ax i).preset
            rc := [], rcPoint := none, rcSum := 0, rcCount := 0, rcSkip := none, rcCleared := true } ∧
          ∀ j, j ≠ i → t.blk.ax j = b.ax j)) ∧
      ((others = [] ∧ b.handList e ≠ []) ∨ (b.moveHand e true).pathCheck none = false → Completes (.frozenHandMove e) s fun t =>
        t = { s with blk := { b with
          engines := t.blk.engines
          safety.events := b.safety.events ++ [(0x21, ((b.handList e).filter fun d => (b.desc d).kind = 1).map b.descAxis)] } } ∧
        engine t { y with leftAt := none }))

/-- 12_loop_engine_instructions.md R380, 11_loop_engine_model.md R337, R355, R356: what each register code keeps of the word written to
it, and how it reads back. R354, R355, R357: the address a pointer takes after each update, in linear and ring mode, and, for the steps of
four bytes, in bit-reversed mode; a ring of length 0 and mode 3 give none. R351: the exponent of an accumulator counts the bits directly
below bit 79 that equal it, less 16; a zero accumulator has 63. Table 12.10: the tests of BC; COND 0xE and 0xF, and operand bits above the
register number, are invalid. R378, R381, R387, R389 to R394: the fields of the words, most significant bits first.
What the manual leaves open here is the model's choice, log entry 21. -/
def Obligations.OperandForms : Prop :=
  (∀ (r : ERegs) (v : Word),
      let back (code : Nat) (w : Word) : Prop := ∃ q, r.write code v = some q ∧ q.read code = some w
      (∀ code, (code < 4 ∨ (0x08 ≤ code ∧ code < 0x10) ∨ (0x28 ≤ code ∧ code < 0x2C)) → back code v) ∧
      (∀ code, 0x10 ≤ code → code < 0x18 → back code ((v.truncate 16 &&& 0xFFFC : BitVec 16).zeroExtend 32)) ∧
      (∀ code, 0x18 ≤ code → code < 0x1C → back code ((v.truncate 16 &&& 0xFFFC : BitVec 16).signExtend 32)) ∧
      (∀ code, 0x20 ≤ code → code < 0x24 →
        if windowOk v.toNat then back code (v &&& 0xFFFCFFFC) else r.write code v = none) ∧
      (if attachOk v.toNat then back 0x24 v else r.write 0x24 v = none) ∧
      (∀ n, n < 4 → back (0x30 + 4 * n) v ∧ back (0x31 + 4 * n) v ∧
        back (0x32 + 4 * n) ((v.truncate 16).signExtend 32) ∧ r.read (0x33 + 4 * n) = none ∧ r.write (0x33 + 4 * n) v = none) ∧
      (∀ code, 0x40 ≤ code → r.read code = none ∧ r.write code v = none)) ∧
  (∀ (r : ERegs) (k : Fin 8) (j : Fin 4) (u : Nat) (d : Int),
      (bits r.pa.toNat (4 * k.1) 2 = j.1) →
      ((u = 1 ∧ d = 4) ∨ (u = 2 ∧ d = -4) ∨ (u = 3 ∧ d = r.d[j].toInt) ∨ (u = 4 ∧ d = -r.d[j].toInt)) →
      let mode := bits r.pa.toNat (4 * k.1 + 2) 2
      let base := r.w[j].toNat % 2 ^ 16
      let len := r.w[j].toNat / 2 ^ 16
      let o := (r.p[k].toNat + 2 ^ 16 - base) % 2 ^ 16
      r.step k 0 = some r.p[k] ∧
      (mode = 0 ∨ (mode = 2 ∧ u < 3) → ∃ q, r.step k u = some q ∧ (q.toNat : Int) = (r.p[k].toNat + d) % 2 ^ 16) ∧
      (mode = 1 → 0 < len → base + len ≤ 2 ^ 16 →
        ∃ q, r.step k u = some q ∧ (q.toNat : Int) = base + ((o % len : Nat) + d) % len) ∧
      (mode = 1 → len = 0 → r.step k u = none) ∧ (mode = 3 → r.step k u = none)) ∧
  ((∀ a : BitVec 80, -16 ≤ accExp a.toInt ∧ accExp a.toInt ≤ 63 ∧
      (∀ k : Nat, k < (accExp a.toInt + 16).toNat → a.getLsbD (78 - k) = a.getLsbD 79) ∧
      (accExp a.toInt < 63 → a.getLsbD (78 - (accExp a.toInt + 16).toNat) ≠ a.getLsbD 79)) ∧ accExp 0 = 63 ∧
    (∀ w : Word, 0 ≤ wordExp w ∧ wordExp w ≤ 31 ∧
      (∀ k : Nat, k < (wordExp w).toNat → w.getLsbD (30 - k) = w.getLsbD 31) ∧
      (wordExp w < 31 → w.getLsbD (30 - (wordExp w).toNat) ≠ w.getLsbD 31)) ∧ wordExp 0 = 31) ∧
  (∀ (r : ERegs) (x : BitVec 4) (k : Fin 8) (n : Fin 4),
      let six (base : BitVec 4) (y : BitVec 4) (v : Int) : Prop :=
        r.condition base y = some (decide (v = 0)) ∧ r.condition (base + 1) y = some (decide (v ≠ 0)) ∧
        r.condition (base + 2) y = some (decide (v < 0)) ∧ r.condition (base + 3) y = some (decide (0 ≤ v)) ∧
        r.condition (base + 4) y = some (decide (0 < v)) ∧ r.condition (base + 5) y = some (decide (v ≤ 0))
      (x.toNat = k.1 → six 0 x r.g[k].toInt) ∧ (x.toNat = n.1 → six 6 x r.a[n].toInt) ∧
      (∀ c : BitVec 4, c.toNat < 6 → 8 ≤ x.toNat → r.condition c x = none) ∧
      (∀ c : BitVec 4, 6 ≤ c.toNat → c.toNat < 12 → 4 ≤ x.toNat → r.condition c x = none) ∧
      r.condition 0xC x = some (r.sr.getLsbD x.toNat) ∧ r.condition 0xD x = some (!r.sr.getLsbD x.toNat) ∧
      r.condition 0xE x = none ∧ r.condition 0xF x = none) ∧
  (∀ (op : BitVec 4) (aop : BitVec 2) (field : BitVec 24) (n m : Fin 4) (g d : Fin 8) (s : Bool) (c1 c2 : BitVec 7) (u : BitVec 3)
      (men : BitVec 4) (xm ym : BitVec 10) (imm : BitVec 16),
      let two (x : Fin 4) := BitVec.ofNat 2 x.1
      let three (x : Fin 8) := BitVec.ofNat 3 x.1
      controlWord op.toNat field.toNat = 0x0#4 ++ op ++ field ∧
      accWord op.toNat n m g imm.toNat = 0x1#4 ++ op ++ two n ++ two m ++ 0#1 ++ three g ++ imm ∧
      integerWord op.toNat d g s imm = 0x2#4 ++ op ++ three d ++ three g ++ BitVec.ofBool s ++ 0#1 ++ imm ∧
      immediateWord s c1 imm = 0x3#4 ++ BitVec.ofBool s ++ c1 ++ 0#4 ++ imm ∧
      moveWord c1 c2 = 0x4#4 ++ 0#1 ++ c1 ++ c2 ++ 0#13 ∧
      bankForm op.toNat c1.toNat g u s = 0x5#4 ++ op ++ 0#1 ++ c1 ++ three g ++ u ++ BitVec.ofBool s ++ 0#9 ∧
      fabricForm op.toNat n m c1.toNat g u s =
        0x6#4 ++ op ++ two n ++ two m ++ c1 ++ three g ++ u ++ BitVec.ofBool s ++ 0#6 ∧
      multiplyForm aop.toNat men n s xm ym (!s) = 1#1 ++ men ++ aop ++ two n ++ BitVec.ofBool s ++ xm ++ ym ++ BitVec.ofBool (!s) ++ 0#1)

/-- 12_loop_engine_instructions.md R389: the ten words of class 0x2, on a register or an immediate, which ADD, SUB, MIN and MAX
extend with its sign and the others with zeros. Nothing but Gd and the program counter changes.
What the manual leaves open here is the model's choice, log entry 21. -/
def Obligations.IntegerWords : Prop :=
  ∀ (s : State) (e : Fin 32) (d g : Fin 8) (imm : Bool) (v : BitVec 16) (y z : Word),
    ((imm = true ∧ y = v.signExtend 32 ∧ z = v.zeroExtend 32) ∨
      (imm = false ∧ ∃ h : v.toNat < 8, y = (s.blk.eng e.1).regs.g[v.toNat] ∧ z = y)) →
    s.mayGo e.1 (s.nextOf e.1).2 →
    let r := (s.blk.eng e.1).regs
    let x := r.g[g]
    let gives (c : Instr) (op : Nat) (w : Word) : Prop :=
      s.canIssue e.1 (integerWord op d g imm v) ([0x08 + d.1, 0x08 + g.1] ++ if imm then [] else [0x08 + v.toNat]) [] →
      Completes c s fun t => s.retires t e.1 { r with g := r.g.set d w } false
    gives (.leIntAdd e d g imm v) 0 (x + y) ∧ gives (.leIntSub e d g imm v) 1 (x - y) ∧
    gives (.leAnd e d g imm v) 2 (x &&& z) ∧ gives (.leOr e d g imm v) 3 (x ||| z) ∧ gives (.leXor e d g imm v) 4 (x ^^^ z) ∧
    gives (.leLsl e d g imm v) 5 (x <<< (z.toNat % 32)) ∧ gives (.leLsr e d g imm v) 6 (x >>> (z.toNat % 32)) ∧
    gives (.leAsr e d g imm v) 7 (x.sshiftRight (z.toNat % 32)) ∧
    gives (.leMin e d g imm v) 8 (if x.toInt ≤ y.toInt then x else y) ∧
    gives (.leMax e d g imm v) 9 (if x.toInt ≤ y.toInt then y else x)

/-- 12_loop_engine_instructions.md R390, R391: LDI writes a sign-extended immediate, LDIH one into bits [31:16] of a register of 32
bits, MOV the word another register reads; each where the register takes the value.
What the manual leaves open here is the model's choice, log entry 21. -/
def Obligations.RegisterMoves : Prop :=
  ∀ (s : State) (e : Fin 32) (c k : BitVec 7) (v : BitVec 16) (r : ERegs) (w : Word),
    s.mayGo e.1 (s.nextOf e.1).2 →
    let x := (s.blk.eng e.1).regs
    let gives (i : Instr) : Prop := Completes i s fun t => s.retires t e.1 r false
    (s.canIssue e.1 (immediateWord false c v) [c.toNat] [] → x.write c.toNat (v.signExtend 32) = some r → gives (.leLdi e c v)) ∧
    (s.canIssue e.1 (immediateWord true c v) [c.toNat] [] → narrowReg c.toNat = false → x.read c.toNat = some w →
      x.write c.toNat (v ++ w.truncate 16) = some r → gives (.leLdih e c v)) ∧
    (s.canIssue e.1 (moveWord c k) [c.toNat, k.toNat] [] → x.read k.toNat = some w → x.write c.toNat w = some r → gives (.leMov e c k))

/-- 12_loop_engine_instructions.md R387, R388: the words that add within a sum, each with the exact value it forms of the values held
before; 11_loop_engine_model.md R348 says what a value beyond 80 bits leaves.
What the manual leaves open here is the model's choice, log entry 21. -/
def Obligations.AccumulatorSums : Prop :=
  ∀ (s : State) (e : Fin 32) (n m : Fin 4) (i : Fin 8) (k : BitVec 7),
    s.mayGo e.1 (s.nextOf e.1).2 → s.blk.flag (LE_CFG_AOV_FAULT e.1) = false →
    let r := (s.blk.eng e.1).regs
    let gives (c : Instr) (w : Word) (codes : List Nat) (p : ERegs × Bool) : Prop :=
      s.canIssue e.1 w codes [] → Completes c s fun t => s.retires t e.1 p.1 p.2
    let then' (p : ERegs × Bool) (n : Fin 4) (v : Int) : ERegs × Bool := ((p.1.inSum n v).1, p.2 || (p.1.inSum n v).2)
    let sh (n : Fin 4) : Int := shiftAcc (r.acc n) (clampI (-80) 80 r.g[i].toInt)
    gives (.leAdd e n m) (accWord 2 n m 0 0) [0x30 + 4 * n.1, 0x30 + 4 * m.1] (r.inSum n (r.acc n + r.acc m)) ∧
    gives (.leSub e n m) (accWord 3 n m 0 0) [0x30 + 4 * n.1, 0x30 + 4 * m.1] (r.inSum n (r.acc n - r.acc m)) ∧
    (n ≠ m → gives (.leBfy e n m) (accWord 4 n m 0 0) [0x30 + 4 * n.1, 0x30 + 4 * m.1]
      (then' (r.inSum n (r.acc n + r.acc m)) m (r.acc n - r.acc m))) ∧
    gives (.leNeg e n) (accWord 5 n 0 0 0) [0x30 + 4 * n.1] (r.inSum n (-(r.acc n))) ∧
    gives (.leAbs e n) (accWord 6 n 0 0 0) [0x30 + 4 * n.1] (r.inSum n ((r.acc n).natAbs : Int)) ∧
    gives (.leAsh e n k) (accWord 7 n 0 0 k.toNat) [0x30 + 4 * n.1] (r.inSum n (shiftAcc (r.acc n) k.toInt)) ∧
    gives (.leAshg e n i) (accWord 8 n 0 i 0) [0x08 + i.1, 0x30 + 4 * n.1] (r.inSum n (sh n)) ∧
    gives (.leAsha e i) (accWord 9 0 0 i 0) [0x08 + i.1, 0x30, 0x34, 0x38, 0x3C]
      (then' (then' (then' (r.inSum 0 (sh 0)) 1 (sh 1)) 2 (sh 2)) 3 (sh 3)) ∧
    gives (.leAshb e n) (accWord 10 n 0 0 0) [0x2D, 0x30 + 4 * n.1] (r.inSum n (shiftAcc (r.acc n) r.bx))

/-- 12_loop_engine_instructions.md R387, R394, R396; 11_loop_engine_model.md R347, R351, R352: CLR begins a sum at 0, MOVA copies an
accumulator and its saturation flag, SCAN takes the smaller exponent, BXC restores 63, LDENT loads the entry block, NOP does nothing.
What the manual leaves open here is the model's choice, log entries 21 and 80. -/
def Obligations.AccumulatorMoves : Prop :=
  ∀ (s : State) (e : Fin 32) (n m : Fin 4),
    s.mayGo e.1 (s.nextOf e.1).2 →
    let r := (s.blk.eng e.1).regs
    let gives (c : Instr) (w : Word) (codes : List Nat) (words : List (Bool × Nat)) (q : ERegs) : Prop :=
      s.canIssue e.1 w codes words → Completes c s fun t => s.retires t e.1 q false
    gives (.leClr e n) (accWord 0 n 0 0 0) [0x30 + 4 * n.1] [] { r with a := r.a.set n 0, sat := r.sat.set n false } ∧
    gives (.leMova e n m) (accWord 1 n m 0 0) [0x30 + 4 * n.1, 0x30 + 4 * m.1] [] { r with a := r.a.set n r.a[m], sat := r.sat.set n r.sat[m] } ∧
    gives (.leScan e n) (accWord 11 n 0 0 0) [0x2D, 0x30 + 4 * n.1] [] { r with bx := min r.bx (accExp r.a[n].toInt) } ∧
    gives (.leBxc e) (controlWord 10 0) [0x2D] [] { r with bx := 63 } ∧
    (s.blk.imaged (s.pcOf e.1) = true → gives (.leNop e) (controlWord 0 0) [] [] r) ∧
    gives (.leLdent e) (controlWord 9 0) [0x08, 0x09, 0x0A, 0x0B, 0x0C, 0x0D, 0x0E, 0x0F] ((List.range 8).map fun j => (false, 0xFFE0 + 4 * j))
      { r with g := Vector.ofFn fun j : Fin 8 => Memory.readWord s.blk.mem (0x40000000 + 0x40000 * e.1 + 0x1FFE0 + 4 * j.1) }

/-- 11_loop_engine_model.md R348: a sum that leaves the 80-bit signed range takes the limit of its sign, Sn, AV and LE_STAT.AOV; while Sn
is 1 the accumulator stays at its limit; within the range the value is exact. R349, R350: a fractional store whose rounded value leaves the
range of Q1.31 writes the limit of its sign and sets SV and LE_STAT.SOV, where LE_CFG.SOV_FAULT is 0.
What the manual leaves open here is the model's choice, log entry 21. -/
def Obligations.Saturation : Prop :=
  (∀ (s : State) (e : Fin 32) (n m : Fin 4),
      s.mayGo e.1 (s.nextOf e.1).2 → s.blk.flag (LE_CFG_AOV_FAULT e.1) = false →
      s.canIssue e.1 (accWord 2 n m 0 0) [0x30 + 4 * n.1, 0x30 + 4 * m.1] [] →
      let r := (s.blk.eng e.1).regs
      let v := r.a[n].toInt + r.a[m].toInt
      Completes (.leAdd e n m) s fun t =>
        (r.sat[n] = true → s.retires t e.1 r false) ∧
        (r.sat[n] = false → -(2 ^ 79) ≤ v → v < 2 ^ 79 →
          s.retires t e.1 { r with a := r.a.set n (BitVec.ofInt 80 v) } false ∧ (t.blk.eng e.1).regs.a[n].toInt = v) ∧
        (r.sat[n] = false → 2 ^ 79 ≤ v → s.retires t e.1
          { r with a := r.a.set n 0x7FFFFFFFFFFFFFFFFFFF, sat := r.sat.set n true, av := true } true ∧
          t.blk.get (LE_STAT_AOV e.1) = 1) ∧
        (r.sat[n] = false → v < -(2 ^ 79) → s.retires t e.1
          { r with a := r.a.set n 0x80000000000000000000, sat := r.sat.set n true, av := true } true ∧
          t.blk.get (LE_STAT_AOV e.1) = 1)) ∧
  (∀ (s : State) (e : Fin 32) (n : Fin 4) (k : Fin 8) (u : BitVec 3) (q : BitVec 16),
      let r := (s.blk.eng e.1).regs
      let y := decide (4 ≤ k.1)
      let a := r.p[k].toNat
      r.step k u.toNat = some q → s.mayGo e.1 (s.nextOf e.1).2 →
      mayWrite (decide (s.pcOf e.1 < 0x4000)) (s.blk.runsCyclic e.1) y a = true →
      s.canIssue e.1 (bankForm 4 n.1 k u false) ([0x30 + 4 * n.1] ++ r.uses k) [(y, a)] →
      ¬ (-(2 ^ 63) ≤ r.acc n + 2 ^ 31 ∧ r.acc n + 2 ^ 31 < 2 ^ 63) → s.blk.flag (LE_CFG_SOV_FAULT e.1) = false →
      Completes (.leSta e n k u false) s fun t =>
        s.acts t e.1 { r with sv := true, p := r.p.set k q } (s.nextOf e.1).1 (s.nextOf e.1).2 false true ∧
        t.blk.bank e.1 y a = (if r.acc n < 0 then 0x80000000 else 0x7FFFFFFF) ∧
        ∀ x, x < bankAddr e.1 y a ∨ bankAddr e.1 y a + 4 ≤ x → Memory.read t.blk.mem x = Memory.read s.blk.mem x)

/-- 12_loop_engine_instructions.md R382 (Table 12.4), R384; 11_loop_engine_model.md R346, R347: an M-format word without moves. Each
accumulator with an enabled product takes its combination, which MPY begins as a new sum, MAC adds and MSU subtracts; the others keep
theirs.
What the manual leaves open here is the model's choice, log entry 21. -/
def Obligations.Multiplies : Prop :=
  ∀ (s : State) (e : Fin 32) (men : BitVec 4) (rt : Fin 4) (int : Bool) (xm ym : BitVec 10) (scn : Bool),
    bits xm.toNat 7 3 = 0 → bits ym.toNat 7 3 = 0 → men ≠ 0 →
    s.mayGo e.1 (s.nextOf e.1).2 →
    let r := (s.blk.eng e.1).regs
    let prod (x y : Word) : Int := x.toInt * y.toInt * if int then 1 else 2
    let on (k : Nat) : Bool := men.getLsbD k
    let mul (k : Nat) : Int := if on k then
      (match k with | 0 => prod r.x[0] r.y[0] | 1 => prod r.x[0] r.y[1] | 2 => prod r.x[1] r.y[0] | _ => prod r.x[1] r.y[1]) else 0
    let route (n : Fin 4) : Option Int := match rt, n with
      | 0, n => if on n.1 then some (mul n.1) else none
      | 1, 0 => if on 0 || on 3 then some (mul 0 - mul 3) else none
      | 1, 1 => if on 1 || on 2 then some (mul 1 + mul 2) else none
      | 2, 0 => if on 0 || on 3 then some (mul 0 + mul 3) else none
      | 2, 1 => if on 1 || on 2 then some (mul 2 - mul 1) else none
      | 3, 0 => if on 0 || on 3 then some (mul 0 + mul 3) else none
      | 3, 1 => if on 1 || on 2 then some (mul 1 + mul 2) else none
      | _, _ => none
    let fits (v : Int) : Prop := -(2 ^ 79) ≤ v ∧ v < 2 ^ 79
    let gives (c : Instr) (aop : Nat) (f : Int → Int → Int) (begins : Bool) : Prop :=
      s.canIssue e.1 (multiplyForm aop men rt int xm ym scn) [0, 1, 2, 3, 0x30, 0x34, 0x38, 0x3C] [] →
      (begins = false → ∀ n c', route n = some c' → r.sat[n] = false ∧ fits (f (r.acc n) c')) →
      Completes c s fun t => s.retires t e.1
        { r with a := (t.blk.eng e.1).regs.a, sat := (t.blk.eng e.1).regs.sat } false ∧
        ∀ n : Fin 4, (t.blk.eng e.1).regs.a[n] = (match route n with
            | some c' => BitVec.ofInt 80 (f (r.acc n) c')
            | none => r.a[n]) ∧
          (t.blk.eng e.1).regs.sat[n] = (if (route n).isSome && begins then false else r.sat[n])
    gives (.leMpy e men rt int xm ym scn) 0 (fun _ c => c) true ∧
    gives (.leMac e men rt int xm ym scn) 1 (fun a c => a + c) false ∧
    gives (.leMsu e men rt int xm ym scn) 2 (fun a c => a - c) false

/-- 12_loop_engine_instructions.md R383, R384, R386: the parallel moves of an M-format word that multiplies nothing. Loads deliver to the
operand registers, a fractional store writes the accumulator held before the word, TAP loads a word and writes it to the second address;
the pointers take their updates. The X move is stated; the Y move is none.
What the manual leaves open here is the model's choice, log entries 21 and 79. -/
def Obligations.MultiplyMoves : Prop :=
  ∀ (s : State) (e : Fin 32) (rt : Fin 4) (int : Bool) (mop : Fin 6) (sel upd : Nat) (k : Fin 4) (q : BitVec 16) (a2 : BitVec 16),
    sel < 4 → upd ≤ 4 →
    let r := (s.blk.eng e.1).regs
    let p : Fin 8 := ⟨k.1, by omega⟩
    let xm := BitVec.ofNat 10 (mop.1 * 128 + sel * 32 + k.1 * 8 + upd)
    let a := r.p[p].toNat
    let w := s.blk.bank e.1 false a
    let w2 := s.blk.bank e.1 false a2.toNat
    let reads : List (Bool × Nat) := match mop with | 1 | 5 => [(false, a)] | 2 => [(false, a), (false, a2.toNat)] | _ => []
    let writes : List (Bool × Nat) := match mop with | 3 => [(false, a)] | 5 => [(false, a2.toNat)] | _ => []
    r.step p upd = some q → r.step p 1 = some a2 →
    s.canIssue e.1 (multiplyForm 0 0 0 int xm 0 false) (mulCodes xm 0 r) (reads ++ writes) → s.mayGo e.1 (s.nextOf e.1).2 →
    (∀ x ∈ reads, mayRead x.1 x.2 = true) →
    (∀ x ∈ writes, mayWrite (decide (s.pcOf e.1 < 0x4000)) (s.blk.runsCyclic e.1) x.1 x.2 = true) →
    let next (t : State) (g : ERegs) : Prop := s.acts t e.1 { g with p := g.p.set p q } (s.nextOf e.1).1 (s.nextOf e.1).2 false false
    let c : Instr := .leMpy e 0 0 int xm 0 false
    (mop = 1 → sel < 2 → Completes c s fun t => next t { r with x := r.x.set (sel % 2) w } ∧ t.blk.mem = s.blk.mem) ∧
    (mop = 2 → sel = 0 → Completes c s fun t => next t { r with x := #v[w, w2] } ∧ t.blk.mem = s.blk.mem) ∧
    (mop = 3 → (fracStore (r.acc ⟨sel % 4, by omega⟩)).2 = false → Completes c s fun t => next t r ∧
      t.blk.mem = Memory.writeWord s.blk.mem (bankAddr e.1 false a) (fracStore (r.acc ⟨sel % 4, by omega⟩)).1) ∧
    (mop = 5 → sel < 2 → Completes c s fun t => next t { r with x := r.x.set (sel % 2) w } ∧
      t.blk.mem = Memory.writeWord s.blk.mem (bankAddr e.1 false a2.toNat) w)

/-- 12_loop_engine_instructions.md R392 (Table 12.7): the words that load from the pointer's own bank. The pointer takes its update
after the access, and with SCN each word loaded is scanned; memory stays.
What the manual leaves open here is the model's choice, log entry 21. -/
def Obligations.BankLoads : Prop :=
  ∀ (s : State) (e : Fin 32) (code : BitVec 7) (n : Fin 4) (k : Fin 8) (u : BitVec 3) (scn : Bool) (q a2 : BitVec 16),
    let r := (s.blk.eng e.1).regs
    let m : Fin 4 := n + 1
    let y := decide (4 ≤ k.1)
    let a := r.p[k].toNat
    let w := s.blk.bank e.1 y a
    let w2 := s.blk.bank e.1 y a2.toNat
    let scan (g : ERegs) (x : Word) : ERegs := if scn then { g with bx := min g.bx (wordExp x) } else g
    let upd (g : ERegs) : ERegs := { g with p := g.p.set k q }
    r.step k u.toNat = some q → s.mayGo e.1 (s.nextOf e.1).2 → mayRead y a = true →
    (∀ g, s.canIssue e.1 (bankForm 0 code.toNat k u scn) ([code.toNat] ++ r.uses k) [(y, a)] → r.write code.toNat w = some g →
      Completes (.leLd e code k u scn) s fun t => s.retires t e.1 (upd (scan g w)) false) ∧
    (s.canIssue e.1 (bankForm 2 n.1 k u scn) ([0x30 + 4 * n.1] ++ r.uses k) [(y, a)] →
      Completes (.leLda e n k u scn) s fun t => s.retires t e.1
        (upd (scan { r with a := r.a.set n (BitVec.ofInt 80 (w.toInt * 2 ^ 32)), sat := r.sat.set n false } w)) false) ∧
    (s.canIssue e.1 (bankForm 3 n.1 k u scn) ([0x30 + 4 * n.1, 0x34 + 4 * n.1] ++ r.uses k) [(y, a), (y, a2.toNat)] →
      r.step k 1 = some a2 → mayRead y a2.toNat = true → n.1 % 2 = 0 →
      Completes (.leLdap e n k u scn) s fun t => s.retires t e.1
        (upd (scan (scan { r with
          a := (r.a.set n (BitVec.ofInt 80 (w.toInt * 2 ^ 32))).set m (BitVec.ofInt 80 (w2.toInt * 2 ^ 32)),
          sat := (r.sat.set n false).set m false } w) w2)) false) ∧
    (s.canIssue e.1 (bankForm 6 n.1 k u scn) ([0x30 + 4 * n.1] ++ r.uses k) [(y, a), (y, a2.toNat)] → r.step k 1 = some a2 →
      mayRead y a2.toNat = true →
      Completes (.leLd64 e n k u scn) s fun t => s.retires t e.1
        (upd (scan (scan { r with a := r.a.set n ((w2 ++ w).signExtend 80), sat := r.sat.set n false } w) w2)) false)

/-- 12_loop_engine_instructions.md R392, 11_loop_engine_model.md R349: the words that store to the pointer's own bank, where no store
saturates. Every byte outside the words stored reads as before, and no register but the pointer (and BX with SCN) changes.
What the manual leaves open here is the model's choice, log entry 21. -/
def Obligations.BankStores : Prop :=
  ∀ (s : State) (e : Fin 32) (code : BitVec 7) (n : Fin 4) (k : Fin 8) (u : BitVec 3) (scn : Bool) (q a2 : BitVec 16),
    let r := (s.blk.eng e.1).regs
    let y := decide (4 ≤ k.1)
    let a := r.p[k].toNat
    let at1 := bankAddr e.1 y a
    let at2 := bankAddr e.1 y a2.toNat
    let scan (g : ERegs) (x : Word) : ERegs := if scn then { g with bx := min g.bx (wordExp x) } else g
    let upd (g : ERegs) : ERegs := { g with p := g.p.set k q }
    let ok (x : Nat) : Prop := mayWrite (decide (s.pcOf e.1 < 0x4000)) (s.blk.runsCyclic e.1) y x = true
    let frac (v : Int) : Word := BitVec.ofInt 32 ((v + 2 ^ 31) / 2 ^ 32)
    let inFrac (v : Int) : Prop := -(2 ^ 63) ≤ v + 2 ^ 31 ∧ v + 2 ^ 31 < 2 ^ 63
    let done (t : State) (g : ERegs) : Prop := s.acts t e.1 (upd g) (s.nextOf e.1).1 (s.nextOf e.1).2 false false
    let one (t : State) (w : Word) : Prop := t.blk.bank e.1 y a = w ∧
      ∀ x, x < at1 ∨ at1 + 4 ≤ x → Memory.read t.blk.mem x = Memory.read s.blk.mem x
    let two (t : State) (w w2 : Word) : Prop := t.blk.bank e.1 y a2.toNat = w2 ∧
      (a % 4 = 0 → a2.toNat % 4 = 0 → a ≠ a2.toNat → t.blk.bank e.1 y a = w) ∧
      ∀ x, (x < at1 ∨ at1 + 4 ≤ x) → (x < at2 ∨ at2 + 4 ≤ x) → Memory.read t.blk.mem x = Memory.read s.blk.mem x
    r.step k u.toNat = some q → s.mayGo e.1 (s.nextOf e.1).2 → ok a →
    (∀ w, s.canIssue e.1 (bankForm 1 code.toNat k u scn) ([code.toNat] ++ r.uses k) [(y, a)] → r.read code.toNat = some w →
      Completes (.leSt e code k u scn) s fun t => done t (scan r w) ∧ one t w) ∧
    (s.canIssue e.1 (bankForm 4 n.1 k u scn) ([0x30 + 4 * n.1] ++ r.uses k) [(y, a)] → inFrac (r.acc n) →
      Completes (.leSta e n k u scn) s fun t => done t (scan r (frac (r.acc n))) ∧ one t (frac (r.acc n))) ∧
    (r.step k 1 = some a2 → ok a2.toNat →
      (s.canIssue e.1 (bankForm 5 n.1 k u scn) ([0x30 + 4 * n.1, 0x34 + 4 * n.1] ++ r.uses k) [(y, a), (y, a2.toNat)] → n.1 % 2 = 0 →
        inFrac (r.acc n) → inFrac (r.acc (n + 1)) →
        Completes (.leStap e n k u scn) s fun t =>
          done t (scan (scan r (frac (r.acc n))) (frac (r.acc (n + 1)))) ∧ two t (frac (r.acc n)) (frac (r.acc (n + 1)))) ∧
      (s.canIssue e.1 (bankForm 7 n.1 k u scn) ([0x30 + 4 * n.1] ++ r.uses k) [(y, a), (y, a2.toNat)] →
        -(2 ^ 63) ≤ r.acc n → r.acc n < 2 ^ 63 →
        Completes (.leSt64 e n k u scn) s fun t =>
          done t (scan (scan r (r.a[n].truncate 32)) ((r.a[n] >>> 32).truncate 32)) ∧
            two t (r.a[n].truncate 32) ((r.a[n] >>> 32).truncate 32)))

/-- 12_loop_engine_instructions.md R393 (Table 12.8), 11_loop_engine_model.md R358: an aligned fabric access that the policy allows, with
fewer than four of its kind outstanding, queues its load or store, moves FAi by FUPD, and the word retires.
What the manual leaves open here is the model's choice, log entries 21 and 22. -/
def Obligations.FabricIssue : Prop :=
  ∀ (s : State) (e : Fin 32) (code : BitVec 7) (n i fu : Fin 4) (k : Fin 8) (u : BitVec 3) (q : BitVec 16),
    let y := s.blk.eng e.1
    let r := y.regs
    let fa := r.fa[i].toNat
    let bk := decide (4 ≤ k.1)
    let a := r.p[k].toNat
    let free (form : Word) (len : Nat) (wr : Bool) (codes : List Nat) (ws : List (Bool × Nat)) : Prop :=
      fa % len = 0 ∧ s.blk.allowed (e.1 + 2) fa len wr (s.blk.runsCyclic e.1) = true ∧
        (if wr then y.stores.length < 4 else y.loads.length < 4) ∧ s.canIssue e.1 form ((0x28 + i.1) :: codes) ws
    let bump (g : ERegs) : ERegs :=
      { g with fa := g.fa.set i (r.fa[i] + (match fu with | 0 => 0 | 1 => 4 | 2 => 8 | 3 => 32)) }
    let loads (c : Instr) (g : ERegs) (l : Load) : Prop := Completes c s fun t =>
      (s.onBlk fun b => b.modEng e.1 fun z => { z with loads := z.loads ++ [l] }).retires t e.1 (bump g) false
    let stores (c : Instr) (g : ERegs) (ws : List Word) : Prop := Completes c s fun t =>
      (s.onBlk fun b => b.modEng e.1 fun z => { z with
        stores := z.stores ++ [⟨fa, ws, ((y.run.map (·.inst.desc)).getD 0), ((y.run.map (·.inst.seq)).getD 0),
          ((y.run.map (·.inst.round)).getD 0)⟩] }).retires t e.1 (bump g) false
    s.mayGo e.1 (s.nextOf e.1).2 →
    (free (fabricForm 0 i fu code.toNat 0 0 false) 4 false [code.toNat] [] → (r.read code.toNat).isSome →
      loads (.leLdf e code i fu false) r ⟨fa, 4, .reg code.toNat, false, false⟩) ∧
    (free (fabricForm 2 i fu n.1 0 0 false) 8 false [0x30 + 4 * n.1] [] → loads (.leLdf64 e n i fu false) r ⟨fa, 8, .acc n, false, false⟩) ∧
    (free (fabricForm 4 i fu 0 k u false) 32 false (r.uses k)
        ((List.range 8).map fun j => (bk, (a + 4 * j) % 2 ^ 16)) → a % 32 = 0 →
      (∀ j, j < 8 → mayWrite (decide (s.pcOf e.1 < 0x4000)) (s.blk.runsCyclic e.1) bk ((a + 4 * j) % 2 ^ 16) = true) →
      r.step k u.toNat = some q →
      loads (.leFldb e k u i fu false) { r with p := r.p.set k q } ⟨fa, 32, .bank bk a false, false, false⟩) ∧
    (∀ w, free (fabricForm 1 i fu code.toNat 0 0 false) 4 true [code.toNat] [] → r.read code.toNat = some w →
      stores (.leStf e code i fu false) r [w]) ∧
    (free (fabricForm 3 i fu n.1 0 0 false) 8 true [0x30 + 4 * n.1] [] → -(2 ^ 63) ≤ r.acc n → r.acc n < 2 ^ 63 →
      stores (.leStf64 e n i fu false) r [r.a[n].truncate 32, (r.a[n] >>> 32).truncate 32]) ∧
    (free (fabricForm 5 i fu 0 k u false) 32 true (r.uses k)
        ((List.range 8).map fun j => (bk, (a + 4 * j) % 2 ^ 16)) → a % 32 = 0 →
      (∀ j, j < 8 → mayRead bk ((a + 4 * j) % 2 ^ 16) = true) → r.step k u.toNat = some q →
      stores (.leFstb e k u i fu false) { r with p := r.p.set k q }
        ((List.range 8).map fun j => s.blk.bank e.1 bk ((a + 4 * j) % 2 ^ 16)))

/-- 11_loop_engine_model.md R358: the oldest fabric load of a running task delivers the word of shared axis or capture memory at its
address to its register; the oldest store writes its words there. Nothing else changes. Without an outstanding access nothing happens.
R343: a word that cannot be corrected is an error response. 02_trust.md R58: a load whose task was abandoned completes, and nothing takes
its data. What the manual leaves open here is the model's choice, log entries 81 and 109. -/
def Obligations.FabricReturn : Prop :=
  ∀ (s : State) (e : Fin 32) (l : Load) (t' : List Load) (st : Store) (u' : List Store) (c : Nat) (w : Word) (g : ERegs),
    let b := s.blk
    let y := b.eng e.1
    let memory (lo hi : Nat) : Prop :=
      (0x20000000 ≤ lo ∧ hi ≤ 0x20800000 ∧ b.domainOn 7 = true) ∨ (0x30000000 ≤ lo ∧ hi ≤ 0x32000000 ∧ b.domainOn 10 = true)
    let engine (t : State) (z : Engine) : Prop := t.blk.eng e.1 = z ∧ ∀ k, k ≠ e.1 → t.blk.eng k = b.eng k
    (y.dropped = [] → y.loads = l :: t' → l.len = 4 → memory l.addr (l.addr + 4) →
      (l.held = false → l.dest = .reg c → l.scan = false → y.run.any (·.stage = .ended) = false → b.eccAt l.addr ≤ 1 →
        Memory.readWord b.mem l.addr = w → y.regs.write c w = some g → Completes (.fabricLoadReturn e false) s fun t =>
          t = { s with blk := { b with engines := t.blk.engines } } ∧ engine t { y with loads := t', regs := g }) ∧
      (1 < b.eccAt l.addr → Completes (.fabricLoadReturn e false) s fun t => exec (.fabricLoadReturn e true) s = .next t)) ∧
    (y.dropped = l :: t' → l.len = 4 → memory l.addr (l.addr + 4) → ∀ error, Completes (.fabricLoadReturn e error) s fun t =>
      t = { s with blk := { b with engines := t.blk.engines } } ∧ engine t { y with dropped := t' }) ∧
    (y.dropped = [] → y.loads = [] → exec (.fabricLoadReturn e false) s = .next s) ∧
    (y.stores = [] → exec (.fabricStoreComplete e false) s = .next s) ∧
    (y.stores = st :: u' → memory st.addr (st.addr + 4 * st.words.length) →
      ((b.desc st.desc).kind ≠ 4 ∨
        y.run.any (fun r => r.inst.desc = st.desc && r.inst.seq = st.seq && r.inst.round = st.round) = true) →
      Completes (.fabricStoreComplete e false) s fun t =>
        t = { s with blk := { b with mem := t.blk.mem, ecc := t.blk.ecc, engines := t.blk.engines } } ∧ engine t { y with stores := u' } ∧
        (∀ j (h : j < st.words.length), Memory.readWord t.blk.mem (st.addr + 4 * j) = st.words[j]) ∧
        (∀ j < st.words.length, t.blk.eccAt (st.addr + 4 * j) = 0) ∧
        ∀ x, x < st.addr ∨ st.addr + 4 * st.words.length ≤ x → Memory.read t.blk.mem x = Memory.read b.mem x)

/-- 12_loop_engine_instructions.md R394 (Tables 12.9, 12.10); 11_loop_engine_model.md R359 to R362: branches, calls, returns and repeats
away from the end of a repeat body.
What the manual leaves open here is the model's choice, log entry 21. -/
def Obligations.Branches : Prop :=
  ∀ (s : State) (e : Fin 32) (t : BitVec 16) (cond x : BitVec 4) (len : BitVec 8) (count : BitVec 16) (i : Fin 8),
    let r := (s.blk.eng e.1).regs
    let pc := s.pcOf e.1
    let start := (pc + 4) % 2 ^ 16
    let goes (c : Instr) (w : Word) (g : ERegs) (q : Nat) : Prop :=
      s.canIssue e.1 w [] [] → s.mayGo e.1 q → Completes c s fun u => s.branches u e.1 g q
    let repeats (c : Instr) (w : Word) (n : Nat) : Prop :=
      (n = 0 → goes c w r ((start + 4 * (len.toNat + 1)) % 2 ^ 16)) ∧
      (0 < n → r.reps.length < 4 →
        goes c w { r with reps := ⟨n, start, (start + 4 * len.toNat) % 2 ^ 16⟩ :: r.reps } start)
    (∀ z rest, r.reps = z :: rest → goes (.leBrk e) (controlWord 7 0) { r with reps := rest } ((z.fin + 4) % 2 ^ 16)) ∧
    (r.atEnd = false →
    (t.toNat % 4 = 0 → goes (.leB e t) (controlWord 1 t.toNat) r t.toNat) ∧
    (t.toNat % 4 = 0 → r.rets.length < 8 →
      goes (.callInstruction e t) (controlWord 3 t.toNat) { r with rets := BitVec.ofNat 16 (pc + 4) :: r.rets } t.toNat) ∧
    (∀ q rest, r.rets = q :: rest → (s.blk.eng e.1).run.any (·.stage = .code) = true →
      goes (.leRet e) (controlWord 4 0) { r with rets := rest } q.toNat) ∧
    repeats (.leRepi e len count) (controlWord 5 (len.toNat * 2 ^ 16 + count.toNat)) count.toNat ∧
    (s.canIssue e.1 (controlWord 6 (len.toNat * 2 ^ 16 + i.1)) [0x08 + i.1] [] →
      repeats (.leRepg e len i) (controlWord 6 (len.toNat * 2 ^ 16 + i.1)) (r.g[i].toNat % 2 ^ 16)) ∧
    (t.toNat % 4 = 0 → s.canIssue e.1 (controlWord 2 (cond.toNat * 2 ^ 20 + x.toNat * 2 ^ 16 + t.toNat)) (if cond.toNat < 6 then [0x08 + x.toNat]
        else if cond.toNat < 12 then [0x30 + 4 * x.toNat] else []) [] →
      ∀ holds, r.condition cond x = some holds →
        (holds = true → s.mayGo e.1 t.toNat → Completes (.leBc e cond x t) s fun u => s.branches u e.1 r t.toNat) ∧
        (holds = false → s.mayGo e.1 (s.nextOf e.1).2 → Completes (.leBc e cond x t) s fun u => s.retires u e.1 r false)))

/-- 11_loop_engine_model.md R359, R360: where the word after one that does not branch is fetched. At the last word of a repeat body whose
count is above 1 the count falls by one and the body starts again; at a count of 1 the entry is popped and the next outer one decides at
the same word; elsewhere the next word follows.
What the manual leaves open here is the model's choice, log entries 21 and 79. -/
def Obligations.Repeats : Prop :=
  ∀ (s : State) (e : Fin 32),
    let r := (s.blk.eng e.1).regs
    let pc := s.pcOf e.1
    let nop (reps : List Repeat) (q : Nat) : Prop := s.mayGo e.1 q → Completes (.leNop e) s fun t => s.acts t e.1 r reps q false false
    s.canIssue e.1 (controlWord 0 0) [] [] → s.blk.imaged pc = true →
    ((∀ x, r.reps.head? = some x → x.fin ≠ pc) → nop r.reps ((pc + 4) % 2 ^ 16)) ∧
    (∀ x t, r.reps = x :: t → x.fin = pc → 1 < x.count → nop ({ x with count := x.count - 1 } :: t) x.start) ∧
    (∀ x t, r.reps = x :: t → x.fin = pc → x.count ≤ 1 → (∀ z, t.head? = some z → z.fin ≠ pc) → nop t ((pc + 4) % 2 ^ 16)) ∧
    (∀ x z t, r.reps = x :: z :: t → x.fin = pc → x.count ≤ 1 → z.fin = pc → 1 < z.count →
      nop ({ z with count := z.count - 1 } :: t) z.start)

/-- 12_loop_engine_instructions.md R379; 11_loop_engine_model.md R372, R373, R343: a reserved word raises engine fault 0x01, a
word of program memory that cannot be corrected fault 0x06 (an error of one bit is corrected, counted and shown); 0x01 too a
register operand of 16 or more general registers, a jump target that is no word address, and a return from an empty stack with its own code:
LE_STAT, LE_FLT_INFO and LE_FLT_CNT show it, source 80 + e asserts, and the task is abandoned. Stated where nothing waits for the engine.
What the manual leaves open here is the model's choice, log entries 21 and 109. -/
def Obligations.InvalidWords : Prop :=
  ∀ (s : State) (e : Fin 32) (r : Run) (t : BitVec 16) (d g : Fin 8) (v : BitVec 16),
    let y := s.blk.eng e.1
    let n := r.inst.desc
    let x := s.blk.desc n
    let faults (c : Instr) (code : Nat) : Prop := Completes c s fun u =>
      u.nv = s.nv ∧ u.pending = s.pending ∧ u.blk.mem = s.blk.mem ∧ (∀ k, k ≠ e.1 → u.blk.eng k = s.blk.eng k) ∧
      (u.blk.eng e.1).run = none ∧ (u.blk.eng e.1).regs = Reset.eregs ∧
      u.blk.flag (LE_STAT_FAULT e.1) = true ∧ u.blk.get (LE_STAT_FCODE e.1) = code ∧
      u.blk.get (LE_FLT_INFO_PC e.1) = s.pcOf e.1 ∧ u.blk.get (LE_FLT_INFO_DESC e.1) = n % 2 ^ 10 ∧
      u.blk.get (LE_FLT_CNT e.1) = satInc 32 (s.blk.get (LE_FLT_CNT e.1)) ∧ s.asserted u (80 + e.1) ∧
      s.regsBut u fun a => engineReg e.1 a ∨ a = aLE_FLT_INFO e.1 ∨ a = aLE_FLT_CNT e.1 ∨ irqReg (80 + e.1) a ∨
        a = aSCP_QUEUE ∨ a = aSCP_LOST ∨ irqReg 177 a
    y.run = some r → r.stage = .code → y.cq = [] → y.bq = [] → y.held = none → x.deleting = false → x.deferred = none →
    (x.kind = 2 ∨ x.kind = 3 ∨ (x.kind = 4 ∧ x.flowOf = 0)) →
    ((∀ w, s.canIssue e.1 w [] [] → (spelled w = false ∨ (w = 0 ∧ s.blk.imaged (s.pcOf e.1) = false)) → faults (.reservedInstruction e) 1) ∧
      (s.canIssue e.1 (controlWord 0 0) [] [] → s.blk.imaged (s.pcOf e.1) = false → faults (.leNop e) 1) ∧
      (s.canIssue e.1 (controlWord 1 t.toNat) [] [] → t.toNat % 4 ≠ 0 → faults (.leB e t) 1) ∧
      (s.canIssue e.1 (controlWord 4 0) [] [] → y.regs.rets = [] → y.regs.atEnd = false → faults (.leRet e) 3) ∧
      (s.canIssue e.1 (controlWord 3 t.toNat) [] [] → y.regs.rets.length = 8 → t.toNat % 4 = 0 → y.regs.atEnd = false → faults (.callInstruction e t) 3) ∧
      (s.canIssue e.1 (controlWord 7 0) [] [] → y.regs.reps = [] → faults (.leBrk e) 1) ∧
      (s.canIssue e.1 (controlWord 5 v.toNat) [] [] → y.regs.reps.length = 4 → y.regs.atEnd = false → v ≠ 0 → faults (.leRepi e 0 v) 2) ∧
      (s.canIssue e.1 (controlWord 5 v.toNat) [] [] → y.regs.atEnd = true → faults (.leRepi e 0 v) 1)) ∧
    (s.blk.comesTo e.1 (controlWord 0 0) = true → s.blk.imaged (s.pcOf e.1) = true → (∀ l ∈ y.loads, l.blocks [] [] = false) →
      let word := engBase e.1 + s.pcOf e.1
      (1 < s.blk.eccAt word → faults (.leNop e) 6) ∧
      (s.blk.eccAt word = 1 → s.mayGo e.1 (s.nextOf e.1).2 → Completes (.leNop e) s fun u =>
        (u.blk.eng e.1).regs = { y.regs with reps := (s.nextOf e.1).1, pc := BitVec.ofNat 16 (s.nextOf e.1).2 } ∧
        u.blk.mem = s.blk.mem ∧ u.blk.get (LE_ECC_CNT e.1) = min (s.blk.get (LE_ECC_CNT e.1) + 1) (2 ^ 32 - 1) ∧
        u.blk.flag (LE_STAT_ECC_CORR e.1) = true ∧ (s.blk.flag (LE_STAT_ECC_CORR e.1) = false → s.asserted u (80 + e.1)))) ∧
    (8 ≤ v.toNat → s.canIssue e.1 (integerWord 0 d g false v) [0x08 + d.1, 0x08 + g.1, 0x08 + v.toNat] [] → faults (.leIntAdd e d g false v) 1)

/-- 13_capture.md R407, R410 and Table 13.4 (arm, disarm, FORCE), R409, R411 and R413 (a trigger is latched), R415 and R416 (multi-unit arm
and fire by wire), R421 and R422 (readout; a word that met an uncorrectable error reads as it was
fetched and sets ECC_ERR).
What the manual leaves open here is the model's choice, log entry 82. -/
def Obligations.Captures : Prop :=
  ∀ (s : State) (m : Fin 39) (g : Fin 8) (low : Bool) (ch : Fin 64) (red : Fin 16) (hdr : Bool) (c t0 : Nat) (w : Word)
    (bad : Bool) (rest : List (Word × Bool)) (r : Readout),
    let b := s.blk
    let x := b.cg g
    let st (k : Nat) := b.get (CAP_G_STAT_STATE k)
    let armed (k : Nat) := bit (b.get CAP_STAT_ARMED) k = true
    let asks (op : Nat) := s.writes m (aCAP_G_CTL g) (BitVec.ofNat 32 op)
    let frame (t : State) (p : Nat → Prop) : Prop :=
      t = { s with blk := { b with regs := t.blk.regs, mem := t.blk.mem, ecc := t.blk.ecc, cap := t.blk.cap, partner := t.blk.partner } } ∧
        s.regsBut t p ∧
      ∀ a < 0x30000000, Memory.read t.blk.mem a = Memory.read b.mem a
    let group (t : State) (y : CapGroup) (p : Nat → Prop) : Prop :=
      frame t p ∧ t.blk.mem = b.mem ∧ t.blk.ecc = b.ecc ∧ t.blk.cap = { b.cap with groups := t.blk.cap.groups } ∧ t.blk.cg g = y ∧
      ∀ k, k ≠ g.1 → t.blk.cg k = b.cg k
    -- a CAPTURE frame goes to the partner; a deck without a partner has none to tell
    let told (t : State) (op k tt : Nat) : Prop :=
      t.blk.partner = if b.dealt.any (·.mirror.isSome) then { b.partner with tx := b.partner.tx ++ [⟨4, captureWords op k tt⟩] } else b.partner
    let page (a : Nat) : Prop := 0x140000 ≤ a ∧ a < 0x150000
    let refused (t : State) (k : Nat) : Prop :=
      t.blk.get (CAP_G_STAT_ARM_REASON k) = 7 ∧ t.blk.flag CAP_STAT_ARM_ERR = true ∧ s.asserted t (112 + k)
    let mu (k : Nat) := b.get (CAP_G_CFG_MU k)
    let master (k : Nat) := b.flag (CAP_G_CFG_MU_MASTER k) = true
    -- group k latches a trigger at time tt (2^-32 ns)
    let latched (t : State) (k : Nat) (tt : Int) : Prop :=
      (t.blk.cg k).trig = some (wrapN 96 tt) ∧ t.blk.get (CAP_G_TTIME k) = wrapN 96 tt / 2 ^ 32 ∧
      t.blk.get (CAP_G_TTIME_F k) = wrapN 96 tt % 2 ^ 32 ∧ t.blk.pendingIrq (112 + k) = true ∧
      (∀ n ∈ b.capMembers k, (t.blk.cc n).trig.isSome = true) ∧
      ((b.cg k).streams = false → (∃ n ∈ b.capMembers k, ∃ v, (t.blk.cc n).trig = some v ∧ (t.blk.cc n).written ≤ v + (t.blk.cc n).goal) →
        t.blk.get (CAP_G_STAT_STATE k) = 2 ∧ bit (t.blk.get CAP_STAT_ARMED) k = true)
    let disarmed (t : State) (k : Nat) : Prop :=
      t.blk.cg k = { b.cg k with pend := false, fireAt := none, streams := false } ∧
      (armed k ∨ (b.cg k).streams = true → t.blk.get (CAP_G_STAT_STATE k) = 6 ∧ bit (t.blk.get CAP_STAT_ARMED) k = false)
    let kept (t : State) (k : Nat) : Prop := t.blk.cg k = b.cg k ∧ t.blk.get (CAP_G_STAT_STATE k) = st k
    let follows (k : Nat) : Prop := ¬ master k ∧ bit (mu k) 0 = true
    -- R407, R420
    (asks 1 →
      (armed g → Completes (.arm m g) s fun t =>
        s.keepsBut t (fun a => a = aCAP_G_STAT g ∨ a = aCAP_STAT ∨ irqReg (112 + g) a) ∧ refused t g) ∧
      (¬ armed g → Completes (.arm m g) s fun t => group t { x with pend := true } (fun _ => False) ∧ t.blk.partner = b.partner)) ∧
    (asks 2 → Completes (.disarm m g) s fun t =>
      group t { x with pend := false, fireAt := none, streams := false } (fun a => a = aCAP_G_STAT g ∨ a = aCAP_STAT) ∧ disarmed t g ∧
      (((armed g ∨ x.streams = true) ∧ master g ∧ bit (mu g) 1 = true) → told t 2 g 0) ∧
      (¬ ((armed g ∨ x.streams = true) ∧ master g ∧ bit (mu g) 1 = true) → t.blk.partner = b.partner)) ∧
    -- R411, R413, R416
    (asks 4 →
      (st g ≠ 1 → Completes (.force m g) s (· = s)) ∧
      (st g = 1 → Completes (.force m g) s fun t =>
        frame t (fun a => page a ∨ irqReg (112 + g) a ∨ irqReg (120 + g) a) ∧ latched t g b.time ∧ t.blk.get (CAP_G_TANG g) = b.angle ∧
        (∀ k, k ≠ g.1 → t.blk.cg k = b.cg k) ∧
        (bit (mu g) 0 = true → (t.blk.cg g).fireAt = some (b.up + 8 * b.get CAP_FIRE_DLY)) ∧
        (bit (mu g) 1 = true → told t 3 g (wrapN 96 b.time)) ∧ (bit (mu g) 1 = false → t.blk.partner = b.partner) ∧
        (b.capMembers g = [c] → b.lastT ≤ b.time → (b.time : Int) < b.lastT + b.roundT →
          let d := b.capDec c
          let n := (b.capNow g + (if (b.time : Int) = b.lastT then 0 else 1) - (b.cc c).start + 2 ^ d - 1) / 2 ^ d
          (t.blk.cc c).trig = some n ∧ t.blk.get (CAP_C_TRIDX c) = n % b.capLen c % 2 ^ 32))) ∧
    -- R415
    (Completes (.trigArmEdge low) s fun t =>
      frame t (fun a => page a ∨ ∃ k < 8, irqReg (112 + k) a) ∧ t.blk.mem = b.mem ∧ t.blk.partner = b.partner ∧ t.blk.cap.armLow = low ∧
      ∀ k < 8,
        (¬ follows k ∨ b.frozen 35 = true → kept t k) ∧
        (follows k → b.frozen 35 = false →
          (low = true → ¬ armed k → t.blk.cg k = { b.cg k with pend := true }) ∧
          (low = true → armed k → refused t k ∧ t.blk.cg k = b.cg k) ∧
          (low = false → st k = 2 ∨ st k = 3 → kept t k) ∧
          (low = false → st k ≠ 2 → st k ≠ 3 → disarmed t k))) ∧
    -- R416
    (Completes (.trigFireEdge low) s fun t =>
      frame t (fun a => page a ∨ ∃ k < 8, irqReg (112 + k) a ∨ irqReg (120 + k) a) ∧ t.blk.partner = b.partner ∧ t.blk.cap.fireLow = low ∧
      ∀ k < 8,
        (low = true → bit (mu k) 0 = true → st k = 1 →
          latched t k ((b.time : Int) - ((8 * b.get CAP_FIRE_DLY + b.get CAP_FIRE_WIRE) * 2 ^ 32 : Nat))) ∧
        (low = false ∨ bit (mu k) 0 = false ∨ st k ≠ 1 → kept t k)) ∧
    (x.fireAt = none ∨ (x.fireAt = some t0 ∧ b.up < t0) → Completes (.firePulse g) s (· = s)) ∧
    (x.fireAt = some t0 → t0 ≤ b.up → Completes (.firePulse g) s fun t =>
      let idle := (b.drivesArm = true ∨ b.cap.armLow = true) ∧ b.cap.fireLow = false ∧ b.cap.fireUntil ≤ b.up
      t = { s with blk := { b with cap := { b.cap with
        groups := t.blk.cap.groups, fireUntil := t.blk.cap.fireUntil } } } ∧
      t.blk.cg g = { x with fireAt := none } ∧ (∀ k, k ≠ g.1 → t.blk.cg k = b.cg k) ∧
      (idle → t.blk.cap.fireUntil = b.up + 1000) ∧ (¬ idle → t.blk.cap.fireUntil = b.cap.fireUntil)) ∧
    -- R421, R422
    (s.writes m aCAP_RD_CTL (BitVec.ofNat 32 (ch.1 + red.1 * 2 ^ 8 + b2n hdr * 2 ^ 12 + 2 ^ 16)) →
      let str := b.flag (CAP_G_CFG_MODE (b.get (CAP_C_CFG_GROUP ch)))
      let first := if str then (b.cc ch).freed else (b.capReadable ch).1 + b.get CAP_RD_FIRST
      let has := if str then 0 < b.capFill ch else b.get CAP_RD_FIRST < (b.capReadable ch).2
      let ws := b.capRecordWords ch first red hdr
      let ended (t : State) (err : Bool) : Prop :=
        s.becomes t { b with cap.rd := none } (· = aCAP_RD_STAT) ∧ t.blk.get CAP_RD_STAT_READY = 0 ∧
        t.blk.flag CAP_RD_STAT_BUSY = false ∧ t.blk.flag CAP_RD_STAT_DONE = true ∧ t.blk.flag CAP_RD_STAT_ERR = err
      (b.get CAP_RD_COUNT = 0 → Completes (.readoutStart m ch red hdr) s fun t => ended t false) ∧
      (b.get CAP_RD_COUNT ≠ 0 → ¬ has ∨ ws = [] → Completes (.readoutStart m ch red hdr) s fun t => ended t true) ∧
      (b.get CAP_RD_COUNT ≠ 0 → has → ws ≠ [] → Completes (.readoutStart m ch red hdr) s fun t =>
        s.becomes t { b with cap.rd := some ⟨ch, red, hdr, b.get CAP_RD_FIRST + 1, b.get CAP_RD_COUNT - 1, ws⟩ } (· = aCAP_RD_STAT) ∧
        t.blk.get CAP_RD_STAT_READY = ws.length ∧ t.blk.flag CAP_RD_STAT_BUSY = true ∧ t.blk.flag CAP_RD_STAT_DONE = false ∧
        t.blk.flag CAP_RD_STAT_ERR = false)) ∧
    (s.reads m aCAP_RD_DATA →
      (b.cap.rd = none ∨ (b.cap.rd = some r ∧ r.words = []) → Completes (.capRdData m) s fun t =>
        s.answered t m 0 (b.on CAP_RD_STAT_ERR)) ∧
      (b.cap.rd = some r → r.words = (w, false) :: rest → rest ≠ [] → rest.length < 2 ^ 16 → Completes (.capRdData m) s fun t =>
        s.answered t m w (({ b with cap.rd := some { r with words := rest } }.set CAP_RD_STAT_READY rest.length).on CAP_RD_STAT_BUSY)) ∧
      (b.cap.rd = some r → r.words = (w, true) :: rest → Completes (.capRdData m) s fun t =>
        t.blk.flag CAP_STAT_ECC_ERR = true ∧ t.blk.readData[m] = w) ∧
      (b.cap.rd = some r → r.words = [(w, false)] → r.left = 0 → b.flag (CAP_G_CFG_MODE (b.get (CAP_C_CFG_GROUP r.chan))) = false →
        Completes (.capRdData m) s fun t =>
          s.answered t m w ((({ b with cap.rd := none }.on CAP_RD_STAT_DONE).set CAP_RD_STAT_READY 0).off CAP_RD_STAT_BUSY)) ∧
      (b.cap.rd = some r → r.words = [(w, bad)] → b.flag (CAP_G_CFG_MODE (b.get (CAP_C_CFG_GROUP r.chan))) = true →
        Completes (.capRdData m) s fun t => (t.blk.cc r.chan).freed = (b.cc r.chan).freed + 1 ∧ t.blk.readData[m] = w))

/-- 14_partners.md R436 and Table 14.3 (step 4, the roles it gives), R434 (frames discarded), R456 (a new dummy), R440 (a pair that is not
yet ready is degraded). What the manual leaves open here is the model's choice, log entries 83, 103 and 121. -/
def Obligations.PartnerElection : Prop :=
  ∀ (s : State) (poison : Bool) (bytes : List Byte) (r : PairRec) (y : Nat),
    let f : Frame := ⟨poison, bytes⟩
    let b := s.blk
    let p := b.partner
    let h := helloOf (b.frameWords f)
    let higher := b.flag PTN_STAT_P = true
    let same := (b.dealt.map (·.digest)).getD 0 = h.hash
    let declarer := h.role = 1
    let rings : List Nat := [0, 2, 4, 6].filter b.segRing
    let regs (a : Nat) : Prop :=
      a ∈ [aPTN_STAT, aPTN_FLAGS, aPTN_EPOCH, aPTN_PEER, aPTN_PEER + 4, aDEV_BOOT, aDEV_ROUND, aDEV_ROUND + 4, aPLT_STAT, aFLD_DOUT_ST,
        aFLD_STAT] ∨ eventReg a ∨ ∃ n ∈ [1, 6, 7, 159], irqReg n a
    -- a unit that becomes dummy, and one that becomes declarer with a new dummy
    let asDummy (q : Partner) : Partner := { q with
      xferDone := false, stepTime := true, metB := 0, missA := 0, missB := 0, digests := 0, wasReady := false, outA := none, outB := none
      yieldAt := none, tx := q.tx ++ [⟨6, bulkRequest⟩] }
    let dummy (t : State) : Prop := t.blk.flag PTN_STAT_XFER = true ∧ t.blk.flag PLT_STAT_PARTNER = true ∧ t.blk.round = f.ptnRound % 2 ^ 48
    let asDeclarer (q : Partner) : Partner := { q with metB := 0, missB := 0, outB := none, bulkDue := true }
    let waits (t : State) : Prop :=
      t.blk.flag PTN_STAT_XFER = true ∧ t.blk.flag PTN_STAT_READY = false ∧ t.blk.flag PTN_STAT_DEGRADED = true
    -- step 4 ends with a role and an epoch; step 5 begins where step 2 has ended and the unit is not held
    let decided (t : State) (q : Partner) (role epoch : Nat) (paired : Bool) : Prop :=
      let n := if role = 0 ∧ t.blk.flag PTN_STAT_P = true then 36 else 4
      t = { s with blk := { b with
        regs := t.blk.regs, segs := t.blk.segs, scp := t.blk.scp, partner := { q with electing := none }, boot.step4 := true } } ∧
      s.regsBut t regs ∧ (∀ k < 8, t.blk.sg k = { b.sg k with listen := n }) ∧ t.blk.get PTN_STAT_ROLE = role ∧
      t.blk.get PTN_EPOCH = epoch ∧ t.blk.flag PTN_STAT_PAIRED = paired ∧ s.asserted t 6 ∧ (role ≠ 3 → t.blk.scp = b.scp) ∧
      (b.get DEV_BOOT_PHASE = 3 → t.blk.get DEV_BOOT_PHASE = if b.boot.step2 ∧ role ≠ 3 then 4 else 3)
    let idle := b.boot.step2 = false ∨ ∀ d, b.dealt = some d → ∀ k < 8, ∀ x, d.segRec k = some x → bit x.flags 1 = false
    -- a frame accepted, and a unit that starts answered
    let accepted := f.ptnOk b.partnerKey = true ∧ f.ptnType = 5 ∧ ∀ x, p.rxFrame = some x → x.1 ≠ f.ptnRound ∨ x.2 < f.ptnSeq
    let got : Partner := { p with rxFrame := some (f.ptnRound, f.ptnSeq), rxPart := p.partAfter f.ptnRound f.ptnSeq }
    let heard : Partner := { got with hello := some h }
    let answers : Partner := if h.role = 0 then { heard with tx := p.tx ++ [⟨5, b.ownHello.toWords⟩] } else heard
    let becomes (t : State) (q : Partner) : Prop := t = { s with blk := { b with regs := t.blk.regs, partner := q } } ∧ s.regsBut t regs
    -- the step starts
    (b.boot.step3 = false ∨ b.boot.step4 = true ∨ p.electing.isSome = true ∨ b.boot.dealing = true ∨ b.get DEV_BOOT_PHASE = 14 →
      Completes .election s (· = s)) ∧
    (b.boot.step3 = true → b.boot.step4 = false → p.electing = none → b.boot.dealing = false → b.get DEV_BOOT_PHASE ≠ 14 →
      (b.pair = none → idle → Completes .election s fun t => decided t p 0 1 false ∧ t.blk.flag PTN_STAT_P = false) ∧
      (b.pair = some r → Completes .election s fun t =>
        let up := r.higher = s.nv.otp.serial.toNat
        becomes t { p with electing := some b.up, hello := none, helloAt := some b.up, rxFrame := none } ∧ t.blk.get DEV_BOOT_PHASE = 3 ∧
        (t.blk.flag PTN_STAT_P = true ↔ up) ∧ t.blk.get PTN_PEER = (if up then r.lower else r.higher) % 2 ^ 64)) ∧
    (p.electing = some y → y + 4000000 ≤ b.up → p.hello = none → idle → Completes .helloTimeout s fun t => decided t p 0 1 false) ∧
    (p.electing = none ∨ (p.electing = some y ∧ b.up < y + 4000000) ∨ p.hello.isSome = true → Completes .helloTimeout s (· = s)) ∧
    -- the partner's HELLO
    (b.pair = none → Completes (.hello poison bytes) s (· = s)) ∧
    (b.pair.isSome = true → ¬ accepted → Completes (.hello poison bytes) s fun t =>
      s.keepsBut t (· = aPTN_LINK_ERR) ∧ t.blk.get PTN_LINK_ERR = satInc 32 (b.get PTN_LINK_ERR)) ∧
    (b.pair.isSome = true → accepted →
      (h.serial ≠ b.get PTN_PEER → Completes (.hello poison bytes) s fun t =>
        t = s.onBlk ({ · with partner := got })) ∧
      (h.serial = b.get PTN_PEER →
        (p.electing.isSome = true → idle →
          (¬ same → higher ∨ (h.role ≠ 0 ∧ h.role ≠ 3) → Completes (.hello poison bytes) s fun t =>
            decided t heard 3 (b.get PTN_EPOCH) false ∧ t.blk.flag PTN_FLAGS_DECK_DIFF = true ∧ s.logged t 0x40 1 3 (b.get PTN_EPOCH)) ∧
          (¬ same → ¬ higher → h.role = 0 ∨ h.role = 3 → Completes (.hello poison bytes) s fun t => decided t heard 0 1 false) ∧
          (same → declarer → Completes (.hello poison bytes) s fun t => decided t (asDummy heard) 2 (h.epoch % 2 ^ 32) true ∧ dummy t) ∧
          (same → ¬ declarer → higher → Completes (.hello poison bytes) s fun t => decided t (asDummy heard) 2 1 true ∧ dummy t) ∧
          (same → ¬ declarer → ¬ higher → Completes (.hello poison bytes) s fun t => decided t (asDeclarer heard) 1 1 true ∧ waits t)) ∧
        (p.electing = none → b.boot.step4 = false → Completes (.hello poison bytes) s fun t => t = s.onBlk ({ · with partner := heard })) ∧
        (p.electing = none → b.boot.step4 = true → b.get PTN_STAT_ROLE ≠ 0 →
          Completes (.hello poison bytes) s fun t => t = s.onBlk ({ · with partner := answers })) ∧
        (p.electing = none → b.boot.step4 = true → b.get PTN_STAT_ROLE = 0 →
          let own := b.get PTN_EPOCH
          let wins := laterThan 32 own h.epoch = true ∨ (own = h.epoch ∧ ¬ higher)
          (¬ same → Completes (.hello poison bytes) s fun t =>
            becomes t answers ∧ t.blk.flag PTN_FLAGS_DECK_DIFF = true ∧ t.blk.get PTN_STAT_ROLE = 0) ∧
          (same → ¬ declarer ∨ wins → Completes (.hello poison bytes) s fun t =>
            becomes t (asDeclarer answers) ∧ t.blk.get PTN_STAT_ROLE = 1 ∧ t.blk.flag PTN_STAT_PAIRED = true ∧ t.blk.get PTN_EPOCH = own ∧
            s.asserted t 6 ∧ waits t) ∧
          (same → declarer → ¬ wins → (∀ g ∈ rings, b.get (SEG_STAT_STATE g) ≠ 6) → Completes (.hello poison bytes) s fun t =>
            (s.onBlk ({ · with scp := t.blk.scp, partner := asDummy heard })).keepsBut t regs ∧ t.blk.get PTN_STAT_ROLE = 2 ∧
            t.blk.flag PTN_STAT_PAIRED = true ∧ t.blk.get PTN_EPOCH = h.epoch % 2 ^ 32 ∧ t.blk.flag PTN_FLAGS_DEPOSED = true ∧
            s.asserted t 6 ∧ dummy t ∧ t.blk.scp = ((b.set DEV_ROUND f.ptnRound).event 0x40 1 2 (h.epoch % 2 ^ 32)).scp))))

/-- 14_partners.md R434 (a frame is taken or discarded), R435 (the order in which frames leave), R437 and R438 (heartbeats), R440 (a pair
degrades), R442 and R446 (mirror items), R447 (sessions), R456 (the transfer); 02_trust.md R55 (mirrored words are checked);
13_capture.md R415 and R416 (capture frames).
What the manual leaves open here is the model's choice, log entries 27, 83, 84, 85, 121 and 124. -/
def Obligations.PartnerFrames : Prop :=
  ∀ (s : State) (poison : Bool) (header payload trailer : List Byte) (delay : Nat) (pre post : List TxFrame) (x : TxFrame) (part : List Word) (g : Fin 8) (n : Fin 64) (i q : Nat)
    (u : Int) (k : BitVec 128) (serial : Nat) (words : List Word) (w : Word) (r : WordsRec) (rd ep an bl ct : Nat) (om : Int) (dg : Nat),
    let f : Frame := ⟨poison, header ++ payload ++ trailer⟩
    let b := s.blk
    let p := b.partner
    let role := b.get PTN_STAT_ROLE
    let paired := b.flag PTN_STAT_PAIRED = true
    let frozen := b.frozen 38 = true
    let accepted (type : Nat) := f.ptnOk b.partnerKey = true ∧ f.ptnType = type ∧ b.roundsSince f.ptnRound ≤ 1 ∧
      ∀ x, p.rxFrame = some x → x.1 ≠ f.ptnRound ∨ x.2 < f.ptnSeq
    let heard : Partner := { p with rxFrame := some (f.ptnRound, f.ptnSeq), rxPart := p.partAfter f.ptnRound f.ptnSeq }
    let takes (type : Nat) := role = 2 ∧ ¬ frozen ∧ accepted type
    -- the payload of the frame
    let ws := b.frameWords f
    let h := heartbeatOf ws
    let stream := cutItems (mirLen b.regionWords) (part ++ ws).length (part ++ ws)
    let items := stream.1.filterMap mirItemOf
    let mirrored : Partner := { heard with rxPart := some stream.2 }
    let sessions := (cutItems itemLen ws.length ws).1.filterMap sessItemOf
    let bulk := (cutItems itemLen ws.length (ws.drop 1)).1.filterMap bulkItemOf
    let first := bit (wordAt ws 0) 0 = true
    let last := bit (wordAt ws 0) 1 = true
    let asks := bit (wordAt ws 0) 2 = true
    let cg := bits (wordAt ws 0) 0 3
    let op := bits (wordAt ws 0) 8 2
    let t0 : Nat := pairAt ws 1 * 2 ^ 32 + wordAt ws 3
    let dropped (c : Instr) : Prop := Completes c s fun t =>
      s.keepsBut t (· = aPTN_LINK_ERR) ∧ t.blk.get PTN_LINK_ERR = satInc 32 (b.get PTN_LINK_ERR)
    let ignored (c : Instr) : Prop := Completes c s (· = s)
    let inTime := f.ptnRound = b.round ∧ b.up ≤ b.roundAt + 4000 ∧ ∀ x, p.outB = some x → x.1 ≠ b.round
    let met (q : Partner) : Partner := { q with outB := some (b.round, true), metB := p.metB + 1, missB := 0 }
    let judged (q : Partner) (P : Partner → Prop) : Prop := (inTime → P (met q)) ∧ (¬ inTime → P q)
    let status (t : State) : Prop := t.blk.flag PTN_STAT_PATH_B = true ∨ (¬ inTime ∧ t.blk.flag PTN_STAT_PATH_B = b.flag PTN_STAT_PATH_B)
    let o : Int := (h.departs : Int) + delay - b.time
    -- R438
    (¬ paired → ignored (.heartbeat poison f.bytes delay)) ∧
    (paired → ¬ accepted 1 → dropped (.heartbeat poison f.bytes delay)) ∧
    (paired → accepted 1 →
      (role = 1 → Completes (.heartbeat poison f.bytes delay) s fun t =>
        judged { heard with seedAll := p.seedAll || (b.flag PTN_STAT_READY && !h.ready) } (fun q =>
          (s.onBlk ({ · with partner := q })).keepsBut t fun a => a = aPTN_STAT ∨ irqReg 7 a) ∧
        status t ∧ t.blk.flag PTN_STAT_READY = h.ready ∧
        t.blk.flag PTN_STAT_DEGRADED = (if inTime then !h.ready else b.flag PTN_STAT_DEGRADED) ∧
        (b.flag PTN_STAT_READY ≠ h.ready → t.blk.pendingIrq 7 = true)) ∧
      (role = 2 → Completes (.heartbeat poison f.bytes delay) s fun t =>
        let away := (h.round16 + 2 ^ 16 - b.round % 2 ^ 16) % 2 ^ 16
        judged { heard with yieldAt := if h.yield then some (b.roundIn away) else none, stepTime := false } (fun q =>
          t = { s with blk := { b with regs := t.blk.regs, plant := t.blk.plant, time := t.blk.time, descs := t.blk.descs, partner := q } }) ∧
        t.blk.descs = (if p.stepTime then (b.stepTime o).descs else b.descs) ∧
        s.regsBut t (fun a => a ∈ [aPTN_STAT, aPTN_EPOCH, aPTN_BACKLOG] ∨ (0x30400 ≤ a ∧ a < 0x30800) ∨ irqReg 160 a ∨ irqReg 161 a ∨
          (p.stepTime = true ∧ ((0x31000 ≤ a ∧ a < 0x31100) ∨ irqReg 167 a ∨ irqReg 173 a))) ∧
        status t ∧ t.blk.get PTN_BACKLOG = h.backlog % 2 ^ 16 ∧
        t.blk.get PTN_EPOCH = (if laterThan 32 h.epoch (b.get PTN_EPOCH) then h.epoch % 2 ^ 32 else b.get PTN_EPOCH) ∧
        (p.stepTime = true → t.blk.time = wrapN 96 (h.departs + delay : Nat) ∧
          (b.get PLT_STAT_STATE ≤ 1 → t.blk.get PLT_STAT_STATE = 2)) ∧
        (p.stepTime = false → t.blk.time = b.time ∧ (b.flag PLT_MODE = false → t.blk.geti PLT_OFS = satI 32 (sar o 32)))) ∧
      (role ≠ 1 → role ≠ 2 → Completes (.heartbeat poison f.bytes delay) s fun t =>
        judged heard (fun q => (s.onBlk ({ · with partner := q })).keepsBut t (· = aPTN_STAT)) ∧ status t)) ∧
    -- R442 to R445
    (role ≠ 2 ∨ frozen → ignored (.mirror poison f.bytes) ∧ ignored (.session poison f.bytes)) ∧
    (role = 2 → ¬ frozen → (¬ accepted 2 → dropped (.mirror poison f.bytes)) ∧ (¬ accepted 3 → dropped (.session poison f.bytes)) ∧ (¬ accepted 6 → dropped (.bulk poison header payload trailer))) ∧
    (takes 2 → heard.rxPart = none → Completes (.mirror poison f.bytes) s fun t => t = s.onBlk ({ · with partner := heard })) ∧
    (takes 2 → heard.rxPart = some part →
      (p.xferDone = false → Completes (.mirror poison f.bytes) s fun t =>
        t = s.onBlk ({ · with partner := { mirrored with held := p.held ++ items.map (f.ptnRound, ·) } })) ∧
      (p.xferDone = true →
        (items = [.rc i q u] → b.rcMirrored i = true → Completes (.mirror poison f.bytes) s fun t =>
          t = { s with blk := { b with axes := t.blk.axes, partner := mirrored } } ∧ (∀ j, j ≠ i → t.blk.ax j = b.ax j) ∧
          t.blk.ax i = { b.ax i with rc := (t.blk.ax i).rc } ∧
          ∀ j, sget (fun _ => 0) (t.blk.ax i).rc j = if j = q then u else sget (fun _ => 0) (b.ax i).rc j) ∧
        (items = [.rc i q u] → b.rcMirrored i = false → Completes (.mirror poison f.bytes) s fun t => t = s.onBlk ({ · with partner := mirrored })) ∧
        (items = [.words q words] → ((b.dealt.bind (·.mirror)).map (·.words)).bind (·[q]?) = some r → words.length ≤ r.words →
          r.addr + 4 * words.length ≤ 2 ^ 32 → (∀ j < words.length, b.passes 38 (r.addr + 4 * j) true = true) →
          Completes (.mirror poison f.bytes) s fun t =>
            t = { s with blk := { b with mem := t.blk.mem, ecc := t.blk.ecc, partner := mirrored } } ∧
            (∀ j < words.length, Memory.readWord t.blk.mem (r.addr + 4 * j) = words.getD j 0) ∧
            ∀ a, ¬ (r.addr ≤ a ∧ a < r.addr + 4 * words.length) → Memory.read t.blk.mem a = Memory.read b.mem a) ∧
        (items = [.words q [w]] → ((b.dealt.bind (·.mirror)).map (·.words)).bind (·[q]?) = some r → 1 ≤ r.words →
          b.passes 38 r.addr true = false → Completes (.mirror poison f.bytes) s fun t =>
            t.blk.mem = b.mem ∧ t.blk.partner = mirrored ∧ t.blk.frozen 38 = true ∧ t.blk.get TRU_VIOL_MASTER_MASTER = 38 ∧
            t.blk.flag TRU_VIOL_MASTER_WRITE = true ∧ t.blk.get TRU_VIOL_ADDR = r.addr % 2 ^ 32) ∧
        (items = [.header rd ep an om dg ct bl] → Completes (.mirror poison f.bytes) s fun t =>
          t.nv = s.nv ∧ t.blk.mem = b.mem ∧ t.blk.segs = b.segs ∧ t.blk.engines = b.engines ∧ t.blk.cap = b.cap ∧
          t.blk.safety = b.safety ∧ (∀ x, p.digest = some x →
            (x = b.digest → t.blk.partner.digests = p.digests + 1) ∧
            (x ≠ b.digest → t.blk.partner.digests = 0 ∧ t.blk.flag PTN_FLAGS_CRC_MISMATCH = true ∧ t.blk.flag PTN_STAT_READY = false)) ∧
          t.blk.partner.digest = some dg ∧ t.blk.partner.mirAngle = an ∧ t.blk.get PTN_BACKLOG = bl % 2 ^ 16 ∧
          t.blk.get PTN_EPOCH = (if laterThan 32 ep (b.get PTN_EPOCH) then ep % 2 ^ 32 else b.get PTN_EPOCH) ∧
          (bl ≠ 0 → t.blk.flag PTN_FLAGS_BACKLOG = true ∧ t.blk.flag PTN_STAT_READY = false)))) ∧
    -- R447
    (takes 3 →
      (sessions = [.lead g k] → Completes (.session poison f.bytes) s fun t =>
        (s.onBlk ({ · with partner := heard })).inSegment t g
          { b.sg g with kl := k, hasKl := true, walkerP := 1 - b.get PTN_STAT_P } fun _ => False) ∧
      (sessions = [.node g n serial k] → Completes (.session poison f.bytes) s fun t =>
        (s.onBlk ({ · with partner := heard })).atNode t g n (b.sg g) { b.sn g n with session := true, ks := k, hasKs := true }
          (fun a => a = aSEG_NID_LO g n ∨ a = aSEG_NID_HI g n ∨ a = aSEG_NSTAT g n ∨ a = aSEG_STAT g) ∧
        t.blk.nodeSerial g n = serial % 2 ^ 64 ∧ t.blk.get (SEG_NSTAT_STATE g n) = 3) ∧
      (sessions = [.ended g n] → Completes (.session poison f.bytes) s fun t =>
        (s.onBlk ({ · with partner := heard })).atNode t g n (b.sg g) { b.sn g n with session := false }
          (fun a => a = aSEG_NSTAT g n ∨ a = aSEG_STAT g) ∧ t.blk.get (SEG_NSTAT_STATE g n) = 1)) ∧
    -- R456
    ((role ≠ 1 ∧ role ≠ 2) ∨ (role = 2 ∧ frozen) → ignored (.bulk poison header payload trailer)) ∧
    (role = 1 →
      (¬ accepted 6 → dropped (.bulk poison header payload trailer)) ∧
      (accepted 6 → ¬ asks → Completes (.bulk poison header payload trailer) s fun t => t = s.onBlk ({ · with partner := heard })) ∧
      (accepted 6 → asks → Completes (.bulk poison header payload trailer) s fun t =>
        (s.onBlk ({ · with partner := { heard with metB := 0, missB := 0, outB := none, bulkDue := true } })).keepsBut t
          (fun a => a = aPTN_STAT ∨ irqReg 7 a) ∧
        t.blk.flag PTN_STAT_XFER = true ∧ t.blk.flag PTN_STAT_READY = false ∧ t.blk.flag PTN_STAT_DEGRADED = true)) ∧
    (takes 6 → p.xferDone = true ∨ asks → Completes (.bulk poison header payload trailer) s fun t => t = s.onBlk ({ · with partner := heard })) ∧
    (takes 6 → p.xferDone = false → ¬ asks → bulk = [] →
      (first → ¬ last → Completes (.bulk poison header payload trailer) s fun t =>
        t = { s with blk := { b with
          regs := t.blk.regs, axes := t.blk.axes, descs := b.descs.filter (·.1 < 256)
          partner := { heard with held := p.held.filter fun x => laterThan 16 (x.1 % 2 ^ 16) (bits (wordAt ws 0) 16 16) }
          ang := { b.ang with absList := [], cycList := [], dueAbs := [], dueCyc := [] } } } ∧
        s.regsBut t (fun a => mirroredReg a = true ∨ a = aANG_EVT_COUNT ∨ a = aDIS_STAT) ∧ t.blk.get ANG_EVT_COUNT = 0 ∧
        (∀ a ∈ b.mirrored, a ≠ aANG_EVT_COUNT → a ≠ aDIS_STAT →
          t.blk.rd a = BitVec.ofNat 32 (mergeWord a (commitFields a) (b.rd a).toNat (resetReg a).toNat)) ∧
        (∀ j, b.axisExists j = true → t.blk.ax j = if b.rcMirrored j then { b.ax j with rc := [] } else b.ax j)) ∧
      (¬ first → last → p.held = [] → Completes (.bulk poison header payload trailer) s fun t =>
        (s.onBlk ({ · with partner := { heard with xferDone := true } })).keepsBut t (· = aPTN_STAT) ∧
        t.blk.flag PTN_STAT_XFER = false)) ∧
    -- R435, in a nanosecond in which no angle trigger is armed and no HELLO is due
    ((∀ j < 8, b.get (CAP_G_CFG_TKIND j) ≠ 2) → p.helloAt = none →
      ((b.up + 1) * 10 < p.lineFree → Completes .extrapolatorStep s fun t => t.blk.partner = p) ∧
      (p.lineFree ≤ (b.up + 1) * 10 → p.tx = pre ++ x :: post → x.type ≠ 1 → (∀ y ∈ pre, txRank x.type < txRank y.type) →
        (∀ y ∈ post, txRank x.type ≤ txRank y.type) → Completes .extrapolatorStep s fun t =>
          let seq := if p.txRound = b.round then p.txSeq else 0
          t.blk.partner = { p with
            tx := pre ++ post, txRound := b.round, txSeq := seq + 1, lineFree := (b.up + 1) * 10 + 32 * (32 + 4 * x.words.length)
            line := some (b.up + 1, sealPartner b.partnerKey (b.get PTN_STAT_P) b.round seq x) })) ∧
    -- R415, R416
    (¬ paired ∨ frozen → ignored (.captureFrame poison header payload trailer)) ∧
    (paired → ¬ frozen → ¬ accepted 4 → dropped (.captureFrame poison header payload trailer)) ∧
    (paired → ¬ frozen → accepted 4 →
      let st := b.get (CAP_G_STAT_STATE cg)
      let master := b.flag (CAP_G_CFG_MU_MASTER cg) = true
      let only (c : Instr) : Prop := Completes c s fun t => t = s.onBlk ({ · with partner := heard })
      let armed := bit (b.get CAP_STAT_ARMED) cg = true
      (bit (b.get (CAP_G_CFG_MU cg)) 1 = false → only (.captureFrame poison header payload trailer)) ∧
      (bit (b.get (CAP_G_CFG_MU cg)) 1 = true →
        (master ∨ b.frozen 35 = true → (op = 1 ∨ op = 2 → only (.captureFrame poison header payload trailer))) ∧
        (¬ master → b.frozen 35 = false →
          (op = 1 → ¬ armed → Completes (.captureFrame poison header payload trailer) s fun t =>
            t = { s with blk := { b with partner := heard, cap := { b.cap with groups := t.blk.cap.groups } } } ∧
            t.blk.cg cg = { b.cg cg with pend := true } ∧ ∀ j, j ≠ cg → t.blk.cg j = b.cg j) ∧
          (op = 1 → armed → Completes (.captureFrame poison header payload trailer) s fun t =>
            t.blk.get (CAP_G_STAT_ARM_REASON cg) = 7 ∧ t.blk.flag CAP_STAT_ARM_ERR = true ∧ s.asserted t (112 + cg)) ∧
          (op = 2 → st = 2 ∨ st = 3 → only (.captureFrame poison header payload trailer)) ∧
          (op = 2 → st ≠ 2 → st ≠ 3 → armed → Completes (.captureFrame poison header payload trailer) s fun t =>
            t.blk.get (CAP_G_STAT_STATE cg) = 6 ∧ bit (t.blk.get CAP_STAT_ARMED) cg = false ∧
            t.blk.cg cg = { b.cg cg with pend := false, fireAt := none, streams := false })) ∧
        (op = 0 → only (.captureFrame poison header payload trailer)) ∧
        (op = 3 → st ≠ 1 → only (.captureFrame poison header payload trailer)) ∧
        (op = 3 → st = 1 → Completes (.captureFrame poison header payload trailer) s fun t =>
          (t.blk.cg cg).trig = some (t0 % 2 ^ 96) ∧ t.blk.get (CAP_G_TTIME cg) = (t0 % 2 ^ 96) / 2 ^ 32 ∧
          t.blk.get (CAP_G_TTIME_F cg) = (t0 % 2 ^ 96) % 2 ^ 32 ∧ t.blk.pendingIrq (112 + cg) = true ∧ t.blk.partner = heard)))

/-- 14_partners.md R438 and R439 (paths A and B, what a dummy keeps of a lead block), R440 (a lost dummy), R451 and R452 (a dummy takes
over), R454 (a later epoch), R429 (the stamp of a lead block), R455 (a planned handover), R456 (RESYNC); 06_thrumlos_start_and_schedules.md R189 (Listen) and
R201 (the return time of a ring).
What the manual leaves open here is the model's choice, log entries 87 and 139. -/
def Obligations.SwitchOver : Prop :=
  ∀ (s : State) (ring : Fin 4) (far : Bool) (x : Frame) (ofs : Nat) (blocks : List Frame) (y : Nat × Bool),
    let b := s.blk
    let p := b.partner
    let role := b.get PTN_STAT_ROLE
    let own := b.get PTN_EPOCH
    let rings : List Nat := [0, 2, 4, 6].filter b.segRing
    let axis (i : Nat) : Prop := ∃ r ∈ b.axisList, r.axis = i ∧ r.kind ≠ 3 ∧ r.segment ∈ rings
    let only (c : Instr) (q : Partner) (regs : Nat → Prop) (P : Block → Prop) : Prop := Completes c s fun t =>
      (s.onBlk ({ · with partner := q })).keepsBut t regs ∧ P t.blk
    let ignored (c : Instr) : Prop := Completes c s (· = s)
    let recorded (t : State) (role epoch : Nat) : Prop :=
      ∃ b' : Block, b'.scp = b.scp ∧ t.blk.scp = (b'.event 0x40 1 role epoch).scp
    -- the dummy becomes declarer (Table 14.6)
    let taken (t : State) (q : Partner) : Prop :=
      let on (i : Nat) : Prop := bit (b.ax i).sent.ctrl 0 = true ∧ (b.ax i).sent.mode ≠ 0 ∧ (b.ax i).sent.mode ≠ 5
      t = { s with blk := { b with
        regs := t.blk.regs, segs := t.blk.segs, axes := t.blk.axes, descs := t.blk.descs, scp := t.blk.scp, plant := t.blk.plant
        partner := { q with yieldAt := none, missA := 0, missB := 0, seedAll := false, queue := [] } } } ∧
      t.blk.get PTN_STAT_ROLE = 1 ∧ t.blk.get PTN_EPOCH = (own + 1) % 2 ^ 32 ∧ t.blk.flag PTN_FLAGS_TAKEOVER = true ∧
      t.blk.flag PTN_STAT_READY = false ∧ t.blk.flag PTN_STAT_DEGRADED = true ∧ t.blk.flag PTN_STAT_XFER = false ∧
      t.blk.flag PLT_STAT_PARTNER = false ∧ t.blk.get PTN_SW_RND = b.roundIn 1 % 2 ^ 32 ∧
      t.blk.get PTN_SW_CNT = satInc 32 (b.get PTN_SW_CNT) ∧ s.asserted t 6 ∧ recorded t 1 ((own + 1) % 2 ^ 32) ∧
      (∀ g ∈ rings, b.get (SEG_STAT_STATE g) = 7 → t.blk.get (SEG_STAT_STATE g) = 6 ∧ s.asserted t (16 + 4 * g) ∧
        t.blk.flag ⟨aDIS_STAT, 8 + g, 1⟩ = true ∧ t.blk.flag (SEG_STAT_CLOSING g) = false ∧ t.blk.get (SEG_KITTY_GRANTED g) = 0 ∧
        t.blk.flag ⟨aPTN_STAT, 16 + g / 2, 1⟩ = decide ((b.sg g).walkerP ≠ b.get PTN_STAT_P) ∧
        t.blk.sg g = { b.sg g with fresh := true, k := 0, closeAt := none, kitty := [], grant := none, claims := [], heal := 0 }) ∧
      (∀ g, g ∉ rings ∨ b.get (SEG_STAT_STATE g) ≠ 7 → t.blk.sg g = b.sg g) ∧
      (∀ i, ¬ axis i → t.blk.ax i = b.ax i) ∧
      (∀ i, axis i → (t.blk.ax i).record = (b.ax i).sent ∧
        (b.rcMirrored i = true → (t.blk.ax i).rc = (b.ax i).rc) ∧
        (b.rcMirrored i = false → (t.blk.ax i).rc = [] ∧ (t.blk.ax i).rcCleared = true) ∧
        (on i → (t.blk.ax i).en = .on ∧ (t.blk.ax i).nmode = (b.ax i).sent.mode ∧ (t.blk.ax i).preset = some (b.ax i).sent.trq) ∧
        (¬ on i → (t.blk.ax i).preset = none ∧ (t.blk.ax i).nmode = (b.ax i).nmode ∧
          (t.blk.ax i).en = if (b.ax i).sent.mode = 5 then .stopping else .off)) ∧
      ∀ d, (d ∈ b.used → (b.desc d).cyclic = true → t.blk.desc d = { b.desc d with cold := true }) ∧
        (d ∉ b.used ∨ (b.desc d).cyclic = false → t.blk.desc d = b.desc d)
    let asked := if b.dealt.any (·.mirror.isSome) then p.tx ++ [⟨6, bulkRequest⟩] else p.tx
    let missedA (q : Partner) : Partner := { q with outA := some (b.round, false), missA := p.missA + 1 }
    let missedB (q : Partner) : Partner := { q with outB := some (b.round, false), missB := p.missB + 1, metB := 0 }
    let silentA := 2 ≤ p.missA + 1 ∧ 2 ≤ p.missB
    let silentB := 2 ≤ p.missA ∧ 2 ≤ p.missB + 1
    let countedA (t : Block) : Prop := t.flag PTN_STAT_PATH_A = false ∧ t.get PTN_MISS_A = satInc 32 (b.get PTN_MISS_A)
    let countedB (t : Block) : Prop := t.flag PTN_STAT_PATH_B = false ∧ t.get PTN_MISS_B = satInc 32 (b.get PTN_MISS_B)
    let paired := b.flag PTN_STAT_PAIRED = true
    let lost (a : Nat) : Prop := a ∈ [aPTN_STAT, aPTN_MISS_A, aPTN_MISS_B, aPTN_FLAGS] ∨ irqReg 7 a
    -- R438, R440, R451
    (¬ paired ∨ (p.outB = some y ∧ y.1 = b.round) ∨ b.up < b.roundAt + 4000 → ignored .pathBMiss) ∧
    (paired → b.roundAt + 4000 ≤ b.up → (∀ z, p.outB = some z → z.1 ≠ b.round) →
      (role = 1 → only .pathBMiss (missedB p) lost fun t => countedB t ∧
        (p.missB = 0 → t.flag PTN_STAT_DEGRADED = b.flag PTN_STAT_DEGRADED ∧ t.rd aPTN_FLAGS = b.rd aPTN_FLAGS) ∧
        (1 ≤ p.missB → t.flag PTN_STAT_DEGRADED = true ∧ t.flag PTN_FLAGS_HB_LOST = true ∧
          (b.flag PTN_FLAGS_HB_LOST = false → t.pendingIrq 7 = true))) ∧
      (role ≠ 1 → role ≠ 2 ∨ ¬ silentB → only .pathBMiss (missedB p) (fun a => a = aPTN_STAT ∨ a = aPTN_MISS_B) countedB) ∧
      (role = 2 → silentB → p.wasReady = false → only .pathBMiss (missedB p) lost fun t => countedB t ∧
        t.flag PTN_FLAGS_HB_LOST = true ∧ t.get PTN_STAT_ROLE = 2) ∧
      (role = 2 → silentB → p.wasReady = true → Completes .pathBMiss s fun t => taken t (missedB p) ∧ countedB t.blk)) ∧
    (role ≠ 2 ∨ (p.outA = some y ∧ y.1 = b.round) ∨ b.up < b.roundAt + 8000 → ignored .pathAMiss) ∧
    (role = 2 → b.roundAt + 8000 ≤ b.up → (∀ z, p.outA = some z → z.1 ≠ b.round) →
      (¬ silentA → only .pathAMiss (missedA p) (fun a => a = aPTN_STAT ∨ a = aPTN_MISS_A) countedA) ∧
      (silentA → p.wasReady = false → only .pathAMiss (missedA p) lost fun t => countedA t ∧
        t.flag PTN_FLAGS_HB_LOST = true ∧ t.get PTN_STAT_ROLE = 2) ∧
      (silentA → p.wasReady = true → Completes .pathAMiss s fun t => taken t (missedA p) ∧ countedA t.blk)) ∧
    -- R455
    (role = 1 → b.flag PTN_STAT_READY = true → Completes .handover s fun t =>
      t = s.onBlk ({ · with partner.yieldAt := some (p.yieldAt.getD (b.roundIn 4)) })) ∧
    (role ≠ 1 ∨ b.flag PTN_STAT_READY = false → only .handover p (· = aPTN_FLAGS) fun t => t.flag PTN_FLAGS_HO_REF = true) ∧
    (p.yieldAt ≠ some (b.roundIn 1) ∨ b.atBoundary = false → ignored .handoverBoundary) ∧
    (p.yieldAt = some (b.roundIn 1) → b.atBoundary = true →
      (role = 2 → Completes .handoverBoundary s fun t => taken t p) ∧
      (role = 1 → Completes .handoverBoundary s fun t =>
        t.blk.get PTN_STAT_ROLE = 2 ∧ t.blk.flag PTN_STAT_READY = false ∧ t.blk.flag PTN_STAT_XFER = true ∧
        t.blk.flag PLT_STAT_PARTNER = true ∧ t.blk.get PTN_SW_CNT = satInc 32 (b.get PTN_SW_CNT) ∧ s.asserted t 6 ∧
        t.blk.get PTN_SW_RND = b.roundIn 1 % 2 ^ 32 ∧ recorded t 2 own ∧ t.blk.get PTN_EPOCH = own ∧ t.blk.round = b.round ∧
        t.blk.partner = { p with
          xferDone := false, stepTime := true, metB := 0, missA := 0, missB := 0, digests := 0, wasReady := false, outA := none
          outB := none, yieldAt := none, queue := [], tx := asked } ∧
        ∀ g ∈ rings, b.get (SEG_STAT_STATE g) = 6 → t.blk.get (SEG_STAT_STATE g) = 7 ∧
          t.blk.flag ⟨aDIS_STAT, 8 + g, 1⟩ = false)) ∧
    -- R456
    (role ≠ 2 → ignored .ptnResync) ∧
    (role = 2 → only .ptnResync { p with xferDone := false, held := [], digests := 0, tx := asked } (fun a => a = aPTN_STAT ∨ irqReg 7 a) fun t =>
      t.flag PTN_STAT_XFER = true ∧ t.flag PTN_STAT_READY = false) ∧
    -- R189, R201, R439, R454
    (let port := 2 * ring.1 + b2n far
     let g := if b.segRing (2 * ring.1) then 2 * ring.1 else port
     let st := b.get (SEG_STAT_STATE g)
     let c : Instr := .leadBlockReceived ring far ofs x blocks
     let tagged := b.leadOk g x = true
     -- R429: the stamp a dummy takes at its port 2k
     let stamps := if far then p.stamps else sput (fun _ => 0) p.stamps ring.1 ofs
     let recs := blocks.flatMap (b.blockRecords g (x.pay 6 1 % 8))
     (x.leadForm = false ∨ b.segUsed g = false → ignored c) ∧
     (x.leadForm = true → b.segUsed g = true →
       (st = 1 → role = 2 → Completes c s fun t => t.blk.get (SEG_STAT_STATE g) = 7 ∧ s.asserted t (16 + 4 * g) ∧
         s.inSegment t g { b.sg g with fresh := true, k := 0 } fun a => a = aSEG_STAT g ∨ irqReg (16 + 4 * g) a) ∧
       (st = 1 → role ≠ 2 → Completes c s fun t => t.blk.flag (SEG_FLAGS_FOREIGN g) = true ∧ s.asserted t (16 + 4 * g) ∧
         s.inSegment t g { b.sg g with fresh := true, k := 0 } fun a => a = aSEG_FLAGS g ∨ irqReg (16 + 4 * g) a) ∧
       (st ≠ 1 → ¬ tagged → ignored c) ∧
       (st ≠ 1 → tagged → role = 2 →
         (x.leadP = b.get PTN_STAT_P ∨ x.leadEpoch ≠ own ∨ x.leadRound ≠ b.round → ignored c) ∧
         (x.leadP ≠ b.get PTN_STAT_P → x.leadEpoch = own → x.leadRound = b.round →
           (st = 7 → Completes c s fun t =>
             t = { s with blk := { b with regs := t.blk.regs, segs := t.blk.segs, axes := t.blk.axes, partner := t.blk.partner } } ∧
             t.blk.get (SEG_STAT_CONTRACT g) = x.pay 6 1 % 8 ∧ t.blk.get (SEG_STAT_NEXT g) = x.pay 6 1 / 8 % 2 ^ 3 ∧
             t.blk.flag (SEG_STAT_SPLIT g) = bit (x.pay 20 1) 1 ∧ t.blk.flag (SEG_STAT_CLOSING g) = bit (x.pay 20 1) 2 ∧
             (∀ j, j ≠ g → t.blk.sg j = b.sg j) ∧
             t.blk.sg g = { b.sg g with
               switchAt := if x.leadSwitch = 0 then none else some (b.roundIn x.leadSwitch)
               closeAt := if x.leadClose = 0 then none else some (b.roundIn x.leadClose) } ∧
             ∀ i, (recs.Pairwise (·.1 ≠ ·.1) → ∀ r, (i, r) ∈ recs →
                 t.blk.ax i = { b.ax i with sent := r }) ∧
               ((∀ r, (i, r) ∉ recs) → t.blk.ax i = b.ax i)) ∧
           (b.up ≤ b.roundAt + 8000 → p.outA ≠ some (b.round, false) → Completes c s fun t =>
             t.blk.flag PTN_STAT_PATH_A = true ∧ t.blk.partner = { p with
               outA := some (b.round, true), missA := 0, ringsA := g :: p.ringsA.filter (· ≠ g), stamps := stamps }) ∧
           (b.roundAt + 8000 < b.up ∨ p.outA = some (b.round, false) → Completes c s fun t =>
             t.blk.flag PTN_STAT_PATH_A = b.flag PTN_STAT_PATH_A ∧ t.blk.partner = { p with stamps := stamps }))) ∧
       (st ≠ 1 → tagged → role ≠ 2 →
         (laterThan 32 x.leadEpoch own = true → Completes c s fun t =>
           t = s.onBlk ({ · with partner.stopAt := some (p.stopAt.getD (b.up + 2000)) })) ∧
         (laterThan 32 x.leadEpoch own = false → b.segRing g = true → port = g + 1 → x.leadP = b.get PTN_STAT_P → x.leadEpoch = own →
           Completes c s fun t => t.blk.get (SEG_RETURN g) = ofs % 2 ^ 17 ∧ (t.blk.sg g).returnAt = some ((ofs : Int) - x.leadBofs) ∧
             ∀ j, j ≠ g → t.blk.sg j = b.sg j) ∧
         (laterThan 32 x.leadEpoch own = false → b.segRing g = false ∨ port ≠ g + 1 ∨ x.leadP ≠ b.get PTN_STAT_P ∨ x.leadEpoch ≠ own →
           ignored c))))

/-- 15_safety.md R462 and R465 (self-tests), R464 (fault lockout), R466 (exchanges), R467 (filtered inputs), R468 (test pulses), R470
(discrepancies), R471 (dark tests), R477 and R478 (functions and their stops), R479 (SS1_T), R483 (lockout resets).
What the manual leaves open here is the model's choice, log entries 14, 88, 89 and 90. -/
def Obligations.SafetyFunctions : Prop :=
  ∀ (s : State) (i : Fin 16) (j : Fin 4) (p : Fin 8) (f : Fin 32) (level toA toB chA driver stA stB : Bool) (fell : BitVec 16)
    (r : InputRec) (wA wB t0 : Nat),
    let b := s.blk
    let x := b.safety
    let op := b.get DEV_BOOT_PHASE = 6 ∨ b.get DEV_BOOT_PHASE = 7
    let w := min wA wB
    let page (a : Nat) : Prop := (0x160000 ≤ a ∧ a < 0x170000) ∨ a = aDEV_BOOT ∨ a = aCPR_STAT ∨ irqReg 1 a ∨ eventReg a ∨
      ∃ n, 144 ≤ n ∧ n ≤ 151 ∧ irqReg n a
    let followed (b' : Block) (t : State) : Prop :=
      let ok := decide op && !b'.safety.lockout && !b'.safety.flock
      t = { s with blk := { b' with
        regs := t.blk.regs, scp := t.blk.scp
        safety.a.halves := t.blk.safety.a.halves, safety.b.halves := t.blk.safety.b.halves } } ∧ s.regsBut t page ∧
      t.blk.get SAF_SOUT_A = b'.halvesOf b'.safety.a (!b.field.linkLost) ∧ t.blk.get SAF_SOUT_B = b'.halvesOf b'.safety.b true ∧
      t.blk.flag SAF_STAT_FLOCK = b'.safety.flock ∧ t.blk.flag SAF_STAT_LOCKOUT = b'.safety.lockout ∧
      t.blk.flag SAF_STAT_PERMITTED = ok ∧ (op → t.blk.get DEV_BOOT_PHASE = if ok then 7 else 6)
    let faulted (c : Instr) (code : Nat) (byA byB : Bool) : Prop := Completes c s fun t =>
      t.blk.flag SAF_STAT_FLOCK = true ∧ t.blk.get SAF_SOUT_A = 0 ∧ t.blk.get SAF_SOUT_B = 0 ∧
      t.blk.get SAF_FAULT_FCODE = code ∧ t.blk.flag SAF_FAULT_A = byA ∧ t.blk.flag SAF_FAULT_B = byB ∧ s.asserted t 146
    let calm := x.flock = false
    let bad (k : Nat) : Bool := match b.tpsOf k with
      | some n => if n = j.1 then bit x.a.sdi k && bit x.b.sdi k && !bit fell.toNat k else bit fell.toNat k
      | none => false
    let refused (c : Instr) : Prop := Completes c s fun t =>
      (s.onBlk ({ · with scp := t.blk.scp })).keepsBut t (fun a => a = aSAF_STAT ∨ a = aSAF_SRST ∨ irqReg 145 a ∨ eventReg a) ∧
      t.blk.flag SAF_STAT_RESET_REF = true ∧ t.blk.get SAF_SRST_WIDTH = min w 65535 ∧ s.asserted t 145
    let demand := (List.range 16).any fun k => b.reads (b.filterSdi x.a.sdi) k || b.reads (b.filterSdi x.b.sdi) k
    let faulty := (List.finRange 16).any fun k => x.inputFault k || x.disc[k] == .raised || x.disc[k] == .bothDemand
    -- R467
    (bit x.raw i = level → Completes (.sdiEdge i level) s (· = s)) ∧
    (bit x.raw i ≠ level → Completes (.sdiEdge i level) s fun t => t = s.onBlk ({ · with
      safety.raw := setBits x.raw i 1 (b2n level), safety.changed := x.changed.set i b.up })) ∧
    -- R477
    (b.safSect.functions.Pairwise (·.func ≠ ·.func) → x.a.stops.Pairwise (·.src ≠ ·.src) →
      Completes .evaluationCycle s fun t =>
        let y := t.blk.safety
        let demands (g : FunctionRec) := { b with safety.disc := y.disc }.demands y.a.sdi g.sdi
        followed { b with safety.a.sdi := y.a.sdi, safety.a.stops := y.a.stops, safety.disc := y.disc, safety.apart := y.apart } t ∧
        (∀ k : Fin 16, bit y.a.sdi k = if x.changed[k] + b.sfilt ≤ b.up then bit x.raw k else bit x.a.sdi k) ∧
        ∀ g ∈ b.safSect.functions,
          ((∀ z ∈ x.a.stops, z.src ≠ .func g.func) →
            (demands g = true → b.stopOf g ∈ y.a.stops ∧ t.blk.pendingIrq 144 = true) ∧
            (demands g = false → ∀ z ∈ y.a.stops, z.src ≠ .func g.func)) ∧
          ∀ z ∈ x.a.stops, z.src = .func g.func →
            (demands g = false → z.auto = true → z.removed = true → ∀ z' ∈ y.a.stops, z'.src ≠ .func g.func) ∧
            (¬ (demands g = false ∧ z.auto = true ∧ z.removed = true) → { z with demand := demands g } ∈ y.a.stops)) ∧
    -- R466
    (x.a.sdi = x.b.sdi → Completes (.safetyExchange toA toB true) s fun t =>
      followed { b with
        safety.a.exch := x.a.exch || toA, safety.b.exch := x.b.exch || toB
        safety.a.exchAt := if toA then some b.up else x.a.exchAt, safety.b.exchAt := if toB then some b.up else x.b.exchAt
        safety.mismatch := Vector.replicate 16 none
        safety.a.fault := if x.a.tested ∧ x.b.tested ∧ x.b.fault = 0 ∧ (x.a.exch || toA) then 0 else x.a.fault
        field.clockFail := b.field.clockFail &&
          !decide (x.a.tested ∧ x.b.tested ∧ x.b.fault = 0 ∧ (x.a.exch || toA)) } t) ∧
    (calm → bit (x.a.sdi ^^^ x.b.sdi) i = true → (b.inputOf i).isSome = true → x.mismatch[i] = some t0 → t0 + 2 * b.sfilt < b.up →
      toA = true ∨ toB = true → faulted (.safetyExchange toA toB level) 4 toA toB) ∧
    (calm → x.a.sdi = x.b.sdi → faulted (.safetyExchange toA toB false) 8 true true ∧
      Completes (.safetyExchange toA toB false) s fun t => t.blk.get FLD_DOUT_ST % 2 ^ 16 = 0) ∧
    (calm → (∀ t ∈ (if chA then x.a else x.b).exchAt, t + 1000000 ≤ b.up) → faulted (.exchangeTimeout chA) 5 chA (!chA)) ∧
    ((if chA then x.a else x.b).exchAt = some t0 → b.up < t0 + 1000000 → Completes (.exchangeTimeout chA) s (· = s)) ∧
    -- R468, R470, R471
    (Completes (.testPulse j fell true) s fun t =>
      followed { b with safety.faultNow := t.blk.safety.faultNow, safety.faultHeld := t.blk.safety.faultHeld } t ∧
      (∀ k : Fin 4, k ≠ j → t.blk.safety.faultNow[k] = x.faultNow[k]) ∧
      (∀ k < 16, bit t.blk.safety.faultNow[j] k = bad k ∧ bit t.blk.safety.faultHeld k = (bit x.faultHeld k || bad k) ∧
        (bad k = true → bit x.faultHeld k = false → t.blk.flag SAF_FLAGS_XSHORT = true ∧ s.asserted t 148))) ∧
    (calm → faulted (.testPulse j fell false) 7 true true) ∧
    (b.inputOf i = some (r, false) → x.apart[i] = some t0 → b.up < t0 + r.disc * 10000000 →
      Completes (.discrepancy i) s (· = s)) ∧
    (b.inputOf i = some (r, false) → x.apart[i] = some t0 → t0 + r.disc * 10000000 ≤ b.up → x.disc[i] = .none →
      Completes (.discrepancy i) s fun t =>
        followed { b with safety.disc := x.disc.set i .raised } t ∧ t.blk.flag SAF_FLAGS_DISC = true ∧ s.asserted t 147) ∧
    (stA = false → stB = false → Completes (.soutDarkTest p stA stB) s (· = s)) ∧
    (calm → stA = true ∨ stB = true → (∃ z ∈ b.safSect.souts, z.pair = p.1 ∧ z.test = true) →
      faulted (.soutDarkTest p stA stB) 6 true true ∧ Completes (.soutDarkTest p stA stB) s fun t =>
        bit (t.blk.get SAF_SOUT_STUCK) p = true ∧ t.blk.flag SAF_FLAGS_SOUT_ERR = true ∧ s.asserted t 149) ∧
    -- R479
    (Completes (.ss1TExpiry f) s fun t =>
      followed { b with safety.a.stops := x.a.stops.map fun z =>
        if z.src = .func f.1 ∧ z.ss1 ∧ z.t0 + z.ss1T * 1000000 ≤ b.up then { z with removed := true } else z } t ∧
      ∀ z ∈ x.a.stops, z.src = .func f.1 → z.ss1 = true → z.t0 + z.ss1T * 1000000 ≤ b.up → ∀ k < 8, bit z.sout k = true → bit (t.blk.get SAF_SOUT_A) k = false) ∧
    -- R483
    (5000 < wA ∨ 5000 < wB → Completes (.lockoutReset wA wB) s fun t =>
      s.keepsBut t (· = aSAF_SRST) ∧ t.blk.get SAF_SRST_WIDTH = min w 65535) ∧
    (w < 10 → wA ≤ 5000 → wB ≤ 5000 → Completes (.lockoutReset wA wB) s fun t =>
      s.keepsBut t (· = aSAF_SRST) ∧ t.blk.get SAF_SRST_WIDTH = w) ∧
    (10 ≤ w → wA ≤ 5000 → wB ≤ 5000 →
      w < 100 ∨ demand = true ∨ faulty = true ∨ x.flock = true ∨ 20 < max wA wB - w ∨ b.trust.writeUnlock = true ∨ ¬ op →
      refused (.lockoutReset wA wB)) ∧
    (100 ≤ w → wA ≤ 5000 → wB ≤ 5000 → demand = false → faulty = false → calm → max wA wB ≤ w + 20 → b.trust.writeUnlock = false →
      op → Completes (.lockoutReset wA wB) s fun t =>
        let keep (z : Stop) : Bool := z.auto || !z.removed
        followed { b with
          safety.startLock := false, safety.faultHeld := 0, safety.disc := Vector.replicate 16 .none
          safety.a.stops := x.a.stops.filter keep, safety.b.stops := x.b.stops.filter keep } t ∧
        t.blk.flag SAF_STAT_RESET_REF = false ∧ t.blk.get SAF_SRST_WIDTH = w) ∧
    (Completes .srstLong s fun t =>
      (s.onBlk ({ · with scp := t.blk.scp })).keepsBut t
        (fun a => a = aSAF_FLAGS ∨ a = aSAF_SRST ∨ irqReg 150 a ∨ eventReg a) ∧
      t.blk.flag SAF_FLAGS_SRST_LONG = true ∧ t.blk.get SAF_SRST_LONG = satInc 16 (b.get SAF_SRST_LONG) ∧ s.asserted t 150) ∧
    -- R462, R465
    (Completes (.channelASelfTest true) s fun t =>
      followed { b with
        safety.a.tested := true, safety.a.fault := if x.b.tested ∧ x.b.fault = 0 ∧ x.a.exch then 0 else x.a.fault
        field.clockFail := b.field.clockFail && !decide (x.b.tested ∧ x.b.fault = 0 ∧ x.a.exch) } t) ∧
    (calm → faulted (.channelASelfTest false) 1 true false) ∧
    (b.boot.step4 = false ∨ b.get DEV_BOOT_PHASE ≠ 3 ∨ b.get PTN_STAT_ROLE = 3 → Completes (.channelBSelfTest true) s fun t =>
      followed { b with
        boot.step2 := true, safety.b.tested := true
        safety.a.fault := if x.a.tested ∧ x.b.fault = 0 ∧ x.a.exch then 0 else x.a.fault
        field.clockFail := b.field.clockFail && !decide (x.a.tested ∧ x.b.fault = 0 ∧ x.a.exch) } t) ∧
    (b.boot.step4 = true → b.get DEV_BOOT_PHASE = 3 → b.get PTN_STAT_ROLE ≠ 3 → Completes (.channelBSelfTest true) s fun t =>
      t.blk.get DEV_BOOT_PHASE = 4 ∧ t.blk.boot.step2 = true ∧ t.blk.safety.b.tested = true) ∧
    (calm → faulted (.channelBSelfTest false) 2 false true ∧ Completes (.channelBSelfTest false) s fun t =>
      t.blk.get DEV_BOOT_PHASE = 14 ∧ t.blk.boot.step2 = false ∧
      t.blk.get DEV_BOOT_FAIL_STEP = if b.get DEV_BOOT_PHASE = 14 then b.get DEV_BOOT_FAIL_STEP else 2)

/-- 16_field_io.md R491 (a level is accepted), R493 and R495 (a trip and its end), R496 (outputs held off), R497 (the watchdog), R498 (the
masks, FAULT).
What the manual leaves open here is the model's choice, log entry 91. -/
def Obligations.FieldIo : Prop :=
  ∀ (s : State) (m : Fin 39) (v : Word) (x : FieldIn) (n : Fin 16) (hi : Bool),
    let b := s.blk
    let followed (b' : Block) (t : State) (p : Nat → Prop) (w : Word) : Prop :=
      let held := b'.heldAll || b'.heldGroup 0 || b'.heldGroup 1
      s.becomes t b' (fun a => a = aFLD_DOUT_ST ∨ a = aFLD_STAT ∨ irqReg 159 a ∨ p a) ∧
      (∀ k < 16, bit (t.blk.get FLD_DOUT_ST) k = b'.switchOn k) ∧
      t.blk.rd aFLD_STAT = (b.put FLD_STAT_HELD held).rd aFLD_STAT ||| w ∧
      (b.flag FLD_STAT_HELD ≠ held → s.asserted t 159)
    let off (t : State) (k : Nat) : Prop := bit (t.blk.get FLD_DOUT_ST) k = false
    let field := if hi then FLD_FMASK_HI else FLD_FMASK_LO
    (Completes (.fieldSample x) s fun t =>
      t = { s with blk := { b with regs := t.blk.regs, field := t.blk.field } } ∧
      (∀ a, ¬ (a = aFLD_DIN_NOW ∨ a = aFLD_DIN_EDGE ∨ a = aFLD_DOUT_ST ∨ a = aFLD_STAT ∨ ∃ j, 152 ≤ j ∧ j ≤ 159 ∧ irqReg j a) →
        t.blk.rd a = b.rd a) ∧
      (∀ i : Fin 32,
        let g := i.1 / 8
        let level := bit x.din.toNat i
        let run := if bit b.field.level i = level then b.field.same[i] + 1 else 1
        let edge := bit (b.get FLD_GEN_DIN) g = true ∧ b.dinFilt g ≤ run ∧ bit b.field.accepted i ≠ level
        (bit (b.get FLD_GEN_DIN) g = false → bit t.blk.field.accepted i = false) ∧
        (edge → bit t.blk.field.accepted i = level ∧ bit (t.blk.get FLD_DIN_EDGE) i = true ∧
          bit (t.blk.get FLD_DIN_NOW) i = level ∧ (bit (b.get FLD_DIN_IRQ) i = true → t.blk.pendingIrq (152 + g) = true)) ∧
        (bit (b.get FLD_GEN_DIN) g = true → ¬ edge → bit t.blk.field.accepted i = bit b.field.accepted i ∧
          bit (t.blk.get FLD_DIN_EDGE) i = bit (b.get FLD_DIN_EDGE) i)) ∧
      t.blk.field.padOff = decide (x.vfield < 16000) ∧
      t.blk.field.vLow = (decide (x.vfield < 17000) || (b.field.vLow && decide (x.vfield ≤ 18000))) ∧
      t.blk.field.hot = (decide (1250 < x.temp) || (b.field.hot && decide (1150 ≤ x.temp))) ∧
      t.blk.flag FLD_STAT_FAULT = ((List.range 52).any fun k =>
        bit t.blk.conditionsNow k && !bit (b.get FLD_FMASK_LO + b.get FLD_FMASK_HI * 2 ^ 32) k) ∧
      t.blk.flag FLD_STAT_MPEND = false) ∧
    (b.switchOn n = true → Completes (.trip n) s fun t =>
      followed { b with
        field.tripped := setBits (setBits b.field.tripped n 1 1) (b.leaderOf n) 1 1
        field.tripAt := Vector.ofFn fun k => if k.1 = b.leaderOf n then b.up else b.field.tripAt[k] } t (fun _ => False) 0 ∧
      ∀ k < 16, b.leaderOf k = b.leaderOf n → off t k) ∧
    (b.setTripped n = true → (∀ at', b.retryAt n = some at' → b.up < at') → Completes (.retry n) s (· = s)) ∧
    (b.setTripped n = true → (∃ at', b.retryAt n = some at' ∧ at' ≤ b.up) → Completes (.retry n) s fun t =>
      followed { b with field.tripped := t.blk.field.tripped } t (fun _ => False) 0 ∧
      ∀ k, bit t.blk.field.tripped k = (bit b.field.tripped k && !(decide (k < 16) && b.leaderOf k == b.leaderOf n))) ∧
    (s.writes m (b.pageFor aFLD_WDOG) v → Completes (.fldWdog m v) s fun t =>
      followed { b with field.wdArmed := true, field.wdAt := b.up } t (fun _ => False) 0) ∧
    (b.up < b.field.wdAt + b.get FLD_WDCFG_WDTIME * 1000000 → Completes .watchdogExpiry s (· = s)) ∧
    (b.field.wdArmed = true → b.get FLD_WDCFG_WDTIME ≠ 0 → b.field.wdAt + b.get FLD_WDCFG_WDTIME * 1000000 ≤ b.up → Completes .watchdogExpiry s fun t =>
      followed { b with field.wdArmed := false, field.wdClear := b.get FLD_WDCFG_WDMASK } t (irqReg 158) 0x10 ∧ s.asserted t 158 ∧
      ∀ k < 16, bit (b.get FLD_WDCFG_WDMASK) (b.leaderOf k) = true → off t k) ∧
    (s.writes m (b.pageFor field.addr) v → Completes (.faultMaskWrite m hi v) s fun t =>
      s.keepsBut t (fun a => a = field.addr ∨ a = aFLD_STAT) ∧ t.blk.get field = v.toNat % 2 ^ field.w ∧
      t.blk.flag FLD_STAT_MPEND = true) ∧
    (Completes .fieldOvertemp s fun t => followed { b with field.hot := true } t (fun _ => False) 0 ∧ ∀ k < 16, off t k) ∧
    (Completes .fieldClockFailure s fun t => followed { b with field.clockFail := true } t (fun _ => False) 0 ∧ ∀ k < 16, off t k)

/-- 18_plant_time.md R533, R534 and R537 (PTP messages, stamps, offset and delay), R538 and R539 (ACQUIRE and its step), R538 (TRACK and
LOCKED), R540 (launch entries at a step), R541 and Table 18.4 (a jump, HOLDOVER), R542 (REALIGN). What IEEE 1588 and 802.1AS say of delays is the model's presumption (log
entry 9). What the manual leaves open here is the model's choice, log entry 97. -/
def Obligations.PlantMessages : Prop :=
  ∀ (s : State) (m : Fin 39) (p : Fin 2) (source domain seq : Nat) (two : Bool) (t1 t2 t3 t4 x3 x4 k : Int),
    let b := s.blk
    let q := b.plant.ports[p]
    let st := b.get PLT_STAT_STATE
    let role (r : Nat) := b.flag (PLT_P_CFG_EN p) = true ∧ b.get (PLT_P_CFG_ROLE p) = r
    let as802 := b.get (PLT_P_CFG_PROFILE p) = 2
    let here : Int := (b.time : Int) - b.get (PLT_P_RXLAT p) * 2 ^ 24
    let leaves : Int := (b.time : Int) + b.get (PLT_P_TXLAT p) * 2 ^ 24
    let starts (a : Nat) : Prop := irqReg (164 + 6 * p) a
    let ports (t : State) (y : PtpPort) : Prop := t.blk.plant.ports[p] = y ∧ ∀ j, j ≠ p → t.blk.plant.ports[j] = b.plant.ports[j]
    -- what a message does to the port alone: y its engine, regs what else it writes
    let took (t : State) (y : PtpPort) (regs : Nat → Prop) : Prop :=
      t = { s with blk := { b with regs := t.blk.regs, free := t.blk.free, plant := { b.plant with ports := t.blk.plant.ports } } } ∧
      ports t y ∧ s.regsBut t regs
    let sent (y : PtpPort) (x : TxMsg) : PtpPort := { y with lastTx := some x, seq := y.seq + 1 }
    let dropped (c : Instr) : Prop := Completes c s fun t =>
      s.keepsBut t (fun a => starts a ∨ a = aPLT_P_RX_DROP p ∨ irqReg (169 + 6 * p) a) ∧ s.asserted t (164 + 6 * p) ∧
      s.asserted t (169 + 6 * p) ∧ t.blk.get (PLT_P_RX_DROP p) = satInc 32 (b.get (PLT_P_RX_DROP p))
    let clock (a : Nat) : Prop := (0x30400 ≤ a ∧ a < 0x30800) ∨ irqReg 160 a ∨ irqReg 161 a
    let measured (t : State) (diff : Int) : Prop :=
      let o : Int := (b.get (PLT_P_MPD p) : Int) * 2 ^ 24 - diff
      let ri := b.plant.ri + sar (o * 2 ^ 8 / b.syncNs p) (b.get PLT_SERVO_KI_SHIFT)
      let prop := clampI (-(ppm40 b.slewPpm)) (ppm40 b.slewPpm) (sar (o * 2 ^ 8 / b.syncNs p) (b.get PLT_SERVO_KP_SHIFT))
      let far := (b.jumpTh : Int) * 2 ^ 32 < o.natAbs
      let free := b.flag PLT_STAT_PARTNER = false ∧ b.flag PLT_MODE = false
      t = { s with blk := { b with regs := t.blk.regs, plant := t.blk.plant } } ∧
      t.blk.geti (PLT_P_OFS p) = satI 32 (sar o 32) ∧
      (free → t.blk.geti PLT_OFS = satI 32 (sar o 32)) ∧
      (b.flag PLT_STAT_PARTNER = true ∨ st = 0 → t.blk.rd aPLT_RATE = b.rd aPLT_RATE ∧ t.blk.rd aPLT_STAT = b.rd aPLT_STAT) ∧
      (free → st = 1 → b.get DEV_BOOT_PHASE ≠ 7 →
        t.blk.plant.step = some (b.plant.step.getD (divRound o ((b.roundNs : Int) * 2 ^ 32))) ∧ t.blk.flag PLT_STAT_ACQ_HELD = false) ∧
      (free → st = 1 → b.get DEV_BOOT_PHASE = 7 → t.blk.plant.step = b.plant.step ∧ t.blk.flag PLT_STAT_ACQ_HELD = true) ∧
      (free → st = 2 ∨ st = 3 → ¬ far → t.blk.plant.ri = ri ∧
        t.blk.geti PLT_RATE = clampI (-(ppm40 500)) (ppm40 500) (ri + prop)) ∧
      (free → st = 3 → far → t.blk.get PLT_STAT_STATE = 4 ∧ t.blk.flag PLT_STAT_JUMP = true ∧ s.asserted t 161 ∧ s.asserted t 160 ∧
        t.blk.get PLT_HO_CNT = satInc 32 (b.get PLT_HO_CNT)) ∧
      (free → st = 2 → ¬ far → o.natAbs ≤ b.lockTh * 2 ^ 32 → 7 ≤ b.plant.inRange →
        t.blk.get PLT_STAT_STATE = 3 ∧ s.asserted t 160)
    let mine := role 1 ∧ domain = (if as802 then 0 else b.get (PLT_P_CFG_DOMAIN p)) ∧ (q.source = none ∨ q.source = some source)
    let due (t : Option Nat) (n : Nat) : Prop := ∀ t0, t = some t0 → t0 + n ≤ b.up
    let silent := q.heardAt + max 2 (b.get (PLT_P_CFG_RXTO p)) * (b.syncNs p).toNat ≤ b.up
    let speaks := b.flag (PLT_P_CFG_EN p) = true ∧ b.get (PLT_P_CFG_ROLE p) ≠ 0 ∧ as802
    -- Sync, Follow_Up
    (¬ mine → dropped (.sync p source domain two seq t1)) ∧
    (mine → two = true →
      (as802 → Completes (.sync p source domain two seq t1) s fun t =>
        took t { q with source := some source, twoStep := some (seq, here), heardAt := b.up } (fun a => starts a ∨ a = aPLT_P_STAT p) ∧
        t.blk.flag (PLT_P_STAT_SYNC_OK p) = true ∧ s.asserted t (164 + 6 * p)) ∧
      (¬ as802 → Completes (.sync p source domain two seq t1) s fun t =>
        took t (sent { q with source := some source, twoStep := some (seq, here), heardAt := b.up, reqSent := some leaves } (.delayReq leaves))
          (fun a => starts a ∨ a = aPLT_P_STAT p) ∧
        t.blk.flag (PLT_P_STAT_SYNC_OK p) = true ∧ s.asserted t (164 + 6 * p))) ∧
    (mine → two = false → Completes (.sync p source domain two seq t1) s fun t =>
      measured t (here - t1) ∧ s.regsBut t (fun a => starts a ∨ a = aPLT_P_STAT p ∨ a = aPLT_P_OFS p ∨ clock a) ∧
      t.blk.flag (PLT_P_STAT_SYNC_OK p) = true ∧ s.asserted t (164 + 6 * p) ∧
      ports t (if as802 then { q with source := some source, syncDiff := here - t1, twoStep := none, heardAt := b.up }
        else sent { q with source := some source, syncDiff := here - t1, twoStep := none, heardAt := b.up, reqSent := some leaves }
          (.delayReq leaves))) ∧
    (q.twoStep = some (seq, t2) → q.source = some source → Completes (.followUp p source seq t1) s fun t =>
      measured t (t2 - t1) ∧ s.regsBut t (fun a => starts a ∨ a = aPLT_P_OFS p ∨ clock a) ∧ s.asserted t (164 + 6 * p) ∧
      ports t { q with syncDiff := t2 - t1, twoStep := none }) ∧
    ((∀ z, q.twoStep = some z → z.1 ≠ seq) ∨ q.source ≠ some source → dropped (.followUp p source seq t1)) ∧
    -- delays
    (role 2 → ¬ as802 → Completes (.delayReq p source) s fun t => took t (sent q (.delayResp source here)) starts) ∧
    (¬ role 2 ∨ as802 → dropped (.delayReq p source)) ∧
    (q.reqSent = some t3 → role 1 → ¬ as802 → q.source = some source → Completes (.delayResp p source t1) s fun t =>
      took t { q with reqSent := none } (fun a => starts a ∨ a = aPLT_P_MPD p) ∧
      t.blk.get (PLT_P_MPD p) = wrapN 32 (sar ((q.syncDiff + (t1 - t3)) / 2) 24)) ∧
    (q.reqSent = none ∨ ¬ role 1 ∨ as802 ∨ q.source ≠ some source → dropped (.delayResp p source t1)) ∧
    (speaks → Completes (.pdelayReq p source) s fun t =>
      took t (sent q (.pdelayResp source (Config.freeNat b.free))) starts ∧ t.blk.free = b.free + 1) ∧
    (¬ speaks → dropped (.pdelayReq p source)) ∧
    (q.pdSent = some t3 → as802 →
      (Completes (.pdelayResp p true t1) s fun t => took t { q with pdResp := some (t1, here) } starts) ∧
      (Completes (.pdelayResp p false t1) s fun t =>
        let trip := here - t3
        took t { q with pdSent := none } (fun a => starts a ∨ a = aPLT_P_MPD p) ∧
        t.blk.get (PLT_P_MPD p) = wrapN 32 (sar ((trip + trip * b.geti (PLT_P_NRR p) / 2 ^ 40 - t1) / 2) 24))) ∧
    (q.pdSent = none ∨ ¬ as802 → dropped (.pdelayResp p two t1)) ∧
    (q.pdSent = some t3 → q.pdResp = some (t2, t4) → Completes (.pdelayRespFollowUp p t1) s fun t =>
      took t { q with pdSent := none, pdResp := none, ratioAt := some (t1, t4) }
        (fun a => starts a ∨ a = aPLT_P_MPD p ∨ a = aPLT_P_NRR p) ∧
      (q.ratioAt = some (x3, x4) → t4 ≠ x4 →
        t.blk.geti (PLT_P_NRR p) = satI 32 (divRound ((t1 - x3 - (t4 - x4)) * 2 ^ 40) (t4 - x4))) ∧
      let trip := t4 - t3
      t.blk.get (PLT_P_MPD p) = wrapN 32 (sar ((trip + trip * t.blk.geti (PLT_P_NRR p) / 2 ^ 40 - (t1 - t2)) / 2) 24)) ∧
    (q.pdSent = none ∨ q.pdResp = none → dropped (.pdelayRespFollowUp p t1)) ∧
    (Completes (.announce p) s fun t => took t { q with announces := q.announces + 1 } starts ∧ s.asserted t (164 + 6 * p)) ∧
    dropped (.receivedFrameDropped p) ∧
    -- sending
    (role 2 → due q.syncAt (b.syncNs p).toNat → Completes (.syncTransmit p) s fun t =>
      took t (sent { q with syncAt := some b.up } (.sync leaves q.seq)) fun _ => False) ∧
    (role 2 → due q.announceAt 1000000000 → Completes (.announceTransmit p) s fun t =>
      let mac := b.get (PLT_P_MAC_HI p) * 2 ^ 32 + b.get (PLT_P_MAC_LO p)
      took t (sent { q with announceAt := some b.up } (.announce (mac / 2 ^ 24 * 2 ^ 40 + 0xFFFE * 2 ^ 24 + mac % 2 ^ 24) 0 248 0xFE
        0xFFFF (b.get (PLT_P_CFG_PRIO1 p)) 255 0xA0)) fun _ => False) ∧
    (¬ role 2 ∨ ¬ due q.syncAt (b.syncNs p).toNat → Completes (.syncTransmit p) s (· = s)) ∧
    (¬ role 2 ∨ ¬ due q.announceAt 1000000000 → Completes (.announceTransmit p) s (· = s)) ∧
    (speaks → due q.pdelayAt 1000000000 → Completes (.pdelayReqTransmit p) s fun t =>
      took t (sent { q with pdSent := some leaves, pdelayAt := some b.up } (.pdelayReq leaves)) fun _ => False) ∧
    (¬ speaks ∨ ¬ due q.pdelayAt 1000000000 → Completes (.pdelayReqTransmit p) s (· = s)) ∧
    -- the servo
    (b.plant.step = none ∨ b.atPhase = false → Completes .plantTimeStep s (· = s)) ∧
    (b.plant.step = some k → b.atPhase = true → st = 1 →
      (b.get DEV_BOOT_PHASE = 7 → Completes .plantTimeStep s fun t =>
        s.keepsBut t (· = aPLT_STAT) ∧ t.blk.flag PLT_STAT_ACQ_HELD = true) ∧
      (b.get DEV_BOOT_PHASE ≠ 7 → Completes .plantTimeStep s fun t =>
        t = { s with blk := { b with
          regs := t.blk.regs, scp := t.blk.scp, descs := t.blk.descs, time := wrapN 96 ((b.time : Int) + k * b.roundNs * 2 ^ 32)
          plant := { b.plant with step := none, inRange := 0, outRange := 0, backRange := 0, queues := t.blk.plant.queues } } } ∧
        s.regsBut t (fun a => a = aPLT_STAT ∨ irqReg 160 a ∨ irqReg 162 a ∨ eventReg a ∨ a = aPLT_SLOT_BUSY ∨ irqReg 167 a ∨ irqReg 173 a ∨
          ∃ i < 8, a = aPLT_Q_STAT i) ∧
        (∀ i : Fin 8, t.blk.plant.queues[i] = (b.plant.queues[i]).filter fun e => !({ b with time := t.blk.time }).lateEntry i e) ∧ t.blk.get PLT_STAT_STATE = 2 ∧
        t.blk.flag PLT_STAT_STEPPED = true ∧ s.asserted t 160 ∧ s.asserted t 162 ∧
        ∀ j, t.blk.desc j =
          if (b.desc j).kind = 4 then { b.desc j with due := wrapN 64 ((b.desc j).due + k * b.roundNs) } else b.desc j)) ∧
    (role 1 → silent → Completes (.syncReceiptTimeout p) s fun t =>
      t = { s with blk := { b with regs := t.blk.regs, plant := t.blk.plant } } ∧
      s.regsBut t (fun a => a = aPLT_P_STAT p ∨ irqReg (166 + 6 * p) a ∨ clock a) ∧ ports t { q with source := none, twoStep := none, heardAt := b.up } ∧
      t.blk.flag (PLT_P_STAT_SYNC_OK p) = false ∧ s.asserted t (166 + 6 * p) ∧
      ((st = 2 ∨ st = 3) → b.flag PLT_STAT_PARTNER = false → t.blk.get PLT_STAT_STATE = 4 ∧ s.asserted t 160 ∧
        t.blk.get PLT_HO_CNT = satInc 32 (b.get PLT_HO_CNT)) ∧
      ((st ≠ 2 ∧ st ≠ 3) ∨ b.flag PLT_STAT_PARTNER = true → t.blk.rd aPLT_STAT = b.rd aPLT_STAT)) ∧
    (¬ role 1 ∨ ¬ silent → Completes (.syncReceiptTimeout p) s (· = s)) ∧
    (s.writes m aPLT_CTL 1 →
      (b.get DEV_BOOT_PHASE = 7 → Completes (.realign m) s fun t =>
        s.keepsBut t (fun a => a = aPLT_STAT ∨ irqReg 162 a) ∧ t.blk.flag PLT_STAT_REAL_REF = true ∧ s.asserted t 162) ∧
      (b.get DEV_BOOT_PHASE ≠ 7 → Completes (.realign m) s fun t =>
        t = { s with blk := { b with regs := t.blk.regs, plant := { b.plant with
          step := none, inRange := t.blk.plant.inRange, outRange := t.blk.plant.outRange, backRange := t.blk.plant.backRange } } } ∧
        s.regsBut t (fun a => a = aPLT_STAT ∨ a = aPLT_JOFS ∨ a = aPLT_JOFS + 4 ∨ a = aPLT_RATE ∨ irqReg 160 a) ∧ t.blk.get PLT_JOFS = 0 ∧
        (2 ≤ st → t.blk.geti PLT_RATE = 0) ∧ t.blk.get PLT_STAT_STATE = if st = 0 then 0 else 1))

/-- 18_plant_time.md R545 (PUSH), R546 to R548 (launch, stamps, late heads), R550 (line-angle messages received), R531 (MDIO), R552 and
R553 (counters, links). -/
def Obligations.LaunchQueues : Prop :=
  ∀ (s : State) (m : Fin 39) (p : Fin 2) (q : Fin 8) (v : Word) (e : QEntry) (x : LaMsg) (tag : BitVec 128) (r : LarxRec) (link done : Bool)
    (data : BitVec 16),
    let b := s.blk
    let l := b.plant.queues[q]
    let port := b.get (PLT_Q_CFG_PORT q)
    let slot := v.toNat % 2 ^ 5
    let busy (b : Block) (k : Nat) : Bool := b.flag ⟨aPLT_SLOT_BUSY, k, 1⟩
    let queues (t : State) (y : List QEntry) : Prop := t.blk.plant.queues[q] = y ∧ ∀ j, j ≠ q → t.blk.plant.queues[j] = b.plant.queues[j]
    let count (a : Nat) : Prop := a = aPLT_Q_STAT q ∨ a = aPLT_SLOT_BUSY
    let dropIrq (a : Nat) : Prop := irqReg (167 + 6 * port) a
    let drops (t : State) : Prop :=
      t.blk.get (PLT_Q_STAT_DROPS q) = satInc 16 (b.get (PLT_Q_STAT_DROPS q)) ∧ s.asserted t (167 + 6 * port)
    let slots (t : State) (k : Nat) (w : Bool) : Prop := busy t.blk k = w ∧ ∀ j < 32, j ≠ k → busy t.blk j = busy b j
    let plant (t : State) (ports : Vector PtpPort 2) : Prop :=
      t = { s with blk := { b with regs := t.blk.regs, plant := { b.plant with queues := t.blk.plant.queues, ports } } }
    -- R545
    (s.writes m (aPLT_Q_PUSH q) v →
      (16 ≤ l.length ∨ b.flag (PLT_Q_CFG_EN q) = false ∨ busy b slot = true → Completes (.push m q v) s fun t =>
        s.keepsBut t (fun a => a = aPLT_Q_STAT q ∨ dropIrq a) ∧ drops t ∧ t.blk.get (PLT_Q_STAT_N q) = b.get (PLT_Q_STAT_N q)) ∧
      (l.length < 16 → b.flag (PLT_Q_CFG_EN q) = true → busy b slot = false → Completes (.push m q v) s fun t =>
        plant t b.plant.ports ∧ s.regsBut t count ∧
        queues t (l ++ [⟨slot, b.get (PLT_Q_LT q), v.getLsbD 5, v.toNat / 2 ^ 16 % 2 ^ 11⟩]) ∧
        t.blk.get (PLT_Q_STAT_N q) = l.length + 1 ∧ slots t slot true)) ∧
    -- R546 to R548
    (b.dueQueue p = none → Completes (.launch p) s (· = s)) ∧
    (b.dueQueue p = some (q, e) →
      let late := e.lt ≠ 0 ∧ e.lt + 1000 * b.get (PLT_Q_CFG_LATE_TOL q) < b.ns
      let y := b.plant.ports[p]
      let n := clampN 60 1514 (b.rd (aPLT_SLOT e.slot 0)).toNat
      let frame := (((List.range ((n + 3) / 4)).flatMap fun i => bytesBE 4 (b.rd (aPLT_SLOT e.slot (i + 1))).toNat).take n)
      let ns := wrapN 96 ((b.time : Int) + b.get (PLT_P_TXLAT p) * 2 ^ 24) / 2 ^ 32
      let stamp := bytesBE 6 (ns / 1000000000) ++ bytesBE 4 (ns % 1000000000)
      e.slot < 32 →
      (e.lt = 0 ∨ (e.lt : Int) * 2 ^ 32 ≤ (b.time : Int) + b.get (PLT_P_TXLAT p) * 2 ^ 24) ∧ (∃ rest, l = e :: rest) ∧ port = p.1 ∧
      (late ∨ b.flag (PLT_P_STAT_LINK p) = false → Completes (.launch p) s fun t =>
        plant t b.plant.ports ∧ s.regsBut t (fun a => count a ∨ dropIrq a) ∧ queues t (l.drop 1) ∧ drops t ∧ slots t e.slot false) ∧
      (¬ late → b.flag (PLT_P_STAT_LINK p) = true → Completes (.launch p) s fun t =>
        plant t (b.plant.ports.set p { y with
          lastTx := some (.frame (withFcs (if e.stamp then overlay frame e.ofs stamp else frame))), seq := y.seq + 1 }) ∧
        s.regsBut t count ∧ queues t (l.drop 1) ∧ slots t e.slot false ∧
        t.blk.get (PLT_Q_STAT_DROPS q) = b.get (PLT_Q_STAT_DROPS q))) ∧
    -- R550
    (let ok := b.larx p x.serial = some r ∧ x.magic = 0x4C41 ∧ x.ver = 1 ∧ x.tag r.key = tag ∧ bit x.flags 3 = true ∧
       b.get PLT_STAT_STATE = 3 ∧ ∀ t0, b.plant.lastOf x.serial = some t0 → t0 < x.time
     let starts (a : Nat) : Prop := irqReg (164 + 6 * p) a
     let last := (x.serial, x.time) :: b.plant.laLast.filter (·.1 ≠ x.serial)
     (b.larx p x.serial = none ∨ (b.larx p x.serial = some r ∧ ¬ ok) → Completes (.lineAngleMessage p x tag) s fun t =>
       s.keepsBut t (fun a => starts a ∨ a = aPLT_P_LA_DROP p ∨ irqReg (168 + 6 * p) a) ∧
       t.blk.get (PLT_P_LA_DROP p) = satInc 32 (b.get (PLT_P_LA_DROP p)) ∧ s.asserted t (164 + 6 * p) ∧ s.asserted t (168 + 6 * p)) ∧
     (ok → b.flag ANG_STAT_RUNNING = false → Completes (.lineAngleMessage p x tag) s fun t =>
       (s.onBlk ({ · with plant.laLast := last })).keepsBut t starts ∧ s.asserted t (164 + 6 * p)) ∧
     (ok → b.flag ANG_STAT_RUNNING = true → b.ang.handover = none → b.ang.kind = 4 → b.ang.index = p →
       let old := b.ang.accepted ≠ 0 ∧ x.time ≤ b.ang.lastT
       let late := (2 * b.roundNs : Int) < (b.ns : Int) - x.time
       (old ∨ late → Completes (.lineAngleMessage p x tag) s fun t =>
         (s.onBlk ({ · with plant.laLast := last })).keepsBut t (fun a => starts a ∨ a = aANG_DROP_CNT ∨ a = aANG_STAT) ∧
         t.blk.get ANG_DROP_CNT = satInc 32 (b.get ANG_DROP_CNT)) ∧
       (¬ old → ¬ late → Completes (.lineAngleMessage p x tag) s fun t =>
         t.blk.plant = { b.plant with laLast := last } ∧ t.blk.ang.lastT = x.time ∧
         t.blk.ang.lastTheta = (x.angle + b.ang.ofs) % 2 ^ 64 ∧ s.asserted t (164 + 6 * p)))) ∧
    -- R531
    (s.writes m aPLT_MDIO v → Completes (.pltMdio m v) s fun t =>
      s.keepsBut t (· = aPLT_MDIO) ∧ t.blk.flag PLT_MDIO_BUSY = true ∧ t.blk.get PLT_MDIO_OP = v.toNat / 2 ^ 26 % 4 ∧
      t.blk.get PLT_MDIO_DATA = v.toNat % 2 ^ 16 ∧ t.blk.get PLT_MDIO_REG = v.toNat / 2 ^ 16 % 2 ^ 5 ∧
      t.blk.get PLT_MDIO_PHYAD = v.toNat / 2 ^ 21 % 2 ^ 5 ∧ t.blk.get PLT_MDIO_C45 = v.toNat / 2 ^ 28 % 2) ∧
    (b.flag PLT_MDIO_BUSY = false → Completes (.mdioDone data) s (· = s)) ∧
    (b.flag PLT_MDIO_BUSY = true → Completes (.mdioDone data) s fun t =>
      s.keepsBut t (· = aPLT_MDIO) ∧ t.blk.flag PLT_MDIO_BUSY = false ∧
      t.blk.get PLT_MDIO_DATA = if 2 ≤ b.get PLT_MDIO_OP then data.toNat else b.get PLT_MDIO_DATA) ∧
    -- R552, R553
    (let same := b.flag (PLT_P_STAT_LINK p) = link ∧ b.flag (PLT_P_STAT_AN_DONE p) = done
     (same → Completes (.plantLinkChange p link done) s (· = s)) ∧
     (¬ same → Completes (.plantLinkChange p link done) s fun t =>
       s.keepsBut t (fun a => a = aPLT_P_STAT p ∨ irqReg (165 + 6 * p) a) ∧ t.blk.flag (PLT_P_STAT_LINK p) = link ∧
       t.blk.flag (PLT_P_STAT_AN_DONE p) = done ∧ t.blk.get (PLT_P_STAT_SYNC_OK p) = b.get (PLT_P_STAT_SYNC_OK p) ∧
       s.asserted t (165 + 6 * p))) ∧
    (s.writes m aPLT_CTL 2 → Completes (.pltCntClr m) s fun t =>
      s.keepsBut t (fun a => a = aPLT_JREF_CNT ∨ a = aPLT_HO_CNT ∨ (∃ i < 2, a = aPLT_P_RX_DROP i ∨ a = aPLT_P_LA_DROP i) ∨
        ∃ i < 8, a = aPLT_Q_STAT i) ∧
      t.blk.get PLT_JREF_CNT = 0 ∧ t.blk.get PLT_HO_CNT = 0 ∧
      (∀ i < 2, t.blk.get (PLT_P_RX_DROP i) = 0 ∧ t.blk.get (PLT_P_LA_DROP i) = 0) ∧
      ∀ i < 8, t.blk.get (PLT_Q_STAT_DROPS i) = 0 ∧ t.blk.get (PLT_Q_STAT_N i) = b.get (PLT_Q_STAT_N i))

/-- 19_scorepad.md R557 and R558 (a record, its seal, NEXT_SEQ), R559 (operating seconds), R561 to R563 (events, repeats, a full queue),
R565 (host records), R566 (readout). What the manual leaves open here is the model's choice, log entry 98. -/
def Obligations.Scorepad : Prop :=
  ∀ (s : State) (m : Fin 39) (v : Word) (code level x y q : Nat) (e : ScpEvent) (rest : List ScpEvent),
    let b := s.blk
    let scp := b.scp
    let pad := s.nv.pad
    let down := b.flag SCP_STAT_FD_DOWN = true
    let idle := down ∨ b.field.padOff = true
    let at_ (k : Nat) : Nat := 64 * slotOf k
    let padKept (t : State) (lo n : Nat) : Prop := ∀ a, a < lo ∨ lo + n ≤ a → Memory.read t.nv.pad a = Memory.read pad a
    let stamped := b.stampEvent code level x y false false
    let logs (z : ScpUnit) : Prop := (b.event code level x y).scp = z
    -- R561 to R563
    (scp.queue = [] → scp.newest = none → logs { scp with queue := [stamped] }) ∧
    (scp.queue = [] → scp.newest = some (q, e) →
      (e.same stamped = true → logs { scp with newest := some (q, e.repeated (b.get SCP_OPSEC)), repDirty := true }) ∧
      (e.same stamped = false → logs { scp with queue := [stamped] })) ∧
    (scp.queue = rest ++ [e] →
      (e.same stamped = true → logs { scp with queue := rest ++ [e.repeated (b.get SCP_OPSEC)] }) ∧
      (e.same stamped = false → scp.queue.length < 256 → logs { scp with queue := scp.queue ++ [stamped] }) ∧
      (e.same stamped = false → 256 ≤ scp.queue.length → logs { scp with lostSince := scp.lostSince + 1 } ∧
        (b.event code level x y).get SCP_LOST = satInc 32 (b.get SCP_LOST) ∧ (b.event code level x y).pendingIrq 177 = true)) ∧
    -- R557, R558, R562
    (idle ∨ (scp.repDirty = false ∧ scp.queue = []) → Completes .recordWrite s (· = s)) ∧
    (¬ idle → scp.repDirty = true → scp.newest = some (q, e) →
      (slotSeq pad (slotOf q) = q → Completes .recordWrite s fun t =>
        t = { s with nv := { s.nv with pad := t.nv.pad }, blk := { b with scp := { scp with repDirty := false } } } ∧
        Memory.readBytes t.nv.pad (at_ q + 52) 8 = bytesBE 4 e.repCnt ++ bytesBE 4 e.repSec ∧ padKept t (at_ q + 52) 8) ∧
      (slotSeq pad (slotOf q) ≠ q → Completes .recordWrite s fun t =>
        (s.onBlk ({ · with scp := { scp with repDirty := false } })).keepsBut t (fun a => a = aSCP_LOST ∨ irqReg 177 a) ∧
        t.blk.get SCP_LOST = satInc 32 (b.get SCP_LOST) ∧ s.asserted t 177)) ∧
    (¬ idle → scp.repDirty = false → (∃ t0, scp.wroteAt = some t0 ∧ b.up < t0 + 20000) → Completes .recordWrite s (· = s)) ∧
    (¬ idle → scp.repDirty = false → scp.queue = e :: rest → (∀ t0, scp.wroteAt = some t0 → t0 + 20000 ≤ b.up) → scp.lostSince = 0 →
      Completes .recordWrite s fun t =>
      let n := s.nv.nextSeq
      let kept := 2048 ≤ (n + 1) % 2 ^ 48
      t = { s with
        nv := { s.nv with pad := t.nv.pad, ctr := t.nv.ctr }
        blk := { b with regs := t.blk.regs, scp := { scp with queue := rest, newest := some (n, e), wroteAt := some b.up } } } ∧
      s.regsBut t (fun a => a ∈ [aSCP_STAT, aSCP_NEXT, aSCP_NEXT + 4, aSCP_OPSEC, aSCP_PCYC, aSCP_QUEUE, aDCK_STAT] ∨
        ∃ i ∈ [2, 176, 178], irqReg i a) ∧
      Memory.readBytes t.nv.pad (at_ n) 64 = e.record n ∧ padKept t (at_ n) 64 ∧ t.nv.nextSeq = (n + 1) % 2 ^ 48 ∧
      t.nv.pcyc = s.nv.pcyc ∧ t.blk.get SCP_NEXT = (n + 1) % 2 ^ 48 ∧ t.blk.get SCP_QUEUE_N = rest.length % 2 ^ 9 ∧
      (2 ≤ e.level → s.asserted t 176) ∧ (t.blk.flag SCP_STAT_KEPT_FULL = true ↔ kept) ∧
      (e.code ≠ 7 ∨ b.get DCK_STAT_STATE ≠ 5 → t.blk.rd aDCK_STAT = b.rd aDCK_STAT) ∧
      (e.code = 7 → b.get DCK_STAT_STATE = 5 → t.blk.get DCK_STAT_STATE = if b.dealt.isSome then 4 else 6)) ∧
    -- R559
    (down ∨ b.boot.released = false → Completes .opsecTick s (· = s)) ∧
    (¬ down → b.boot.released = true → Completes .opsecTick s fun t =>
      let c (i : Fin 2) : Nat := opsecCount s.nv.opsec[i]
      let i : Fin 2 := if c 1 < c 0 then 1 else 0
      let n := satInc 32 (max (c 0) (c 1))
      t = { s with nv := { s.nv with opsec := s.nv.opsec.set i (opsecBytes n) }, blk := { b with regs := t.blk.regs } } ∧
      s.regsBut t (· = aSCP_OPSEC) ∧ t.blk.get SCP_OPSEC = t.nv.opsecNow % 2 ^ 32) ∧
    -- R565
    (s.writes m aSCP_HW_CMD v →
      let early := ∃ t0, scp.lastHost = some t0 ∧ b.up < t0 + 1000000
      let c := v.toNat % 2 ^ 16
      (c < 0xF000 ∨ early → Completes (.scpHwCmd m v) s fun t =>
        s.keepsBut t (· = aSCP_STAT) ∧ t.blk.flag SCP_STAT_HW_REF = true) ∧
      (0xF000 ≤ c → ¬ early → Completes (.scpHwCmd m v) s fun t =>
        let w := b.stampEvent c (v.toNat / 2 ^ 16 % 4) (b.get SCP_HW_ARG0) (b.get SCP_HW_ARG1) true false
        (s.onBlk ({ · with scp := t.blk.scp })).keepsBut t eventReg ∧ t.blk.scp.lastHost = some b.up ∧
        t.blk.scp = (({ b with scp := { scp with lastHost := some b.up } } : Block).enqueue w).scp)) ∧
    -- R566
    (s.writes m aSCP_RD_CTL 1 → Completes (.scpRdGo m) s fun t =>
      (s.onBlk ({ · with scp := { scp with readSeq := some (b.get SCP_RD_SEQ) } })).keepsBut t (· = aSCP_RD_STAT) ∧
      t.blk.flag SCP_RD_STAT_BUSY = true ∧ t.blk.flag SCP_RD_STAT_VALID = false ∧ t.blk.flag SCP_RD_STAT_GONE = false ∧
      t.blk.flag SCP_RD_STAT_SEAL_ERR = false) ∧
    (scp.readSeq = none → Completes .scpReadDone s (· = s)) ∧
    (scp.readSeq = some q → Completes .scpReadDone s fun t =>
      let gone := s.nv.nextSeq ≤ q ∨ (2048 ≤ q ∧ q + 14336 < s.nv.nextSeq)
      (s.onBlk ({ · with scp := { scp with readSeq := none } })).keepsBut t
        (fun a => a = aSCP_RD_STAT ∨ ∃ j < 16, a = aSCP_RD_REC j) ∧
      t.blk.flag SCP_RD_STAT_BUSY = false ∧
      (gone → t.blk.flag SCP_RD_STAT_GONE = true ∧ ∀ j < 16, t.blk.rd (aSCP_RD_REC j) = 0) ∧
      (¬ gone → (∀ j < 16, t.blk.rd (aSCP_RD_REC j) = BitVec.ofNat 32 (ofBytesBE (Memory.readBytes pad (at_ q + 4 * j) 4))) ∧
        (slotValid pad (slotOf q) = true → t.blk.flag SCP_RD_STAT_VALID = true) ∧
        (slotValid pad (slotOf q) = false → t.blk.flag SCP_RD_STAT_SEAL_ERR = true)))

/-- 20_clocks_power_reset.md R586 and Table 20.7 (causes), R587 and R589 (RESET_N), R588 (a device reset by the host), R578 (a restart
after a clock failure), R590 (overlaps), R591 (straps); 01_dealer_and_helpers.md R35 (step 1 begins); 19_scorepad.md R559 (power cycles).
What the manual leaves open here is the model's choice, log entries 1, 99 and 100. -/
def Obligations.Resets : Prop :=
  ∀ (s : State) (m : Fin 39) (low t0 : Nat) (mode : BitVec 3),
    let b := s.blk
    let p := b.pd0
    -- what no reset of the core die touches: memories, the field die but for its link, time since power-up
    let core (pd0 : Pd0) : Block := { Reset.block with
      mem := b.mem, ecc := b.ecc, up := b.up, free := b.free, pd0, field := { b.field with linkLost := true, mask := 0 }
      safety := { Reset.safety with
        raw := b.safety.raw, changed := b.safety.changed, a := { Reset.chan with sdi := b.safety.a.sdi, fault := b.safety.a.fault } } }
    let off (t : State) (pd0 : Pd0) : Prop := t = { s with blk := { core pd0 with regs := t.blk.regs } }
    let power (cause : Nat) (c : Instr) : Prop := Completes c s fun t =>
      off t { Reset.pd0 with pendCause := cause, resetN := p.resetN, resetLow := none } ∧
      t.blk.flag SCP_STAT_FD_DOWN = true ∧ ∀ a, a ≠ aSCP_STAT → t.blk.rd a = resetReg a
    let entered (cause : Nat) : Pd0 := { p with
      pendCause := cause, devResetAt := none, gatePend := [], switching := [], oddWindows := [], mux := []
      failed := if p.rcDead then p.failed else [], declaredAt := none, goodSince := none, dealerRc := false }
    let clocks (a : Nat) : Prop := a ∈ [aCPR_PD_STAT, aCPR_PD_DECK, aCPR_GATE_LO, aCPR_GATE_HI, aCPR_STAT, aSCP_STAT]
    -- PD1 to PD11 in reset: their registers at reset, the page of PD0 kept
    let held (t : State) (cause : Nat) (pd0 : Pd0 → Pd0) : Prop :=
      off t (pd0 (entered cause)) ∧ t.blk.rd aCPR_PD_STAT = 0x0FFE0001 ∧ t.blk.flag CPR_STAT_SAFE = true ∧ t.blk.flag CPR_STAT_FORCED = false ∧
      ∀ a, ¬ clocks a → t.blk.rd a = if domainOf a = 0 then b.rd a else resetReg a
    -- a reset ends: step 1 begins
    let released (t : State) (cause : Nat) (pd0 : Pd0) : Prop :=
      t.pending = s.pending ∧ t.nv = { s.nv with ctr := t.nv.ctr } ∧ t.blk.boot = { Reset.boot with released := true, since := b.up } ∧
      t.blk.mem = b.mem ∧ t.blk.ecc = b.ecc ∧ t.blk.up = b.up ∧
      t.blk.pd0 = { pd0 with
        porst := false, resetN := false, resetLow := none, switching := [(1, true), (2, true), (7, true), (11, true)]
        owed := t.blk.pd0.owed } ∧
      10 ∈ t.blk.pd0.owed ∧ t.blk.get CPR_RST_CAUSE_LAST = cause % 2 ^ 8 ∧ t.blk.get DEV_BOOT_PHASE = 1 ∧ t.blk.get CPR_PD_STAT_ON = 1 ∧
      t.blk.get CPR_PD_STAT_RST = 0xFFE ∧ t.blk.flag CPR_STAT_SAFE = true
    let cleared (t : State) (cause : Nat) : Prop :=
      t.blk.dealt = none ∧ t.blk.field = { b.field with linkLost := true, mask := 0 } ∧ t.blk.segs = [] ∧ t.blk.axes = [] ∧
      ∃ e rest, t.blk.scp.queue = e :: rest ∧ e.code = 1 ∧ e.arg0 = cause
    let inside (cause : Nat) (c : Instr) : Prop :=
      (p.porst = true ∨ p.resetN = true ∨ p.rcDead = true → Completes c s fun t => held t cause id) ∧
      (p.porst = false → p.resetN = false → p.rcDead = false → Completes c s fun t =>
        released t cause (entered cause) ∧ cleared t cause ∧ t.nv.pcyc = s.nv.pcyc ∧ t.blk.get CPR_RST_CAUSE_PREV = b.get CPR_RST_CAUSE_LAST ∧
        t.blk.get CPR_STRAP = b.get CPR_STRAP)
    -- R586
    power 2 .porstN ∧ power 1 .supplyRise ∧ power 1 .vddAoFall ∧ inside 5 .lockstepMismatch ∧ inside 6 .dealerWatchdog ∧
    Completes .trstN s (· = s.onBlk ({ · with trust.tap := .idcode })) ∧
    -- R587
    (low < 1000 ∨ p.resetN = true → Completes (.resetN low) s fun t => t = s.onBlk ({ · with free := b.free + 1 })) ∧
    (10000 ≤ low → p.resetN = false →
      (p.porst = true → Completes (.resetN low) s fun t =>
        t = s.onBlk ({ · with free := b.free + 1, pd0 := { p with resetN := true, resetLow := some b.up } })) ∧
      (p.porst = false → Completes (.resetN low) s fun t =>
        let up (t : State) : State := t.onBlk ({ · with free := b.free })
        t.blk.free = b.free + 1 ∧ held (up t) 3 fun q => { q with resetN := true, resetLow := some (b.up - low) })) ∧
    (1000 ≤ low → low < 10000 → p.porst = false → p.resetN = false → Completes (.resetN low) s fun t =>
      t = s.onBlk ({ · with free := b.free + 1 }) ∨ held (t.onBlk ({ · with free := b.free })) 3
        fun q => { q with resetN := true, resetLow := some (b.up - low) }) ∧
    (p.porst = false → p.resetN = false → Completes (.resetRelease mode) s (· = s)) ∧
    (p.resetN = true → p.rcDead = true → Completes (.resetRelease mode) s fun t =>
      (s.onBlk ({ · with pd0 := { p with resetN := false, resetLow := none } })).keepsBut t (· = aCPR_RST_HELD)) ∧
    (p.porst = true ∨ p.resetN = true → p.rcDead = false → Completes (.resetRelease mode) s fun t =>
      released t p.pendCause p ∧ t.blk.get CPR_RST_CAUSE_PREV = b.get CPR_RST_CAUSE_LAST ∧
      t.nv.pcyc = (if p.porst then satInc 32 s.nv.pcyc else s.nv.pcyc) ∧
      t.blk.get CPR_STRAP = (if p.porst then mode.toNat else b.get CPR_STRAP) ∧
      (p.resetLow = some t0 →
        let ms := (b.up - t0) / 1000000
        t.blk.get CPR_RST_HELD = min ms (2 ^ 32 - 1) ∧ (10000 < ms → t.blk.flag CPR_EVT_RST_HELD = true))) ∧
    -- R588
    (s.writes m aCPR_CTL 1 →
      let st := b.get DCK_STAT_STATE
      (b.get DEV_BOOT_PHASE = 7 ∨ st = 1 ∨ st = 2 ∨ st = 3 ∨ st = 7 → Completes (.devreset m) s fun t =>
        t.blk.flag CPR_EVT_RESET_REF = true ∧ t.blk.pd0 = { p with owed := t.blk.pd0.owed } ∧
        ((b.domainOn 11 = true ∧ b.domainHeld 11 = false → s.keepsBut t (fun a => a = aCPR_EVT ∨ irqReg 10 a) ∧ s.asserted t 10) ∧
          (b.domainOn 11 = false ∨ b.domainHeld 11 = true → 10 ∈ t.blk.pd0.owed))) ∧
      (b.get DEV_BOOT_PHASE ≠ 7 → st ≠ 1 → st ≠ 2 → st ≠ 3 → st ≠ 7 → Completes (.devreset m) s fun t =>
        t = s.onBlk ({ · with pd0 := { p with devResetAt := some (p.devResetAt.getD (b.up + 1000000)) } }))) ∧
    ((∀ t1, p.devResetAt = some t1 → b.up < t1) → Completes .hostDeviceReset s (· = s)) ∧
    (p.devResetAt = some t0 → t0 ≤ b.up → inside 7 .hostDeviceReset) ∧
    -- R578
    (let recent := p.restarts.filter fun t => b.up < t + 3600000000000
     ((∀ t1, p.goodSince = some t1 → b.up < t1 + 100000000) ∨ p.rcDead = true ∨ 3 ≤ recent.length →
       Completes .clockRestart s (· = s)) ∧
     (p.goodSince = some t0 → t0 + 100000000 ≤ b.up → p.rcDead = false → recent.length < 3 → p.porst = false → p.resetN = false →
       Completes .clockRestart s fun t =>
         released t 4 { entered 4 with restarts := recent ++ [b.up] } ∧ cleared t 4 ∧ t.nv.pcyc = s.nv.pcyc ∧
         t.blk.get CPR_CLK_FAIL_RESTARTS = recent.length + 1 ∧ t.blk.get CPR_RST_CAUSE_PREV = b.get CPR_RST_CAUSE_LAST))

/-- 20_clocks_power_reset.md R572 (a source fails), R573 (the RC oscillator), R574 (a source is good, start-up stops without one), R575
and R577 (the forced safe state and the domains a failure takes with it), R578 (the asynchronous reset). What the manual leaves open here
is the model's choice, log entry 101. -/
def Obligations.ClockFailures : Prop :=
  ∀ (s : State) (ref count src : Nat) (plls : Vector (Bool × Nat) 5),
    let b := s.blk
    let p := b.pd0
    let runs := p.porst = false ∧ p.rcDead = false
    let good (b : Block) (k : Nat) : Bool :=
      b.flag (if k = 0 then CPR_STAT_REF_OK else if k = 1 then CPR_STAT_RC_OK else ⟨aCPR_STAT, k, 1⟩)
    let odd (n : Nat) : Bool := decide (n < 85 ∨ 115 < n)
    let shown (a : Nat) : Prop := a = aCPR_STAT ∨ a = aCPR_CLK_FAIL ∨ a = aCPR_EVT
    -- what shows that every output is off (the stopped state)
    let outputReg (a : Nat) : Prop := (0x160000 ≤ a ∧ a < 0x170000) ∨ a = aFLD_DOUT_ST ∨ a = aFLD_STAT
    let dark (t : State) : Prop := t.blk.get FLD_DOUT_ST = 0 ∧ t.blk.get SAF_SOUT_A = 0 ∧ t.blk.get SAF_SOUT_B = 0 ∧
      t.blk.flag FLD_STAT_HELD = true
    let feeds (k : Nat) : List Nat := match k with
      | 2 => [3, 4, 5, 6, 7]
      | 3 => [1, 7, 10, 11]
      | 4 => [2]
      | 5 => [8, 9, 11]
      | 6 => [7, 11]
      | _ => [1, 2, 3, 4, 5, 6, 7, 8, 9, 10, 11]
    -- source k, none having failed before, is declared failed
    let declared (t : State) (k : Nat) : Prop :=
      t = { s with blk := { b with
        regs := t.blk.regs, pd0 := t.blk.pd0, ang := { b.ang with pins := 0, pulses := Vector.replicate 16 none }
        cap := { b.cap with fireUntil := 0 }, boot := { b.boot with dealing := false, staging := false, stage := [] }, passed := none } } ∧
      good t.blk k = false ∧ t.blk.flag CPR_EVT_CLK_FAIL = true ∧ t.blk.flag CPR_STAT_FORCED = true ∧
      t.blk.flag CPR_STAT_SAFE = true ∧ t.blk.pd0.failed = [k] ∧ t.blk.pd0.declaredAt = some b.up ∧ t.blk.pd0.mux = feeds k ∧
      (b.get CPR_CLK_FAIL_ID = 0xFF → t.blk.get CPR_CLK_FAIL_ID = k) ∧ s.regsBut t shown
    let fresh := p.failed = [] ∧ p.declaredAt = none ∧ p.mux = []
    let allGood := good b 0 = true ∧ ∀ k : Fin 5, good b (k + 2) = true
    let fails (k n : Nat) : Prop := n < 8 ∨ (odd n = true ∧ k ∈ p.oddWindows)
    -- R572
    (¬ runs → Completes (.monitorWindow ref plls) s (· = s) ∧ Completes (.rcCheck count) s (· = s)) ∧
    (runs → allGood → ¬ fails 0 ref → (∀ k : Fin 5, ¬ fails (k + 2) plls[k].2) → Completes (.monitorWindow ref plls) s fun t =>
      t = { s with blk := { b with pd0 := { p with oddWindows := t.blk.pd0.oddWindows } } } ∧
      (0 ∈ t.blk.pd0.oddWindows ↔ odd ref = true) ∧ ∀ k : Fin 5, k.1 + 2 ∈ t.blk.pd0.oddWindows ↔ odd plls[k].2 = true) ∧
    (runs → fresh → allGood → fails 0 ref → (∀ k : Fin 5, ¬ fails (k + 2) plls[k].2) →
      Completes (.monitorWindow ref plls) s fun t => declared t 0) ∧
    (∀ k : Fin 5, runs → fresh → allGood → ¬ fails 0 ref → fails (k + 2) plls[k].2 → (∀ j : Fin 5, j ≠ k → ¬ fails (j + 2) plls[j].2) →
      Completes (.monitorWindow ref plls) s fun t => declared t (k + 2)) ∧
    -- R574
    (runs → good b 0 = false → (∀ k : Fin 5, good b (k + 2) = true) → (∀ k : Fin 5, ¬ fails (k + 2) plls[k].2) →
      let near := p.stable = 0 ∨ (ref ≤ p.lastCount + 1 ∧ p.lastCount ≤ ref + 1)
      (odd ref = true → Completes (.monitorWindow ref plls) s fun t => t.blk.pd0.stable = 0 ∧ good t.blk 0 = false) ∧
      (odd ref = false → near → p.stable < 63 → Completes (.monitorWindow ref plls) s fun t =>
        t.blk.pd0.stable = p.stable + 1 ∧ good t.blk 0 = false) ∧
      (odd ref = false → ¬ near → Completes (.monitorWindow ref plls) s fun t => t.blk.pd0.stable = 1 ∧ good t.blk 0 = false) ∧
      (odd ref = false → near → 63 ≤ p.stable → Completes (.monitorWindow ref plls) s fun t => good t.blk 0 = true ∧
        (p.failed = [0] → t.blk.pd0.goodSince = some b.up))) ∧
    (let bad (k : Nat) : Prop := k ∈ [0, 2, 3, 4, 5, 6] ∧ good b k = false
     ((∀ k, ¬ bad k) ∨ b.boot.released = false ∨ b.boot.step1 = true ∨ p.failed ≠ [] ∨ (∀ k, bad k → b.sourceLate k = false) →
       Completes .referenceTimeout s (· = s)) ∧
     (bad src → (∀ k, bad k → src ≤ k) → b.boot.released = true → b.boot.step1 = false → p.failed = [] → b.sourceLate src = true →
       Completes .referenceTimeout s fun t =>
         s.becomes t { b with
             scp := t.blk.scp, pd0 := { p with dealerRc := true }
             safety := { b.safety with a.halves := t.blk.safety.a.halves, b.halves := t.blk.safety.b.halves } }
           (fun a => a = aDEV_BOOT ∨ a = aCPR_STAT ∨ outputReg a ∨ eventReg a ∨ ∃ i ∈ [1, 145, 159], irqReg i a) ∧ dark t ∧
         t.blk.get DEV_BOOT_PHASE = 14 ∧ t.blk.get DEV_BOOT_FAIL_STEP = 1 ∧
         (b.flag SAF_STAT_LOCKOUT = b.safety.lockout → s.logged t 0xB 2 src 0))) ∧
    -- R573
    (runs → let odd := count < 108 ∨ 148 < count
      (¬ odd → Completes (.rcCheck count) s fun t =>
        (s.onBlk ({ · with pd0 := { p with rcOdd := false } })).keepsBut t (· = aCPR_STAT) ∧ good t.blk 1 = true) ∧
      (odd → p.rcOdd = false → Completes (.rcCheck count) s fun t => t = s.onBlk ({ · with pd0 := { p with rcOdd := true } })) ∧
      (odd → p.rcOdd = true → fresh → Completes (.rcCheck count) s fun t => declared t 1 ∧ t.blk.pd0.rcDead = true)) ∧
    -- R577, R578
    ((∀ t0, p.declaredAt = some t0 → b.up < t0 + 20000) ∨ p.porst = true ∨ p.resetN = true → Completes .asynchronousReset s (· = s)) ∧
    ((∃ t0, p.declaredAt = some t0 ∧ t0 + 20000 ≤ b.up) → p.porst = false → p.resetN = false → p.failed = [src] → Completes .asynchronousReset s fun t =>
      let hit (n : Nat) : Prop := p.rcDead = true ∨ 1 ∈ feeds src ∨ n ∈ feeds src
      (∀ n, 1 ≤ n → n < 12 → hit n → n ≠ 1 → t.blk.domainHeld n = true) ∧
      (∀ n, 1 ≤ n → n < 12 → ¬ hit n → t.blk.domainHeld n = b.domainHeld n) ∧
      (∀ a, hit (domainOf a) → 2 ≤ domainOf a → ¬ outputReg a → ¬ (∃ i ∈ [1, 9, 145, 159, 177], irqReg i a) → t.blk.rd a = resetReg a) ∧
      t.blk.pd0.declaredAt = none ∧ t.blk.pd0.mux = [] ∧ t.nv = s.nv ∧ t.blk.mem = b.mem ∧ t.blk.field = b.field ∧
      t.blk.dealt = b.dealt ∧
      (p.rcDead = true → t.blk.boot = Reset.boot ∧ t.blk.domainHeld 1 = true) ∧
      (p.rcDead = false → t.blk.get DEV_BOOT_PHASE = 14 ∧ dark t ∧ t.blk.domainHeld 1 = (b.domainHeld 1 && !decide (1 ∈ feeds src)) ∧
        (1 ∈ feeds src → t.blk.pd0.dealerRc = true ∧ ∃ e rest, t.blk.scp.queue = e :: rest ∧ e.code = 0xB ∧ e.level = 2 ∧ e.arg0 = src % 2 ^ 32)))

/-- 20_clocks_power_reset.md R580 and R581 (gates), R584 (domains), R592 (temperature), R594 (sources owed); 01_dealer_and_helpers.md R16,
R17 and R39 (the die-to-die links, the safe state), R38 (a start-up step overruns); 21_electrical_and_package.md R614 (the field die).
What the manual leaves open here is the model's choice, log entries 32, 92 and 100. -/
def Obligations.PowerAndLinks : Prop :=
  ∀ (s : State) (g : Fin 48) (m : Fin 39) (a0 : Nat) (temp : Int) (c0 c1 : D2dCopy) (d : Nat) (rest : List (Nat × Bool)),
    let b := s.blk
    let p := b.pd0
    let host := b.domainOn 11 = true ∧ b.domainHeld 11 = false
    -- a source of PD0 asserts, or is owed
    let told (t : State) (n : Nat) : Prop := (host → s.asserted t n) ∧ (¬ host → n ∈ t.blk.pd0.owed)
    let gates (a : Nat) : Prop := a = aCPR_GATE_LO ∨ a = aCPR_GATE_HI
    let field (a : Nat) : Prop := a = aFLD_DOUT_ST ∨ a = aFLD_STAT ∨ irqReg 159 a
    let safety (a : Nat) : Prop := (0x160000 ≤ a ∧ a < 0x170000) ∨ a = aDEV_BOOT ∨ a = aCPR_STAT ∨ irqReg 1 a ∨ eventReg a ∨
      ∃ n, 144 ≤ n ∧ n ≤ 151 ∧ irqReg n a
    let outputs (t : State) (x : Field) (y : Safety) : Prop :=
      t = { s with blk := { b with
        regs := t.blk.regs, scp := t.blk.scp, field := x
        safety := { y with a.halves := t.blk.safety.a.halves, b.halves := t.blk.safety.b.halves } } }
    let dark (t : State) : Prop := t.blk.get FLD_DOUT_ST = 0 ∧ t.blk.get SAF_SOUT_A = 0 ∧ t.blk.flag FLD_STAT_HELD = true
    let down (t : State) : Prop := t.blk.flag SCP_STAT_FD_DOWN = true ∧ (b.flag SCP_STAT_FD_DOWN = false → s.asserted t 179)
    let scp (a : Nat) : Prop := a = aSCP_STAT ∨ irqReg 179 a
    -- R580, R581
    (g.1 ∉ p.gatePend → Completes (.gateClose g) s (· = s) ∧ Completes (.gateForced g [(m, a0)]) s (· = s)) ∧
    (g.1 ∈ p.gatePend →
      (Completes (.gateClose g) s fun t =>
        (s.onBlk ({ · with pd0 := { p with gatePend := p.gatePend.filter (· ≠ g) } })).keepsBut t gates ∧
        t.blk.gateClosed g = true ∧ ∀ k < 48, k ≠ g → t.blk.gateClosed k = b.gateClosed k) ∧
      (Completes (.gateForced g []) s fun t =>
        (s.onBlk ({ · with pd0 := { p with gatePend := p.gatePend.filter (· ≠ g), owed := t.blk.pd0.owed } })).keepsBut t
          (fun a => gates a ∨ a = aCPR_GATE_FORCED ∨ a = aCPR_EVT ∨ irqReg 8 a) ∧
        t.blk.gateClosed g = true ∧ t.blk.get CPR_GATE_FORCED = satInc 32 (b.get CPR_GATE_FORCED) ∧
        t.blk.flag CPR_EVT_GATE_FORCED = true ∧ told t 8) ∧
      (m.1 = 36 → Completes (.gateForced g [(m, a0)]) s fun t =>
        t.blk.gateClosed g = true ∧ t.blk.get HST_ERR_ADDR = a0 % 2 ^ 24 ∧ t.blk.get HST_ERR_RD_CNT = satInc 32 (b.get HST_ERR_RD_CNT) ∧
        s.logged t 0xA 1 g m ∧ told t 8) ∧
      (m.1 = 37 → Completes (.gateForced g [(m, a0)]) s fun t => t.blk.gateClosed g = true ∧ s.logged t 0xA 1 g m ∧ t.blk.readData[m] = 0)) ∧
    -- R584
    (p.switching = [] → Completes .domainSwitch s (· = s)) ∧
    (p.switching = (d, true) :: rest → d < 12 → Completes .domainSwitch s fun t =>
      (s.onBlk ({ · with pd0 := { p with
        switching := rest, gatePend := t.blk.pd0.gatePend, owed := t.blk.pd0.owed } })).keepsBut t
          (fun a => gates a ∨ a = aCPR_PD_STAT ∨ a = aCPR_EVT ∨ irqReg 8 a) ∧
      t.blk.domainOn d = true ∧ t.blk.domainHeld d = false ∧ (∀ k ∈ gatesOf d, t.blk.gateClosed k = false) ∧
      (∀ n, n < 12 → n ≠ d → t.blk.domainOn n = b.domainOn n ∧ t.blk.domainHeld n = b.domainHeld n) ∧
      t.blk.flag CPR_EVT_PD_CHANGE = true) ∧
    (p.switching = (d, false) :: rest → 1 ≤ d → d < 12 → Completes .domainSwitch s fun t =>
      t.nv = s.nv ∧ t.blk.pd0.switching = rest ∧ t.blk.domainOn d = false ∧ t.blk.domainHeld d = true ∧
      (∀ k ∈ gatesOf d, t.blk.gateClosed k = true) ∧ t.blk.flag CPR_EVT_PD_CHANGE = true ∧
      (∀ a, domainOf a = d → ¬ irqReg 8 a → t.blk.rd a = resetReg a) ∧
      (∀ a, domainOf a ≠ d → ¬ (gates a ∨ a = aCPR_PD_STAT ∨ a = aCPR_EVT ∨ irqReg 8 a) → t.blk.rd a = b.rd a) ∧
      (3 ≤ d → d ≤ 6 → (∀ e, e / 8 = d - 3 → t.blk.eng e = Reset.engine) ∧ (∀ e, e / 8 ≠ d - 3 → t.blk.eng e = b.eng e) ∧
        ∀ a, Memory.read t.blk.mem a =
          if 0x40000000 + 0x200000 * (d - 3) ≤ a ∧ a < 0x40000000 + 0x200000 * (d - 2) then Memory.dflt a else Memory.read b.mem a)) ∧
    -- R592
    (Completes (.temperatureUpdate temp) s fun t =>
      let warn := b.geti CPR_TEMP_WARN
      let x := if p.tempHigh then decide (warn - 50 ≤ temp) else decide (warn < temp)
      (s.onBlk ({ · with pd0 := { p with tempHigh := x, owed := t.blk.pd0.owed } })).keepsBut t
        (fun a => a = aCPR_TEMP ∨ a = aCPR_EVT ∨ irqReg 11 a) ∧
      t.blk.get CPR_TEMP = wrapN 16 temp ∧ (x ≠ p.tempHigh → told t 11) ∧
      (x = p.tempHigh → t.blk.rd aCPR_EVT = b.rd aCPR_EVT ∧ t.blk.pd0.owed = p.owed) ∧
      (x = true → p.tempHigh = false → t.blk.flag CPR_EVT_TEMP_WARN = true)) ∧
    -- R16, R17
    (c0.crcOk = true → c1.crcOk = true → c0.payload = c1.payload → Completes (.d2dTransfer c0 c1) s fun t =>
      outputs t { b.field with linkLost := false, rx := some c0.payload, rxAt := b.up } b.safety ∧ s.regsBut t (fun a => field a ∨ safety a ∨ scp a) ∧
      t.blk.flag SCP_STAT_FD_DOWN = false ∧ (b.flag SCP_STAT_FD_DOWN = true → s.asserted t 179) ∧
      t.blk.flag DEV_STAT_D2D_ERR = b.flag DEV_STAT_D2D_ERR) ∧
    (c0.crcOk = false → c1.crcOk = false → Completes (.d2dTransfer c0 c1) s fun t =>
      outputs t { b.field with linkLost := true, rxAt := b.up } b.safety ∧ dark t ∧ t.blk.flag DEV_STAT_D2D_ERR = true) ∧
    (c0.crcOk ≠ c1.crcOk ∨ (c0.crcOk = true ∧ c0.payload ≠ c1.payload) → Completes (.d2dTransfer c0 c1) s fun t =>
      outputs t { b.field with linkLost := false, rx := some (if c0.crcOk then c0.payload else c1.payload), rxAt := b.up } b.safety ∧
      t.blk.flag DEV_STAT_D2D_ERR = true) ∧
    (b.up < b.field.rxAt + 2000 → Completes .d2dTimeout s (· = s)) ∧
    (b.field.rxAt + 2000 ≤ b.up → Completes .d2dTimeout s fun t =>
      outputs t { b.field with linkLost := true } b.safety ∧ s.regsBut t (fun a => field a ∨ safety a ∨ scp a) ∧ dark t ∧ down t) ∧
    -- R614
    (Completes .fieldDieReset s fun t =>
      outputs t { Reset.field with linkLost := true } { b.safety with
        a := Reset.chan, raw := 0, changed := Vector.replicate 16 b.up, faultNow := Vector.replicate 4 0 } ∧
      s.regsBut t (fun a => field a ∨ safety a ∨ scp a) ∧ dark t ∧ down t) ∧
    -- R38
    (b.boot.released = false → ∀ k, Completes (.startUpStepOverrun k) s (· = s)) ∧
    (b.boot.released = true →
      let stops (k : Fin 7) : Prop :=
        (b.get DEV_BOOT_PHASE = 14 → Completes (.startUpStepOverrun k) s fun t =>
          (s.onBlk ({ · with scp := t.blk.scp })).keepsBut t eventReg ∧ s.logged t 6 2 k (b.rd aDEV_BOOT).toNat) ∧
        (b.get DEV_BOOT_PHASE ≠ 14 → Completes (.startUpStepOverrun k) s fun t =>
          outputs t b.field b.safety ∧ s.regsBut t (fun a => field a ∨ safety a) ∧ dark t ∧ t.blk.get SAF_SOUT_B = 0 ∧
          s.asserted t 1 ∧ t.blk.get DEV_BOOT_PHASE = 14 ∧ t.blk.get DEV_BOOT_FAIL_STEP = k ∧ t.blk.flag CPR_STAT_SAFE = true ∧
          (b.flag SAF_STAT_LOCKOUT = b.safety.lockout → s.logged t 6 2 k (t.blk.rd aDEV_BOOT).toNat))
      (b.boot.step1 = false → stops 1) ∧ (b.boot.step2 = false ∨ b.field.linkLost = true → stops 2) ∧
      (b.boot.step1 = true → Completes (.startUpStepOverrun 1) s (· = s)) ∧
      (b.get DEV_BOOT_PHASE = 4 → Completes (.startUpStepOverrun 5) s fun t =>
        (s.onBlk ({ · with scp := t.blk.scp })).keepsBut t eventReg ∧ s.logged t 6 2 5 (b.rd aDEV_BOOT).toNat) ∧
      (b.get DEV_BOOT_PHASE = 5 → Completes (.startUpStepOverrun 6) s fun t =>
        (s.onBlk ({ · with scp := t.blk.scp })).keepsBut t eventReg ∧ s.logged t 6 2 6 (b.rd aDEV_BOOT).toNat))
end

