-- ==== Sys2Proof/Laws/Bits.lean ====
section
/-!
SUPPORT. The laws of bit fields: a field just set reads back, and a field set leaves the bits outside it alone.
-/

namespace Sys2Proof.Machine

theorem low_eq (w n : Nat) : low w n = n % 2 ^ w := rfl

theorem setBits_eq (n lo w v : Nat) :
    setBits n lo w v = 2 ^ (lo + w) * (n / 2 ^ (lo + w)) + (2 ^ lo * (v % 2 ^ w) + n % 2 ^ lo) := by
  have h1 : n / 2 ^ (lo + w) = n / 2 ^ lo / 2 ^ w := by rw [Nat.div_div_eq_div_mul, pow_add]
  have h2 := Nat.div_add_mod n (2 ^ lo)
  have h3 := Nat.div_add_mod (n / 2 ^ lo) (2 ^ w)
  rw [h1, setBits, bits, low_eq, pow_add]
  generalize n / 2 ^ lo / 2 ^ w = q at *
  generalize hm : n / 2 ^ lo % 2 ^ w = m at *
  generalize n % 2 ^ lo = r at *
  have h4 : n = 2 ^ lo * 2 ^ w * q + m * 2 ^ lo + r := by rw [← h2, ← h3]; ring
  rw [h4, Nat.mul_comm (v % 2 ^ w)]
  omega

/-- Bit `i` after a field is set. -/
theorem testBit_setBits (n lo w v i : Nat) :
    (setBits n lo w v).testBit i = if lo ≤ i ∧ i < lo + w then v.testBit (i - lo) else n.testBit i := by
  have hr : n % 2 ^ lo < 2 ^ lo := Nat.mod_lt _ (by positivity)
  have hs : 2 ^ lo * (v % 2 ^ w) + n % 2 ^ lo < 2 ^ (lo + w) := by
    have : v % 2 ^ w < 2 ^ w := Nat.mod_lt _ (by positivity)
    have : 2 ^ lo * (v % 2 ^ w) + 2 ^ lo ≤ 2 ^ lo * 2 ^ w := by
      rw [← Nat.mul_succ]; exact Nat.mul_le_mul_left _ (by omega)
    rw [pow_add]; omega
  rw [setBits_eq, Nat.testBit_two_pow_mul_add _ hs, Nat.testBit_two_pow_mul_add _ hr]
  by_cases a : i < lo + w
  · by_cases b : i < lo
    · have : ¬ lo ≤ i := by omega
      simp [a, b, Nat.testBit_mod_two_pow, this]
    · have c : lo ≤ i := by omega
      have e : i - lo < w := by omega
      simp [a, b, c, Nat.testBit_mod_two_pow, e]
  · have e : lo + w + (i - (lo + w)) = i := by omega
    simp [a, Nat.testBit_div_two_pow, e, Nat.add_comm]

/-- Bit `i` of a field. -/
theorem testBit_bits (n lo w i : Nat) : (bits n lo w).testBit i = (decide (i < w) && n.testBit (lo + i)) := by
  rw [bits, Nat.testBit_mod_two_pow, Nat.testBit_div_two_pow, Nat.add_comm]

/-- A field just set reads back, cut to its width. -/
theorem bits_setBits_same (n lo w v : Nat) : bits (setBits n lo w v) lo w = v % 2 ^ w := by
  apply Nat.eq_of_testBit_eq; intro i
  rw [testBit_bits, testBit_setBits, Nat.testBit_mod_two_pow]
  by_cases h : i < w
  · have : lo ≤ lo + i ∧ lo + i < lo + w := by omega
    simp [h]
  · simp [h]

/-- A field set leaves a disjoint field alone. -/
theorem bits_setBits_ne {n lo w v lo' w' : Nat} (h : lo' + w' ≤ lo ∨ lo + w ≤ lo') :
    bits (setBits n lo w v) lo' w' = bits n lo' w' := by
  apply Nat.eq_of_testBit_eq; intro i
  rw [testBit_bits, testBit_bits, testBit_setBits]
  by_cases e : i < w'
  · have : ¬ (lo ≤ lo' + i ∧ lo' + i < lo + w) := by omega
    simp [this]
  · simp [e]

/-- A field below bit `m` does not see what lies from bit `m` on. -/
theorem bits_mod {n lo w m : Nat} (h : lo + w ≤ m) : bits (n % 2 ^ m) lo w = bits n lo w := by
  apply Nat.eq_of_testBit_eq; intro i
  rw [testBit_bits, testBit_bits, Nat.testBit_mod_two_pow]
  by_cases e : i < w
  · have : lo + i < m := by omega
    simp [this]
  · simp [e]

theorem bits_lt (n lo w : Nat) : bits n lo w < 2 ^ w := Nat.mod_lt _ (by positivity)

theorem bits_toNat_ofNat {n lo w : Nat} (h : lo + w ≤ 32) : bits (BitVec.ofNat 32 n).toNat lo w = bits n lo w := by
  rw [BitVec.toNat_ofNat, bits_mod h]

end Sys2Proof.Machine
end

