-- ==== Sys2Proof/Laws/Sparse.lean ====
section
/-!
SUPPORT. The laws of sparse maps and of the memories held as such: a read after a write, and that every write keeps the canonical
form.
-/

namespace Sys2Proof.Machine

variable {α : Type}

theorem sget_sdel_ne (d : Nat → α) (m : List (Nat × α)) {j k : Nat} (h : k ≠ j) : sget d (sdel m j) k = sget d m k := by
  induction m with
  | nil => rfl
  | cons x t ih =>
    obtain ⟨i, v⟩ := x
    by_cases e : j = i
    · subst e; simp [sdel, sget, h, ih]
    · simp [sdel, e, sget, ih]

theorem sget_sdel_same (d : Nat → α) (m : List (Nat × α)) (k : Nat) : sget d (sdel m k) k = d k := by
  induction m with
  | nil => rfl
  | cons x t ih =>
    obtain ⟨i, v⟩ := x
    by_cases e : k = i
    · simpa [sdel, e] using e ▸ ih
    · simp [sdel, e, sget, ih]

variable [DecidableEq α]

/-- A read at the key just written gives the value written. -/
@[simp] theorem sget_sput_same (d : Nat → α) (m : List (Nat × α)) (k : Nat) (v : α) : sget d (sput d m k v) k = v := by
  induction m with
  | nil => by_cases e : v = d k <;> simp [sput, e, sget]
  | cons x t ih =>
    obtain ⟨i, w⟩ := x
    by_cases e : k = i
    · subst e; by_cases f : v = d k
      · simp [sput, f, sget_sdel_same]
      · simp [sput, f, sget]
    · by_cases l : k < i
      · by_cases f : v = d k
        · simp [sput, e, l, f, sget, sget_sdel_same]
        · simp [sput, e, l, f, sget]
      · simp [sput, e, l, sget, ih]

/-- A write leaves every other key alone. -/
theorem sget_sput_ne (d : Nat → α) (m : List (Nat × α)) {j k : Nat} (v : α) (h : k ≠ j) :
    sget d (sput d m j v) k = sget d m k := by
  induction m with
  | nil => by_cases e : v = d j <;> simp [sput, e, sget, h]
  | cons x t ih =>
    obtain ⟨i, w⟩ := x
    by_cases e : j = i
    · subst e; by_cases f : v = d j <;> simp [sput, f, sget, h, sget_sdel_ne d t h]
    · by_cases l : j < i
      · by_cases f : v = d j
        · simp [sput, e, l, f, sget, sget_sdel_ne d t h]
        · simp [sput, e, l, f, sget, h, sget_sdel_ne d t h]
      · simp [sput, e, l, sget, ih]

/-- A read after a write, in one equation. -/
theorem sget_sput (d : Nat → α) (m : List (Nat × α)) (j k : Nat) (v : α) :
    sget d (sput d m j v) k = if k = j then v else sget d m k := by
  by_cases h : k = j
  · subst h; simp
  · simp [h, sget_sput_ne d m v h]

/-! ### The canonical form -/

theorem swfFrom_mono {d : Nat → α} {m : List (Nat × α)} {a b : Nat} (h : b ≤ a) (w : swfFrom d a m) : swfFrom d b m := by
  cases m with
  | nil => rfl
  | cons x t =>
    obtain ⟨i, v⟩ := x
    simp only [swfFrom, Bool.and_eq_true, decide_eq_true_eq] at w ⊢
    exact ⟨⟨by omega, w.1.2⟩, w.2⟩

theorem sdel_of_lt {d : Nat → α} {m : List (Nat × α)} {b k : Nat} (h : k < b) (w : swfFrom d b m) : sdel m k = m := by
  induction m generalizing b with
  | nil => rfl
  | cons x t ih =>
    obtain ⟨i, v⟩ := x
    simp only [swfFrom, Bool.and_eq_true, decide_eq_true_eq] at w
    have e : k ≠ i := by omega
    simp [sdel, e, ih (b := i + 1) (by omega) w.2]

theorem swfFrom_sput {d : Nat → α} {m : List (Nat × α)} {b k : Nat} (v : α) (h : b ≤ k) (w : swfFrom d b m) :
    swfFrom d b (sput d m k v) := by
  induction m generalizing b with
  | nil => by_cases e : v = d k <;> simp [sput, e, swfFrom, h]
  | cons x t ih =>
    obtain ⟨i, u⟩ := x
    simp only [swfFrom, Bool.and_eq_true, decide_eq_true_eq] at w
    obtain ⟨⟨hb, hu⟩, ht⟩ := w
    by_cases e : k = i
    · subst e
      have g : sdel t k = t := sdel_of_lt (b := k + 1) (by omega) ht
      by_cases f : v = d k
      · simpa [sput, f, g] using swfFrom_mono (by omega) ht
      · simp [sput, f, g, swfFrom, h, ht]
    · by_cases l : k < i
      · have g : sdel t k = t := sdel_of_lt (b := i + 1) (by omega) ht
        by_cases f : v = d k
        · simp [sput, e, l, f, g, swfFrom, hb, hu, ht]
        · simp [sput, e, l, f, g, swfFrom, h, hu, ht] <;> omega
      · have g := ih (b := i + 1) (by omega) ht
        simp [sput, e, l, swfFrom, hb, hu, g]

/-- A write keeps the canonical form. -/
theorem swf_sput {d : Nat → α} {m : List (Nat × α)} (k : Nat) (v : α) (w : swf d m) : swf d (sput d m k v) :=
  swfFrom_sput v (Nat.zero_le k) w

theorem swfFrom_filter {d : Nat → α} {m : List (Nat × α)} {b : Nat} (p : Nat × α → Bool) (w : swfFrom d b m) :
    swfFrom d b (m.filter p) := by
  induction m generalizing b with
  | nil => rfl
  | cons x t ih =>
    obtain ⟨i, v⟩ := x
    simp only [swfFrom, Bool.and_eq_true, decide_eq_true_eq] at w
    obtain ⟨⟨hb, hv⟩, ht⟩ := w
    by_cases e : p (i, v)
    · simp [e, swfFrom, hb, hv, ih ht]
    · simpa [e] using swfFrom_mono (by omega) (ih ht)

/-- Dropping entries keeps the canonical form. -/
theorem swf_filter {d : Nat → α} {m : List (Nat × α)} (p : Nat × α → Bool) (w : swf d m) : swf d (m.filter p) :=
  swfFrom_filter p w

/-! ### Memories -/

/-- A byte just written reads back. -/
@[simp] theorem Memory.read_write_same (m : List Host.Cell) (a : Nat) (v : Byte) : Memory.read (Memory.write m a v) a = v :=
  sget_sput_same _ m a v

/-- A byte written leaves every other address alone. -/
theorem Memory.read_write_ne (m : List Host.Cell) {a x : Nat} (v : Byte) (h : x ≠ a) :
    Memory.read (Memory.write m a v) x = Memory.read m x := sget_sput_ne _ m v h

/-- Bytes written from `a` leave every address outside them alone. -/
theorem Memory.read_writeBytes_ne (m : List Host.Cell) {a x : Nat} (bs : List Byte) (h : x < a ∨ a + bs.length ≤ x) :
    Memory.read (Memory.writeBytes m a bs) x = Memory.read m x := by
  induction bs generalizing m a with
  | nil => rfl
  | cons b t ih =>
    simp only [List.length_cons] at h
    rw [Memory.writeBytes, ih _ (by omega), Memory.read_write_ne _ _ (by omega)]

/-- A word written leaves every address outside its four bytes alone. -/
theorem Memory.read_writeWord_ne (m : List Host.Cell) {a x : Nat} (v : Word) (h : x < a ∨ a + 4 ≤ x) :
    Memory.read (Memory.writeWord m a v) x = Memory.read m x :=
  Memory.read_writeBytes_ne m _ (by simpa [bytesLE] using h)

theorem Memory.read_writeBytes_head (m : List Host.Cell) (a : Nat) (b : Byte) (t : List Byte) :
    Memory.read (Memory.writeBytes m a (b :: t)) a = b := by
  rw [Memory.writeBytes, Memory.read_writeBytes_ne _ _ (by omega), Memory.read_write_same]

/-- Bytes just written read back. -/
theorem Memory.readBytes_writeBytes (m : List Host.Cell) (a : Nat) (bs : List Byte) :
    Memory.readBytes (Memory.writeBytes m a bs) a bs.length = bs := by
  induction bs generalizing m a with
  | nil => rfl
  | cons b t ih =>
    rw [List.length_cons, Memory.readBytes, Memory.read_writeBytes_head, Memory.writeBytes, ih]

/-- A word just written reads back. -/
theorem Memory.readWord_writeWord (m : List Host.Cell) (a : Nat) (v : Word) :
    Memory.readWord (Memory.writeWord m a v) a = v := by
  have e : Memory.readBytes (Memory.writeWord m a v) a 4 = bytesLE 4 v.toNat :=
    Memory.readBytes_writeBytes m a (bytesLE 4 v.toNat)
  unfold Memory.readWord
  rw [e]
  apply BitVec.eq_of_toNat_eq
  have := v.isLt
  simp only [bytesLE, ofBytesLE, BitVec.toNat_ofNat]
  omega

/-- One byte written keeps the canonical form. -/
theorem Memory.wf_write {m : List Host.Cell} (a : Nat) (v : Byte) (w : Memory.wf m) : Memory.wf (Memory.write m a v) :=
  swf_sput a v w

/-- Bytes written keep the canonical form. -/
theorem Memory.wf_writeBytes {m : List Host.Cell} (a : Nat) (bs : List Byte) (w : Memory.wf m) :
    Memory.wf (Memory.writeBytes m a bs) := by
  induction bs generalizing m a with
  | nil => exact w
  | cons b t ih => exact ih _ (Memory.wf_write a b w)

/-- A word written keeps the canonical form. -/
theorem Memory.wf_writeWord {m : List Host.Cell} (a : Nat) (v : Word) (w : Memory.wf m) : Memory.wf (Memory.writeWord m a v) :=
  Memory.wf_writeBytes a _ w

/-- Clearing a range keeps the canonical form. -/
theorem Memory.wf_clear {m : List Host.Cell} (lo hi : Nat) (w : Memory.wf m) : Memory.wf (Memory.clear m lo hi) :=
  swf_filter _ w

/-- A cleared range reads as nothing has written it. -/
theorem Memory.read_clear_in (m : List Host.Cell) {lo hi x : Nat} (h : lo ≤ x ∧ x < hi) :
    Memory.read (Memory.clear m lo hi) x = Memory.dflt x := by
  induction m with
  | nil => rfl
  | cons c t ih =>
    obtain ⟨i, v⟩ := c
    unfold Memory.clear Memory.read at ih ⊢
    by_cases e : i < lo ∨ hi ≤ i
    · have ne : x ≠ i := by omega
      simpa [e, sget, ne] using ih
    · simpa [e] using ih

/-- Clearing leaves the rest alone. -/
theorem Memory.read_clear_out (m : List Host.Cell) {lo hi x : Nat} (h : x < lo ∨ hi ≤ x) :
    Memory.read (Memory.clear m lo hi) x = Memory.read m x := by
  induction m with
  | nil => rfl
  | cons c t ih =>
    obtain ⟨i, v⟩ := c
    unfold Memory.clear Memory.read at ih ⊢
    by_cases e : i < lo ∨ hi ≤ i
    · simp [e, sget, ih]
    · have ne : x ≠ i := by omega
      simpa [e, sget, ne] using ih

/-- Reset memory is in canonical form. -/
theorem Memory.wf_reset : Memory.wf State.reset.blk.mem = true ∧ Memory.wf State.reset.nv.pad = true := ⟨rfl, rfl⟩

end Sys2Proof.Machine
end

