-- ==== Sys2Proof/Laws/State.lean ====
section
/-!
SUPPORT. What the register operations of Machine/Ops.lean leave of each field of the block, one lemma per field per operation, and the
registers themselves: a field just written reads back, other fields and other registers stay.
-/

namespace Sys2Proof.Machine

/-! ### The state -/

@[simp] theorem State.onBlk_pending (s : State) (f : Block → Block) : (s.onBlk f).pending = s.pending := rfl
@[simp] theorem State.onBlk_nv (s : State) (f : Block → Block) : (s.onBlk f).nv = s.nv := rfl
@[simp] theorem State.onBlk_blk (s : State) (f : Block → Block) : (s.onBlk f).blk = f s.blk := rfl

/-- Two states with equal parts are equal. -/
theorem State.eq_of {s t : State} (h1 : s.pending = t.pending) (h2 : s.nv = t.nv) (h3 : s.blk = t.blk) : s = t := by
  cases s; cases t; simp_all

/-- Two blocks with equal parts are equal. -/
theorem Block.eq_of {b c : Block}
    (h0 : b.regs = c.regs)
    (h1 : b.shadow = c.shadow)
    (h2 : b.vq = c.vq)
    (h3 : b.valid = c.valid)
    (h4 : b.due = c.due)
    (h5 : b.latchHi = c.latchHi)
    (h6 : b.heldLo = c.heldLo)
    (h7 : b.stampLatch = c.stampLatch)
    (h8 : b.readData = c.readData)
    (h9 : b.mem = c.mem)
    (h10 : b.ecc = c.ecc)
    (h11 : b.time = c.time)
    (h12 : b.up = c.up)
    (h13 : b.free = c.free)
    (h14 : b.dealt = c.dealt)
    (h15 : b.passed = c.passed)
    (h16 : b.boot = c.boot)
    (h17 : b.trust = c.trust)
    (h18 : b.scp = c.scp)
    (h19 : b.host = c.host)
    (h20 : b.plant = c.plant)
    (h21 : b.pd0 = c.pd0)
    (h22 : b.ang = c.ang)
    (h23 : b.field = c.field)
    (h24 : b.safety = c.safety)
    (h25 : b.axes = c.axes)
    (h26 : b.chans = c.chans)
    (h27 : b.entries = c.entries)
    (h28 : b.descs = c.descs)
    (h29 : b.flows = c.flows)
    (h30 : b.engines = c.engines)
    (h31 : b.segs = c.segs)
    (h32 : b.ports = c.ports)
    (h33 : b.partner = c.partner)
    (h34 : b.roundAt = c.roundAt)
    (h35 : b.cap = c.cap)
    : b = c := by
  cases b; cases c; simp_all

/-! ### The register file as a map -/

/-- The value of a field in a register map. -/
def Regs.get (r : List (Nat × Word)) (f : Fld) : Nat :=
  if f.lo + f.w ≤ 32 then bits (sget resetReg r f.addr).toNat f.lo f.w
  else bits ((sget resetReg r f.addr).toNat + (sget resetReg r (f.addr + 4)).toNat * 2 ^ 32) f.lo f.w

@[simp] theorem Block.rd_eq (b : Block) (a : Nat) : b.rd a = sget resetReg b.regs a := rfl
@[simp] theorem Block.get_eq (b : Block) (f : Fld) : b.get f = Regs.get b.regs f := rfl
@[simp] theorem Block.flag_eq (b : Block) (f : Fld) : b.flag f = decide (Regs.get b.regs f ≠ 0) := rfl
@[simp] theorem Block.geti_eq (b : Block) (f : Fld) : b.geti f = sgn f.w (Regs.get b.regs f) := rfl

@[simp] theorem Block.on_eq (b : Block) (f : Fld) : b.on f = b.set f 1 := rfl
@[simp] theorem Block.off_eq (b : Block) (f : Fld) : b.off f = b.set f 0 := rfl
@[simp] theorem Block.put_eq (b : Block) (f : Fld) (v : Bool) : b.put f v = b.set f (b2n v) := rfl
@[simp] theorem Block.seti_eq (b : Block) (f : Fld) (v : Int) : b.seti f v = b.set f (wrapN f.w v) := rfl
@[simp] theorem Block.inc_eq (b : Block) (f : Fld) : b.inc f = b.set f (satInc f.w (Regs.get b.regs f)) := rfl
@[simp] theorem Block.incWrap_eq (b : Block) (f : Fld) : b.incWrap f = b.set f (wrapInc f.w (Regs.get b.regs f)) := rfl
@[simp] theorem Block.addSat_eq (b : Block) (f : Fld) (n : Nat) :
    b.addSat f n = b.set f (min (Regs.get b.regs f + n) (2 ^ f.w - 1)) := rfl
@[simp] theorem Block.peak_eq (b : Block) (f : Fld) (n : Nat) :
    b.peak f n = b.set f (max (Regs.get b.regs f) (min n (2 ^ f.w - 1))) := rfl

/-! ### What each operation leaves alone -/

/-- Nothing but registers differs. -/
def Block.RegsOnly (b c : Block) : Prop := c = { b with regs := c.regs }

/-- Nothing but registers and the scorepad queue differs. -/
def Block.RegsScp (b c : Block) : Prop := c = { b with regs := c.regs, scp := c.scp }

theorem Block.RegsOnly.refl (b : Block) : b.RegsOnly b := rfl

theorem Block.RegsOnly.trans {b c d : Block} (h : b.RegsOnly c) (g : c.RegsOnly d) : b.RegsOnly d := by
  unfold Block.RegsOnly at *; rw [g, h]

theorem Block.RegsOnly.scp {b c : Block} (h : b.RegsOnly c) : b.RegsScp c := by
  unfold Block.RegsOnly at h; unfold Block.RegsScp; rw [h]

theorem Block.RegsScp.trans {b c d : Block} (h : b.RegsScp c) (g : c.RegsScp d) : b.RegsScp d := by
  unfold Block.RegsScp at *; rw [g, h]

theorem Block.only_wr (b : Block) (a : Nat) (v : Word) : b.RegsOnly (b.wr a v) := rfl

theorem Block.only_set (b : Block) (f : Fld) (v : Nat) : b.RegsOnly (b.set f v) := by
  unfold Block.set; split
  · exact b.only_wr _ _
  · exact (b.only_wr _ _).trans (Block.only_wr _ _ _)

theorem Block.only_irq (b : Block) (s : Nat) : b.RegsOnly (b.irq s) :=
  (((((((b.only_set _ _).trans (Block.only_set _ _ _)).trans (Block.only_set _ _ _)).trans (Block.only_wr _ _ _)).trans
    (Block.only_wr _ _ _)).trans (Block.only_wr _ _ _)).trans (Block.only_set _ _ _)).trans (Block.only_wr _ _ _)

theorem Block.only_raise (b : Block) (f : Fld) (s : Nat) : b.RegsOnly (b.raise f s) := by
  unfold Block.raise; split
  · exact .refl b
  · exact (b.only_set _ _).trans (Block.only_irq _ _)

theorem Block.only_devErr (b : Block) (f : Fld) : b.RegsOnly (b.devErr f) := b.only_raise f 0

theorem Block.only_setPhase (b : Block) (p : Nat) : b.RegsOnly (b.setPhase p) := by
  have h : b.RegsOnly ((b.set DEV_BOOT_PHASE p).irq 1) := (b.only_set _ _).trans (Block.only_irq _ _)
  unfold Block.setPhase; split
  · exact .refl b
  · dsimp only; split
    · exact h.trans (Block.only_set _ _ _)
    · split
      · exact h.trans (Block.only_set _ _ _)
      · exact h

theorem Block.only_setDckState (b : Block) (v : Nat) : b.RegsOnly (b.setDckState v) := by
  unfold Block.setDckState; split
  · exact .refl b
  · exact (b.only_set _ _).trans (Block.only_irq _ _)

theorem Block.only_hostCount (b : Block) (f : Fld) : b.RegsOnly (b.hostCount f) :=
  (b.only_set _ _).trans (Block.only_irq _ _)

theorem Block.only_setGate (b : Block) (g : Nat) (v : Bool) : b.RegsOnly (b.setGate g v) := by
  unfold Block.setGate; split <;> exact b.only_set _ _

theorem Block.scp_enqueue (b : Block) (e : ScpEvent) : b.RegsScp (b.enqueue e) := by
  have w (x : ScpUnit) : b.RegsScp { b with scp := x } := rfl
  have q (x : ScpUnit) (m n : Nat) : b.RegsScp ((({ b with scp := x } : Block).set SCP_QUEUE_N m).peak SCP_QUEUE_PEAK n) :=
    (w x).trans ((Block.only_set _ _ _).trans (Block.only_set _ _ _)).scp
  unfold Block.enqueue; split
  · split
    · exact w _
    · split
      · exact (w _).trans ((Block.only_set _ _ _).trans (Block.only_irq _ _)).scp
      · exact q _ _ _
  · split
    · split
      · exact w _
      · exact q _ _ _
    · exact q _ _ _

theorem Block.scp_event (b : Block) (c l x y : Nat) : b.RegsScp (b.event c l x y) := b.scp_enqueue _

theorem Block.scp_eventDelayed (b : Block) (c l x y : Nat) : b.RegsScp (b.eventDelayed c l x y) := b.scp_enqueue _

theorem Block.RegsOnly.p_shadow {b c : Block} (h : b.RegsOnly c) : c.shadow = b.shadow := by unfold Block.RegsOnly at h; rw [h]
theorem Block.RegsOnly.p_vq {b c : Block} (h : b.RegsOnly c) : c.vq = b.vq := by unfold Block.RegsOnly at h; rw [h]
theorem Block.RegsOnly.p_valid {b c : Block} (h : b.RegsOnly c) : c.valid = b.valid := by unfold Block.RegsOnly at h; rw [h]
theorem Block.RegsOnly.p_due {b c : Block} (h : b.RegsOnly c) : c.due = b.due := by unfold Block.RegsOnly at h; rw [h]
theorem Block.RegsOnly.p_latchHi {b c : Block} (h : b.RegsOnly c) : c.latchHi = b.latchHi := by unfold Block.RegsOnly at h; rw [h]
theorem Block.RegsOnly.p_heldLo {b c : Block} (h : b.RegsOnly c) : c.heldLo = b.heldLo := by unfold Block.RegsOnly at h; rw [h]
theorem Block.RegsOnly.p_stampLatch {b c : Block} (h : b.RegsOnly c) : c.stampLatch = b.stampLatch := by unfold Block.RegsOnly at h; rw [h]
theorem Block.RegsOnly.p_readData {b c : Block} (h : b.RegsOnly c) : c.readData = b.readData := by unfold Block.RegsOnly at h; rw [h]
theorem Block.RegsOnly.p_mem {b c : Block} (h : b.RegsOnly c) : c.mem = b.mem := by unfold Block.RegsOnly at h; rw [h]
theorem Block.RegsOnly.p_ecc {b c : Block} (h : b.RegsOnly c) : c.ecc = b.ecc := by unfold Block.RegsOnly at h; rw [h]
theorem Block.RegsOnly.p_time {b c : Block} (h : b.RegsOnly c) : c.time = b.time := by unfold Block.RegsOnly at h; rw [h]
theorem Block.RegsOnly.p_up {b c : Block} (h : b.RegsOnly c) : c.up = b.up := by unfold Block.RegsOnly at h; rw [h]
theorem Block.RegsOnly.p_free {b c : Block} (h : b.RegsOnly c) : c.free = b.free := by unfold Block.RegsOnly at h; rw [h]
theorem Block.RegsOnly.p_dealt {b c : Block} (h : b.RegsOnly c) : c.dealt = b.dealt := by unfold Block.RegsOnly at h; rw [h]
theorem Block.RegsOnly.p_passed {b c : Block} (h : b.RegsOnly c) : c.passed = b.passed := by unfold Block.RegsOnly at h; rw [h]
theorem Block.RegsOnly.p_boot {b c : Block} (h : b.RegsOnly c) : c.boot = b.boot := by unfold Block.RegsOnly at h; rw [h]
theorem Block.RegsOnly.p_trust {b c : Block} (h : b.RegsOnly c) : c.trust = b.trust := by unfold Block.RegsOnly at h; rw [h]
theorem Block.RegsOnly.p_scp {b c : Block} (h : b.RegsOnly c) : c.scp = b.scp := by unfold Block.RegsOnly at h; rw [h]
theorem Block.RegsOnly.p_host {b c : Block} (h : b.RegsOnly c) : c.host = b.host := by unfold Block.RegsOnly at h; rw [h]
theorem Block.RegsOnly.p_plant {b c : Block} (h : b.RegsOnly c) : c.plant = b.plant := by unfold Block.RegsOnly at h; rw [h]
theorem Block.RegsOnly.p_pd0 {b c : Block} (h : b.RegsOnly c) : c.pd0 = b.pd0 := by unfold Block.RegsOnly at h; rw [h]
theorem Block.RegsOnly.p_ang {b c : Block} (h : b.RegsOnly c) : c.ang = b.ang := by unfold Block.RegsOnly at h; rw [h]
theorem Block.RegsOnly.p_field {b c : Block} (h : b.RegsOnly c) : c.field = b.field := by unfold Block.RegsOnly at h; rw [h]
theorem Block.RegsOnly.p_safety {b c : Block} (h : b.RegsOnly c) : c.safety = b.safety := by unfold Block.RegsOnly at h; rw [h]
theorem Block.RegsOnly.p_axes {b c : Block} (h : b.RegsOnly c) : c.axes = b.axes := by unfold Block.RegsOnly at h; rw [h]
theorem Block.RegsOnly.p_chans {b c : Block} (h : b.RegsOnly c) : c.chans = b.chans := by unfold Block.RegsOnly at h; rw [h]
theorem Block.RegsOnly.p_entries {b c : Block} (h : b.RegsOnly c) : c.entries = b.entries := by unfold Block.RegsOnly at h; rw [h]
theorem Block.RegsOnly.p_descs {b c : Block} (h : b.RegsOnly c) : c.descs = b.descs := by unfold Block.RegsOnly at h; rw [h]
theorem Block.RegsOnly.p_flows {b c : Block} (h : b.RegsOnly c) : c.flows = b.flows := by unfold Block.RegsOnly at h; rw [h]
theorem Block.RegsOnly.p_engines {b c : Block} (h : b.RegsOnly c) : c.engines = b.engines := by unfold Block.RegsOnly at h; rw [h]
theorem Block.RegsOnly.p_segs {b c : Block} (h : b.RegsOnly c) : c.segs = b.segs := by unfold Block.RegsOnly at h; rw [h]
theorem Block.RegsOnly.p_ports {b c : Block} (h : b.RegsOnly c) : c.ports = b.ports := by unfold Block.RegsOnly at h; rw [h]
theorem Block.RegsOnly.p_partner {b c : Block} (h : b.RegsOnly c) : c.partner = b.partner := by unfold Block.RegsOnly at h; rw [h]
theorem Block.RegsOnly.p_roundAt {b c : Block} (h : b.RegsOnly c) : c.roundAt = b.roundAt := by unfold Block.RegsOnly at h; rw [h]
theorem Block.RegsOnly.p_cap {b c : Block} (h : b.RegsOnly c) : c.cap = b.cap := by unfold Block.RegsOnly at h; rw [h]

theorem Block.RegsScp.p_shadow {b c : Block} (h : b.RegsScp c) : c.shadow = b.shadow := by unfold Block.RegsScp at h; rw [h]
theorem Block.RegsScp.p_vq {b c : Block} (h : b.RegsScp c) : c.vq = b.vq := by unfold Block.RegsScp at h; rw [h]
theorem Block.RegsScp.p_valid {b c : Block} (h : b.RegsScp c) : c.valid = b.valid := by unfold Block.RegsScp at h; rw [h]
theorem Block.RegsScp.p_due {b c : Block} (h : b.RegsScp c) : c.due = b.due := by unfold Block.RegsScp at h; rw [h]
theorem Block.RegsScp.p_latchHi {b c : Block} (h : b.RegsScp c) : c.latchHi = b.latchHi := by unfold Block.RegsScp at h; rw [h]
theorem Block.RegsScp.p_heldLo {b c : Block} (h : b.RegsScp c) : c.heldLo = b.heldLo := by unfold Block.RegsScp at h; rw [h]
theorem Block.RegsScp.p_stampLatch {b c : Block} (h : b.RegsScp c) : c.stampLatch = b.stampLatch := by unfold Block.RegsScp at h; rw [h]
theorem Block.RegsScp.p_readData {b c : Block} (h : b.RegsScp c) : c.readData = b.readData := by unfold Block.RegsScp at h; rw [h]
theorem Block.RegsScp.p_mem {b c : Block} (h : b.RegsScp c) : c.mem = b.mem := by unfold Block.RegsScp at h; rw [h]
theorem Block.RegsScp.p_ecc {b c : Block} (h : b.RegsScp c) : c.ecc = b.ecc := by unfold Block.RegsScp at h; rw [h]
theorem Block.RegsScp.p_time {b c : Block} (h : b.RegsScp c) : c.time = b.time := by unfold Block.RegsScp at h; rw [h]
theorem Block.RegsScp.p_up {b c : Block} (h : b.RegsScp c) : c.up = b.up := by unfold Block.RegsScp at h; rw [h]
theorem Block.RegsScp.p_free {b c : Block} (h : b.RegsScp c) : c.free = b.free := by unfold Block.RegsScp at h; rw [h]
theorem Block.RegsScp.p_dealt {b c : Block} (h : b.RegsScp c) : c.dealt = b.dealt := by unfold Block.RegsScp at h; rw [h]
theorem Block.RegsScp.p_passed {b c : Block} (h : b.RegsScp c) : c.passed = b.passed := by unfold Block.RegsScp at h; rw [h]
theorem Block.RegsScp.p_boot {b c : Block} (h : b.RegsScp c) : c.boot = b.boot := by unfold Block.RegsScp at h; rw [h]
theorem Block.RegsScp.p_trust {b c : Block} (h : b.RegsScp c) : c.trust = b.trust := by unfold Block.RegsScp at h; rw [h]
theorem Block.RegsScp.p_host {b c : Block} (h : b.RegsScp c) : c.host = b.host := by unfold Block.RegsScp at h; rw [h]
theorem Block.RegsScp.p_plant {b c : Block} (h : b.RegsScp c) : c.plant = b.plant := by unfold Block.RegsScp at h; rw [h]
theorem Block.RegsScp.p_pd0 {b c : Block} (h : b.RegsScp c) : c.pd0 = b.pd0 := by unfold Block.RegsScp at h; rw [h]
theorem Block.RegsScp.p_ang {b c : Block} (h : b.RegsScp c) : c.ang = b.ang := by unfold Block.RegsScp at h; rw [h]
theorem Block.RegsScp.p_field {b c : Block} (h : b.RegsScp c) : c.field = b.field := by unfold Block.RegsScp at h; rw [h]
theorem Block.RegsScp.p_safety {b c : Block} (h : b.RegsScp c) : c.safety = b.safety := by unfold Block.RegsScp at h; rw [h]
theorem Block.RegsScp.p_axes {b c : Block} (h : b.RegsScp c) : c.axes = b.axes := by unfold Block.RegsScp at h; rw [h]
theorem Block.RegsScp.p_chans {b c : Block} (h : b.RegsScp c) : c.chans = b.chans := by unfold Block.RegsScp at h; rw [h]
theorem Block.RegsScp.p_entries {b c : Block} (h : b.RegsScp c) : c.entries = b.entries := by unfold Block.RegsScp at h; rw [h]
theorem Block.RegsScp.p_descs {b c : Block} (h : b.RegsScp c) : c.descs = b.descs := by unfold Block.RegsScp at h; rw [h]
theorem Block.RegsScp.p_flows {b c : Block} (h : b.RegsScp c) : c.flows = b.flows := by unfold Block.RegsScp at h; rw [h]
theorem Block.RegsScp.p_engines {b c : Block} (h : b.RegsScp c) : c.engines = b.engines := by unfold Block.RegsScp at h; rw [h]
theorem Block.RegsScp.p_segs {b c : Block} (h : b.RegsScp c) : c.segs = b.segs := by unfold Block.RegsScp at h; rw [h]
theorem Block.RegsScp.p_ports {b c : Block} (h : b.RegsScp c) : c.ports = b.ports := by unfold Block.RegsScp at h; rw [h]
theorem Block.RegsScp.p_partner {b c : Block} (h : b.RegsScp c) : c.partner = b.partner := by unfold Block.RegsScp at h; rw [h]
theorem Block.RegsScp.p_roundAt {b c : Block} (h : b.RegsScp c) : c.roundAt = b.roundAt := by unfold Block.RegsScp at h; rw [h]
theorem Block.RegsScp.p_cap {b c : Block} (h : b.RegsScp c) : c.cap = b.cap := by unfold Block.RegsScp at h; rw [h]

@[simp] theorem Block.wr_shadow (b : Block) (a : Nat) (v : Word) : (b.wr a v).shadow = b.shadow := (b.only_wr a v).p_shadow
@[simp] theorem Block.wr_vq (b : Block) (a : Nat) (v : Word) : (b.wr a v).vq = b.vq := (b.only_wr a v).p_vq
@[simp] theorem Block.wr_valid (b : Block) (a : Nat) (v : Word) : (b.wr a v).valid = b.valid := (b.only_wr a v).p_valid
@[simp] theorem Block.wr_due (b : Block) (a : Nat) (v : Word) : (b.wr a v).due = b.due := (b.only_wr a v).p_due
@[simp] theorem Block.wr_latchHi (b : Block) (a : Nat) (v : Word) : (b.wr a v).latchHi = b.latchHi := (b.only_wr a v).p_latchHi
@[simp] theorem Block.wr_heldLo (b : Block) (a : Nat) (v : Word) : (b.wr a v).heldLo = b.heldLo := (b.only_wr a v).p_heldLo
@[simp] theorem Block.wr_stampLatch (b : Block) (a : Nat) (v : Word) : (b.wr a v).stampLatch = b.stampLatch := (b.only_wr a v).p_stampLatch
@[simp] theorem Block.wr_readData (b : Block) (a : Nat) (v : Word) : (b.wr a v).readData = b.readData := (b.only_wr a v).p_readData
@[simp] theorem Block.wr_mem (b : Block) (a : Nat) (v : Word) : (b.wr a v).mem = b.mem := (b.only_wr a v).p_mem
@[simp] theorem Block.wr_ecc (b : Block) (a : Nat) (v : Word) : (b.wr a v).ecc = b.ecc := (b.only_wr a v).p_ecc
@[simp] theorem Block.wr_time (b : Block) (a : Nat) (v : Word) : (b.wr a v).time = b.time := (b.only_wr a v).p_time
@[simp] theorem Block.wr_up (b : Block) (a : Nat) (v : Word) : (b.wr a v).up = b.up := (b.only_wr a v).p_up
@[simp] theorem Block.wr_free (b : Block) (a : Nat) (v : Word) : (b.wr a v).free = b.free := (b.only_wr a v).p_free
@[simp] theorem Block.wr_dealt (b : Block) (a : Nat) (v : Word) : (b.wr a v).dealt = b.dealt := (b.only_wr a v).p_dealt
@[simp] theorem Block.wr_passed (b : Block) (a : Nat) (v : Word) : (b.wr a v).passed = b.passed := (b.only_wr a v).p_passed
@[simp] theorem Block.wr_boot (b : Block) (a : Nat) (v : Word) : (b.wr a v).boot = b.boot := (b.only_wr a v).p_boot
@[simp] theorem Block.wr_trust (b : Block) (a : Nat) (v : Word) : (b.wr a v).trust = b.trust := (b.only_wr a v).p_trust
@[simp] theorem Block.wr_scp (b : Block) (a : Nat) (v : Word) : (b.wr a v).scp = b.scp := (b.only_wr a v).p_scp
@[simp] theorem Block.wr_host (b : Block) (a : Nat) (v : Word) : (b.wr a v).host = b.host := (b.only_wr a v).p_host
@[simp] theorem Block.wr_plant (b : Block) (a : Nat) (v : Word) : (b.wr a v).plant = b.plant := (b.only_wr a v).p_plant
@[simp] theorem Block.wr_pd0 (b : Block) (a : Nat) (v : Word) : (b.wr a v).pd0 = b.pd0 := (b.only_wr a v).p_pd0
@[simp] theorem Block.wr_ang (b : Block) (a : Nat) (v : Word) : (b.wr a v).ang = b.ang := (b.only_wr a v).p_ang
@[simp] theorem Block.wr_field (b : Block) (a : Nat) (v : Word) : (b.wr a v).field = b.field := (b.only_wr a v).p_field
@[simp] theorem Block.wr_safety (b : Block) (a : Nat) (v : Word) : (b.wr a v).safety = b.safety := (b.only_wr a v).p_safety
@[simp] theorem Block.wr_axes (b : Block) (a : Nat) (v : Word) : (b.wr a v).axes = b.axes := (b.only_wr a v).p_axes
@[simp] theorem Block.wr_chans (b : Block) (a : Nat) (v : Word) : (b.wr a v).chans = b.chans := (b.only_wr a v).p_chans
@[simp] theorem Block.wr_entries (b : Block) (a : Nat) (v : Word) : (b.wr a v).entries = b.entries := (b.only_wr a v).p_entries
@[simp] theorem Block.wr_descs (b : Block) (a : Nat) (v : Word) : (b.wr a v).descs = b.descs := (b.only_wr a v).p_descs
@[simp] theorem Block.wr_flows (b : Block) (a : Nat) (v : Word) : (b.wr a v).flows = b.flows := (b.only_wr a v).p_flows
@[simp] theorem Block.wr_engines (b : Block) (a : Nat) (v : Word) : (b.wr a v).engines = b.engines := (b.only_wr a v).p_engines
@[simp] theorem Block.wr_segs (b : Block) (a : Nat) (v : Word) : (b.wr a v).segs = b.segs := (b.only_wr a v).p_segs
@[simp] theorem Block.wr_ports (b : Block) (a : Nat) (v : Word) : (b.wr a v).ports = b.ports := (b.only_wr a v).p_ports
@[simp] theorem Block.wr_partner (b : Block) (a : Nat) (v : Word) : (b.wr a v).partner = b.partner := (b.only_wr a v).p_partner
@[simp] theorem Block.wr_roundAt (b : Block) (a : Nat) (v : Word) : (b.wr a v).roundAt = b.roundAt := (b.only_wr a v).p_roundAt
@[simp] theorem Block.wr_cap (b : Block) (a : Nat) (v : Word) : (b.wr a v).cap = b.cap := (b.only_wr a v).p_cap

@[simp] theorem Block.set_shadow (b : Block) (f : Fld) (v : Nat) : (b.set f v).shadow = b.shadow := (b.only_set f v).p_shadow
@[simp] theorem Block.set_vq (b : Block) (f : Fld) (v : Nat) : (b.set f v).vq = b.vq := (b.only_set f v).p_vq
@[simp] theorem Block.set_valid (b : Block) (f : Fld) (v : Nat) : (b.set f v).valid = b.valid := (b.only_set f v).p_valid
@[simp] theorem Block.set_due (b : Block) (f : Fld) (v : Nat) : (b.set f v).due = b.due := (b.only_set f v).p_due
@[simp] theorem Block.set_latchHi (b : Block) (f : Fld) (v : Nat) : (b.set f v).latchHi = b.latchHi := (b.only_set f v).p_latchHi
@[simp] theorem Block.set_heldLo (b : Block) (f : Fld) (v : Nat) : (b.set f v).heldLo = b.heldLo := (b.only_set f v).p_heldLo
@[simp] theorem Block.set_stampLatch (b : Block) (f : Fld) (v : Nat) : (b.set f v).stampLatch = b.stampLatch := (b.only_set f v).p_stampLatch
@[simp] theorem Block.set_readData (b : Block) (f : Fld) (v : Nat) : (b.set f v).readData = b.readData := (b.only_set f v).p_readData
@[simp] theorem Block.set_mem (b : Block) (f : Fld) (v : Nat) : (b.set f v).mem = b.mem := (b.only_set f v).p_mem
@[simp] theorem Block.set_ecc (b : Block) (f : Fld) (v : Nat) : (b.set f v).ecc = b.ecc := (b.only_set f v).p_ecc
@[simp] theorem Block.set_time (b : Block) (f : Fld) (v : Nat) : (b.set f v).time = b.time := (b.only_set f v).p_time
@[simp] theorem Block.set_up (b : Block) (f : Fld) (v : Nat) : (b.set f v).up = b.up := (b.only_set f v).p_up
@[simp] theorem Block.set_free (b : Block) (f : Fld) (v : Nat) : (b.set f v).free = b.free := (b.only_set f v).p_free
@[simp] theorem Block.set_dealt (b : Block) (f : Fld) (v : Nat) : (b.set f v).dealt = b.dealt := (b.only_set f v).p_dealt
@[simp] theorem Block.set_passed (b : Block) (f : Fld) (v : Nat) : (b.set f v).passed = b.passed := (b.only_set f v).p_passed
@[simp] theorem Block.set_boot (b : Block) (f : Fld) (v : Nat) : (b.set f v).boot = b.boot := (b.only_set f v).p_boot
@[simp] theorem Block.set_trust (b : Block) (f : Fld) (v : Nat) : (b.set f v).trust = b.trust := (b.only_set f v).p_trust
@[simp] theorem Block.set_scp (b : Block) (f : Fld) (v : Nat) : (b.set f v).scp = b.scp := (b.only_set f v).p_scp
@[simp] theorem Block.set_host (b : Block) (f : Fld) (v : Nat) : (b.set f v).host = b.host := (b.only_set f v).p_host
@[simp] theorem Block.set_plant (b : Block) (f : Fld) (v : Nat) : (b.set f v).plant = b.plant := (b.only_set f v).p_plant
@[simp] theorem Block.set_pd0 (b : Block) (f : Fld) (v : Nat) : (b.set f v).pd0 = b.pd0 := (b.only_set f v).p_pd0
@[simp] theorem Block.set_ang (b : Block) (f : Fld) (v : Nat) : (b.set f v).ang = b.ang := (b.only_set f v).p_ang
@[simp] theorem Block.set_field (b : Block) (f : Fld) (v : Nat) : (b.set f v).field = b.field := (b.only_set f v).p_field
@[simp] theorem Block.set_safety (b : Block) (f : Fld) (v : Nat) : (b.set f v).safety = b.safety := (b.only_set f v).p_safety
@[simp] theorem Block.set_axes (b : Block) (f : Fld) (v : Nat) : (b.set f v).axes = b.axes := (b.only_set f v).p_axes
@[simp] theorem Block.set_chans (b : Block) (f : Fld) (v : Nat) : (b.set f v).chans = b.chans := (b.only_set f v).p_chans
@[simp] theorem Block.set_entries (b : Block) (f : Fld) (v : Nat) : (b.set f v).entries = b.entries := (b.only_set f v).p_entries
@[simp] theorem Block.set_descs (b : Block) (f : Fld) (v : Nat) : (b.set f v).descs = b.descs := (b.only_set f v).p_descs
@[simp] theorem Block.set_flows (b : Block) (f : Fld) (v : Nat) : (b.set f v).flows = b.flows := (b.only_set f v).p_flows
@[simp] theorem Block.set_engines (b : Block) (f : Fld) (v : Nat) : (b.set f v).engines = b.engines := (b.only_set f v).p_engines
@[simp] theorem Block.set_segs (b : Block) (f : Fld) (v : Nat) : (b.set f v).segs = b.segs := (b.only_set f v).p_segs
@[simp] theorem Block.set_ports (b : Block) (f : Fld) (v : Nat) : (b.set f v).ports = b.ports := (b.only_set f v).p_ports
@[simp] theorem Block.set_partner (b : Block) (f : Fld) (v : Nat) : (b.set f v).partner = b.partner := (b.only_set f v).p_partner
@[simp] theorem Block.set_roundAt (b : Block) (f : Fld) (v : Nat) : (b.set f v).roundAt = b.roundAt := (b.only_set f v).p_roundAt
@[simp] theorem Block.set_cap (b : Block) (f : Fld) (v : Nat) : (b.set f v).cap = b.cap := (b.only_set f v).p_cap

@[simp] theorem Block.irq_shadow (b : Block) (s : Nat) : (b.irq s).shadow = b.shadow := (b.only_irq s).p_shadow
@[simp] theorem Block.irq_vq (b : Block) (s : Nat) : (b.irq s).vq = b.vq := (b.only_irq s).p_vq
@[simp] theorem Block.irq_valid (b : Block) (s : Nat) : (b.irq s).valid = b.valid := (b.only_irq s).p_valid
@[simp] theorem Block.irq_due (b : Block) (s : Nat) : (b.irq s).due = b.due := (b.only_irq s).p_due
@[simp] theorem Block.irq_latchHi (b : Block) (s : Nat) : (b.irq s).latchHi = b.latchHi := (b.only_irq s).p_latchHi
@[simp] theorem Block.irq_heldLo (b : Block) (s : Nat) : (b.irq s).heldLo = b.heldLo := (b.only_irq s).p_heldLo
@[simp] theorem Block.irq_stampLatch (b : Block) (s : Nat) : (b.irq s).stampLatch = b.stampLatch := (b.only_irq s).p_stampLatch
@[simp] theorem Block.irq_readData (b : Block) (s : Nat) : (b.irq s).readData = b.readData := (b.only_irq s).p_readData
@[simp] theorem Block.irq_mem (b : Block) (s : Nat) : (b.irq s).mem = b.mem := (b.only_irq s).p_mem
@[simp] theorem Block.irq_ecc (b : Block) (s : Nat) : (b.irq s).ecc = b.ecc := (b.only_irq s).p_ecc
@[simp] theorem Block.irq_time (b : Block) (s : Nat) : (b.irq s).time = b.time := (b.only_irq s).p_time
@[simp] theorem Block.irq_up (b : Block) (s : Nat) : (b.irq s).up = b.up := (b.only_irq s).p_up
@[simp] theorem Block.irq_free (b : Block) (s : Nat) : (b.irq s).free = b.free := (b.only_irq s).p_free
@[simp] theorem Block.irq_dealt (b : Block) (s : Nat) : (b.irq s).dealt = b.dealt := (b.only_irq s).p_dealt
@[simp] theorem Block.irq_passed (b : Block) (s : Nat) : (b.irq s).passed = b.passed := (b.only_irq s).p_passed
@[simp] theorem Block.irq_boot (b : Block) (s : Nat) : (b.irq s).boot = b.boot := (b.only_irq s).p_boot
@[simp] theorem Block.irq_trust (b : Block) (s : Nat) : (b.irq s).trust = b.trust := (b.only_irq s).p_trust
@[simp] theorem Block.irq_scp (b : Block) (s : Nat) : (b.irq s).scp = b.scp := (b.only_irq s).p_scp
@[simp] theorem Block.irq_host (b : Block) (s : Nat) : (b.irq s).host = b.host := (b.only_irq s).p_host
@[simp] theorem Block.irq_plant (b : Block) (s : Nat) : (b.irq s).plant = b.plant := (b.only_irq s).p_plant
@[simp] theorem Block.irq_pd0 (b : Block) (s : Nat) : (b.irq s).pd0 = b.pd0 := (b.only_irq s).p_pd0
@[simp] theorem Block.irq_ang (b : Block) (s : Nat) : (b.irq s).ang = b.ang := (b.only_irq s).p_ang
@[simp] theorem Block.irq_field (b : Block) (s : Nat) : (b.irq s).field = b.field := (b.only_irq s).p_field
@[simp] theorem Block.irq_safety (b : Block) (s : Nat) : (b.irq s).safety = b.safety := (b.only_irq s).p_safety
@[simp] theorem Block.irq_axes (b : Block) (s : Nat) : (b.irq s).axes = b.axes := (b.only_irq s).p_axes
@[simp] theorem Block.irq_chans (b : Block) (s : Nat) : (b.irq s).chans = b.chans := (b.only_irq s).p_chans
@[simp] theorem Block.irq_entries (b : Block) (s : Nat) : (b.irq s).entries = b.entries := (b.only_irq s).p_entries
@[simp] theorem Block.irq_descs (b : Block) (s : Nat) : (b.irq s).descs = b.descs := (b.only_irq s).p_descs
@[simp] theorem Block.irq_flows (b : Block) (s : Nat) : (b.irq s).flows = b.flows := (b.only_irq s).p_flows
@[simp] theorem Block.irq_engines (b : Block) (s : Nat) : (b.irq s).engines = b.engines := (b.only_irq s).p_engines
@[simp] theorem Block.irq_segs (b : Block) (s : Nat) : (b.irq s).segs = b.segs := (b.only_irq s).p_segs
@[simp] theorem Block.irq_ports (b : Block) (s : Nat) : (b.irq s).ports = b.ports := (b.only_irq s).p_ports
@[simp] theorem Block.irq_partner (b : Block) (s : Nat) : (b.irq s).partner = b.partner := (b.only_irq s).p_partner
@[simp] theorem Block.irq_roundAt (b : Block) (s : Nat) : (b.irq s).roundAt = b.roundAt := (b.only_irq s).p_roundAt
@[simp] theorem Block.irq_cap (b : Block) (s : Nat) : (b.irq s).cap = b.cap := (b.only_irq s).p_cap

@[simp] theorem Block.raise_shadow (b : Block) (f : Fld) (s : Nat) : (b.raise f s).shadow = b.shadow := (b.only_raise f s).p_shadow
@[simp] theorem Block.raise_vq (b : Block) (f : Fld) (s : Nat) : (b.raise f s).vq = b.vq := (b.only_raise f s).p_vq
@[simp] theorem Block.raise_valid (b : Block) (f : Fld) (s : Nat) : (b.raise f s).valid = b.valid := (b.only_raise f s).p_valid
@[simp] theorem Block.raise_due (b : Block) (f : Fld) (s : Nat) : (b.raise f s).due = b.due := (b.only_raise f s).p_due
@[simp] theorem Block.raise_latchHi (b : Block) (f : Fld) (s : Nat) : (b.raise f s).latchHi = b.latchHi := (b.only_raise f s).p_latchHi
@[simp] theorem Block.raise_heldLo (b : Block) (f : Fld) (s : Nat) : (b.raise f s).heldLo = b.heldLo := (b.only_raise f s).p_heldLo
@[simp] theorem Block.raise_stampLatch (b : Block) (f : Fld) (s : Nat) : (b.raise f s).stampLatch = b.stampLatch := (b.only_raise f s).p_stampLatch
@[simp] theorem Block.raise_readData (b : Block) (f : Fld) (s : Nat) : (b.raise f s).readData = b.readData := (b.only_raise f s).p_readData
@[simp] theorem Block.raise_mem (b : Block) (f : Fld) (s : Nat) : (b.raise f s).mem = b.mem := (b.only_raise f s).p_mem
@[simp] theorem Block.raise_ecc (b : Block) (f : Fld) (s : Nat) : (b.raise f s).ecc = b.ecc := (b.only_raise f s).p_ecc
@[simp] theorem Block.raise_time (b : Block) (f : Fld) (s : Nat) : (b.raise f s).time = b.time := (b.only_raise f s).p_time
@[simp] theorem Block.raise_up (b : Block) (f : Fld) (s : Nat) : (b.raise f s).up = b.up := (b.only_raise f s).p_up
@[simp] theorem Block.raise_free (b : Block) (f : Fld) (s : Nat) : (b.raise f s).free = b.free := (b.only_raise f s).p_free
@[simp] theorem Block.raise_dealt (b : Block) (f : Fld) (s : Nat) : (b.raise f s).dealt = b.dealt := (b.only_raise f s).p_dealt
@[simp] theorem Block.raise_passed (b : Block) (f : Fld) (s : Nat) : (b.raise f s).passed = b.passed := (b.only_raise f s).p_passed
@[simp] theorem Block.raise_boot (b : Block) (f : Fld) (s : Nat) : (b.raise f s).boot = b.boot := (b.only_raise f s).p_boot
@[simp] theorem Block.raise_trust (b : Block) (f : Fld) (s : Nat) : (b.raise f s).trust = b.trust := (b.only_raise f s).p_trust
@[simp] theorem Block.raise_scp (b : Block) (f : Fld) (s : Nat) : (b.raise f s).scp = b.scp := (b.only_raise f s).p_scp
@[simp] theorem Block.raise_host (b : Block) (f : Fld) (s : Nat) : (b.raise f s).host = b.host := (b.only_raise f s).p_host
@[simp] theorem Block.raise_plant (b : Block) (f : Fld) (s : Nat) : (b.raise f s).plant = b.plant := (b.only_raise f s).p_plant
@[simp] theorem Block.raise_pd0 (b : Block) (f : Fld) (s : Nat) : (b.raise f s).pd0 = b.pd0 := (b.only_raise f s).p_pd0
@[simp] theorem Block.raise_ang (b : Block) (f : Fld) (s : Nat) : (b.raise f s).ang = b.ang := (b.only_raise f s).p_ang
@[simp] theorem Block.raise_field (b : Block) (f : Fld) (s : Nat) : (b.raise f s).field = b.field := (b.only_raise f s).p_field
@[simp] theorem Block.raise_safety (b : Block) (f : Fld) (s : Nat) : (b.raise f s).safety = b.safety := (b.only_raise f s).p_safety
@[simp] theorem Block.raise_axes (b : Block) (f : Fld) (s : Nat) : (b.raise f s).axes = b.axes := (b.only_raise f s).p_axes
@[simp] theorem Block.raise_chans (b : Block) (f : Fld) (s : Nat) : (b.raise f s).chans = b.chans := (b.only_raise f s).p_chans
@[simp] theorem Block.raise_entries (b : Block) (f : Fld) (s : Nat) : (b.raise f s).entries = b.entries := (b.only_raise f s).p_entries
@[simp] theorem Block.raise_descs (b : Block) (f : Fld) (s : Nat) : (b.raise f s).descs = b.descs := (b.only_raise f s).p_descs
@[simp] theorem Block.raise_flows (b : Block) (f : Fld) (s : Nat) : (b.raise f s).flows = b.flows := (b.only_raise f s).p_flows
@[simp] theorem Block.raise_engines (b : Block) (f : Fld) (s : Nat) : (b.raise f s).engines = b.engines := (b.only_raise f s).p_engines
@[simp] theorem Block.raise_segs (b : Block) (f : Fld) (s : Nat) : (b.raise f s).segs = b.segs := (b.only_raise f s).p_segs
@[simp] theorem Block.raise_ports (b : Block) (f : Fld) (s : Nat) : (b.raise f s).ports = b.ports := (b.only_raise f s).p_ports
@[simp] theorem Block.raise_partner (b : Block) (f : Fld) (s : Nat) : (b.raise f s).partner = b.partner := (b.only_raise f s).p_partner
@[simp] theorem Block.raise_roundAt (b : Block) (f : Fld) (s : Nat) : (b.raise f s).roundAt = b.roundAt := (b.only_raise f s).p_roundAt
@[simp] theorem Block.raise_cap (b : Block) (f : Fld) (s : Nat) : (b.raise f s).cap = b.cap := (b.only_raise f s).p_cap

@[simp] theorem Block.devErr_shadow (b : Block) (f : Fld) : (b.devErr f).shadow = b.shadow := (b.only_devErr f).p_shadow
@[simp] theorem Block.devErr_vq (b : Block) (f : Fld) : (b.devErr f).vq = b.vq := (b.only_devErr f).p_vq
@[simp] theorem Block.devErr_valid (b : Block) (f : Fld) : (b.devErr f).valid = b.valid := (b.only_devErr f).p_valid
@[simp] theorem Block.devErr_due (b : Block) (f : Fld) : (b.devErr f).due = b.due := (b.only_devErr f).p_due
@[simp] theorem Block.devErr_latchHi (b : Block) (f : Fld) : (b.devErr f).latchHi = b.latchHi := (b.only_devErr f).p_latchHi
@[simp] theorem Block.devErr_heldLo (b : Block) (f : Fld) : (b.devErr f).heldLo = b.heldLo := (b.only_devErr f).p_heldLo
@[simp] theorem Block.devErr_stampLatch (b : Block) (f : Fld) : (b.devErr f).stampLatch = b.stampLatch := (b.only_devErr f).p_stampLatch
@[simp] theorem Block.devErr_readData (b : Block) (f : Fld) : (b.devErr f).readData = b.readData := (b.only_devErr f).p_readData
@[simp] theorem Block.devErr_mem (b : Block) (f : Fld) : (b.devErr f).mem = b.mem := (b.only_devErr f).p_mem
@[simp] theorem Block.devErr_ecc (b : Block) (f : Fld) : (b.devErr f).ecc = b.ecc := (b.only_devErr f).p_ecc
@[simp] theorem Block.devErr_time (b : Block) (f : Fld) : (b.devErr f).time = b.time := (b.only_devErr f).p_time
@[simp] theorem Block.devErr_up (b : Block) (f : Fld) : (b.devErr f).up = b.up := (b.only_devErr f).p_up
@[simp] theorem Block.devErr_free (b : Block) (f : Fld) : (b.devErr f).free = b.free := (b.only_devErr f).p_free
@[simp] theorem Block.devErr_dealt (b : Block) (f : Fld) : (b.devErr f).dealt = b.dealt := (b.only_devErr f).p_dealt
@[simp] theorem Block.devErr_passed (b : Block) (f : Fld) : (b.devErr f).passed = b.passed := (b.only_devErr f).p_passed
@[simp] theorem Block.devErr_boot (b : Block) (f : Fld) : (b.devErr f).boot = b.boot := (b.only_devErr f).p_boot
@[simp] theorem Block.devErr_trust (b : Block) (f : Fld) : (b.devErr f).trust = b.trust := (b.only_devErr f).p_trust
@[simp] theorem Block.devErr_scp (b : Block) (f : Fld) : (b.devErr f).scp = b.scp := (b.only_devErr f).p_scp
@[simp] theorem Block.devErr_host (b : Block) (f : Fld) : (b.devErr f).host = b.host := (b.only_devErr f).p_host
@[simp] theorem Block.devErr_plant (b : Block) (f : Fld) : (b.devErr f).plant = b.plant := (b.only_devErr f).p_plant
@[simp] theorem Block.devErr_pd0 (b : Block) (f : Fld) : (b.devErr f).pd0 = b.pd0 := (b.only_devErr f).p_pd0
@[simp] theorem Block.devErr_ang (b : Block) (f : Fld) : (b.devErr f).ang = b.ang := (b.only_devErr f).p_ang
@[simp] theorem Block.devErr_field (b : Block) (f : Fld) : (b.devErr f).field = b.field := (b.only_devErr f).p_field
@[simp] theorem Block.devErr_safety (b : Block) (f : Fld) : (b.devErr f).safety = b.safety := (b.only_devErr f).p_safety
@[simp] theorem Block.devErr_axes (b : Block) (f : Fld) : (b.devErr f).axes = b.axes := (b.only_devErr f).p_axes
@[simp] theorem Block.devErr_chans (b : Block) (f : Fld) : (b.devErr f).chans = b.chans := (b.only_devErr f).p_chans
@[simp] theorem Block.devErr_entries (b : Block) (f : Fld) : (b.devErr f).entries = b.entries := (b.only_devErr f).p_entries
@[simp] theorem Block.devErr_descs (b : Block) (f : Fld) : (b.devErr f).descs = b.descs := (b.only_devErr f).p_descs
@[simp] theorem Block.devErr_flows (b : Block) (f : Fld) : (b.devErr f).flows = b.flows := (b.only_devErr f).p_flows
@[simp] theorem Block.devErr_engines (b : Block) (f : Fld) : (b.devErr f).engines = b.engines := (b.only_devErr f).p_engines
@[simp] theorem Block.devErr_segs (b : Block) (f : Fld) : (b.devErr f).segs = b.segs := (b.only_devErr f).p_segs
@[simp] theorem Block.devErr_ports (b : Block) (f : Fld) : (b.devErr f).ports = b.ports := (b.only_devErr f).p_ports
@[simp] theorem Block.devErr_partner (b : Block) (f : Fld) : (b.devErr f).partner = b.partner := (b.only_devErr f).p_partner
@[simp] theorem Block.devErr_roundAt (b : Block) (f : Fld) : (b.devErr f).roundAt = b.roundAt := (b.only_devErr f).p_roundAt
@[simp] theorem Block.devErr_cap (b : Block) (f : Fld) : (b.devErr f).cap = b.cap := (b.only_devErr f).p_cap

@[simp] theorem Block.setPhase_shadow (b : Block) (p : Nat) : (b.setPhase p).shadow = b.shadow := (b.only_setPhase p).p_shadow
@[simp] theorem Block.setPhase_vq (b : Block) (p : Nat) : (b.setPhase p).vq = b.vq := (b.only_setPhase p).p_vq
@[simp] theorem Block.setPhase_valid (b : Block) (p : Nat) : (b.setPhase p).valid = b.valid := (b.only_setPhase p).p_valid
@[simp] theorem Block.setPhase_due (b : Block) (p : Nat) : (b.setPhase p).due = b.due := (b.only_setPhase p).p_due
@[simp] theorem Block.setPhase_latchHi (b : Block) (p : Nat) : (b.setPhase p).latchHi = b.latchHi := (b.only_setPhase p).p_latchHi
@[simp] theorem Block.setPhase_heldLo (b : Block) (p : Nat) : (b.setPhase p).heldLo = b.heldLo := (b.only_setPhase p).p_heldLo
@[simp] theorem Block.setPhase_stampLatch (b : Block) (p : Nat) : (b.setPhase p).stampLatch = b.stampLatch := (b.only_setPhase p).p_stampLatch
@[simp] theorem Block.setPhase_readData (b : Block) (p : Nat) : (b.setPhase p).readData = b.readData := (b.only_setPhase p).p_readData
@[simp] theorem Block.setPhase_mem (b : Block) (p : Nat) : (b.setPhase p).mem = b.mem := (b.only_setPhase p).p_mem
@[simp] theorem Block.setPhase_ecc (b : Block) (p : Nat) : (b.setPhase p).ecc = b.ecc := (b.only_setPhase p).p_ecc
@[simp] theorem Block.setPhase_time (b : Block) (p : Nat) : (b.setPhase p).time = b.time := (b.only_setPhase p).p_time
@[simp] theorem Block.setPhase_up (b : Block) (p : Nat) : (b.setPhase p).up = b.up := (b.only_setPhase p).p_up
@[simp] theorem Block.setPhase_free (b : Block) (p : Nat) : (b.setPhase p).free = b.free := (b.only_setPhase p).p_free
@[simp] theorem Block.setPhase_dealt (b : Block) (p : Nat) : (b.setPhase p).dealt = b.dealt := (b.only_setPhase p).p_dealt
@[simp] theorem Block.setPhase_passed (b : Block) (p : Nat) : (b.setPhase p).passed = b.passed := (b.only_setPhase p).p_passed
@[simp] theorem Block.setPhase_boot (b : Block) (p : Nat) : (b.setPhase p).boot = b.boot := (b.only_setPhase p).p_boot
@[simp] theorem Block.setPhase_trust (b : Block) (p : Nat) : (b.setPhase p).trust = b.trust := (b.only_setPhase p).p_trust
@[simp] theorem Block.setPhase_scp (b : Block) (p : Nat) : (b.setPhase p).scp = b.scp := (b.only_setPhase p).p_scp
@[simp] theorem Block.setPhase_host (b : Block) (p : Nat) : (b.setPhase p).host = b.host := (b.only_setPhase p).p_host
@[simp] theorem Block.setPhase_plant (b : Block) (p : Nat) : (b.setPhase p).plant = b.plant := (b.only_setPhase p).p_plant
@[simp] theorem Block.setPhase_pd0 (b : Block) (p : Nat) : (b.setPhase p).pd0 = b.pd0 := (b.only_setPhase p).p_pd0
@[simp] theorem Block.setPhase_ang (b : Block) (p : Nat) : (b.setPhase p).ang = b.ang := (b.only_setPhase p).p_ang
@[simp] theorem Block.setPhase_field (b : Block) (p : Nat) : (b.setPhase p).field = b.field := (b.only_setPhase p).p_field
@[simp] theorem Block.setPhase_safety (b : Block) (p : Nat) : (b.setPhase p).safety = b.safety := (b.only_setPhase p).p_safety
@[simp] theorem Block.setPhase_axes (b : Block) (p : Nat) : (b.setPhase p).axes = b.axes := (b.only_setPhase p).p_axes
@[simp] theorem Block.setPhase_chans (b : Block) (p : Nat) : (b.setPhase p).chans = b.chans := (b.only_setPhase p).p_chans
@[simp] theorem Block.setPhase_entries (b : Block) (p : Nat) : (b.setPhase p).entries = b.entries := (b.only_setPhase p).p_entries
@[simp] theorem Block.setPhase_descs (b : Block) (p : Nat) : (b.setPhase p).descs = b.descs := (b.only_setPhase p).p_descs
@[simp] theorem Block.setPhase_flows (b : Block) (p : Nat) : (b.setPhase p).flows = b.flows := (b.only_setPhase p).p_flows
@[simp] theorem Block.setPhase_engines (b : Block) (p : Nat) : (b.setPhase p).engines = b.engines := (b.only_setPhase p).p_engines
@[simp] theorem Block.setPhase_segs (b : Block) (p : Nat) : (b.setPhase p).segs = b.segs := (b.only_setPhase p).p_segs
@[simp] theorem Block.setPhase_ports (b : Block) (p : Nat) : (b.setPhase p).ports = b.ports := (b.only_setPhase p).p_ports
@[simp] theorem Block.setPhase_partner (b : Block) (p : Nat) : (b.setPhase p).partner = b.partner := (b.only_setPhase p).p_partner
@[simp] theorem Block.setPhase_roundAt (b : Block) (p : Nat) : (b.setPhase p).roundAt = b.roundAt := (b.only_setPhase p).p_roundAt
@[simp] theorem Block.setPhase_cap (b : Block) (p : Nat) : (b.setPhase p).cap = b.cap := (b.only_setPhase p).p_cap

@[simp] theorem Block.setDckState_shadow (b : Block) (v : Nat) : (b.setDckState v).shadow = b.shadow := (b.only_setDckState v).p_shadow
@[simp] theorem Block.setDckState_vq (b : Block) (v : Nat) : (b.setDckState v).vq = b.vq := (b.only_setDckState v).p_vq
@[simp] theorem Block.setDckState_valid (b : Block) (v : Nat) : (b.setDckState v).valid = b.valid := (b.only_setDckState v).p_valid
@[simp] theorem Block.setDckState_due (b : Block) (v : Nat) : (b.setDckState v).due = b.due := (b.only_setDckState v).p_due
@[simp] theorem Block.setDckState_latchHi (b : Block) (v : Nat) : (b.setDckState v).latchHi = b.latchHi := (b.only_setDckState v).p_latchHi
@[simp] theorem Block.setDckState_heldLo (b : Block) (v : Nat) : (b.setDckState v).heldLo = b.heldLo := (b.only_setDckState v).p_heldLo
@[simp] theorem Block.setDckState_stampLatch (b : Block) (v : Nat) : (b.setDckState v).stampLatch = b.stampLatch := (b.only_setDckState v).p_stampLatch
@[simp] theorem Block.setDckState_readData (b : Block) (v : Nat) : (b.setDckState v).readData = b.readData := (b.only_setDckState v).p_readData
@[simp] theorem Block.setDckState_mem (b : Block) (v : Nat) : (b.setDckState v).mem = b.mem := (b.only_setDckState v).p_mem
@[simp] theorem Block.setDckState_ecc (b : Block) (v : Nat) : (b.setDckState v).ecc = b.ecc := (b.only_setDckState v).p_ecc
@[simp] theorem Block.setDckState_time (b : Block) (v : Nat) : (b.setDckState v).time = b.time := (b.only_setDckState v).p_time
@[simp] theorem Block.setDckState_up (b : Block) (v : Nat) : (b.setDckState v).up = b.up := (b.only_setDckState v).p_up
@[simp] theorem Block.setDckState_free (b : Block) (v : Nat) : (b.setDckState v).free = b.free := (b.only_setDckState v).p_free
@[simp] theorem Block.setDckState_dealt (b : Block) (v : Nat) : (b.setDckState v).dealt = b.dealt := (b.only_setDckState v).p_dealt
@[simp] theorem Block.setDckState_passed (b : Block) (v : Nat) : (b.setDckState v).passed = b.passed := (b.only_setDckState v).p_passed
@[simp] theorem Block.setDckState_boot (b : Block) (v : Nat) : (b.setDckState v).boot = b.boot := (b.only_setDckState v).p_boot
@[simp] theorem Block.setDckState_trust (b : Block) (v : Nat) : (b.setDckState v).trust = b.trust := (b.only_setDckState v).p_trust
@[simp] theorem Block.setDckState_scp (b : Block) (v : Nat) : (b.setDckState v).scp = b.scp := (b.only_setDckState v).p_scp
@[simp] theorem Block.setDckState_host (b : Block) (v : Nat) : (b.setDckState v).host = b.host := (b.only_setDckState v).p_host
@[simp] theorem Block.setDckState_plant (b : Block) (v : Nat) : (b.setDckState v).plant = b.plant := (b.only_setDckState v).p_plant
@[simp] theorem Block.setDckState_pd0 (b : Block) (v : Nat) : (b.setDckState v).pd0 = b.pd0 := (b.only_setDckState v).p_pd0
@[simp] theorem Block.setDckState_ang (b : Block) (v : Nat) : (b.setDckState v).ang = b.ang := (b.only_setDckState v).p_ang
@[simp] theorem Block.setDckState_field (b : Block) (v : Nat) : (b.setDckState v).field = b.field := (b.only_setDckState v).p_field
@[simp] theorem Block.setDckState_safety (b : Block) (v : Nat) : (b.setDckState v).safety = b.safety := (b.only_setDckState v).p_safety
@[simp] theorem Block.setDckState_axes (b : Block) (v : Nat) : (b.setDckState v).axes = b.axes := (b.only_setDckState v).p_axes
@[simp] theorem Block.setDckState_chans (b : Block) (v : Nat) : (b.setDckState v).chans = b.chans := (b.only_setDckState v).p_chans
@[simp] theorem Block.setDckState_entries (b : Block) (v : Nat) : (b.setDckState v).entries = b.entries := (b.only_setDckState v).p_entries
@[simp] theorem Block.setDckState_descs (b : Block) (v : Nat) : (b.setDckState v).descs = b.descs := (b.only_setDckState v).p_descs
@[simp] theorem Block.setDckState_flows (b : Block) (v : Nat) : (b.setDckState v).flows = b.flows := (b.only_setDckState v).p_flows
@[simp] theorem Block.setDckState_engines (b : Block) (v : Nat) : (b.setDckState v).engines = b.engines := (b.only_setDckState v).p_engines
@[simp] theorem Block.setDckState_segs (b : Block) (v : Nat) : (b.setDckState v).segs = b.segs := (b.only_setDckState v).p_segs
@[simp] theorem Block.setDckState_ports (b : Block) (v : Nat) : (b.setDckState v).ports = b.ports := (b.only_setDckState v).p_ports
@[simp] theorem Block.setDckState_partner (b : Block) (v : Nat) : (b.setDckState v).partner = b.partner := (b.only_setDckState v).p_partner
@[simp] theorem Block.setDckState_roundAt (b : Block) (v : Nat) : (b.setDckState v).roundAt = b.roundAt := (b.only_setDckState v).p_roundAt
@[simp] theorem Block.setDckState_cap (b : Block) (v : Nat) : (b.setDckState v).cap = b.cap := (b.only_setDckState v).p_cap

@[simp] theorem Block.hostCount_shadow (b : Block) (f : Fld) : (b.hostCount f).shadow = b.shadow := (b.only_hostCount f).p_shadow
@[simp] theorem Block.hostCount_vq (b : Block) (f : Fld) : (b.hostCount f).vq = b.vq := (b.only_hostCount f).p_vq
@[simp] theorem Block.hostCount_valid (b : Block) (f : Fld) : (b.hostCount f).valid = b.valid := (b.only_hostCount f).p_valid
@[simp] theorem Block.hostCount_due (b : Block) (f : Fld) : (b.hostCount f).due = b.due := (b.only_hostCount f).p_due
@[simp] theorem Block.hostCount_latchHi (b : Block) (f : Fld) : (b.hostCount f).latchHi = b.latchHi := (b.only_hostCount f).p_latchHi
@[simp] theorem Block.hostCount_heldLo (b : Block) (f : Fld) : (b.hostCount f).heldLo = b.heldLo := (b.only_hostCount f).p_heldLo
@[simp] theorem Block.hostCount_stampLatch (b : Block) (f : Fld) : (b.hostCount f).stampLatch = b.stampLatch := (b.only_hostCount f).p_stampLatch
@[simp] theorem Block.hostCount_readData (b : Block) (f : Fld) : (b.hostCount f).readData = b.readData := (b.only_hostCount f).p_readData
@[simp] theorem Block.hostCount_mem (b : Block) (f : Fld) : (b.hostCount f).mem = b.mem := (b.only_hostCount f).p_mem
@[simp] theorem Block.hostCount_ecc (b : Block) (f : Fld) : (b.hostCount f).ecc = b.ecc := (b.only_hostCount f).p_ecc
@[simp] theorem Block.hostCount_time (b : Block) (f : Fld) : (b.hostCount f).time = b.time := (b.only_hostCount f).p_time
@[simp] theorem Block.hostCount_up (b : Block) (f : Fld) : (b.hostCount f).up = b.up := (b.only_hostCount f).p_up
@[simp] theorem Block.hostCount_free (b : Block) (f : Fld) : (b.hostCount f).free = b.free := (b.only_hostCount f).p_free
@[simp] theorem Block.hostCount_dealt (b : Block) (f : Fld) : (b.hostCount f).dealt = b.dealt := (b.only_hostCount f).p_dealt
@[simp] theorem Block.hostCount_passed (b : Block) (f : Fld) : (b.hostCount f).passed = b.passed := (b.only_hostCount f).p_passed
@[simp] theorem Block.hostCount_boot (b : Block) (f : Fld) : (b.hostCount f).boot = b.boot := (b.only_hostCount f).p_boot
@[simp] theorem Block.hostCount_trust (b : Block) (f : Fld) : (b.hostCount f).trust = b.trust := (b.only_hostCount f).p_trust
@[simp] theorem Block.hostCount_scp (b : Block) (f : Fld) : (b.hostCount f).scp = b.scp := (b.only_hostCount f).p_scp
@[simp] theorem Block.hostCount_host (b : Block) (f : Fld) : (b.hostCount f).host = b.host := (b.only_hostCount f).p_host
@[simp] theorem Block.hostCount_plant (b : Block) (f : Fld) : (b.hostCount f).plant = b.plant := (b.only_hostCount f).p_plant
@[simp] theorem Block.hostCount_pd0 (b : Block) (f : Fld) : (b.hostCount f).pd0 = b.pd0 := (b.only_hostCount f).p_pd0
@[simp] theorem Block.hostCount_ang (b : Block) (f : Fld) : (b.hostCount f).ang = b.ang := (b.only_hostCount f).p_ang
@[simp] theorem Block.hostCount_field (b : Block) (f : Fld) : (b.hostCount f).field = b.field := (b.only_hostCount f).p_field
@[simp] theorem Block.hostCount_safety (b : Block) (f : Fld) : (b.hostCount f).safety = b.safety := (b.only_hostCount f).p_safety
@[simp] theorem Block.hostCount_axes (b : Block) (f : Fld) : (b.hostCount f).axes = b.axes := (b.only_hostCount f).p_axes
@[simp] theorem Block.hostCount_chans (b : Block) (f : Fld) : (b.hostCount f).chans = b.chans := (b.only_hostCount f).p_chans
@[simp] theorem Block.hostCount_entries (b : Block) (f : Fld) : (b.hostCount f).entries = b.entries := (b.only_hostCount f).p_entries
@[simp] theorem Block.hostCount_descs (b : Block) (f : Fld) : (b.hostCount f).descs = b.descs := (b.only_hostCount f).p_descs
@[simp] theorem Block.hostCount_flows (b : Block) (f : Fld) : (b.hostCount f).flows = b.flows := (b.only_hostCount f).p_flows
@[simp] theorem Block.hostCount_engines (b : Block) (f : Fld) : (b.hostCount f).engines = b.engines := (b.only_hostCount f).p_engines
@[simp] theorem Block.hostCount_segs (b : Block) (f : Fld) : (b.hostCount f).segs = b.segs := (b.only_hostCount f).p_segs
@[simp] theorem Block.hostCount_ports (b : Block) (f : Fld) : (b.hostCount f).ports = b.ports := (b.only_hostCount f).p_ports
@[simp] theorem Block.hostCount_partner (b : Block) (f : Fld) : (b.hostCount f).partner = b.partner := (b.only_hostCount f).p_partner
@[simp] theorem Block.hostCount_roundAt (b : Block) (f : Fld) : (b.hostCount f).roundAt = b.roundAt := (b.only_hostCount f).p_roundAt
@[simp] theorem Block.hostCount_cap (b : Block) (f : Fld) : (b.hostCount f).cap = b.cap := (b.only_hostCount f).p_cap

@[simp] theorem Block.setGate_shadow (b : Block) (g : Nat) (v : Bool) : (b.setGate g v).shadow = b.shadow := (b.only_setGate g v).p_shadow
@[simp] theorem Block.setGate_vq (b : Block) (g : Nat) (v : Bool) : (b.setGate g v).vq = b.vq := (b.only_setGate g v).p_vq
@[simp] theorem Block.setGate_valid (b : Block) (g : Nat) (v : Bool) : (b.setGate g v).valid = b.valid := (b.only_setGate g v).p_valid
@[simp] theorem Block.setGate_due (b : Block) (g : Nat) (v : Bool) : (b.setGate g v).due = b.due := (b.only_setGate g v).p_due
@[simp] theorem Block.setGate_latchHi (b : Block) (g : Nat) (v : Bool) : (b.setGate g v).latchHi = b.latchHi := (b.only_setGate g v).p_latchHi
@[simp] theorem Block.setGate_heldLo (b : Block) (g : Nat) (v : Bool) : (b.setGate g v).heldLo = b.heldLo := (b.only_setGate g v).p_heldLo
@[simp] theorem Block.setGate_stampLatch (b : Block) (g : Nat) (v : Bool) : (b.setGate g v).stampLatch = b.stampLatch := (b.only_setGate g v).p_stampLatch
@[simp] theorem Block.setGate_readData (b : Block) (g : Nat) (v : Bool) : (b.setGate g v).readData = b.readData := (b.only_setGate g v).p_readData
@[simp] theorem Block.setGate_mem (b : Block) (g : Nat) (v : Bool) : (b.setGate g v).mem = b.mem := (b.only_setGate g v).p_mem
@[simp] theorem Block.setGate_ecc (b : Block) (g : Nat) (v : Bool) : (b.setGate g v).ecc = b.ecc := (b.only_setGate g v).p_ecc
@[simp] theorem Block.setGate_time (b : Block) (g : Nat) (v : Bool) : (b.setGate g v).time = b.time := (b.only_setGate g v).p_time
@[simp] theorem Block.setGate_up (b : Block) (g : Nat) (v : Bool) : (b.setGate g v).up = b.up := (b.only_setGate g v).p_up
@[simp] theorem Block.setGate_free (b : Block) (g : Nat) (v : Bool) : (b.setGate g v).free = b.free := (b.only_setGate g v).p_free
@[simp] theorem Block.setGate_dealt (b : Block) (g : Nat) (v : Bool) : (b.setGate g v).dealt = b.dealt := (b.only_setGate g v).p_dealt
@[simp] theorem Block.setGate_passed (b : Block) (g : Nat) (v : Bool) : (b.setGate g v).passed = b.passed := (b.only_setGate g v).p_passed
@[simp] theorem Block.setGate_boot (b : Block) (g : Nat) (v : Bool) : (b.setGate g v).boot = b.boot := (b.only_setGate g v).p_boot
@[simp] theorem Block.setGate_trust (b : Block) (g : Nat) (v : Bool) : (b.setGate g v).trust = b.trust := (b.only_setGate g v).p_trust
@[simp] theorem Block.setGate_scp (b : Block) (g : Nat) (v : Bool) : (b.setGate g v).scp = b.scp := (b.only_setGate g v).p_scp
@[simp] theorem Block.setGate_host (b : Block) (g : Nat) (v : Bool) : (b.setGate g v).host = b.host := (b.only_setGate g v).p_host
@[simp] theorem Block.setGate_plant (b : Block) (g : Nat) (v : Bool) : (b.setGate g v).plant = b.plant := (b.only_setGate g v).p_plant
@[simp] theorem Block.setGate_pd0 (b : Block) (g : Nat) (v : Bool) : (b.setGate g v).pd0 = b.pd0 := (b.only_setGate g v).p_pd0
@[simp] theorem Block.setGate_ang (b : Block) (g : Nat) (v : Bool) : (b.setGate g v).ang = b.ang := (b.only_setGate g v).p_ang
@[simp] theorem Block.setGate_field (b : Block) (g : Nat) (v : Bool) : (b.setGate g v).field = b.field := (b.only_setGate g v).p_field
@[simp] theorem Block.setGate_safety (b : Block) (g : Nat) (v : Bool) : (b.setGate g v).safety = b.safety := (b.only_setGate g v).p_safety
@[simp] theorem Block.setGate_axes (b : Block) (g : Nat) (v : Bool) : (b.setGate g v).axes = b.axes := (b.only_setGate g v).p_axes
@[simp] theorem Block.setGate_chans (b : Block) (g : Nat) (v : Bool) : (b.setGate g v).chans = b.chans := (b.only_setGate g v).p_chans
@[simp] theorem Block.setGate_entries (b : Block) (g : Nat) (v : Bool) : (b.setGate g v).entries = b.entries := (b.only_setGate g v).p_entries
@[simp] theorem Block.setGate_descs (b : Block) (g : Nat) (v : Bool) : (b.setGate g v).descs = b.descs := (b.only_setGate g v).p_descs
@[simp] theorem Block.setGate_flows (b : Block) (g : Nat) (v : Bool) : (b.setGate g v).flows = b.flows := (b.only_setGate g v).p_flows
@[simp] theorem Block.setGate_engines (b : Block) (g : Nat) (v : Bool) : (b.setGate g v).engines = b.engines := (b.only_setGate g v).p_engines
@[simp] theorem Block.setGate_segs (b : Block) (g : Nat) (v : Bool) : (b.setGate g v).segs = b.segs := (b.only_setGate g v).p_segs
@[simp] theorem Block.setGate_ports (b : Block) (g : Nat) (v : Bool) : (b.setGate g v).ports = b.ports := (b.only_setGate g v).p_ports
@[simp] theorem Block.setGate_partner (b : Block) (g : Nat) (v : Bool) : (b.setGate g v).partner = b.partner := (b.only_setGate g v).p_partner
@[simp] theorem Block.setGate_roundAt (b : Block) (g : Nat) (v : Bool) : (b.setGate g v).roundAt = b.roundAt := (b.only_setGate g v).p_roundAt
@[simp] theorem Block.setGate_cap (b : Block) (g : Nat) (v : Bool) : (b.setGate g v).cap = b.cap := (b.only_setGate g v).p_cap

@[simp] theorem Block.enqueue_shadow (b : Block) (e : ScpEvent) : (b.enqueue e).shadow = b.shadow := (b.scp_enqueue e).p_shadow
@[simp] theorem Block.enqueue_vq (b : Block) (e : ScpEvent) : (b.enqueue e).vq = b.vq := (b.scp_enqueue e).p_vq
@[simp] theorem Block.enqueue_valid (b : Block) (e : ScpEvent) : (b.enqueue e).valid = b.valid := (b.scp_enqueue e).p_valid
@[simp] theorem Block.enqueue_due (b : Block) (e : ScpEvent) : (b.enqueue e).due = b.due := (b.scp_enqueue e).p_due
@[simp] theorem Block.enqueue_latchHi (b : Block) (e : ScpEvent) : (b.enqueue e).latchHi = b.latchHi := (b.scp_enqueue e).p_latchHi
@[simp] theorem Block.enqueue_heldLo (b : Block) (e : ScpEvent) : (b.enqueue e).heldLo = b.heldLo := (b.scp_enqueue e).p_heldLo
@[simp] theorem Block.enqueue_stampLatch (b : Block) (e : ScpEvent) : (b.enqueue e).stampLatch = b.stampLatch := (b.scp_enqueue e).p_stampLatch
@[simp] theorem Block.enqueue_readData (b : Block) (e : ScpEvent) : (b.enqueue e).readData = b.readData := (b.scp_enqueue e).p_readData
@[simp] theorem Block.enqueue_mem (b : Block) (e : ScpEvent) : (b.enqueue e).mem = b.mem := (b.scp_enqueue e).p_mem
@[simp] theorem Block.enqueue_ecc (b : Block) (e : ScpEvent) : (b.enqueue e).ecc = b.ecc := (b.scp_enqueue e).p_ecc
@[simp] theorem Block.enqueue_time (b : Block) (e : ScpEvent) : (b.enqueue e).time = b.time := (b.scp_enqueue e).p_time
@[simp] theorem Block.enqueue_up (b : Block) (e : ScpEvent) : (b.enqueue e).up = b.up := (b.scp_enqueue e).p_up
@[simp] theorem Block.enqueue_free (b : Block) (e : ScpEvent) : (b.enqueue e).free = b.free := (b.scp_enqueue e).p_free
@[simp] theorem Block.enqueue_dealt (b : Block) (e : ScpEvent) : (b.enqueue e).dealt = b.dealt := (b.scp_enqueue e).p_dealt
@[simp] theorem Block.enqueue_passed (b : Block) (e : ScpEvent) : (b.enqueue e).passed = b.passed := (b.scp_enqueue e).p_passed
@[simp] theorem Block.enqueue_boot (b : Block) (e : ScpEvent) : (b.enqueue e).boot = b.boot := (b.scp_enqueue e).p_boot
@[simp] theorem Block.enqueue_trust (b : Block) (e : ScpEvent) : (b.enqueue e).trust = b.trust := (b.scp_enqueue e).p_trust
@[simp] theorem Block.enqueue_host (b : Block) (e : ScpEvent) : (b.enqueue e).host = b.host := (b.scp_enqueue e).p_host
@[simp] theorem Block.enqueue_plant (b : Block) (e : ScpEvent) : (b.enqueue e).plant = b.plant := (b.scp_enqueue e).p_plant
@[simp] theorem Block.enqueue_pd0 (b : Block) (e : ScpEvent) : (b.enqueue e).pd0 = b.pd0 := (b.scp_enqueue e).p_pd0
@[simp] theorem Block.enqueue_ang (b : Block) (e : ScpEvent) : (b.enqueue e).ang = b.ang := (b.scp_enqueue e).p_ang
@[simp] theorem Block.enqueue_field (b : Block) (e : ScpEvent) : (b.enqueue e).field = b.field := (b.scp_enqueue e).p_field
@[simp] theorem Block.enqueue_safety (b : Block) (e : ScpEvent) : (b.enqueue e).safety = b.safety := (b.scp_enqueue e).p_safety
@[simp] theorem Block.enqueue_axes (b : Block) (e : ScpEvent) : (b.enqueue e).axes = b.axes := (b.scp_enqueue e).p_axes
@[simp] theorem Block.enqueue_chans (b : Block) (e : ScpEvent) : (b.enqueue e).chans = b.chans := (b.scp_enqueue e).p_chans
@[simp] theorem Block.enqueue_entries (b : Block) (e : ScpEvent) : (b.enqueue e).entries = b.entries := (b.scp_enqueue e).p_entries
@[simp] theorem Block.enqueue_descs (b : Block) (e : ScpEvent) : (b.enqueue e).descs = b.descs := (b.scp_enqueue e).p_descs
@[simp] theorem Block.enqueue_flows (b : Block) (e : ScpEvent) : (b.enqueue e).flows = b.flows := (b.scp_enqueue e).p_flows
@[simp] theorem Block.enqueue_engines (b : Block) (e : ScpEvent) : (b.enqueue e).engines = b.engines := (b.scp_enqueue e).p_engines
@[simp] theorem Block.enqueue_segs (b : Block) (e : ScpEvent) : (b.enqueue e).segs = b.segs := (b.scp_enqueue e).p_segs
@[simp] theorem Block.enqueue_ports (b : Block) (e : ScpEvent) : (b.enqueue e).ports = b.ports := (b.scp_enqueue e).p_ports
@[simp] theorem Block.enqueue_partner (b : Block) (e : ScpEvent) : (b.enqueue e).partner = b.partner := (b.scp_enqueue e).p_partner
@[simp] theorem Block.enqueue_roundAt (b : Block) (e : ScpEvent) : (b.enqueue e).roundAt = b.roundAt := (b.scp_enqueue e).p_roundAt
@[simp] theorem Block.enqueue_cap (b : Block) (e : ScpEvent) : (b.enqueue e).cap = b.cap := (b.scp_enqueue e).p_cap

@[simp] theorem Block.event_shadow (b : Block) (c l x y : Nat) : (b.event c l x y).shadow = b.shadow := (b.scp_event c l x y).p_shadow
@[simp] theorem Block.event_vq (b : Block) (c l x y : Nat) : (b.event c l x y).vq = b.vq := (b.scp_event c l x y).p_vq
@[simp] theorem Block.event_valid (b : Block) (c l x y : Nat) : (b.event c l x y).valid = b.valid := (b.scp_event c l x y).p_valid
@[simp] theorem Block.event_due (b : Block) (c l x y : Nat) : (b.event c l x y).due = b.due := (b.scp_event c l x y).p_due
@[simp] theorem Block.event_latchHi (b : Block) (c l x y : Nat) : (b.event c l x y).latchHi = b.latchHi := (b.scp_event c l x y).p_latchHi
@[simp] theorem Block.event_heldLo (b : Block) (c l x y : Nat) : (b.event c l x y).heldLo = b.heldLo := (b.scp_event c l x y).p_heldLo
@[simp] theorem Block.event_stampLatch (b : Block) (c l x y : Nat) : (b.event c l x y).stampLatch = b.stampLatch := (b.scp_event c l x y).p_stampLatch
@[simp] theorem Block.event_readData (b : Block) (c l x y : Nat) : (b.event c l x y).readData = b.readData := (b.scp_event c l x y).p_readData
@[simp] theorem Block.event_mem (b : Block) (c l x y : Nat) : (b.event c l x y).mem = b.mem := (b.scp_event c l x y).p_mem
@[simp] theorem Block.event_ecc (b : Block) (c l x y : Nat) : (b.event c l x y).ecc = b.ecc := (b.scp_event c l x y).p_ecc
@[simp] theorem Block.event_time (b : Block) (c l x y : Nat) : (b.event c l x y).time = b.time := (b.scp_event c l x y).p_time
@[simp] theorem Block.event_up (b : Block) (c l x y : Nat) : (b.event c l x y).up = b.up := (b.scp_event c l x y).p_up
@[simp] theorem Block.event_free (b : Block) (c l x y : Nat) : (b.event c l x y).free = b.free := (b.scp_event c l x y).p_free
@[simp] theorem Block.event_dealt (b : Block) (c l x y : Nat) : (b.event c l x y).dealt = b.dealt := (b.scp_event c l x y).p_dealt
@[simp] theorem Block.event_passed (b : Block) (c l x y : Nat) : (b.event c l x y).passed = b.passed := (b.scp_event c l x y).p_passed
@[simp] theorem Block.event_boot (b : Block) (c l x y : Nat) : (b.event c l x y).boot = b.boot := (b.scp_event c l x y).p_boot
@[simp] theorem Block.event_trust (b : Block) (c l x y : Nat) : (b.event c l x y).trust = b.trust := (b.scp_event c l x y).p_trust
@[simp] theorem Block.event_host (b : Block) (c l x y : Nat) : (b.event c l x y).host = b.host := (b.scp_event c l x y).p_host
@[simp] theorem Block.event_plant (b : Block) (c l x y : Nat) : (b.event c l x y).plant = b.plant := (b.scp_event c l x y).p_plant
@[simp] theorem Block.event_pd0 (b : Block) (c l x y : Nat) : (b.event c l x y).pd0 = b.pd0 := (b.scp_event c l x y).p_pd0
@[simp] theorem Block.event_ang (b : Block) (c l x y : Nat) : (b.event c l x y).ang = b.ang := (b.scp_event c l x y).p_ang
@[simp] theorem Block.event_field (b : Block) (c l x y : Nat) : (b.event c l x y).field = b.field := (b.scp_event c l x y).p_field
@[simp] theorem Block.event_safety (b : Block) (c l x y : Nat) : (b.event c l x y).safety = b.safety := (b.scp_event c l x y).p_safety
@[simp] theorem Block.event_axes (b : Block) (c l x y : Nat) : (b.event c l x y).axes = b.axes := (b.scp_event c l x y).p_axes
@[simp] theorem Block.event_chans (b : Block) (c l x y : Nat) : (b.event c l x y).chans = b.chans := (b.scp_event c l x y).p_chans
@[simp] theorem Block.event_entries (b : Block) (c l x y : Nat) : (b.event c l x y).entries = b.entries := (b.scp_event c l x y).p_entries
@[simp] theorem Block.event_descs (b : Block) (c l x y : Nat) : (b.event c l x y).descs = b.descs := (b.scp_event c l x y).p_descs
@[simp] theorem Block.event_flows (b : Block) (c l x y : Nat) : (b.event c l x y).flows = b.flows := (b.scp_event c l x y).p_flows
@[simp] theorem Block.event_engines (b : Block) (c l x y : Nat) : (b.event c l x y).engines = b.engines := (b.scp_event c l x y).p_engines
@[simp] theorem Block.event_segs (b : Block) (c l x y : Nat) : (b.event c l x y).segs = b.segs := (b.scp_event c l x y).p_segs
@[simp] theorem Block.event_ports (b : Block) (c l x y : Nat) : (b.event c l x y).ports = b.ports := (b.scp_event c l x y).p_ports
@[simp] theorem Block.event_partner (b : Block) (c l x y : Nat) : (b.event c l x y).partner = b.partner := (b.scp_event c l x y).p_partner
@[simp] theorem Block.event_roundAt (b : Block) (c l x y : Nat) : (b.event c l x y).roundAt = b.roundAt := (b.scp_event c l x y).p_roundAt
@[simp] theorem Block.event_cap (b : Block) (c l x y : Nat) : (b.event c l x y).cap = b.cap := (b.scp_event c l x y).p_cap

@[simp] theorem Block.eventDelayed_shadow (b : Block) (c l x y : Nat) : (b.eventDelayed c l x y).shadow = b.shadow := (b.scp_eventDelayed c l x y).p_shadow
@[simp] theorem Block.eventDelayed_vq (b : Block) (c l x y : Nat) : (b.eventDelayed c l x y).vq = b.vq := (b.scp_eventDelayed c l x y).p_vq
@[simp] theorem Block.eventDelayed_valid (b : Block) (c l x y : Nat) : (b.eventDelayed c l x y).valid = b.valid := (b.scp_eventDelayed c l x y).p_valid
@[simp] theorem Block.eventDelayed_due (b : Block) (c l x y : Nat) : (b.eventDelayed c l x y).due = b.due := (b.scp_eventDelayed c l x y).p_due
@[simp] theorem Block.eventDelayed_latchHi (b : Block) (c l x y : Nat) : (b.eventDelayed c l x y).latchHi = b.latchHi := (b.scp_eventDelayed c l x y).p_latchHi
@[simp] theorem Block.eventDelayed_heldLo (b : Block) (c l x y : Nat) : (b.eventDelayed c l x y).heldLo = b.heldLo := (b.scp_eventDelayed c l x y).p_heldLo
@[simp] theorem Block.eventDelayed_stampLatch (b : Block) (c l x y : Nat) : (b.eventDelayed c l x y).stampLatch = b.stampLatch := (b.scp_eventDelayed c l x y).p_stampLatch
@[simp] theorem Block.eventDelayed_readData (b : Block) (c l x y : Nat) : (b.eventDelayed c l x y).readData = b.readData := (b.scp_eventDelayed c l x y).p_readData
@[simp] theorem Block.eventDelayed_mem (b : Block) (c l x y : Nat) : (b.eventDelayed c l x y).mem = b.mem := (b.scp_eventDelayed c l x y).p_mem
@[simp] theorem Block.eventDelayed_ecc (b : Block) (c l x y : Nat) : (b.eventDelayed c l x y).ecc = b.ecc := (b.scp_eventDelayed c l x y).p_ecc
@[simp] theorem Block.eventDelayed_time (b : Block) (c l x y : Nat) : (b.eventDelayed c l x y).time = b.time := (b.scp_eventDelayed c l x y).p_time
@[simp] theorem Block.eventDelayed_up (b : Block) (c l x y : Nat) : (b.eventDelayed c l x y).up = b.up := (b.scp_eventDelayed c l x y).p_up
@[simp] theorem Block.eventDelayed_free (b : Block) (c l x y : Nat) : (b.eventDelayed c l x y).free = b.free := (b.scp_eventDelayed c l x y).p_free
@[simp] theorem Block.eventDelayed_dealt (b : Block) (c l x y : Nat) : (b.eventDelayed c l x y).dealt = b.dealt := (b.scp_eventDelayed c l x y).p_dealt
@[simp] theorem Block.eventDelayed_passed (b : Block) (c l x y : Nat) : (b.eventDelayed c l x y).passed = b.passed := (b.scp_eventDelayed c l x y).p_passed
@[simp] theorem Block.eventDelayed_boot (b : Block) (c l x y : Nat) : (b.eventDelayed c l x y).boot = b.boot := (b.scp_eventDelayed c l x y).p_boot
@[simp] theorem Block.eventDelayed_trust (b : Block) (c l x y : Nat) : (b.eventDelayed c l x y).trust = b.trust := (b.scp_eventDelayed c l x y).p_trust
@[simp] theorem Block.eventDelayed_host (b : Block) (c l x y : Nat) : (b.eventDelayed c l x y).host = b.host := (b.scp_eventDelayed c l x y).p_host
@[simp] theorem Block.eventDelayed_plant (b : Block) (c l x y : Nat) : (b.eventDelayed c l x y).plant = b.plant := (b.scp_eventDelayed c l x y).p_plant
@[simp] theorem Block.eventDelayed_pd0 (b : Block) (c l x y : Nat) : (b.eventDelayed c l x y).pd0 = b.pd0 := (b.scp_eventDelayed c l x y).p_pd0
@[simp] theorem Block.eventDelayed_ang (b : Block) (c l x y : Nat) : (b.eventDelayed c l x y).ang = b.ang := (b.scp_eventDelayed c l x y).p_ang
@[simp] theorem Block.eventDelayed_field (b : Block) (c l x y : Nat) : (b.eventDelayed c l x y).field = b.field := (b.scp_eventDelayed c l x y).p_field
@[simp] theorem Block.eventDelayed_safety (b : Block) (c l x y : Nat) : (b.eventDelayed c l x y).safety = b.safety := (b.scp_eventDelayed c l x y).p_safety
@[simp] theorem Block.eventDelayed_axes (b : Block) (c l x y : Nat) : (b.eventDelayed c l x y).axes = b.axes := (b.scp_eventDelayed c l x y).p_axes
@[simp] theorem Block.eventDelayed_chans (b : Block) (c l x y : Nat) : (b.eventDelayed c l x y).chans = b.chans := (b.scp_eventDelayed c l x y).p_chans
@[simp] theorem Block.eventDelayed_entries (b : Block) (c l x y : Nat) : (b.eventDelayed c l x y).entries = b.entries := (b.scp_eventDelayed c l x y).p_entries
@[simp] theorem Block.eventDelayed_descs (b : Block) (c l x y : Nat) : (b.eventDelayed c l x y).descs = b.descs := (b.scp_eventDelayed c l x y).p_descs
@[simp] theorem Block.eventDelayed_flows (b : Block) (c l x y : Nat) : (b.eventDelayed c l x y).flows = b.flows := (b.scp_eventDelayed c l x y).p_flows
@[simp] theorem Block.eventDelayed_engines (b : Block) (c l x y : Nat) : (b.eventDelayed c l x y).engines = b.engines := (b.scp_eventDelayed c l x y).p_engines
@[simp] theorem Block.eventDelayed_segs (b : Block) (c l x y : Nat) : (b.eventDelayed c l x y).segs = b.segs := (b.scp_eventDelayed c l x y).p_segs
@[simp] theorem Block.eventDelayed_ports (b : Block) (c l x y : Nat) : (b.eventDelayed c l x y).ports = b.ports := (b.scp_eventDelayed c l x y).p_ports
@[simp] theorem Block.eventDelayed_partner (b : Block) (c l x y : Nat) : (b.eventDelayed c l x y).partner = b.partner := (b.scp_eventDelayed c l x y).p_partner
@[simp] theorem Block.eventDelayed_roundAt (b : Block) (c l x y : Nat) : (b.eventDelayed c l x y).roundAt = b.roundAt := (b.scp_eventDelayed c l x y).p_roundAt
@[simp] theorem Block.eventDelayed_cap (b : Block) (c l x y : Nat) : (b.eventDelayed c l x y).cap = b.cap := (b.scp_eventDelayed c l x y).p_cap

/-! ### Registers after a write -/

@[simp] theorem Block.wr_regs (b : Block) (a : Nat) (v : Word) : (b.wr a v).regs = sput resetReg b.regs a v := rfl

/-- The registers a field lies in. -/
def Fld.meets (f : Fld) (a : Nat) : Prop := a = f.addr ∨ (32 < f.lo + f.w ∧ a = f.addr + 4)

/-- A field set leaves every register it does not lie in alone. -/
theorem Block.rd_set_ne (b : Block) {f : Fld} (v : Nat) {a : Nat} (h : ¬ f.meets a) :
    sget resetReg (b.set f v).regs a = sget resetReg b.regs a := by
  unfold Fld.meets at h
  have h1 : a ≠ f.addr := fun e => h (.inl e)
  unfold Block.set
  split
  · simp [sget_sput_ne _ _ _ h1]
  · have h2 : a ≠ f.addr + 4 := fun e => h (.inr ⟨by omega, e⟩)
    simp [sget_sput_ne _ _ _ h1, sget_sput_ne _ _ _ h2]

/-- A narrow field set, as the word of its register. -/
theorem Block.rd_set_same (b : Block) {f : Fld} (v : Nat) (h : f.lo + f.w ≤ 32) :
    sget resetReg (b.set f v).regs f.addr =
      BitVec.ofNat 32 (setBits (sget resetReg b.regs f.addr).toNat f.lo f.w v) := by
  unfold Block.set; simp [h]

/-- A field just set reads back, cut to its width. -/
theorem Block.get_set_same (b : Block) (f : Fld) (v : Nat) (h : f.lo + f.w ≤ 64) :
    Regs.get (b.set f v).regs f = v % 2 ^ f.w := by
  unfold Regs.get Block.set
  by_cases n : f.lo + f.w ≤ 32
  · simp only [n, if_true, Block.wr_regs, Block.rd_eq, sget_sput_same]
    rw [bits_toNat_ofNat n, bits_setBits_same]
  · have e : f.addr ≠ f.addr + 4 := by omega
    simp only [n, if_false, Block.wr_regs, Block.rd_eq, sget_sput_same, sget_sput_ne _ _ _ e]
    have g : ∀ x : Nat, x < 2 ^ 64 →
        (BitVec.ofNat 32 x).toNat + (BitVec.ofNat 32 (x / 2 ^ 32)).toNat * 2 ^ 32 = x := by
      intro x hx; simp only [BitVec.toNat_ofNat]; omega
    have k : ∀ x : Nat, (BitVec.ofNat 32 x).toNat + (BitVec.ofNat 32 (x / 2 ^ 32)).toNat * 2 ^ 32 = x % 2 ^ 64 := by
      intro x; simp only [BitVec.toNat_ofNat]; omega
    rw [k, bits_mod h, bits_setBits_same]

/-- Two fields that share no bit. -/
def Fld.apart (f g : Fld) : Prop :=
  (g.addr + (if g.lo + g.w ≤ 32 then 0 else 4) < f.addr) ∨ (f.addr + (if f.lo + f.w ≤ 32 then 0 else 4) < g.addr) ∨
    (f.addr = g.addr ∧ (f.lo + f.w ≤ 32 ↔ g.lo + g.w ≤ 32) ∧ (g.lo + g.w ≤ f.lo ∨ f.lo + f.w ≤ g.lo))

/-- A field set leaves a field of other registers alone. -/
theorem Block.get_set_far (b : Block) {f g : Fld} (v : Nat) (h1 : ¬ f.meets g.addr)
    (h2 : g.lo + g.w ≤ 32 ∨ ¬ f.meets (g.addr + 4)) : Regs.get (b.set f v).regs g = Regs.get b.regs g := by
  unfold Regs.get
  rw [Block.rd_set_ne b v h1]
  by_cases n : g.lo + g.w ≤ 32
  · simp [n]
  · rw [Block.rd_set_ne b v (h2.resolve_left n)]

/-- A narrow field set leaves a disjoint narrow field of the same register alone. -/
theorem Block.get_set_near (b : Block) {f g : Fld} (v : Nat) (ha : g.addr = f.addr) (hf : f.lo + f.w ≤ 32)
    (hg : g.lo + g.w ≤ 32) (h : g.lo + g.w ≤ f.lo ∨ f.lo + f.w ≤ g.lo) :
    Regs.get (b.set f v).regs g = Regs.get b.regs g := by
  unfold Regs.get
  simp only [hg, if_true, ha, Block.rd_set_same b v hf]
  rw [bits_toNat_ofNat hg, bits_setBits_ne h]

/-! ### Assertion of an interrupt source -/

/-- An assertion leaves every register outside its pending word and stamp record alone. -/
theorem Block.rd_irq_ne (b : Block) {s a : Nat} (h : ¬ irqReg s a) :
    sget resetReg (b.irq s).regs a = sget resetReg b.regs a := by
  simp only [irqReg, aIRQ_PEND, aIRQ_S_TIME_LO, aIRQ_S_FLAGS, not_or, not_and, not_le] at h
  obtain ⟨h1, h2⟩ := h
  unfold Block.irq
  simp only [Block.wr_regs, Block.put_eq, Block.incWrap_eq]
  rw [sget_sput_ne _ _ _ (by simp only [aIRQ_S_ROUND]; omega)]
  rw [Block.rd_set_ne _ _ (by simp only [Fld.meets, IRQ_S_ANG, aIRQ_S_ANG]; omega)]
  simp only [Block.wr_regs]
  rw [sget_sput_ne _ _ _ (by simp only [aIRQ_S_TFRAC]; omega), sget_sput_ne _ _ _ (by simp only [aIRQ_S_TIME_HI]; omega),
    sget_sput_ne _ _ _ (by simp only [aIRQ_S_TIME_LO]; omega)]
  rw [Block.rd_set_ne _ _ (by simp only [Fld.meets, IRQ_S_FLAGS_ANG_VALID, aIRQ_S_FLAGS]; omega),
    Block.rd_set_ne _ _ (by simp only [Fld.meets, IRQ_S_FLAGS_CNT, aIRQ_S_FLAGS]; omega),
    Block.rd_set_ne _ _ (by simp only [Fld.meets, aIRQ_PEND]; omega)]

/-- A field outside the interrupt pages does not see an assertion. -/
theorem Block.get_irq_far (b : Block) {s : Nat} {f : Fld} (h1 : ¬ irqReg s f.addr) (h2 : ¬ irqReg s (f.addr + 4)) :
    Regs.get (b.irq s).regs f = Regs.get b.regs f := by
  unfold Regs.get; rw [b.rd_irq_ne h1, b.rd_irq_ne h2]

/-- A register written leaves a field of other registers alone. -/
theorem Regs.get_sput_far {r : List (Nat × Word)} {a : Nat} {v : Word} {f : Fld} (h1 : f.addr ≠ a)
    (h2 : f.lo + f.w ≤ 32 ∨ f.addr + 4 ≠ a) : Regs.get (sput resetReg r a v) f = Regs.get r f := by
  unfold Regs.get
  rw [sget_sput_ne _ _ _ h1]
  by_cases n : f.lo + f.w ≤ 32
  · simp [n]
  · rw [sget_sput_ne _ _ _ (h2.resolve_left n)]

/-- A source that asserts is pending. -/
theorem Block.pending_irq (b : Block) (s : Nat) : (b.irq s).pendingIrq s = true := by
  have n : s % 32 + 1 ≤ 32 := by omega
  have key : Regs.get (b.irq s).regs ⟨aIRQ_PEND (s / 32), s % 32, 1⟩ = 1 := by
    unfold Block.irq
    simp only [Block.wr_regs, Block.put_eq, Block.incWrap_eq]
    rw [Regs.get_sput_far (by simp only [aIRQ_PEND, aIRQ_S_ROUND]; omega) (.inl n)]
    rw [Block.get_set_far _ _ (by simp only [Fld.meets, IRQ_S_ANG, aIRQ_S_ANG, aIRQ_PEND]; omega) (.inl n)]
    simp only [Block.wr_regs]
    rw [Regs.get_sput_far (by simp only [aIRQ_PEND, aIRQ_S_TFRAC]; omega) (.inl n),
      Regs.get_sput_far (by simp only [aIRQ_PEND, aIRQ_S_TIME_HI]; omega) (.inl n),
      Regs.get_sput_far (by simp only [aIRQ_PEND, aIRQ_S_TIME_LO]; omega) (.inl n)]
    rw [Block.get_set_far _ _ (by simp only [Fld.meets, IRQ_S_FLAGS_ANG_VALID, aIRQ_S_FLAGS, aIRQ_PEND]; omega) (.inl n),
      Block.get_set_far _ _ (by simp only [Fld.meets, IRQ_S_FLAGS_CNT, aIRQ_S_FLAGS, aIRQ_PEND]; omega) (.inl n)]
    rw [Block.get_set_same _ _ _ (by simp only; omega)]
    simp
  simp only [Block.pendingIrq, Block.flag_eq, key]
  decide

/-- The count of a source that asserts. -/
theorem Block.count_irq (b : Block) (s : Nat) :
    Regs.get (b.irq s).regs (IRQ_S_FLAGS_CNT s) = (Regs.get b.regs (IRQ_S_FLAGS_CNT s) + 1) % 2 ^ 16 := by
  have n : (IRQ_S_FLAGS_CNT s).lo + (IRQ_S_FLAGS_CNT s).w ≤ 32 := by simp [IRQ_S_FLAGS_CNT]
  have a : (IRQ_S_FLAGS_CNT s).addr = 0x4018 + 0x20 * s := rfl
  unfold Block.irq
  simp only [Block.wr_regs, Block.put_eq, Block.incWrap_eq]
  rw [Regs.get_sput_far (by simp only [a, aIRQ_S_ROUND]; omega) (.inl n)]
  rw [Block.get_set_far _ _ (by simp only [Fld.meets, IRQ_S_ANG, aIRQ_S_ANG, a]; omega) (.inl n)]
  simp only [Block.wr_regs]
  rw [Regs.get_sput_far (by simp only [a, aIRQ_S_TFRAC]; omega) (.inl n),
    Regs.get_sput_far (by simp only [a, aIRQ_S_TIME_HI]; omega) (.inl n),
    Regs.get_sput_far (by simp only [a, aIRQ_S_TIME_LO]; omega) (.inl n)]
  rw [Block.get_set_near (f := IRQ_S_FLAGS_ANG_VALID s) (g := IRQ_S_FLAGS_CNT s) _ _ rfl (by simp [IRQ_S_FLAGS_ANG_VALID]) n
    (.inl (by simp [IRQ_S_FLAGS_ANG_VALID, IRQ_S_FLAGS_CNT]))]
  rw [Block.get_set_same _ _ _ (by simp [IRQ_S_FLAGS_CNT])]
  rw [Block.get_set_far _ _ (by simp only [Fld.meets, aIRQ_PEND, a]; omega) (.inl n)]
  simp [wrapInc, IRQ_S_FLAGS_CNT]

end Sys2Proof.Machine
end

