-- ==== Sys2Proof/Laws/Frames.lean ====
section
/-!
SUPPORT. Frames of registers: a block that differs from another in registers of a given set alone, and how the register operations keep
within a set.
-/

namespace Sys2Proof.Machine

/-- Nothing but registers of `p` differs. -/
def Block.Within (p : Nat → Prop) (b c : Block) : Prop :=
  b.RegsOnly c ∧ ∀ a, ¬ p a → sget resetReg c.regs a = sget resetReg b.regs a

theorem Block.Within.refl (p : Nat → Prop) (b : Block) : b.Within p b := ⟨.refl b, fun _ _ => rfl⟩

theorem Block.Within.trans {p : Nat → Prop} {b c d : Block} (h : b.Within p c) (g : c.Within p d) : b.Within p d :=
  ⟨h.1.trans g.1, fun a n => (g.2 a n).trans (h.2 a n)⟩

theorem Block.Within.mono {p q : Nat → Prop} {b c : Block} (h : b.Within p c) (i : ∀ a, p a → q a) : b.Within q c :=
  ⟨h.1, fun a n => h.2 a fun x => n (i a x)⟩

theorem Block.within_wr (b : Block) {p : Nat → Prop} {a : Nat} (v : Word) (h : p a) : b.Within p (b.wr a v) :=
  ⟨b.only_wr a v, fun x n => by
    simp only [Block.wr_regs]; exact sget_sput_ne _ _ _ fun e => n (e ▸ h)⟩

theorem Block.within_set (b : Block) {p : Nat → Prop} {f : Fld} (v : Nat) (h : ∀ a, f.meets a → p a) :
    b.Within p (b.set f v) :=
  ⟨b.only_set f v, fun a n => b.rd_set_ne v fun m => n (h a m)⟩

theorem Block.within_irq (b : Block) {p : Nat → Prop} {s : Nat} (h : ∀ a, irqReg s a → p a) : b.Within p (b.irq s) :=
  ⟨b.only_irq s, fun a n => b.rd_irq_ne fun m => n (h a m)⟩

/-- A field of one register meets that register alone. -/
theorem Fld.meets_narrow {f : Fld} (h : f.lo + f.w ≤ 32) {a : Nat} (m : f.meets a) : a = f.addr := by
  unfold Fld.meets at m; omega

theorem Block.within_set_narrow (b : Block) {p : Nat → Prop} {f : Fld} (v : Nat) (n : f.lo + f.w ≤ 32) (h : p f.addr) :
    b.Within p (b.set f v) :=
  b.within_set v fun _ m => Fld.meets_narrow n m ▸ h

/-- A narrow field set leaves a narrow field of another register, or of other bits, alone. -/
theorem Block.get_set_other (b : Block) {f g : Fld} (v : Nat) (hf : f.lo + f.w ≤ 32) (hg : g.lo + g.w ≤ 32)
    (h : g.addr ≠ f.addr ∨ g.lo + g.w ≤ f.lo ∨ f.lo + f.w ≤ g.lo) : Regs.get (b.set f v).regs g = Regs.get b.regs g := by
  by_cases a : g.addr = f.addr
  · exact b.get_set_near v a hf hg (h.resolve_left fun n => n a)
  · exact b.get_set_far v (by unfold Fld.meets; omega) (.inl hg)

/-- A field of registers no change lies in holds its value. -/
theorem Block.Within.get {p : Nat → Prop} {b c : Block} (h : b.Within p c) {g : Fld} (n : ¬ p g.addr)
    (m : g.lo + g.w ≤ 32 ∨ ¬ p (g.addr + 4)) : Regs.get c.regs g = Regs.get b.regs g := by
  unfold Regs.get
  rw [h.2 _ n]
  by_cases k : g.lo + g.w ≤ 32
  · simp [k]
  · rw [h.2 _ (m.resolve_left k)]

/-- A command that keeps within a set keeps all but that set. -/
theorem State.keepsBut_of {s : State} {p : Nat → Prop} {f : Block → Block} (h : s.blk.Within p (f s.blk)) :
    s.keepsBut (s.onBlk f) p := by
  refine ⟨State.eq_of rfl rfl ?_, h.2⟩
  exact h.1

end Sys2Proof.Machine
end

