-- ==== Sys2Proof/Laws/Bus.lean ====
section
/-!
SUPPORT. What a register access of a bus master comes to once it reaches its register.
-/

namespace Sys2Proof.Machine

/-- The level that decides over a write at BAR0 offset `x`. -/
def Block.levelAt (b : Block) (x : Nat) : Bool :=
  b.basicLevel (if basicOnly x ∧ (expertOf x).isNone then x + 0x400 else homeOf x)

/-- A page is basic where it repeats expert registers or holds registers that stand there alone. -/
def basicPage (x : Nat) : Bool := (expertOf x).isSome || basicOnly x

theorem wordAddr_of {x : Nat} (h : barWord x = true) : wordAddr x = x := by
  unfold barWord at h; simp only [Bool.and_eq_true, decide_eq_true_eq] at h; unfold wordAddr; omega

/-- An address below the fabric map stands for a BAR0 offset. -/
theorem fabricAt_low {m : Fin 39} {x : Nat} (h : x < 0x10000000) : fabricAt m x = none := by
  unfold fabricAt; rw [if_neg (by omega)]

/-- A write that reaches a register page goes to it. -/
theorem State.write_page {s : State} {m : Fin 39} {x : Nat} {v : Word} (h : s.writes m x v) (hx : barWord x = true)
    (lo : x < 0x800000) : s.write m x v = s.writePage m x v := by
  obtain ⟨h1, h2, h3, h4, h5, -⟩ := h
  unfold State.write State.busWrite State.serveWrite
  rw [wordAddr_of hx, fabricAt_low (by omega)]
  simp only [h1, h2, h3, h4, h5, if_true, if_false, Bool.false_eq_true, not_true_eq_false]
  rw [if_neg (by omega)]

/-- A write that reaches a register of one word acts by its access codes. -/
theorem State.write_reg {s : State} {m : Fin 39} {x : Nat} {v : Word} {r : Hit} (h : s.writes m x v) (hx : barWord x = true)
    (lo : x < 0x800000) (hr : s.blk.layout.isRaw x = false) (hv : hiddenVstat x = false) (hw : isWindow x = false)
    (hm : x ≠ aHST_MB_CMD) (hf : findReg (homeOf x) = some r) (hn : r.desc.wide = false) :
    s.write m x v = s.onBlk (·.writeReg m r (basicPage x) (s.blk.levelAt x) v.toNat) := by
  rw [State.write_page h hx lo]
  obtain ⟨-, -, -, -, -, h6, h7, h8⟩ := h
  have e : ((expertOf x).isSome || basicOnly x) = basicPage x := rfl
  have g : ¬ (s.blk.lockedAt x = true ∨ (¬ basicPage x = true ∧ s.blk.levelAt x = true)) := by
    unfold Block.levelAt basicPage
    rcases h8 with k | k | k
    · simp [h7, k]
    · simp [h7, k]
    · by_cases n : (expertOf x).isSome = true ∨ basicOnly x = true
      · rcases n with n | n <;> simp [h7, n]
      · simp only [not_or, Bool.not_eq_true] at n
        have : homeOf x = x := by unfold homeOf; cases q : expertOf x <;> simp_all
        simp [h7, n.2, this, k]
  unfold State.writePage
  simp only [h6, Bool.false_eq_true, if_false, e]
  change (if s.blk.lockedAt x = true ∨ (¬ basicPage x = true ∧ s.blk.levelAt x = true) then _ else _) = _
  rw [if_neg g]
  simp only [hr, hv, hw, hm, hf, hn, Bool.false_eq_true, if_false, not_false_eq_true, if_true]
  rfl

end Sys2Proof.Machine
end

