-- ==== Sys2Proof/Laws/Engine.lean ====
section
/-!
SUPPORT. What issuing a word on a loop engine does: the one lemma the statements about the engines' instructions rest on.
-/

namespace Sys2Proof.Machine

/-! ### One engine -/

@[simp] theorem Block.eng_modEng_same (b : Block) (e : Nat) (f : Engine → Engine) : (b.modEng e f).eng e = f (b.eng e) := by
  simp [Block.eng, Block.modEng, sget_sput_same]

theorem Block.eng_modEng_ne (b : Block) {e k : Nat} (f : Engine → Engine) (h : k ≠ e) : (b.modEng e f).eng k = b.eng k := by
  simp [Block.eng, Block.modEng, sget_sput_ne _ _ _ h]

theorem Block.eng_modEng_of {b : Block} {e : Nat} {y : Engine} (f : Engine → Engine) (h : b.eng e = y) :
    (b.modEng e f).eng e = f y := by rw [Block.eng_modEng_same, h]

theorem Block.eng_congr {b c : Block} {e : Nat} (h : b.engines = c.engines) : b.eng e = c.eng e := by unfold Block.eng; rw [h]

/-- The registers that show an engine are all that showing it writes. -/
theorem Block.within_showEngine (b : Block) (e : Nat) : b.Within (engineReg e) (b.showEngine e) := by
  unfold Block.showEngine
  simp only [Block.put_eq, Block.peak_eq]
  have q : ∀ f : Fld, f.lo + f.w ≤ 32 → f.addr = aDIS_LE_Q e ∨ f.addr = aDIS_LE_STAT e ∨ f.addr = aLE_STAT e ∨ f.addr = aLE_PC e →
      ∀ (c : Block) (v : Nat), c.Within (engineReg e) (c.set f v) := fun f n h c v => c.within_set_narrow v n h
  have r : ∀ (c : Block), c.Within (engineReg e) (c.wr (aLE_PC e) 0) := fun c => c.within_wr 0 (by simp [engineReg])
  have l : ∀ c : Block, b.Within (engineReg e) c → b.Within (engineReg e)
      (match (b.eng e).run with
        | some r => (c.set (LE_PC_PC e) (b.eng e).regs.pc.toNat).set (LE_PC_DESC e) r.inst.desc
        | none => c.wr (aLE_PC e) 0) := by
    intro c h
    split
    · exact (h.trans (q _ (by simp [LE_PC_PC]) (by simp [LE_PC_PC]) _ _)).trans
        (q _ (by simp [LE_PC_DESC]) (by simp [LE_PC_DESC]) _ _)
    · exact h.trans (r _)
  apply l
  refine .trans ?_ (q _ (by simp [LE_PC_VALID]) (by simp [LE_PC_VALID]) _ _)
  refine .trans ?_ (q _ (by simp [LE_STAT_HELD]) (by simp [LE_STAT_HELD]) _ _)
  refine .trans ?_ (q _ (by simp [LE_STAT_BKG]) (by simp [LE_STAT_BKG]) _ _)
  refine .trans ?_ (q _ (by simp [LE_STAT_CYC]) (by simp [LE_STAT_CYC]) _ _)
  refine .trans ?_ (q _ (by simp [DIS_LE_STAT_OFF]) (by simp [DIS_LE_STAT_OFF]) _ _)
  refine .trans ?_ (q _ (by simp [DIS_LE_STAT_HALTED]) (by simp [DIS_LE_STAT_HALTED]) _ _)
  refine .trans ?_ (q _ (by simp [DIS_LE_STAT_FROZEN]) (by simp [DIS_LE_STAT_FROZEN]) _ _)
  refine .trans ?_ (q _ (by simp [DIS_LE_STAT_POOL]) (by simp [DIS_LE_STAT_POOL]) _ _)
  refine .trans ?_ (q _ (by simp [DIS_LE_Q_HANDSIZE]) (by simp [DIS_LE_Q_HANDSIZE]) _ _)
  refine .trans ?_ (q _ (by simp [DIS_LE_Q_BPEAK]) (by simp [DIS_LE_Q_BPEAK]) _ _)
  refine .trans ?_ (q _ (by simp [DIS_LE_Q_BWAIT]) (by simp [DIS_LE_Q_BWAIT]) _ _)
  refine .trans ?_ (q _ (by simp [DIS_LE_Q_CPEAK]) (by simp [DIS_LE_Q_CPEAK]) _ _)
  exact q _ (by simp [DIS_LE_Q_CWAIT]) (by simp [DIS_LE_Q_CWAIT]) _ _

/-- The fields of LE_STAT that showing an engine leaves alone. -/
theorem Block.get_showEngine (b : Block) (e : Nat) {g : Fld} (ha : g.addr = aLE_STAT e) (hg : g.lo + g.w ≤ 32)
    (h : g.lo + g.w ≤ 2 ∨ 5 ≤ g.lo) : Regs.get (b.showEngine e).regs g = Regs.get b.regs g := by
  have q : ∀ f : Fld, f.lo + f.w ≤ 32 → (f.addr ≠ aLE_STAT e ∨ (2 ≤ f.lo ∧ f.lo + f.w ≤ 5)) → ∀ (c : Block) (v : Nat),
      Regs.get (c.set f v).regs g = Regs.get c.regs g := fun f n o c v => c.get_set_other v n hg (by
        rcases o with o | o
        · exact .inl (by rw [ha]; exact fun x => o x.symm)
        · exact .inr (by omega))
  have r : ∀ (c : Block), Regs.get (c.wr (aLE_PC e) 0).regs g = Regs.get c.regs g := fun c => by
    rw [Block.wr_regs, Regs.get_sput_far (by rw [ha]; simp [aLE_STAT, aLE_PC]) (.inl hg)]
  have l : ∀ c : Block, Regs.get c.regs g = Regs.get b.regs g → Regs.get
      (match (b.eng e).run with
        | some r => (c.set (LE_PC_PC e) (b.eng e).regs.pc.toNat).set (LE_PC_DESC e) r.inst.desc
        | none => c.wr (aLE_PC e) 0).regs g = Regs.get b.regs g := by
    intro c h
    split
    · rw [q (LE_PC_DESC e) (by simp [LE_PC_DESC]) (by simp [LE_PC_DESC, aLE_PC, aLE_STAT]),
        q (LE_PC_PC e) (by simp [LE_PC_PC]) (by simp [LE_PC_PC, aLE_PC, aLE_STAT]), h]
    · rw [r, h]
  unfold Block.showEngine
  simp only [Block.put_eq, Block.peak_eq]
  apply l
  rw [q (LE_PC_VALID e) (by simp [LE_PC_VALID]) (by simp [LE_PC_VALID, aLE_PC, aLE_STAT]),
    q (LE_STAT_HELD e) (by simp [LE_STAT_HELD]) (by simp [LE_STAT_HELD]),
    q (LE_STAT_BKG e) (by simp [LE_STAT_BKG]) (by simp [LE_STAT_BKG]),
    q (LE_STAT_CYC e) (by simp [LE_STAT_CYC]) (by simp [LE_STAT_CYC]),
    q (DIS_LE_STAT_OFF e) (by simp [DIS_LE_STAT_OFF]) (by simp only [DIS_LE_STAT_OFF, aDIS_LE_STAT, aLE_STAT]; omega),
    q (DIS_LE_STAT_HALTED e) (by simp [DIS_LE_STAT_HALTED]) (by simp only [DIS_LE_STAT_HALTED, aDIS_LE_STAT, aLE_STAT]; omega),
    q (DIS_LE_STAT_FROZEN e) (by simp [DIS_LE_STAT_FROZEN]) (by simp only [DIS_LE_STAT_FROZEN, aDIS_LE_STAT, aLE_STAT]; omega),
    q (DIS_LE_STAT_POOL e) (by simp [DIS_LE_STAT_POOL]) (by simp only [DIS_LE_STAT_POOL, aDIS_LE_STAT, aLE_STAT]; omega),
    q (DIS_LE_Q_HANDSIZE e) (by simp [DIS_LE_Q_HANDSIZE]) (by simp only [DIS_LE_Q_HANDSIZE, aDIS_LE_Q, aLE_STAT]; omega),
    q (DIS_LE_Q_BPEAK e) (by simp [DIS_LE_Q_BPEAK]) (by simp only [DIS_LE_Q_BPEAK, aDIS_LE_Q, aLE_STAT]; omega),
    q (DIS_LE_Q_BWAIT e) (by simp [DIS_LE_Q_BWAIT]) (by simp only [DIS_LE_Q_BWAIT, aDIS_LE_Q, aLE_STAT]; omega),
    q (DIS_LE_Q_CPEAK e) (by simp [DIS_LE_Q_CPEAK]) (by simp only [DIS_LE_Q_CPEAK, aDIS_LE_Q, aLE_STAT]; omega),
    q (DIS_LE_Q_CWAIT e) (by simp [DIS_LE_Q_CWAIT]) (by simp only [DIS_LE_Q_CWAIT, aDIS_LE_Q, aLE_STAT]; omega)]

/-- The writes of a word, in order. -/
def bankWrites (e : Nat) (m : List Host.Cell) (ws : List (Bool × Nat × Word)) : List Host.Cell :=
  ws.foldl (fun m w => Memory.writeWord m (bankAddr e w.1 w.2.1) w.2.2) m

/-- A word written where no stored word is in error changes memory alone. -/
theorem Block.memPut_sound {b : Block} (h : b.ecc = []) (a : Nat) (v : Word) :
    b.memPut a v = { b with mem := Memory.writeWord b.mem a v } := by
  cases b; cases h; rfl

theorem Block.setBanks_eq (e : Nat) (ws : List (Bool × Nat × Word)) (b : Block) (h : b.ecc = []) :
    ws.foldl (fun b w => b.setBank e w.1 w.2.1 w.2.2) b = { b with mem := bankWrites e b.mem ws } := by
  induction ws generalizing b with
  | nil => rfl
  | cons w t ih =>
    have q : b.setBank e w.1 w.2.1 w.2.2 = { b with mem := Memory.writeWord b.mem (bankAddr e w.1 w.2.1) w.2.2 } :=
      Block.memPut_sound h _ _
    rw [List.foldl_cons, q, ih { b with mem := Memory.writeWord b.mem (bankAddr e w.1 w.2.1) w.2.2 } h]; rfl

/-- Where no stored word is in error a read finds none. -/
theorem Block.eccRead_sound {b : Block} (h : b.ecc = []) (e : Nat) (as : List Nat) : b.eccRead e as = (false, b) := by
  unfold Block.eccRead Block.eccAt
  simp [h, sget]

/-- Where no stored word is in error a word takes effect as it is. -/
theorem Block.eccIssue_sound {b : Block} (h : b.ecc = []) (e : Nat) (x : Eff) : b.eccIssue e x = b.commitEff e x := by
  unfold Block.eccIssue
  simp [Block.eccRead_sound h]

/-- Where the next word of engine `e` is fetched after effects `x`, with the repeat stack. -/
def Eff.follow (x : Eff) (pc : Nat) : List Repeat × Nat :=
  match x.goto with
  | some t => (x.regs.reps, t)
  | none => nextInstr pc x.regs.reps

/-- Two flags of LE_STAT set as a word's effects say. -/
def Block.statFlags (b : Block) (e : Nat) (x : Eff) : Block :=
  let b := if x.aov then b.set (LE_STAT_AOV e) 1 else b
  if x.sov then b.set (LE_STAT_SOV e) 1 else b

theorem Block.within_statFlags (b : Block) (e : Nat) (x : Eff) : b.Within (engineReg e) (b.statFlags e x) := by
  have q : ∀ (c : Block), c.Within (engineReg e) (c.set (LE_STAT_AOV e) 1) := fun c =>
    c.within_set_narrow 1 (by simp [LE_STAT_AOV]) (by simp [engineReg, LE_STAT_AOV])
  have r : ∀ (c : Block), c.Within (engineReg e) (c.set (LE_STAT_SOV e) 1) := fun c =>
    c.within_set_narrow 1 (by simp [LE_STAT_SOV]) (by simp [engineReg, LE_STAT_SOV])
  unfold Block.statFlags
  cases x.aov <;> cases x.sov <;> simp only [Bool.false_eq_true, if_true, if_false]
  · exact .refl _ b
  · exact r b
  · exact q b
  · exact (q b).trans (r _)

theorem Block.get_statFlags (b : Block) (e : Nat) (x : Eff) {g : Fld} (hg : g.lo + g.w ≤ 32) (h : g.lo + g.w ≤ 8 ∨ 10 ≤ g.lo) :
    Regs.get (b.statFlags e x).regs g = Regs.get b.regs g := by
  have q : ∀ (c : Block), Regs.get (c.set (LE_STAT_AOV e) 1).regs g = Regs.get c.regs g := fun c =>
    c.get_set_other 1 (by simp [LE_STAT_AOV]) hg (.inr (by simp only [LE_STAT_AOV]; omega))
  have r : ∀ (c : Block), Regs.get (c.set (LE_STAT_SOV e) 1).regs g = Regs.get c.regs g := fun c =>
    c.get_set_other 1 (by simp [LE_STAT_SOV]) hg (.inr (by simp only [LE_STAT_SOV]; omega))
  unfold Block.statFlags
  cases x.aov <;> cases x.sov <;> simp only [Bool.false_eq_true, if_true, if_false, q, r]

theorem Block.get_statFlags_aov (b : Block) (e : Nat) (x : Eff) : Regs.get (b.statFlags e x).regs (LE_STAT_AOV e) =
    if x.aov then 1 else Regs.get b.regs (LE_STAT_AOV e) := by
  have r : ∀ (c : Block), Regs.get (c.set (LE_STAT_SOV e) 1).regs (LE_STAT_AOV e) = Regs.get c.regs (LE_STAT_AOV e) := fun c =>
    c.get_set_other 1 (by simp [LE_STAT_SOV]) (by simp [LE_STAT_AOV]) (.inr (by simp [LE_STAT_SOV, LE_STAT_AOV]))
  have q : ∀ (c : Block), Regs.get (c.set (LE_STAT_AOV e) 1).regs (LE_STAT_AOV e) = 1 := fun c => by
    rw [Block.get_set_same _ _ _ (by simp [LE_STAT_AOV])]; simp [LE_STAT_AOV]
  unfold Block.statFlags
  cases x.aov <;> cases x.sov <;> simp [q, r]

theorem Block.get_statFlags_sov (b : Block) (e : Nat) (x : Eff) : Regs.get (b.statFlags e x).regs (LE_STAT_SOV e) =
    if x.sov then 1 else Regs.get b.regs (LE_STAT_SOV e) := by
  have r : ∀ (c : Block), Regs.get (c.set (LE_STAT_AOV e) 1).regs (LE_STAT_SOV e) = Regs.get c.regs (LE_STAT_SOV e) := fun c =>
    c.get_set_other 1 (by simp [LE_STAT_AOV]) (by simp [LE_STAT_SOV]) (.inr (by simp [LE_STAT_SOV, LE_STAT_AOV]))
  have q : ∀ (c : Block), Regs.get (c.set (LE_STAT_SOV e) 1).regs (LE_STAT_SOV e) = 1 := fun c => by
    rw [Block.get_set_same _ _ _ (by simp [LE_STAT_SOV])]; simp [LE_STAT_SOV]
  unfold Block.statFlags
  cases x.aov <;> cases x.sov <;> simp [q, r]

/-- The registers of an engine once a word with effects `x` at `pc` has completed. -/
def Eff.after (x : Eff) (pc : Nat) : ERegs := { x.regs with reps := (x.follow pc).1, pc := BitVec.ofNat 16 (x.follow pc).2 }

/-- The block once a word with effects `x` has completed on engine `e`, before the engine is shown. -/
def Block.committed (b : Block) (e : Nat) (x : Eff) : Block :=
  ({ b.statFlags e x with mem := bankWrites e b.mem x.writes }).modEng e fun y => { y with regs := x.after (b.eng e).regs.pc.toNat }

/-- A word that commits no violation and raises no fault: its flags, its writes, its registers, and the engine shown. -/
theorem Block.commitEff_ok (b : Block) (e : Nat) (x : Eff) (he : b.ecc = []) (hb : b.bankViolation e (b.eng e).regs.pc.toNat x = none)
    (hf : b.effFault e x = none)
    (hg : ¬ ((x.follow (b.eng e).regs.pc.toNat).2 < 0x4000 ∧ 0x4000 ≤ (b.eng e).regs.pc.toNat)) :
    b.commitEff e x = (b.committed e x).showEngine e := by
  have hn : x.fault = none := by
    unfold Block.effFault at hf; cases h : x.fault <;> simp_all
  have f1 : (if x.aov then b.on (LE_STAT_AOV e) else b) = (if x.aov then b.set (LE_STAT_AOV e) 1 else b) := rfl
  have o := (b.within_statFlags e x).1
  have hsw : (b.statFlags e x) = { b with regs := (b.statFlags e x).regs } := o
  have cfg : ∀ g : Fld, g.addr = aLE_CFG e → g.lo + g.w ≤ 32 → Regs.get (b.statFlags e x).regs g = Regs.get b.regs g := fun g ha hw =>
    (b.within_statFlags e x).get (by rw [ha]; simp only [engineReg, aLE_CFG, aDIS_LE_Q, aDIS_LE_STAT, aLE_STAT, aLE_PC]; omega) (.inl hw)
  have hb' : (b.statFlags e x).bankViolation e (b.eng e).regs.pc.toNat x = none := by
    rw [hsw]; exact hb
  have hf' : (b.statFlags e x).effFault e x = none := by
    rw [← hf]
    unfold Block.effFault
    simp only [Block.flag_eq, cfg (LE_CFG_SOV_FAULT e) rfl (by simp [LE_CFG_SOV_FAULT]),
      cfg (LE_CFG_AOV_FAULT e) rfl (by simp [LE_CFG_AOV_FAULT])]
    rfl
  have hw : x.writes.filter (fun w => mayWrite (decide ((b.eng e).regs.pc.toNat < 0x4000)) (b.runsCyclic e) w.1 w.2.1) = x.writes := by
    unfold Block.bankViolation at hb
    apply List.filter_eq_self.2
    intro w hw
    simp only at hb
    split at hb
    · cases hb
    · simp only [Option.map_eq_none_iff, List.find?_eq_none] at hb
      have := hb w hw
      simpa using this
  have key : b.commitEff e x = match x.goto with
      | some t => ({ b.statFlags e x with mem := bankWrites e b.mem x.writes }).goOn e (b.eng e).regs.pc.toNat x.regs t
      | none => ({ b.statFlags e x with mem := bankWrites e b.mem x.writes }).goOn e (b.eng e).regs.pc.toNat
          { x.regs with reps := (nextInstr (b.eng e).regs.pc.toNat x.regs.reps).1 } (nextInstr (b.eng e).regs.pc.toNat x.regs.reps).2 := by
    have hm : (b.statFlags e x).mem = b.mem := by rw [hsw]
    have he' : (b.statFlags e x).ecc = [] := by rw [hsw]; exact he
    unfold Block.commitEff
    change (match (b.statFlags e x).bankViolation e (b.eng e).regs.pc.toNat x, (b.statFlags e x).effFault e x with
      | some (a, wr), some c => _ | some (a, wr), none => _ | none, some c => _ | none, none => _) = _
    rw [hb', hf']
    simp only [hn, Option.isSome_none, Bool.false_eq_true, if_false, hw]
    rw [← hm, ← Block.setBanks_eq e _ _ he']
    rfl
  rw [key]
  unfold Block.committed Eff.after
  unfold Eff.follow at hg ⊢
  cases hgo : x.goto with
  | some t =>
    simp only [hgo] at hg ⊢
    unfold Block.goOn; rw [if_neg hg]
  | none =>
    simp only [hgo] at hg ⊢
    unfold Block.goOn; rw [if_neg hg]

theorem State.commitEff_acts {s : State} {e : Nat} {x : Eff} (he : s.blk.ecc = [])
    (hb : s.blk.bankViolation e (s.pcOf e) x = none) (hf : s.blk.effFault e x = none)
    (hg : s.mayGo e (x.follow (s.pcOf e)).2) :
    s.acts (s.onBlk fun b => b.commitEff e x) e x.regs (x.follow (s.pcOf e)).1 (x.follow (s.pcOf e)).2 x.aov x.sov ∧
      (s.onBlk fun b => b.commitEff e x).blk.mem = bankWrites e s.blk.mem x.writes := by
  have k := s.blk.commitEff_ok e x he hb hf hg
  rw [show (s.onBlk fun b => b.commitEff e x) = s.onBlk fun _ => (s.blk.committed e x).showEngine e from State.eq_of rfl rfl k]
  generalize hc : s.blk.committed e x = c
  unfold Block.committed at hc
  have w := c.within_showEngine e
  have v := s.blk.within_statFlags e x
  have cr : c.regs = (s.blk.statFlags e x).regs := by rw [← hc]; rfl
  have ce : ∀ j, (c.showEngine e).eng j = c.eng j := fun j => by unfold Block.eng; rw [w.1.p_engines]
  have same : c.eng e = { s.blk.eng e with regs := x.after (s.pcOf e) } := by
    rw [← hc]
    exact Block.eng_modEng_of _ (Block.eng_congr v.1.p_engines)
  refine ⟨⟨?_, ⟨?_, ?_, ?_, ?_, ?_⟩, ?_, ?_⟩, ?_⟩
  · rw [State.onBlk_blk, ce, same]; rfl
  · refine State.eq_of rfl rfl ?_
    have h1 := w.1
    have h2 := v.1
    unfold Block.RegsOnly at h1 h2
    simp only [State.onBlk_blk]
    rw [h1]
    simp only [← hc, Block.modEng]
    rw [h2]
  · intro a n
    simp only [State.onBlk_blk, Block.rd_eq]
    rw [w.2 a n, cr, v.2 a n]
  · intro j n
    rw [State.onBlk_blk, ce, ← hc, Block.eng_modEng_ne _ _ n]
    exact Block.eng_congr v.1.p_engines
  · rw [State.onBlk_blk, ce, same]
  · intro f hf
    simp only [State.onBlk_blk, Block.get_eq]
    simp only [List.mem_cons, List.not_mem_nil, or_false] at hf
    rcases hf with rfl | rfl | rfl | rfl | rfl
    all_goals
      rw [Block.get_showEngine _ _ rfl (by simp [LE_STAT_HALTED, LE_STAT_FROZEN, LE_STAT_FAULT, LE_STAT_ECC_CORR, LE_STAT_FCODE])
        (by simp [LE_STAT_HALTED, LE_STAT_FROZEN, LE_STAT_FAULT, LE_STAT_ECC_CORR, LE_STAT_FCODE]), cr,
        Block.get_statFlags _ _ _ (by simp [LE_STAT_HALTED, LE_STAT_FROZEN, LE_STAT_FAULT, LE_STAT_ECC_CORR, LE_STAT_FCODE])
        (by simp [LE_STAT_HALTED, LE_STAT_FROZEN, LE_STAT_FAULT, LE_STAT_ECC_CORR, LE_STAT_FCODE])]
  · simp only [State.onBlk_blk, Block.get_eq]
    rw [Block.get_showEngine _ _ rfl (by simp [LE_STAT_AOV]) (by simp [LE_STAT_AOV]), cr, Block.get_statFlags_aov]
  · simp only [State.onBlk_blk, Block.get_eq]
    rw [Block.get_showEngine _ _ rfl (by simp [LE_STAT_SOV]) (by simp [LE_STAT_SOV]), cr, Block.get_statFlags_sov]
  · rw [State.onBlk_blk, w.1.p_mem, ← hc]; rfl

/-- A word that is issued, raises no fault and commits no violation does what its effects say. -/
theorem State.issue_acts {s : State} {e : Nat} {w : Word} {codes : ERegs → List Nat} {f : ERegs → (Bool → Nat → Word) → Eff} {x : Eff}
    (hx : f (s.blk.eng e).regs (s.blk.bank e) = x)
    (hi : s.canIssue e w (codes (s.blk.eng e).regs) (x.reads ++ x.writes.map fun w => (w.1, w.2.1)))
    (hb : s.blk.bankViolation e (s.pcOf e) x = none) (hf : s.blk.effFault e x = none)
    (hg : s.mayGo e (x.follow (s.pcOf e)).2) :
    s.acts (s.onBlk fun b => b.issue e w codes f) e x.regs (x.follow (s.pcOf e)).1 (x.follow (s.pcOf e)).2 x.aov x.sov ∧
      (s.onBlk fun b => b.issue e w codes f).blk.mem = bankWrites e s.blk.mem x.writes := by
  have hl : ¬ (s.blk.eng e).loads.any (·.blocks (codes (s.blk.eng e).regs) (x.reads ++ x.writes.map fun w => (w.1, w.2.1))) := by
    simp only [List.any_eq_true, not_exists, not_and, Bool.not_eq_true]
    exact fun l h => hi.2.2 l h
  have hb1 : s.blk.issue e w codes f = s.blk.commitEff e x := by
    unfold Block.issue
    simp only [hi.1, if_true, hx, hl, Bool.false_eq_true, if_false, Block.eccIssue_sound hi.2.1]
  rw [show (s.onBlk fun b => b.issue e w codes f) = s.onBlk fun b => b.commitEff e x from State.eq_of rfl rfl hb1]
  exact State.commitEff_acts hi.2.1 hb hf hg

/-- A word with no bank write and no branch retires. -/
theorem State.issue_retires {s : State} {e : Nat} {w : Word} {codes : ERegs → List Nat} {f : ERegs → (Bool → Nat → Word) → Eff} {r : ERegs}
    {a : Bool} {rs : List (Bool × Nat)}
    (hx : f (s.blk.eng e).regs (s.blk.bank e) = { Eff.start r with aov := a, reads := rs })
    (hi : s.canIssue e w (codes (s.blk.eng e).regs) rs) (hr : r.reps = (s.blk.eng e).regs.reps)
    (ha : a = true → s.blk.flag (LE_CFG_AOV_FAULT e) = false) (hm : ∀ k ∈ rs, mayRead k.1 k.2 = true)
    (hg : s.mayGo e (s.nextOf e).2) : s.retires (s.onBlk fun b => b.issue e w codes f) e r a := by
  have hb : s.blk.bankViolation e (s.pcOf e) { Eff.start r with aov := a, reads := rs } = none := by
    unfold Block.bankViolation
    have : (rs.find? fun k => !mayRead k.1 k.2) = none := by
      simp only [List.find?_eq_none]; intro k hk; simp [hm k hk]
    simp [Eff.start, this]
  have hf : s.blk.effFault e { Eff.start r with aov := a, reads := rs } = none := by
    unfold Block.effFault
    cases a <;> simp_all [Eff.start]
  have fo : ({ Eff.start r with aov := a, reads := rs } : Eff).follow (s.pcOf e) = s.nextOf e := by
    simp [Eff.follow, Eff.start, State.nextOf, hr]
  have := State.issue_acts (codes := codes) hx (by simpa [Eff.start] using hi) hb hf (by rw [fo]; exact hg)
  rw [fo] at this
  exact this

/-- A word that changes registers alone retires. -/
theorem State.issue_regs {s : State} {e : Nat} {w : Word} {codes : ERegs → List Nat} {f : ERegs → (Bool → Nat → Word) → Eff} {r : ERegs}
    (hx : f (s.blk.eng e).regs (s.blk.bank e) = Eff.start r) (hi : s.canIssue e w (codes (s.blk.eng e).regs) [])
    (hr : r.reps = (s.blk.eng e).regs.reps) (hg : s.mayGo e (s.nextOf e).2) :
    s.retires (s.onBlk fun b => b.issue e w codes f) e r false :=
  State.issue_retires (rs := []) hx hi hr (by simp) (by simp) hg

end Sys2Proof.Machine
end

