-- ==== Sys2Proof/Laws/PerInstr.lean ====
section
/-!
SUPPORT. What is said of every command one by one: opcode_table.json gives its row no bits, so no word spells it.
-/

open Sys2Proof.Machine

namespace Sys2Proof.Laws

/-- No word spells the command. -/
def Row.Statement (i : Instr) : Prop := ∀ nbits w : Nat, decodeTableWord nbits w ≠ some i

/-- It holds of any command. -/
theorem Row.unspelt (i : Instr) : Row.Statement i := fun _ _ h => nomatch h

theorem Row.roundBoundary : Row.Statement (.roundBoundary) := Row.unspelt _
theorem Row.commitLatchClose : Row.Statement (.commitLatchClose) := Row.unspelt _
theorem Row.hostRegisterWrite (m : Fin 39) (addr : Nat) (v : Word) : Row.Statement (.hostRegisterWrite m addr v) := Row.unspelt _
theorem Row.subWordAccess (m : Fin 39) (write : Bool) : Row.Statement (.subWordAccess m write) := Row.unspelt _
theorem Row.lowWordRead (m : Fin 39) (addr : Nat) : Row.Statement (.lowWordRead m addr) := Row.unspelt _
theorem Row.lowWordWrite (m : Fin 39) (addr : Nat) (v : Word) : Row.Statement (.lowWordWrite m addr v) := Row.unspelt _
theorem Row.highWordWrite (m : Fin 39) (addr : Nat) (v : Word) : Row.Statement (.highWordWrite m addr v) := Row.unspelt _
theorem Row.rwvWrite (m : Fin 39) (addr : Nat) (v : Word) : Row.Statement (.rwvWrite m addr v) := Row.unspelt _
theorem Row.rwvValidation : Row.Statement (.rwvValidation) := Row.unspelt _
theorem Row.d2dTransfer (c0 : D2dCopy) (c1 : D2dCopy) : Row.Statement (.d2dTransfer c0 c1) := Row.unspelt _
theorem Row.d2dTimeout : Row.Statement (.d2dTimeout) := Row.unspelt _
theorem Row.builderFetch (i : Fin 256) : Row.Statement (.builderFetch i) := Row.unspelt _
theorem Row.resetRelease (mode : BitVec 3) : Row.Statement (.resetRelease mode) := Row.unspelt _
theorem Row.startUpStepOverrun (step : Fin 7) : Row.Statement (.startUpStepOverrun step) := Row.unspelt _
theorem Row.channelBSelfTest (pass : Bool) : Row.Statement (.channelBSelfTest pass) := Row.unspelt _
theorem Row.deckFlashRead : Row.Statement (.deckFlashRead) := Row.unspelt _
theorem Row.violation (m : Fin 39) (addr : Nat) (len : Nat) (write : Bool) (beside : Beside) :
    Row.Statement (.violation m addr len write beside) := Row.unspelt _
theorem Row.frozenHandMove (e : Fin 32) : Row.Statement (.frozenHandMove e) := Row.unspelt _
theorem Row.chalNew (m : Fin 39) : Row.Statement (.chalNew m) := Row.unspelt _
theorem Row.challengeExpiry (debug : Bool) : Row.Statement (.challengeExpiry debug) := Row.unspelt _
theorem Row.tokenGo (m : Fin 39) : Row.Statement (.tokenGo m) := Row.unspelt _
theorem Row.tokenVerified : Row.Statement (.tokenVerified) := Row.unspelt _
theorem Row.debugToken (words : List Word) : Row.Statement (.debugToken words) := Row.unspelt _
theorem Row.quoteReq (m : Fin 39) : Row.Statement (.quoteReq m) := Row.unspelt _
theorem Row.quoteReady : Row.Statement (.quoteReady) := Row.unspelt _
theorem Row.dbgLock (m : Fin 39) : Row.Statement (.dbgLock m) := Row.unspelt _
theorem Row.fifoClr (m : Fin 39) : Row.Statement (.fifoClr m) := Row.unspelt _
theorem Row.truFifo (m : Fin 39) (w : Option Word) : Row.Statement (.truFifo m w) := Row.unspelt _
theorem Row.provision (m : Fin 39) (args : List Word) : Row.Statement (.provision m args) := Row.unspelt _
theorem Row.deal (m : Fin 39) (len : Nat) : Row.Statement (.deal m len) := Row.unspelt _
theorem Row.mbData (m : Fin 39) (w : Word) : Row.Statement (.mbData m w) := Row.unspelt _
theorem Row.dealingEnd (pcrc : Word × Word) : Row.Statement (.dealingEnd pcrc) := Row.unspelt _
theorem Row.store (m : Fin 39) : Row.Statement (.store m) := Row.unspelt _
theorem Row.storeDone (ok : Bool) : Row.Statement (.storeDone ok) := Row.unspelt _
theorem Row.abort (m : Fin 39) : Row.Statement (.abort m) := Row.unspelt _
theorem Row.version (m : Fin 39) : Row.Statement (.version m) := Row.unspelt _
theorem Row.mbReply (m : Fin 39) : Row.Statement (.mbReply m) := Row.unspelt _
theorem Row.angCtl (m : Fin 39) (v : Word) : Row.Statement (.angCtl m v) := Row.unspelt _
theorem Row.angleSample (kind : Fin 8) (index : Nat) (v : DWord) (tk : Nat) (uncertain : Bool) : Row.Statement (.angleSample kind index v tk uncertain) := Row.unspelt _
theorem Row.extrapolatorStep : Row.Statement (.extrapolatorStep) := Row.unspelt _
theorem Row.virtualRateSlew : Row.Statement (.virtualRateSlew) := Row.unspelt _
theorem Row.handoverAbandon : Row.Statement (.handoverAbandon) := Row.unspelt _
theorem Row.sourceLost : Row.Statement (.sourceLost) := Row.unspelt _
theorem Row.rateRamp : Row.Statement (.rateRamp) := Row.unspelt _
theorem Row.pulseEnd (pin : Fin 16) : Row.Statement (.pulseEnd pin) := Row.unspelt _
theorem Row.evtInsert (m : Fin 39) : Row.Statement (.evtInsert m) := Row.unspelt _
theorem Row.evtDelete (m : Fin 39) (handle : Nat) : Row.Statement (.evtDelete m handle) := Row.unspelt _
theorem Row.evtReplace (m : Fin 39) (handle : Nat) : Row.Statement (.evtReplace m handle) := Row.unspelt _
theorem Row.evtRead (m : Fin 39) (handle : Nat) : Row.Statement (.evtRead m handle) := Row.unspelt _
theorem Row.editComplete : Row.Statement (.editComplete) := Row.unspelt _
theorem Row.capinEdge (i : Fin 8) (rising : Bool) : Row.Statement (.capinEdge i rising) := Row.unspelt _
theorem Row.angCapPop (m : Fin 39) (i : Fin 8) : Row.Statement (.angCapPop m i) := Row.unspelt _
theorem Row.receiverLock (port : Fin 9) : Row.Statement (.receiverLock port) := Row.unspelt _
theorem Row.lossOfLock (port : Fin 9) : Row.Statement (.lossOfLock port) := Row.unspelt _
theorem Row.upstreamTurn (seg : Fin 8) (p : Fin 64) (far : Bool) (ofs : Int) (x : Frame) : Row.Statement (.upstreamTurn seg p far ofs x) := Row.unspelt _
theorem Row.turnWindowClose (seg : Fin 8) (p : Fin 64) : Row.Statement (.turnWindowClose seg p) := Row.unspelt _
theorem Row.breakNotice (n : Notice) : Row.Statement (.breakNotice n) := Row.unspelt _
theorem Row.ringClosure (ring : Fin 4) : Row.Statement (.ringClosure ring) := Row.unspelt _
theorem Row.leadBlockReceived (ring : Fin 4) (far : Bool) (ofs : Nat) (x : Frame) (blocks : List Frame) :
    Row.Statement (.leadBlockReceived ring far ofs x blocks) := Row.unspelt _
theorem Row.segStart (m : Fin 39) (seg : Fin 8) : Row.Statement (.segStart m seg) := Row.unspelt _
theorem Row.segStop (m : Fin 39) (seg : Fin 8) : Row.Statement (.segStop m seg) := Row.unspelt _
theorem Row.switchGo (m : Fin 39) (seg : Fin 8) (target : Fin 8) : Row.Statement (.switchGo m seg target) := Row.unspelt _
theorem Row.contractRequest (seg : Fin 8) (c : Fin 8) : Row.Statement (.contractRequest seg c) := Row.unspelt _
theorem Row.segmentRestart (seg : Fin 8) : Row.Statement (.segmentRestart seg) := Row.unspelt _
theorem Row.listenEnd (seg : Fin 8) : Row.Statement (.listenEnd seg) := Row.unspelt _
theorem Row.coldTimeout (seg : Fin 8) : Row.Statement (.coldTimeout seg) := Row.unspelt _
theorem Row.call (seg : Fin 8) (arrival : Nat) (x : Frame) : Row.Statement (.call seg arrival x) := Row.unspelt _
theorem Row.integrateEnd (seg : Fin 8) : Row.Statement (.integrateEnd seg) := Row.unspelt _
theorem Row.enumR (seg : Fin 8) (arrival : Nat) (poison : Bool) (body crc : List Byte) :
    Row.Statement (.enumR seg arrival poison body crc) := Row.unspelt _
theorem Row.enumUnanswered (seg : Fin 8) : Row.Statement (.enumUnanswered seg) := Row.unspelt _
theorem Row.auth2 (seg : Fin 8) (p : Fin 64) (poison : Bool) (body crc : List Byte) :
    Row.Statement (.auth2 seg p poison body crc) := Row.unspelt _
theorem Row.auth4 (seg : Fin 8) (p : Fin 64) (poison : Bool) (bytes : List Byte) :
    Row.Statement (.auth4 seg p poison bytes) := Row.unspelt _
theorem Row.auth4Nak (seg : Fin 8) (p : Fin 64) (x : Frame) : Row.Statement (.auth4Nak seg p x) := Row.unspelt _
theorem Row.authTimeout (seg : Fin 8) (p : Fin 64) : Row.Statement (.authTimeout seg p) := Row.unspelt _
theorem Row.startTimeout (seg : Fin 8) : Row.Statement (.startTimeout seg) := Row.unspelt _
theorem Row.nack (seg : Fin 8) (p : Fin 64) (x : Frame) : Row.Statement (.nack seg p x) := Row.unspelt _
theorem Row.switchDecision (seg : Fin 8) : Row.Statement (.switchDecision seg) := Row.unspelt _
theorem Row.contractSwitch (seg : Fin 8) : Row.Statement (.contractSwitch seg) := Row.unspelt _
theorem Row.claim (seg : Fin 8) (window : Fin 68) (poison : Bool) (bytes : List Byte) :
    Row.Statement (.claim seg window poison bytes) := Row.unspelt _
theorem Row.kittyTimeout (seg : Fin 8) (window : Fin 4) : Row.Statement (.kittyTimeout seg window) := Row.unspelt _
theorem Row.nodeMissing (seg : Fin 8) (p : Fin 64) : Row.Statement (.nodeMissing seg p) := Row.unspelt _
theorem Row.wake (d : Fin 1024) : Row.Statement (.wake d) := Row.unspelt _
theorem Row.waitTimeout (d : Fin 1024) : Row.Statement (.waitTimeout d) := Row.unspelt _
theorem Row.delayListTick : Row.Statement (.delayListTick) := Row.unspelt _
theorem Row.flowTimeout (f : Fin 16) : Row.Statement (.flowTimeout f) := Row.unspelt _
theorem Row.handMove (e : Fin 32) : Row.Statement (.handMove e) := Row.unspelt _
theorem Row.disRead (m : Fin 39) (d : Fin 1024) : Row.Statement (.disRead m d) := Row.unspelt _
theorem Row.create (m : Fin 39) (d : Fin 1024) : Row.Statement (.create m d) := Row.unspelt _
theorem Row.descriptorAdmission : Row.Statement (.descriptorAdmission) := Row.unspelt _
theorem Row.disDelete (m : Fin 39) (d : Fin 1024) : Row.Statement (.disDelete m d) := Row.unspelt _
theorem Row.kick (m : Fin 39) (d : Fin 1024) : Row.Statement (.kick m d) := Row.unspelt _
theorem Row.rehome (m : Fin 39) (d : Fin 1024) (e : Fin 32) : Row.Statement (.rehome m d e) := Row.unspelt _
theorem Row.statclr (m : Fin 39) (d : Fin 1024) (all : Bool) : Row.Statement (.statclr m d all) := Row.unspelt _
theorem Row.halt (e : Fin 32) : Row.Statement (.halt e) := Row.unspelt _
theorem Row.haltDone (e : Fin 32) : Row.Statement (.haltDone e) := Row.unspelt _
theorem Row.haltClear (e : Fin 32) : Row.Statement (.haltClear e) := Row.unspelt _
theorem Row.leMpy (e : Fin 32) (men : BitVec 4) (rt : Fin 4) (int : Bool) (xm : BitVec 10) (ym : BitVec 10) (scn : Bool) : Row.Statement (.leMpy e men rt int xm ym scn) := Row.unspelt _
theorem Row.leMac (e : Fin 32) (men : BitVec 4) (rt : Fin 4) (int : Bool) (xm : BitVec 10) (ym : BitVec 10) (scn : Bool) : Row.Statement (.leMac e men rt int xm ym scn) := Row.unspelt _
theorem Row.leMsu (e : Fin 32) (men : BitVec 4) (rt : Fin 4) (int : Bool) (xm : BitVec 10) (ym : BitVec 10) (scn : Bool) : Row.Statement (.leMsu e men rt int xm ym scn) := Row.unspelt _
theorem Row.leClr (e : Fin 32) (n : Fin 4) : Row.Statement (.leClr e n) := Row.unspelt _
theorem Row.leMova (e : Fin 32) (n : Fin 4) (m : Fin 4) : Row.Statement (.leMova e n m) := Row.unspelt _
theorem Row.leAdd (e : Fin 32) (n : Fin 4) (m : Fin 4) : Row.Statement (.leAdd e n m) := Row.unspelt _
theorem Row.leSub (e : Fin 32) (n : Fin 4) (m : Fin 4) : Row.Statement (.leSub e n m) := Row.unspelt _
theorem Row.leBfy (e : Fin 32) (n : Fin 4) (m : Fin 4) : Row.Statement (.leBfy e n m) := Row.unspelt _
theorem Row.leNeg (e : Fin 32) (n : Fin 4) : Row.Statement (.leNeg e n) := Row.unspelt _
theorem Row.leAbs (e : Fin 32) (n : Fin 4) : Row.Statement (.leAbs e n) := Row.unspelt _
theorem Row.leAsh (e : Fin 32) (n : Fin 4) (k : BitVec 7) : Row.Statement (.leAsh e n k) := Row.unspelt _
theorem Row.leAshg (e : Fin 32) (n : Fin 4) (i : Fin 8) : Row.Statement (.leAshg e n i) := Row.unspelt _
theorem Row.leAsha (e : Fin 32) (i : Fin 8) : Row.Statement (.leAsha e i) := Row.unspelt _
theorem Row.leAshb (e : Fin 32) (n : Fin 4) : Row.Statement (.leAshb e n) := Row.unspelt _
theorem Row.leScan (e : Fin 32) (n : Fin 4) : Row.Statement (.leScan e n) := Row.unspelt _
theorem Row.leIntAdd (e : Fin 32) (d : Fin 8) (g : Fin 8) (imm : Bool) (v : BitVec 16) : Row.Statement (.leIntAdd e d g imm v) := Row.unspelt _
theorem Row.leIntSub (e : Fin 32) (d : Fin 8) (g : Fin 8) (imm : Bool) (v : BitVec 16) : Row.Statement (.leIntSub e d g imm v) := Row.unspelt _
theorem Row.leAnd (e : Fin 32) (d : Fin 8) (g : Fin 8) (imm : Bool) (v : BitVec 16) : Row.Statement (.leAnd e d g imm v) := Row.unspelt _
theorem Row.leOr (e : Fin 32) (d : Fin 8) (g : Fin 8) (imm : Bool) (v : BitVec 16) : Row.Statement (.leOr e d g imm v) := Row.unspelt _
theorem Row.leXor (e : Fin 32) (d : Fin 8) (g : Fin 8) (imm : Bool) (v : BitVec 16) : Row.Statement (.leXor e d g imm v) := Row.unspelt _
theorem Row.leLsl (e : Fin 32) (d : Fin 8) (g : Fin 8) (imm : Bool) (v : BitVec 16) : Row.Statement (.leLsl e d g imm v) := Row.unspelt _
theorem Row.leLsr (e : Fin 32) (d : Fin 8) (g : Fin 8) (imm : Bool) (v : BitVec 16) : Row.Statement (.leLsr e d g imm v) := Row.unspelt _
theorem Row.leAsr (e : Fin 32) (d : Fin 8) (g : Fin 8) (imm : Bool) (v : BitVec 16) : Row.Statement (.leAsr e d g imm v) := Row.unspelt _
theorem Row.leMin (e : Fin 32) (d : Fin 8) (g : Fin 8) (imm : Bool) (v : BitVec 16) : Row.Statement (.leMin e d g imm v) := Row.unspelt _
theorem Row.leMax (e : Fin 32) (d : Fin 8) (g : Fin 8) (imm : Bool) (v : BitVec 16) : Row.Statement (.leMax e d g imm v) := Row.unspelt _
theorem Row.leLdi (e : Fin 32) (code : BitVec 7) (imm : BitVec 16) : Row.Statement (.leLdi e code imm) := Row.unspelt _
theorem Row.leLdih (e : Fin 32) (code : BitVec 7) (imm : BitVec 16) : Row.Statement (.leLdih e code imm) := Row.unspelt _
theorem Row.leMov (e : Fin 32) (dst : BitVec 7) (src : BitVec 7) : Row.Statement (.leMov e dst src) := Row.unspelt _
theorem Row.leLd (e : Fin 32) (code : BitVec 7) (k : Fin 8) (upd : BitVec 3) (scn : Bool) : Row.Statement (.leLd e code k upd scn) := Row.unspelt _
theorem Row.leSt (e : Fin 32) (code : BitVec 7) (k : Fin 8) (upd : BitVec 3) (scn : Bool) : Row.Statement (.leSt e code k upd scn) := Row.unspelt _
theorem Row.leLda (e : Fin 32) (n : Fin 4) (k : Fin 8) (upd : BitVec 3) (scn : Bool) : Row.Statement (.leLda e n k upd scn) := Row.unspelt _
theorem Row.leLdap (e : Fin 32) (n : Fin 4) (k : Fin 8) (upd : BitVec 3) (scn : Bool) : Row.Statement (.leLdap e n k upd scn) := Row.unspelt _
theorem Row.leSta (e : Fin 32) (n : Fin 4) (k : Fin 8) (upd : BitVec 3) (scn : Bool) : Row.Statement (.leSta e n k upd scn) := Row.unspelt _
theorem Row.leStap (e : Fin 32) (n : Fin 4) (k : Fin 8) (upd : BitVec 3) (scn : Bool) : Row.Statement (.leStap e n k upd scn) := Row.unspelt _
theorem Row.leLd64 (e : Fin 32) (n : Fin 4) (k : Fin 8) (upd : BitVec 3) (scn : Bool) : Row.Statement (.leLd64 e n k upd scn) := Row.unspelt _
theorem Row.leSt64 (e : Fin 32) (n : Fin 4) (k : Fin 8) (upd : BitVec 3) (scn : Bool) : Row.Statement (.leSt64 e n k upd scn) := Row.unspelt _
theorem Row.leLdf (e : Fin 32) (code : BitVec 7) (i : Fin 4) (fupd : Fin 4) (scn : Bool) : Row.Statement (.leLdf e code i fupd scn) := Row.unspelt _
theorem Row.leStf (e : Fin 32) (code : BitVec 7) (i : Fin 4) (fupd : Fin 4) (scn : Bool) : Row.Statement (.leStf e code i fupd scn) := Row.unspelt _
theorem Row.leLdf64 (e : Fin 32) (n : Fin 4) (i : Fin 4) (fupd : Fin 4) (scn : Bool) : Row.Statement (.leLdf64 e n i fupd scn) := Row.unspelt _
theorem Row.leStf64 (e : Fin 32) (n : Fin 4) (i : Fin 4) (fupd : Fin 4) (scn : Bool) : Row.Statement (.leStf64 e n i fupd scn) := Row.unspelt _
theorem Row.leFldb (e : Fin 32) (k : Fin 8) (upd : BitVec 3) (i : Fin 4) (fupd : Fin 4) (scn : Bool) : Row.Statement (.leFldb e k upd i fupd scn) := Row.unspelt _
theorem Row.leFstb (e : Fin 32) (k : Fin 8) (upd : BitVec 3) (i : Fin 4) (fupd : Fin 4) (scn : Bool) : Row.Statement (.leFstb e k upd i fupd scn) := Row.unspelt _
theorem Row.fabricLoadReturn (e : Fin 32) (error : Bool) : Row.Statement (.fabricLoadReturn e error) := Row.unspelt _
theorem Row.fabricStoreComplete (e : Fin 32) (error : Bool) : Row.Statement (.fabricStoreComplete e error) := Row.unspelt _
theorem Row.leNop (e : Fin 32) : Row.Statement (.leNop e) := Row.unspelt _
theorem Row.leB (e : Fin 32) (t : BitVec 16) : Row.Statement (.leB e t) := Row.unspelt _
theorem Row.leBc (e : Fin 32) (cond : BitVec 4) (x : BitVec 4) (t : BitVec 16) : Row.Statement (.leBc e cond x t) := Row.unspelt _
theorem Row.leRet (e : Fin 32) : Row.Statement (.leRet e) := Row.unspelt _
theorem Row.leRepi (e : Fin 32) (len : BitVec 8) (count : BitVec 16) : Row.Statement (.leRepi e len count) := Row.unspelt _
theorem Row.leRepg (e : Fin 32) (len : BitVec 8) (i : Fin 8) : Row.Statement (.leRepg e len i) := Row.unspelt _
theorem Row.leBrk (e : Fin 32) : Row.Statement (.leBrk e) := Row.unspelt _
theorem Row.leEnd (e : Fin 32) : Row.Statement (.leEnd e) := Row.unspelt _
theorem Row.leLdent (e : Fin 32) : Row.Statement (.leLdent e) := Row.unspelt _
theorem Row.leBxc (e : Fin 32) : Row.Statement (.leBxc e) := Row.unspelt _
theorem Row.leFsync (e : Fin 32) : Row.Statement (.leFsync e) := Row.unspelt _
theorem Row.cmode (i : Fin 256) (mode : Fin 4) : Row.Statement (.cmode i mode) := Row.unspelt _
theorem Row.axStop (i : Fin 256) : Row.Statement (.axStop i) := Row.unspelt _
theorem Row.gcancel (i : Fin 256) : Row.Statement (.gcancel i) := Row.unspelt _
theorem Row.target (i : Fin 256) (v : DWord) : Row.Statement (.target i v) := Row.unspelt _
theorem Row.gang (i : Fin 256) (v : DWord) : Row.Statement (.gang i v) := Row.unspelt _
theorem Row.gratio (i : Fin 256) (v : DWord) : Row.Statement (.gratio i v) := Row.unspelt _
theorem Row.enable (i : Fin 256) : Row.Statement (.enable i) := Row.unspelt _
theorem Row.disable (i : Fin 256) : Row.Statement (.disable i) := Row.unspelt _
theorem Row.enableTimeout (i : Fin 256) : Row.Statement (.enableTimeout i) := Row.unspelt _
theorem Row.automatic (i : Fin 256) : Row.Statement (.automatic i) := Row.unspelt _
theorem Row.manual (i : Fin 256) : Row.Statement (.manual i) := Row.unspelt _
theorem Row.axFaultAck (i : Fin 256) : Row.Statement (.axFaultAck i) := Row.unspelt _
theorem Row.rcClear (i : Fin 256) : Row.Statement (.rcClear i) := Row.unspelt _
theorem Row.injection (i : Fin 256) : Row.Statement (.injection i) := Row.unspelt _
theorem Row.injectionEnd (i : Fin 256) : Row.Statement (.injectionEnd i) := Row.unspelt _
theorem Row.decoderSample (c : Fin 16) (a : Bool) (bb : Bool) (z : Bool) : Row.Statement (.decoderSample c a bb z) := Row.unspelt _
theorem Row.positionLatch (c : Fin 16) : Row.Statement (.positionLatch c) := Row.unspelt _
theorem Row.ssiFrameEnd (c : Fin 16) (word : Nat) (highBefore : Bool) (lowAfter : Bool) : Row.Statement (.ssiFrameEnd c word highBefore lowAfter) := Row.unspelt _
theorem Row.inputBelowThreshold (c : Fin 16) (below : Bool) : Row.Statement (.inputBelowThreshold c below) := Row.unspelt _
theorem Row.fbEnable (c : Fin 16) : Row.Statement (.fbEnable c) := Row.unspelt _
theorem Row.fbFaultAck (c : Fin 16) : Row.Statement (.fbFaultAck c) := Row.unspelt _
theorem Row.load (c : Fin 16) : Row.Statement (.load c) := Row.unspelt _
theorem Row.uncClr (c : Fin 16) : Row.Statement (.uncClr c) := Row.unspelt _
theorem Row.fbCntClr (c : Fin 16) : Row.Statement (.fbCntClr c) := Row.unspelt _
theorem Row.arm (m : Fin 39) (g : Fin 8) : Row.Statement (.arm m g) := Row.unspelt _
theorem Row.disarm (m : Fin 39) (g : Fin 8) : Row.Statement (.disarm m g) := Row.unspelt _
theorem Row.force (m : Fin 39) (g : Fin 8) : Row.Statement (.force m g) := Row.unspelt _
theorem Row.trigArmEdge (low : Bool) : Row.Statement (.trigArmEdge low) := Row.unspelt _
theorem Row.trigFireEdge (low : Bool) : Row.Statement (.trigFireEdge low) := Row.unspelt _
theorem Row.firePulse (g : Fin 8) : Row.Statement (.firePulse g) := Row.unspelt _
theorem Row.readoutStart (m : Fin 39) (ch : Fin 64) (red : Fin 16) (hdr : Bool) : Row.Statement (.readoutStart m ch red hdr) := Row.unspelt _
theorem Row.capRdData (m : Fin 39) : Row.Statement (.capRdData m) := Row.unspelt _
theorem Row.election : Row.Statement (.election) := Row.unspelt _
theorem Row.hello (poison : Bool) (bytes : List Byte) : Row.Statement (.hello poison bytes) := Row.unspelt _
theorem Row.helloTimeout : Row.Statement (.helloTimeout) := Row.unspelt _
theorem Row.heartbeat (poison : Bool) (bytes : List Byte) (delay : Nat) : Row.Statement (.heartbeat poison bytes delay) := Row.unspelt _
theorem Row.pathBMiss : Row.Statement (.pathBMiss) := Row.unspelt _
theorem Row.pathAMiss : Row.Statement (.pathAMiss) := Row.unspelt _
theorem Row.mirror (poison : Bool) (bytes : List Byte) : Row.Statement (.mirror poison bytes) := Row.unspelt _
theorem Row.session (poison : Bool) (bytes : List Byte) : Row.Statement (.session poison bytes) := Row.unspelt _
theorem Row.bulk (poison : Bool) (header payload trailer : List Byte) :
    Row.Statement (.bulk poison header payload trailer) := Row.unspelt _
theorem Row.captureFrame (poison : Bool) (header payload trailer : List Byte) :
    Row.Statement (.captureFrame poison header payload trailer) := Row.unspelt _
theorem Row.handover : Row.Statement (.handover) := Row.unspelt _
theorem Row.handoverBoundary : Row.Statement (.handoverBoundary) := Row.unspelt _
theorem Row.ptnResync : Row.Statement (.ptnResync) := Row.unspelt _
theorem Row.evaluationCycle : Row.Statement (.evaluationCycle) := Row.unspelt _
theorem Row.safetyExchange (toA : Bool) (toB : Bool) (clockOk : Bool) : Row.Statement (.safetyExchange toA toB clockOk) := Row.unspelt _
theorem Row.exchangeTimeout (channelA : Bool) : Row.Statement (.exchangeTimeout channelA) := Row.unspelt _
theorem Row.sdiEdge (i : Fin 16) (level : Bool) : Row.Statement (.sdiEdge i level) := Row.unspelt _
theorem Row.testPulse (j : Fin 4) (fell : BitVec 16) (driverOk : Bool) : Row.Statement (.testPulse j fell driverOk) := Row.unspelt _
theorem Row.discrepancy (i : Fin 16) : Row.Statement (.discrepancy i) := Row.unspelt _
theorem Row.soutDarkTest (p : Fin 8) (stuckA : Bool) (stuckB : Bool) : Row.Statement (.soutDarkTest p stuckA stuckB) := Row.unspelt _
theorem Row.ss1TExpiry (f : Fin 32) : Row.Statement (.ss1TExpiry f) := Row.unspelt _
theorem Row.lockoutReset (widthA : Nat) (widthB : Nat) : Row.Statement (.lockoutReset widthA widthB) := Row.unspelt _
theorem Row.srstLong : Row.Statement (.srstLong) := Row.unspelt _
theorem Row.channelASelfTest (pass : Bool) : Row.Statement (.channelASelfTest pass) := Row.unspelt _
theorem Row.fieldSample (x : FieldIn) : Row.Statement (.fieldSample x) := Row.unspelt _
theorem Row.trip (n : Fin 16) : Row.Statement (.trip n) := Row.unspelt _
theorem Row.retry (n : Fin 16) : Row.Statement (.retry n) := Row.unspelt _
theorem Row.fldWdog (m : Fin 39) (v : Word) : Row.Statement (.fldWdog m v) := Row.unspelt _
theorem Row.watchdogExpiry : Row.Statement (.watchdogExpiry) := Row.unspelt _
theorem Row.faultMaskWrite (m : Fin 39) (hi : Bool) (v : Word) : Row.Statement (.faultMaskWrite m hi v) := Row.unspelt _
theorem Row.fieldOvertemp : Row.Statement (.fieldOvertemp) := Row.unspelt _
theorem Row.fieldClockFailure : Row.Statement (.fieldClockFailure) := Row.unspelt _
theorem Row.endpointReset : Row.Statement (.endpointReset) := Row.unspelt _
theorem Row.qspiFrame (cmd : Byte) (addr : BitVec 24) (data : List Word) (reads : Nat) (late : Bool) (cut : Bool) : Row.Statement (.qspiFrame cmd addr data reads late cut) := Row.unspelt _
theorem Row.hstFwDataRead (m : Fin 39) (w : Fin 16) : Row.Statement (.hstFwDataRead m w) := Row.unspelt _
theorem Row.hstFwDataWrite (m : Fin 39) (w : Fin 16) (v : Word) : Row.Statement (.hstFwDataWrite m w v) := Row.unspelt _
theorem Row.hstCntClr (m : Fin 39) : Row.Statement (.hstCntClr m) := Row.unspelt _
theorem Row.stampLatch (m : Fin 39) (source : Fin 256) : Row.Statement (.stampLatch m source) := Row.unspelt _
theorem Row.irqSAck (m : Fin 39) (source : Fin 256) (count : BitVec 16) : Row.Statement (.irqSAck m source count) := Row.unspelt _
theorem Row.snapshotRequest (m : Fin 39) : Row.Statement (.snapshotRequest m) := Row.unspelt _
theorem Row.snapshotComplete : Row.Statement (.snapshotComplete) := Row.unspelt _
theorem Row.sync (p : Fin 2) (source : Nat) (domain : Nat) (twoStep : Bool) (seq : Nat) (origin : Int) : Row.Statement (.sync p source domain twoStep seq origin) := Row.unspelt _
theorem Row.followUp (p : Fin 2) (source : Nat) (seq : Nat) (origin : Int) : Row.Statement (.followUp p source seq origin) := Row.unspelt _
theorem Row.delayReq (p : Fin 2) (source : Nat) : Row.Statement (.delayReq p source) := Row.unspelt _
theorem Row.delayResp (p : Fin 2) (source : Nat) (received : Int) : Row.Statement (.delayResp p source received) := Row.unspelt _
theorem Row.pdelayReq (p : Fin 2) (source : Nat) : Row.Statement (.pdelayReq p source) := Row.unspelt _
theorem Row.pdelayResp (p : Fin 2) (twoStep : Bool) (value : Int) : Row.Statement (.pdelayResp p twoStep value) := Row.unspelt _
theorem Row.pdelayRespFollowUp (p : Fin 2) (sent : Int) : Row.Statement (.pdelayRespFollowUp p sent) := Row.unspelt _
theorem Row.announce (p : Fin 2) : Row.Statement (.announce p) := Row.unspelt _
theorem Row.syncTransmit (p : Fin 2) : Row.Statement (.syncTransmit p) := Row.unspelt _
theorem Row.announceTransmit (p : Fin 2) : Row.Statement (.announceTransmit p) := Row.unspelt _
theorem Row.pdelayReqTransmit (p : Fin 2) : Row.Statement (.pdelayReqTransmit p) := Row.unspelt _
theorem Row.plantTimeStep : Row.Statement (.plantTimeStep) := Row.unspelt _
theorem Row.syncReceiptTimeout (p : Fin 2) : Row.Statement (.syncReceiptTimeout p) := Row.unspelt _
theorem Row.realign (m : Fin 39) : Row.Statement (.realign m) := Row.unspelt _
theorem Row.push (m : Fin 39) (q : Fin 8) (v : Word) : Row.Statement (.push m q v) := Row.unspelt _
theorem Row.launch (p : Fin 2) : Row.Statement (.launch p) := Row.unspelt _
theorem Row.lineAngleMessage (p : Fin 2) (x : LaMsg) (tag : BitVec 128) : Row.Statement (.lineAngleMessage p x tag) := Row.unspelt _
theorem Row.pltMdio (m : Fin 39) (v : Word) : Row.Statement (.pltMdio m v) := Row.unspelt _
theorem Row.mdioDone (data : BitVec 16) : Row.Statement (.mdioDone data) := Row.unspelt _
theorem Row.plantLinkChange (p : Fin 2) (link : Bool) (anDone : Bool) : Row.Statement (.plantLinkChange p link anDone) := Row.unspelt _
theorem Row.pltCntClr (m : Fin 39) : Row.Statement (.pltCntClr m) := Row.unspelt _
theorem Row.recordWrite : Row.Statement (.recordWrite) := Row.unspelt _
theorem Row.scpHwCmd (m : Fin 39) (v : Word) : Row.Statement (.scpHwCmd m v) := Row.unspelt _
theorem Row.scpRdGo (m : Fin 39) : Row.Statement (.scpRdGo m) := Row.unspelt _
theorem Row.scpReadDone : Row.Statement (.scpReadDone) := Row.unspelt _
theorem Row.opsecTick : Row.Statement (.opsecTick) := Row.unspelt _
theorem Row.monitorWindow (ref : Nat) (plls : Vector (Bool × Nat) 5) : Row.Statement (.monitorWindow ref plls) := Row.unspelt _
theorem Row.rcCheck (count : Nat) : Row.Statement (.rcCheck count) := Row.unspelt _
theorem Row.referenceTimeout : Row.Statement (.referenceTimeout) := Row.unspelt _
theorem Row.asynchronousReset : Row.Statement (.asynchronousReset) := Row.unspelt _
theorem Row.clockRestart : Row.Statement (.clockRestart) := Row.unspelt _
theorem Row.gateClose (g : Fin 48) : Row.Statement (.gateClose g) := Row.unspelt _
theorem Row.gateForced (g : Fin 48) (flights : List (Fin 39 × Nat)) : Row.Statement (.gateForced g flights) := Row.unspelt _
theorem Row.domainSwitch : Row.Statement (.domainSwitch) := Row.unspelt _
theorem Row.porstN : Row.Statement (.porstN) := Row.unspelt _
theorem Row.resetN (low : Nat) : Row.Statement (.resetN low) := Row.unspelt _
theorem Row.supplyRise : Row.Statement (.supplyRise) := Row.unspelt _
theorem Row.vddAoFall : Row.Statement (.vddAoFall) := Row.unspelt _
theorem Row.lockstepMismatch : Row.Statement (.lockstepMismatch) := Row.unspelt _
theorem Row.dealerWatchdog : Row.Statement (.dealerWatchdog) := Row.unspelt _
theorem Row.devreset (m : Fin 39) : Row.Statement (.devreset m) := Row.unspelt _
theorem Row.hostDeviceReset : Row.Statement (.hostDeviceReset) := Row.unspelt _
theorem Row.trstN : Row.Statement (.trstN) := Row.unspelt _
theorem Row.temperatureUpdate (t : Int) : Row.Statement (.temperatureUpdate t) := Row.unspelt _
theorem Row.fieldDieReset : Row.Statement (.fieldDieReset) := Row.unspelt _
theorem Row.callInstruction (e : Fin 32) (t : BitVec 16) : Row.Statement (.callInstruction e t) := Row.unspelt _
theorem Row.reservedInstruction (e : Fin 32) : Row.Statement (.reservedInstruction e) := Row.unspelt _
theorem Row.configurationRequest (req : CfgReq) : Row.Statement (.configurationRequest req) := Row.unspelt _
theorem Row.receivedFrameDropped (p : Fin 2) : Row.Statement (.receivedFrameDropped p) := Row.unspelt _
theorem Row.debugPortChallenge : Row.Statement (.debugPortChallenge) := Row.unspelt _
theorem Row.linkUp (speed : Fin 4) : Row.Statement (.linkUp speed) := Row.unspelt _

end Sys2Proof.Laws
end

