-- ==== Sys2Proof/Laws/Wire.lean ====
section
/-!
SUPPORT. What a sealed frame reads as: numbers spelt in bytes come back, a frame built by `sealFrame` or `sealPartner` passes the checks of
its CRC and tag, and a partner frame opens to the words sealed in it.
-/

namespace Sys2Proof.Machine

/-! ### Numbers in bytes -/

@[simp] theorem length_bytesBE (n v : Nat) : (bytesBE n v).length = n := by
  induction n with
  | zero => rfl
  | succ n ih => simp [bytesBE, ih]

@[simp] theorem length_bytesLE (n v : Nat) : (bytesLE n v).length = n := by
  induction n generalizing v with
  | zero => rfl
  | succ n ih => simp [bytesLE, ih]

/-- A number spelt in `n` bytes reads back, cut to them. -/
theorem ofBytesLE_bytesLE (n v : Nat) : ofBytesLE (bytesLE n v) = v % 256 ^ n := by
  induction n generalizing v with
  | zero => simp [bytesLE, ofBytesLE, Nat.mod_one]
  | succ n ih =>
    have e : v % 256 ^ (n + 1) = v % 256 + 256 * (v / 256 % 256 ^ n) := by rw [Nat.pow_succ', Nat.mod_mul]
    rw [bytesLE, ofBytesLE, ih, BitVec.toNat_ofNat, e]

theorem foldl_bytesBE (n v a : Nat) :
    (bytesBE n v).foldl (fun a b => a * 256 + b.toNat) a = a * 256 ^ n + v % 256 ^ n := by
  induction n generalizing a with
  | zero => simp [bytesBE, Nat.mod_one]
  | succ n ih =>
    have e : (2 : Nat) ^ (8 * n) = 256 ^ n := by rw [pow_mul]; norm_num
    have m : v % (256 ^ n * 256) = v % 256 ^ n + 256 ^ n * (v / 256 ^ n % 256) := Nat.mod_mul
    rw [bytesBE, List.foldl_cons, ih, BitVec.toNat_ofNat, e, show (2 : Nat) ^ 8 = 256 from rfl, Nat.pow_succ, m]
    ring

theorem ofBytesBE_bytesBE (n v : Nat) : ofBytesBE (bytesBE n v) = v % 256 ^ n := by
  rw [ofBytesBE, foldl_bytesBE]; simp

/-! ### The CRC -/

theorem crcShift_lt (k : Nat) {c : Nat} (h : c < 2 ^ 32) : crcShift k c < 2 ^ 32 := by
  induction k generalizing c with
  | zero => exact h
  | succ k ih =>
    rw [crcShift]
    apply ih
    split
    · exact Nat.xor_lt_two_pow (by omega) (by norm_num)
    · omega

/-- A CRC has 32 bits. -/
theorem crc32_lt (bs : List Byte) : crc32 bs < 2 ^ 32 := by
  have go : ∀ (bs : List Byte) (c : Nat), c < 2 ^ 32 → bs.foldl (fun c b => crcShift 8 (c ^^^ b.toNat)) c < 2 ^ 32 := by
    intro bs
    induction bs with
    | nil => intro c h; exact h
    | cons b t ih =>
      intro c h
      exact ih _ (crcShift_lt 8 (Nat.xor_lt_two_pow h (lt_trans b.isLt (by norm_num))))
  exact Nat.xor_lt_two_pow (go bs _ (by norm_num)) (by norm_num)

/-- Bytes followed by their CRC pass its check. -/
theorem Frame.crcOk_of {y : List Byte} (h : 11 ≤ y.length) : Frame.crcOk ⟨false, y ++ bytesLE 4 (crc32 y)⟩ = true := by
  have e := ofBytesLE_bytesLE 4 (crc32 y)
  have l := crc32_lt y
  have c : Frame.covered ⟨false, y ++ bytesLE 4 (crc32 y)⟩ = y := by simp [Frame.covered]
  unfold Frame.crcOk
  rw [c]
  simp only [List.length_append, length_bytesLE, Nat.add_sub_cancel, List.drop_left, e]
  rw [Nat.mod_eq_of_lt (by simpa using l)]
  simpa using h

/-! ### Frames of Thrumlos -/

/-- A frame of what the tag covers and a tag `t`, with its CRC. -/
def withTag (aad : List Byte) (t : Nat) : List Byte := aad ++ bytesBE 4 t ++ bytesLE 4 (crc32 (aad ++ bytesBE 4 t))

theorem sealFrame_eq (k : BitVec 128) (nonce aad : List Byte) : sealFrame k nonce aad = withTag aad (frameTag k nonce aad) := rfl

theorem length_withTag (aad : List Byte) (t : Nat) : (withTag aad t).length = aad.length + 8 := by simp [withTag]

theorem Frame.crcOk_withTag {aad : List Byte} (h : 7 ≤ aad.length) (t : Nat) : Frame.crcOk ⟨false, withTag aad t⟩ = true :=
  Frame.crcOk_of (by simpa using h)

/-- A byte of a frame before its tag. -/
theorem Frame.byte_withTag {aad : List Byte} {j : Nat} (h : j - 1 < aad.length) (t : Nat) :
    Frame.byte ⟨false, withTag aad t⟩ j = (aad.getD (j - 1) 0).toNat := by
  simp only [Frame.byte, withTag]
  congr 1
  simp [List.getElem?_append_left h]

/-- A number of a frame before its tag. -/
theorem Frame.num_withTag {aad : List Byte} {j n : Nat} (h : j - 1 + n ≤ aad.length) (t : Nat) :
    Frame.num ⟨false, withTag aad t⟩ j n = ofBytesBE ((aad.drop (j - 1)).take n) := by
  simp only [Frame.num, withTag, List.append_assoc]
  rw [List.drop_append_of_le_length (by omega), List.take_append_of_le_length (by simp; omega)]

theorem frameTag_lt (k : BitVec 128) (nonce aad : List Byte) : frameTag k nonce aad < 2 ^ 32 := by
  have := (Config.gcmTag k nonce aad).isLt
  unfold frameTag; omega

/-- The tag of a frame matches under a key where it is the one over the nonce that its own header gives. -/
theorem Frame.tagged_withTag {aad : List Byte} (h : aad.length = 7 + 4 * (aad.getD 5 0).toNat) (t : Nat) (k : BitVec 128) (up : Bool) (s r : Nat) :
    Frame.tagged ⟨false, withTag aad t⟩ k up s r =
      decide (frameTag k (tagNonce up ((aad.getD 0 0).toNat / 16 % 2) s r (ofBytesBE ((aad.drop 1).take 2))) aad = t % 2 ^ 32) := by
  have b1 := Frame.byte_withTag (aad := aad) (j := 1) (by omega) t
  have b6 := Frame.byte_withTag (aad := aad) (j := 6) (by omega) t
  have n2 := Frame.num_withTag (aad := aad) (j := 2) (n := 2) (by omega) t
  have a : (withTag aad t).take (7 + 4 * (aad.getD 5 0).toNat) = aad := by
    rw [← h, withTag, List.append_assoc, List.take_left']; rfl
  have d : Frame.num ⟨false, withTag aad t⟩ (7 + 4 * (aad.getD 5 0).toNat + 1) 4 = t % 2 ^ 32 := by
    simp only [Frame.num, Nat.add_sub_cancel, withTag, List.append_assoc]
    rw [← h, List.drop_left', List.take_append_of_le_length (by simp), List.take_of_length_le (by simp), ofBytesBE_bytesBE]
    · norm_num
    · rfl
  unfold Frame.tagged
  simp only [b1, b6, n2, Nat.sub_self, show 6 - 1 = 5 from rfl, show 2 - 1 = 1 from rfl, a, d]

theorem length_headerBytes (type p turn round len : Nat) : (headerBytes type p turn round len).length = 7 := by simp [headerBytes]

/-- A frame of payload `pay` as it arrives, its tag `t`. -/
def wireFrame (p round type turn : Nat) (pay : List Byte) (t : Nat) : Frame :=
  ⟨false, withTag (headerBytes type p turn round (pay.length / 4) ++ pay) t⟩

/-- The tag a frame of payload `pay` has under `k` on segment `s`. -/
def wireTag (k : BitVec 128) (up : Bool) (s p round type turn : Nat) (pay : List Byte) : Nat :=
  frameTag k (tagNonce up p s round turn) (headerBytes type p turn round (pay.length / 4) ++ pay)

theorem wireTag_lt (k : BitVec 128) (up : Bool) (s p round type turn : Nat) (pay : List Byte) :
    wireTag k up s p round type turn pay < 2 ^ 32 := frameTag_lt _ _ _

/-- What such a frame reads as: its CRC matches, it is of the type, turn, length and round it was built with, its payload is the one given, and
its tag matches where it is the one under the key. -/
theorem wireFrame_reads {p round type turn : Nat} {pay : List Byte} (t : Nat) (hp : p < 2) (ht : type < 8) (hu : turn < 2 ^ 16)
    (h4 : pay.length % 4 = 0) (hl : pay.length < 1024) :
    let f := wireFrame p round type turn pay t
    f.crcOk = true ∧ f.byte 1 / 16 % 2 = p ∧ f.num 4 2 = round % 2 ^ 16 ∧ f.bytes.length = 15 + pay.length ∧
      (∀ y g len r, f.isA y g len r = decide (y = type ∧ g = turn ∧ len = pay.length / 4 ∧ r % 2 ^ 16 = round % 2 ^ 16)) ∧
      (∀ j n, j + n ≤ pay.length → f.pay j n = ofBytesBE ((pay.drop j).take n)) ∧
      ∀ k up s r, f.tagged k up s r = decide (frameTag k (tagNonce up p s r turn)
        (headerBytes type p turn round (pay.length / 4) ++ pay) = t % 2 ^ 32) := by
  intro f
  have hlen := length_headerBytes type p turn round (pay.length / 4)
  have len : (headerBytes type p turn round (pay.length / 4) ++ pay).length = 7 + pay.length := by simp [hlen]
  have g0 : ((headerBytes type p turn round (pay.length / 4) ++ pay).getD 0 0).toNat = 32 * type + 16 * p + 1 := by
    simp [headerBytes, bytesBE]; omega
  have g5 : ((headerBytes type p turn round (pay.length / 4) ++ pay).getD 5 0).toNat = pay.length / 4 := by
    simp [headerBytes, bytesBE]; omega
  have d1 : ((headerBytes type p turn round (pay.length / 4) ++ pay).drop 1).take 2 = bytesBE 2 turn := by simp [headerBytes, bytesBE]
  have d3 : ((headerBytes type p turn round (pay.length / 4) ++ pay).drop 3).take 2 = bytesBE 2 round := by simp [headerBytes, bytesBE]
  have b1 : f.byte 1 = 32 * type + 16 * p + 1 := (Frame.byte_withTag (by omega) t).trans g0
  have b6 : f.byte 6 = pay.length / 4 := (Frame.byte_withTag (by omega) t).trans g5
  have n2 : f.num 2 2 = turn := by
    rw [show f.num 2 2 = _ from Frame.num_withTag (by omega) t, d1, ofBytesBE_bytesBE]; omega
  have n4 : f.num 4 2 = round % 2 ^ 16 := by
    rw [show f.num 4 2 = _ from Frame.num_withTag (by omega) t, d3, ofBytesBE_bytesBE]; norm_num
  have bl : f.bytes.length = 15 + pay.length := by
    show (withTag _ _).length = _
    rw [length_withTag, len]; omega
  refine ⟨Frame.crcOk_withTag (by omega) t, by rw [b1]; omega, n4, bl, ?_, ?_, ?_⟩
  · intro y g len r
    rw [Bool.eq_iff_iff]
    simp only [Frame.isA, b1, n2, n4, b6, bl, Bool.and_eq_true, decide_eq_true_eq]
    omega
  · intro j n hj
    rw [Frame.pay, show f.num (8 + j) n = _ from Frame.num_withTag (by omega) t, show 8 + j - 1 = 7 + j by omega, ← List.drop_drop,
      List.drop_left' hlen]
  · intro k up s r
    have e := Frame.tagged_withTag (aad := headerBytes type p turn round (pay.length / 4) ++ pay) (by rw [len, g5]; omega) t k up s r
    rw [g0, d1, ofBytesBE_bytesBE, Nat.mod_eq_of_lt (show turn < 256 ^ 2 by omega), show (32 * type + 16 * p + 1) / 16 % 2 = p by omega] at e
    exact e

/-- A management frame of the segment round under way is one by its form, and by its tag under the key it was tagged with. -/
theorem wireFrame_mgmt (b : Block) (s : Nat) {p msg type turn : Nat} {pay : List Byte} (t : Nat) (hp : p < 2) (ht : type < 8) (hu : turn < 2 ^ 16)
    (h4 : pay.length % 4 = 0) (h0 : 0 < pay.length) (hl : pay.length < 1024) (hm : (pay.getD 0 0).toNat = msg) :
    let f := wireFrame p (b.segRound s) type turn pay t
    b.mgmtForm s f msg (pay.length / 4) (type, turn) = true ∧
      ∀ k, b.mgmtTag s f k = decide (wireTag k true s p (b.segRound s) type turn pay = t % 2 ^ 32) := by
  intro f
  obtain ⟨hc, -, -, -, hi, hq, hg⟩ := wireFrame_reads (round := b.segRound s) (pay := pay) t hp ht hu h4 hl
  refine ⟨?_, fun k => hg k true s (b.segRound s)⟩
  have h1 : f.pay 0 1 = msg := by
    rw [hq 0 1 (by omega), List.drop_zero, ← hm]
    obtain ⟨a, l, rfl⟩ := List.exists_cons_of_length_pos h0
    simp [ofBytesBE]
  simp only [Block.mgmtForm, show f.crcOk = true from hc, show f.isA type turn (pay.length / 4) (b.segRound s) = _ from hi .., h1,
    decide_true, and_self, Bool.and_self]

/-- The frame of a node: tagged under `k`, or off by `e`. -/
def nodeFrame (b : Block) (s : Nat) (k : BitVec 128) (type turn : Nat) (pay : List Byte) (e : Nat) : Frame :=
  wireFrame 0 (b.segRound s) type turn pay (wireTag k true s 0 (b.segRound s) type turn pay + e)

/-- A node's frame is valid under its key, and not where its tag is off by one. -/
theorem nodeFrame_valid (b : Block) (s : Nat) (k : BitVec 128) {msg type turn e : Nat} {pay : List Byte} (ht : type < 8) (hu : turn < 2 ^ 16)
    (h4 : pay.length = 32) (hm : (pay.getD 0 0).toNat = msg) (he : e < 2) :
    let f := nodeFrame b s k type turn pay e
    b.mgmtForm s f msg 8 (type, turn) = true ∧ b.mgmtTag s f k = decide (e = 0) ∧
      ∀ j n, j + n ≤ 32 → f.pay j n = ofBytesBE ((pay.drop j).take n) := by
  intro f
  obtain ⟨hf, hg⟩ := wireFrame_mgmt b s (pay := pay) (wireTag k true s 0 (b.segRound s) type turn pay + e) (p := 0) (by omega) ht hu
    (by omega) (by omega) (by omega) hm
  obtain ⟨-, -, -, -, -, hq, -⟩ := wireFrame_reads (round := b.segRound s) (pay := pay)
    (wireTag k true s 0 (b.segRound s) type turn pay + e) (p := 0) (by omega) ht hu (by omega) (by omega)
  rw [h4] at hf
  refine ⟨hf, ?_, fun j n h => hq j n (by omega)⟩
  have l := wireTag_lt k true s 0 (b.segRound s) type turn pay
  rw [show b.mgmtTag s f k = _ from hg k]
  congr 1
  apply propext
  omega

/-! ### Frames of the partner link -/

/-- Bytes under a key stream twice are the bytes. -/
theorem xorStream_twice (stream : Nat → Byte) (bs : List Byte) : xorStream stream (xorStream stream bs) = bs := by
  apply List.ext_getElem
  · simp [xorStream]
  · intro i h1 h2
    simp [xorStream]

@[simp] theorem length_xorStream (stream : Nat → Byte) (bs : List Byte) : (xorStream stream bs).length = bs.length := by
  simp [xorStream]

/-- The bytes of words. -/
def wordsBytes (ws : List Word) : List Byte := ws.flatMap fun w => bytesBE 4 w.toNat

@[simp] theorem length_wordsBytes (ws : List Word) : (wordsBytes ws).length = 4 * ws.length := by
  induction ws with
  | nil => rfl
  | cons w t ih =>
    unfold wordsBytes at ih ⊢
    rw [List.flatMap_cons, List.length_append, ih, length_bytesBE, List.length_cons]
    omega

/-- Words spelt in bytes come back. -/
theorem words_of_bytes (ws : List Word) :
    ((List.range ws.length).map fun k => BitVec.ofNat 32 (ofBytesBE (((wordsBytes ws).drop (4 * k)).take 4))) = ws := by
  induction ws with
  | nil => rfl
  | cons w t ih =>
    have e : wordsBytes (w :: t) = bytesBE 4 w.toNat ++ wordsBytes t := rfl
    rw [List.length_cons, List.range_succ_eq_map, List.map_cons, List.map_map, e]
    refine List.cons_eq_cons.2 ⟨?_, ?_⟩
    · rw [Nat.mul_zero, List.drop_zero, List.take_append_of_le_length (by simp), List.take_of_length_le (by simp), ofBytesBE_bytesBE]
      apply BitVec.eq_of_toNat_eq
      simpa using w.isLt
    · conv_rhs => rw [← ih]
      apply List.map_congr_left
      intro k _
      simp only [Function.comp, Nat.succ_eq_add_one]
      rw [show 4 * (k + 1) = 4 + 4 * k by omega, ← List.drop_drop, List.drop_left' (by simp)]

/-- Header bytes 1 to 11 of a partner frame (Table 14.1). -/
def ptnHeader (p round seq : Nat) (x : TxFrame) : List Byte :=
  bytesBE 1 (16 * x.type + 8 * p) ++ bytesBE 2 seq ++ bytesBE 6 round ++ bytesBE 2 x.words.length

@[simp] theorem length_ptnHeader (p round seq : Nat) (x : TxFrame) : (ptnHeader p round seq x).length = 11 := by simp [ptnHeader]

/-- The ciphertext of a partner frame. -/
def ptnBody (key : BitVec 128) (p round seq : Nat) (x : TxFrame) : List Byte :=
  xorStream (Config.stream128 key (partnerNonce p round seq)) (wordsBytes x.words)

@[simp] theorem length_ptnBody (key : BitVec 128) (p round seq : Nat) (x : TxFrame) :
    (ptnBody key p round seq x).length = 4 * x.words.length := by simp [ptnBody]

/-- The tag of a partner frame. -/
def ptnTag (key : BitVec 128) (p round seq : Nat) (x : TxFrame) : Nat :=
  (Config.tag128 key (partnerNonce p round seq) (ptnHeader p round seq x) (ptnBody key p round seq x)).toNat

/-- All of a partner frame but its CRC. -/
def ptnCovered (key : BitVec 128) (p round seq : Nat) (x : TxFrame) : List Byte :=
  ptnHeader p round seq x ++ (ptnBody key p round seq x ++ bytesBE 16 (ptnTag key p round seq x))

theorem sealPartner_eq (key : BitVec 128) (p round seq : Nat) (x : TxFrame) :
    sealPartner key p round seq x = ptnCovered key p round seq x ++ bytesLE 4 (crc32 (ptnCovered key p round seq x)) := by
  simp only [ptnCovered, ← List.append_assoc]; rfl

/-- A partner frame as it arrives. -/
def arrives (key : BitVec 128) (p round seq : Nat) (x : TxFrame) : Frame := ⟨false, sealPartner key p round seq x⟩

/-- The numbers of the header. -/
theorem arrives_num {key : BitVec 128} {p round seq : Nat} {x : TxFrame} {j n : Nat} (h : j - 1 + n ≤ 11) :
    (arrives key p round seq x).num j n = ofBytesBE (((ptnHeader p round seq x).drop (j - 1)).take n) := by
  simp only [Frame.num, arrives, sealPartner_eq, ptnCovered, List.append_assoc]
  rw [List.drop_append_of_le_length (by simp; omega), List.take_append_of_le_length (by simp; omega)]

/-- A partner frame opens to what was sealed in it. -/
theorem arrives_opens {key : BitVec 128} {p round seq : Nat} {x : TxFrame} (hp : p < 2) (ht : x.type < 16) (hs : seq < 2 ^ 16)
    (hr : round < 2 ^ 48) (hl : x.words.length ≤ 256) :
    let f := arrives key p round seq x
    f.ptnOk key = true ∧ f.ptnType = x.type ∧ f.ptnP = p ∧ f.ptnSeq = seq ∧ f.ptnRound = round ∧ f.ptnLen = x.words.length ∧
      f.ptnWords key = x.words := by
  intro f
  have b1 : f.byte 1 = 16 * x.type + 8 * p := by
    have : f.bytes.getD 0 0 = BitVec.ofNat 8 (16 * x.type + 8 * p) := by
      simp [f, arrives, sealPartner_eq, ptnCovered, ptnHeader, bytesBE]
    simp only [Frame.byte, Nat.sub_self, this, BitVec.toNat_ofNat]
    omega
  have n2 : f.ptnSeq = seq := by
    have e := arrives_num (key := key) (p := p) (round := round) (seq := seq) (x := x) (j := 2) (n := 2) (by omega)
    have g : ((ptnHeader p round seq x).drop 1).take 2 = bytesBE 2 seq := by simp [ptnHeader, bytesBE]
    rw [Frame.ptnSeq, e, g, ofBytesBE_bytesBE]; omega
  have n4 : f.ptnRound = round := by
    have e := arrives_num (key := key) (p := p) (round := round) (seq := seq) (x := x) (j := 4) (n := 6) (by omega)
    have g : ((ptnHeader p round seq x).drop 3).take 6 = bytesBE 6 round := by simp [ptnHeader, bytesBE]
    rw [Frame.ptnRound, e, g, ofBytesBE_bytesBE]; omega
  have nl : f.ptnLen = x.words.length := by
    have e := arrives_num (key := key) (p := p) (round := round) (seq := seq) (x := x) (j := 10) (n := 2) (by omega)
    have g : ((ptnHeader p round seq x).drop 9).take 2 = bytesBE 2 x.words.length := by simp [ptnHeader, bytesBE]
    rw [Frame.ptnLen, e, g, ofBytesBE_bytesBE]; omega
  have ty : f.ptnType = x.type := by rw [Frame.ptnType, b1]; omega
  have pp : f.ptnP = p := by rw [Frame.ptnP, b1]; omega
  have len : f.bytes.length = 31 + 4 * x.words.length := by
    simp [f, arrives, sealPartner_eq, ptnCovered]; omega
  have body : f.ptnCipher = ptnBody key p round seq x := by
    unfold Frame.ptnCipher
    rw [nl]
    simp only [f, arrives, sealPartner_eq, ptnCovered, List.append_assoc]
    rw [List.drop_left' (by simp), List.take_left' (by simp)]
  have head : f.bytes.take 11 = ptnHeader p round seq x := by
    simp only [f, arrives, sealPartner_eq, ptnCovered, List.append_assoc]
    rw [List.take_left' (by simp)]
  have tag : f.num (12 + 4 * x.words.length) 16 = ptnTag key p round seq x := by
    have e : f.bytes.drop (12 + 4 * x.words.length - 1) =
        bytesBE 16 (ptnTag key p round seq x) ++ bytesLE 4 (crc32 (ptnCovered key p round seq x)) := by
      simp only [f, arrives, sealPartner_eq, ptnCovered, List.append_assoc]
      rw [show 12 + 4 * x.words.length - 1 = 11 + 4 * x.words.length by omega, ← List.drop_drop, List.drop_left' (by simp),
        List.drop_left' (by simp)]
    rw [Frame.num, e, List.take_left' (by simp), ofBytesBE_bytesBE]
    exact Nat.mod_eq_of_lt (by have := (Config.tag128 key (partnerNonce p round seq) (ptnHeader p round seq x)
      (ptnBody key p round seq x)).isLt; unfold ptnTag; norm_num at this ⊢; exact this)
  refine ⟨?_, ty, pp, n2, n4, nl, ?_⟩
  · have c : f.crcOk = true := by
      have := Frame.crcOk_of (y := ptnCovered key p round seq x) (by simp [ptnCovered])
      rwa [← sealPartner_eq] at this
    unfold Frame.ptnOk
    rw [c, nl, len, head, body, pp, n2, n4, tag]
    simp [hl, ptnTag]
  · unfold Frame.ptnWords
    simp only [nl, pp, n2, n4, body, ptnBody, xorStream_twice]
    exact words_of_bytes _

end Sys2Proof.Machine
end

