-- ==== Sys2Proof/Tests/Slice0.lean ====
section
/-!
SUPPORT. Tests of this model's own: for each statement a state and operands that meet its hypotheses (the theorems wit_…), ill-formed
commands that the check refuses, the spec's worked examples, and a few single steps.
-/

namespace Sys2Proof.Tests
open Sys2Proof Sys2Proof.Machine

/-- A deck with nothing in it. -/
def deck : Deck :=
  { header := ⟨0, 1, 0, 0, 0, 0, 0, 0, 0, 0, 0, 0, 0⟩, sects := [], raw := [], keyHash := 0, sigOk := true, digest := 0, parseFault := none,
    rounds := [⟨1, 0⟩], domains := [], flows := [], axes := [], graphs := [], inits := [], images := [], tasks := [], segs := [],
    contracts := [], turns := [], nodeIds := [], mirror := none, policy := [], ranges := [], locks := [], fills := [], revokes := [],
    kMnr := none, kPr := none, plant := ⟨[], [], [], [], []⟩, angle := ⟨[], [], [], [], [], []⟩, field := ⟨[], [], []⟩, capture := none,
    safety := ⟨[], [], [], [], []⟩, pcrcOk := true }

/-- A state with every domain on, as `f` changes it. -/
def st (f : Block → Block) : State := { State.reset with blk := f (Reset.block.wr aCPR_PD_STAT 0xFFF) }

/-- The same with a deck dealt. -/
def dt (d : Deck) (f : Block → Block) : State := st fun b => f { b with dealt := some d }

/-- A state whose PCIe port is open. -/
def hs (f : Block → Block) : State :=
  st fun b => f ({ b with host.pcie := ⟨false, true, false, 0⟩ }.on HST_MODE_LINK_UP)

/-- Descriptor words of kind `k` with identifier fields 0. -/
def kindOf (k : Word) : Desc := { Reset.desc with words := Reset.desc.words.set 0 k }

/-- A run of the task of descriptor 1023 at stage `g`. -/
def task (g : Stage) : Run := ⟨⟨1023, false, false, 0, 0, 0⟩, g, 0, 0, ⟨0, 0, false, false, false⟩, ⟨0, 0, 0, 0, 0, 0⟩⟩

/-- Engine 31 runs the microcode of a segment task, and is otherwise as `f` leaves it. -/
def eg (f : Engine → Engine) : State := st fun b => (b.modEng 31 fun x => f { x with run := some (task .code) }).modDesc 1023 fun _ => kindOf 3

/-- The same with registers `f`, come to the word `w` at the highest address from which the next lies in the microcode of tasks. -/
def rg (w : Word) (f : ERegs → ERegs) : State :=
  (eg fun x => { x with regs := { f x.regs with pc := 0xFFF8 } }).onBlk fun b => { b with mem := Memory.writeWord b.mem (engBase 31 + 0xFFF8) w }

theorem eg_eng (f : Engine → Engine) :
    (eg f).blk.eng 31 = f { (Reset.block.wr aCPR_PD_STAT 0xFFF).eng 31 with run := some (task .code) } :=
  Block.eng_modEng_same (Reset.block.wr aCPR_PD_STAT 0xFFF) 31 fun x => f { x with run := some (task .code) }

theorem rg_issues (w : Word) (f : ERegs → ERegs) (codes : List Nat) (words : List (Bool × Nat)) :
    (rg w f).canIssue 31 w codes words := by
  have h : (rg w f).blk.eng 31 = (eg fun x => { x with regs := { f x.regs with pc := 0xFFF8 } }).blk.eng 31 := rfl
  refine ⟨?_, rfl, ?_⟩
  · unfold Block.comesTo Block.runsCode Block.wordAt
    rw [h, eg_eng]
    simp only [Bool.and_eq_true, decide_eq_true_eq]
    exact ⟨rfl, Memory.readWord_writeWord _ _ w⟩
  · rw [h, eg_eng]; intro l hl; cases hl

/-- A deck that every check accepts: no axis, the virtual line angle, the dispatcher's policy alone. -/
def good : Deck :=
  { deck with
    header := ⟨0x4C584443, 1, 0x40, 0x25600000, 464, 0, 0, 0, 0, 6, 0, 0, 0⟩
    sects := [1, 2, 6, 7, 8, 9].map fun t => ⟨t, 0, 256, 0, 0, 0, true⟩
    raw := List.replicate 464 0, keyHash := 7, domains := [0x887], policy := [dispatcherBlock]
    angle := ⟨[⟨3, 0, 0, 1, 1, 1, 0⟩], [⟨1, 1, 0, 0⟩], [(0, 0)], [], [], []⟩
    safety := ⟨[⟨0, 4, 5, 1, 10, 0, 0⟩], [], [], [], []⟩ }

/-- OTP of a provisioned part whose key slot 0 holds that deck's key. -/
def otp1 : Otp := { Reset.otp with provisioned := true, slots := Reset.otp.slots.set 0 ⟨7, 1⟩ }

/-- An axis record of kind `k`, at position 63 of segment 7 with feedback of the node; virtual ones have none. -/
def axisRec (i k : Nat) : AxisRec :=
  if k = 3 then ⟨i, 3, 0, 0xFF, 0xFF, 0, 0xFF, 0, 0, 0xFF, 1⟩ else ⟨i, k, 0, 7, 63, 0, 0, 0, 0, 0xFF, 1⟩

/-- A deck with axis 255 of kind `k`, its graph the standard servo law with BLOCKS `g`. -/
def axDeck (k g : Nat) : Deck := { deck with axes := [axisRec 255 k], graphs := [⟨1, 0, g, 0, 0⟩] }

/-- A state with that axis, changed by `f`. -/
def axs (k : Nat) (f : Block → Block) : State := dt (axDeck k 0) f

/-- A deck whose MIRROR section pairs serials 1 and 2. -/
def pairDeck : Deck := { deck with mirror := some ⟨[⟨1, 2, 16, 0⟩], [(255, 255)], [⟨0x30000000, 2⟩]⟩ }

/-- A unit of that pair with role `role`, paired, changed by `f`. -/
def pr (role : Nat) (f : Block → Block) : State :=
  dt pairDeck fun b => f ((((b.set PTN_STAT_ROLE role).on PTN_STAT_PAIRED).set PTN_PEER 2).set DEV_ROUND 5)

/-- A deck with segment 7 (contract 1, a kitty window, a turn of the last node with one axis) and, where `ring`, ring 0. -/
def segDeck (ring : Bool) : Deck :=
  { deck with
    axes := [axisRec 255 1], graphs := [⟨1, 0, 0, 0, 0⟩]
    segs := [⟨7, 2, 1, 2, 2⟩] ++ if ring then [⟨0, 1, 1, 2, 2⟩] else []
    contracts := [⟨7, 0, 1, 1, 4⟩, ⟨7, 1, 1, 1, 4⟩], turns := [⟨7, 0, 0, 63, 1, 4⟩, ⟨7, 1, 0, 63, 1, 4⟩] }

/-- Segment 7 of that deck in state `n`, in round 5, changed by `f`. -/
def sg7 (n : Nat) (f : Block → Block) : State := dt (segDeck false) fun b => f ((b.set (SEG_STAT_STATE 7) n).set DEV_ROUND 5)

/-! ### AccessCodes -/

theorem wit_accessCodes :
    (st id).writes 2 (aIRQ_EN 7) 0xFFFFFFFF ∧ (st id).writes 2 aCPR_EVT 1 ∧ (st id).writes 2 aPLT_JUMP_TH 5 ∧
      (st id).writes 2 (aPLT_Q_CFG 7) 1 ∧ (st fun b => b.on (PLT_P_CFG_EN 0)).blk.flag (PLT_P_CFG_EN 0) = true ∧
      (st fun b => b.on (PLT_P_CFG_EN 0)).writes 2 (aPLT_Q_CFG 7) 1 ∧ (st id).writes 2 aDEV_ID 5 := by
  unfold State.writes; and_intros <;> decide

theorem wit_unmapped : ∃ m : Fin 39, m = 36 ∧ (hs id).writes m 0x7FFFC 1 ∧ barWord 0x7FFFC = true ∧ findReg (homeOf 0x7FFFC) = none ∧
    isWindow 0x7FFFC = false ∧ (hs id).blk.layout.isRaw 0x7FFFC = false ∧ hiddenVstat 0x7FFFC = false := by
  refine ⟨36, rfl, ?_⟩; unfold State.writes; and_intros <;> decide

/-! ### AngleSource -/

theorem wit_angleControl : (st id).blk.basicLevel aANG_CTL = false ∧ (st id).writes 2 aANG_CTL 0x18 ∧ (st id).writes 2 aANG_CTL 0x28 ∧
    validSource (0x18 : Word).toNat = true ∧ validSource (0x28 : Word).toNat = false := by
  unfold State.writes; and_intros <;> decide

/-- A sample 5 and 6 off the estimate with a threshold of 5; stamps at the last one's time and two rounds late. -/
theorem wit_angleSample :
    let s : State := st fun b => { (b.on ANG_STAT_RUNNING).set ANG_RESYNC_TH 5 with
      time := 250001 * 2 ^ 32, ang := { b.ang with kind := 4, accepted := 2 } }
    let e (x : Nat) (tk : Int) : Int := angleDiff x (wrapN 96 ((s.blk.ang.th : Int) - s.blk.ang.w * ((s.blk.ns : Int) - tk)) / 2 ^ 32)
    s.blk.flag ANG_STAT_RUNNING = true ∧ s.blk.ang.handover = none ∧ s.blk.ang.index = 0 ∧ s.blk.ang.accepted = 2 ∧
      (0 : Int) ≤ s.blk.ang.lastT ∧ (2 * s.blk.roundNs : Int) < (s.blk.ns : Int) - 0 ∧ s.blk.ang.lastT < 1 ∧
      (s.blk.ns : Int) - 1 ≤ 2 * s.blk.roundNs ∧ s.blk.flag ANG_STAT_LOST = false ∧ (e 5 1).natAbs ≤ s.blk.get ANG_RESYNC_TH ∧
      s.blk.get ANG_RESYNC_TH < (e 6 1).natAbs ∧ (divRound (e 5 1 * 2 ^ 32) 1).natAbs < 2 ^ 48 ∧
      (divRound (angleDiff 6 s.blk.ang.lastTheta * 2 ^ 32) 1).natAbs < 2 ^ 48 ∧ s.blk.allEvents = [] := by
  intro s e; and_intros <;> decide

/-- A virtual source at the bounds of its slew, and a handover one nanosecond before two rounds have passed and as they have. -/
theorem wit_angleHandover :
    let s : State := st fun b => { ((b.on ANG_STAT_RUNNING).set ANG_VSLEW 3).set ANG_VRATE 7 with
      up := 2 * b.roundNs, ang := { b.ang with kind := 3, w := 2 ^ 48 - 8, handover := some ⟨4, 0, 1⟩ } }
    s.blk.flag ANG_STAT_RUNNING = true ∧ s.blk.ang.kind = 3 ∧
      (s.blk.ang.w + clampI (-(s.blk.get ANG_VSLEW : Int)) (s.blk.get ANG_VSLEW) (s.blk.geti ANG_VRATE - s.blk.ang.w)).natAbs < 2 ^ 48 ∧
      s.blk.ang.handover = some ⟨4, 0, 1⟩ ∧ s.blk.up < 1 + 2 * s.blk.roundNs ∧ 0 + 2 * s.blk.roundNs ≤ s.blk.up := by
  intro s; and_intros <;> decide

/-- Loss of the source, the limit given as 0 and so taken as one microsecond, and a ramp of two. -/
theorem wit_angleLoss :
    let s (loss ramp : Nat) (up : Nat) : State := st fun b =>
      { (((b.on ANG_STAT_RUNNING).set ANG_CTL_LOSS_ACT loss).set ANG_RAMP ramp).on ANG_STAT_RAMP with
        up := up, ang := { b.ang with kind := 4, lossAt := some 0 } }
    (st id).blk.flag ANG_STAT_RUNNING = false ∧ (s 0 0 1000).blk.flag ANG_STAT_RUNNING = true ∧ (s 0 0 1000).blk.ang.kind ≠ 3 ∧
      (s 0 0 999).blk.up < (s 0 0 999).blk.ang.lastAccept + 1000 * max 1 ((s 0 0 999).blk.get ANG_LOSS_TO) ∧
      (s 0 0 1000).blk.ang.lastAccept + 1000 * max 1 ((s 0 0 1000).blk.get ANG_LOSS_TO) ≤ (s 0 0 1000).blk.up ∧
      (s 0 0 1000).blk.flag ANG_STAT_LOST = false ∧ (s 0 0 1000).blk.flag ANG_CTL_LOSS_ACT = false ∧
      (s 1 0 1000).blk.flag ANG_CTL_LOSS_ACT = true ∧ (s 1 0 1000).blk.get ANG_RAMP = 0 ∧ (s 1 2 1000).blk.get ANG_RAMP = 2 ∧
      (s 1 2 1999).blk.up < 0 + 1000 * (s 1 2 1999).blk.get ANG_RAMP ∧ 0 + 1000 * (s 1 2 2000).blk.get ANG_RAMP ≤ (s 1 2 2000).blk.up ∧
      (s 1 2 1000).blk.flag ANG_STAT_RAMP = true ∧ (s 1 2 1000).blk.ang.lossAt = some 0 := by
  intro s; and_intros <;> decide

/-! ### AxisCommands -/

theorem wit_axisEnable :
    let on (b : Block) : Block := ((((b.set DEV_BOOT_PHASE 7).set (SEG_STAT_STATE 7) 6).set (SEG_NSTAT_STATE 7 63) 3).set (AX_CTL_NMODE 255) 3)
    let e (k n : Nat) (x : EnState) : State := axs k fun b => ((on b).set (AX_CTL_NMODE 255) n).modAx 255 fun a => { a with en := x }
    (axs 1 id).blk.axisExists 254 = false ∧ (e 1 3 .off).blk.axisExists 255 = true ∧ (e 1 3 .off).blk.virtual 255 = false ∧
      ((e 1 3 .off).blk.ax 255).en = .off ∧ (e 1 3 .off).blk.get DEV_BOOT_PHASE = 7 ∧ (e 1 3 .off).blk.nodeInRun 255 = true ∧
      (e 1 3 .off).blk.flag (AX_STAT_FAULT 255) = false ∧ bit ((e 1 3 .off).blk.ax 255).node.status 5 = false ∧
      (e 1 3 .off).blk.get (AX_CTL_NMODE 255) = 3 ∧ (e 2 4 .off).blk.get (AX_CTL_NMODE 255) = 4 ∧ (e 2 4 .off).blk.stepper 255 = true ∧
      (axs 1 id).blk.nodeInRun 255 = false ∧ (axs 3 id).blk.virtual 255 = true ∧ ((e 1 3 .powering).blk.ax 255).en = .powering ∧
      ((e 1 3 .powering).blk.ax 255).engine < 32 ∧ (axs 1 fun b => b.on (AX_STAT_FAULT 255)).blk.flag (AX_STAT_FAULT 255) = true ∧
      (axs 1 fun b => b.on (AX_STAT_AUTO 255)).blk.flag (AX_STAT_AUTO 255) = true ∧ ((e 1 3 .on).blk.ax 255).nmode = 0 ∧
      (e 1 3 .on).blk.get (AX_MCTL_CMODE 255) = 0 ∧ (e 1 3 .on).blk.geti (AX_ACTVEL 255) = 0 := by
  intro on e; and_intros <;> decide

/-- An enabled axis, the time-out of one that is not, and an axis of LAW 2. -/
theorem wit_axisLate :
    let s : State := axs 1 fun b => { (b.on (AX_STAT_ENABLED 255)).set (AX_ENTO 255) 1 with up := 1000000 }
    let raw : State := dt { axDeck 1 0 with graphs := [⟨1, 2, 0, 0, 1⟩] } fun b => { b.on (AX_STAT_ENABLED 255) with up := 199999999 }
    s.blk.flag (AX_STAT_ENABLED 255) = true ∧ s.blk.rawAxis 255 = false ∧ (s.blk.ax 255).enAt + s.blk.get (AX_ENTO 255) * 1000000 ≤ s.blk.up ∧
      raw.blk.rawAxis 255 = true ∧ ¬ (raw.blk.ax 255).enAt + 200 * 1000000 ≤ raw.blk.up ∧ raw.blk.flag (AX_STAT_ENABLED 255) = true ∧
      (axs 1 id).blk.virtual 255 = false := by
  intro s raw; and_intros <;> decide

/-- An axis whose post filters are left out, and one whose first post filter passes nothing. -/
theorem wit_presetGain : ((axs 1 id).blk.presetGain 255 0).isSome = true ∧
    (axs 1 fun b => b.wr (aAX_F1_B0 255) 0).blk.presetGain 255 8 = none := by
  have h : (axs 1 fun b => b.wr (aAX_F1_B0 255) 0).blk.f1Of 255 = ⟨0, 0, 0, 0, 0⟩ := by decide
  constructor
  · norm_num [Block.presetGain, bit, absR]
  · norm_num [Block.presetGain, h, (by decide : bit 8 3 = true), (by decide : bit 8 4 = false), absR, Biquad.gain]

theorem wit_axisFaults :
    let q (c : Nat) : State := axs 1 fun b => ((((b.on (AX_STAT_FAULT 255)).set (AX_STAT_FCODE 255) c).set (FB_N_STAT_FCODE 255) 7).on
      (FB_N_STAT_SLIM 255)).on (FB_N_STAT_FAULT 255)
    let y : State := axs 2 fun b => b.modAx 255 fun a => { a with node := { a.node with err := 1 } }
    ((axs 1 id).blk.axisRec 255).any (·.feedback = 0) = true ∧ ((axs 3 id).blk.axisRec 255).any (·.feedback = 0) = false ∧
      (q 4).blk.faultHolds 255 4 = false ∧ y.blk.faultHolds 255 3 = true ∧ (q 5).blk.get (FB_N_STAT_FCODE 255) = 7 ∧
      (q 5).blk.flag (FB_N_STAT_SLIM 255) = true ∧ (q 5).blk.flag (FB_N_STAT_FAULT 255) = true ∧
      (axs 3 fun b => b.on (AX_STAT_FAULT 255)).blk.faultHolds 255 1 = false := by
  intro q y; and_intros <;> decide

theorem wit_injection :
    let j (k len : Nat) : Injection := ⟨k, 0, 0, 1, 1, 0, 1, 0, 0, 0, len⟩
    let s (wave : Nat) (x : Option Injection) : State := axs 1 fun b => ((((b.set (AX_INJ_CFG_WAVE 255) wave).set
      (AX_INJ_CFG_POINT 255) 1).on (AX_STAT_AUTO 255)).modAx 255 fun a => { a with en := .on, inj := x })
    ((s 1 none).blk.ax 255).inj = none ∧ ((s 1 none).blk.ax 255).en = .on ∧ (s 1 none).blk.rawAxis 255 = false ∧ ((s 1 none).blk.injConfig 255).isSome = true ∧
      (s 5 none).blk.injConfig 255 = none ∧ ((s 1 (some (j 3 3))).blk.ax 255).inj = some (j 3 3) ∧ (j 3 3).len ≤ (j 3 3).k ∧
      (j 2 3).k < (j 2 3).len ∧ (j 3 3).len ≠ 0 := by
  intro j s; and_intros <;> decide

/-! ### Captures -/

theorem wit_captureGroups :
    let s (n mu : Nat) (f : Block → Block) : State := st fun b =>
      f ((((b.set (CAP_G_STAT_STATE 7) n).set (CAP_G_CFG_MU 7) mu).set CAP_STAT_ARMED (if n = 1 then 0x80 else 0)).on (CAP_G_CFG_MU_MASTER 7))
    (s 0 0 id).writes 2 (aCAP_G_CTL 7) 1 ∧ (s 0 0 id).writes 2 (aCAP_G_CTL 7) 2 ∧ (s 0 0 id).writes 2 (aCAP_G_CTL 7) 4 ∧
      bit ((s 1 0 id).blk.get CAP_STAT_ARMED) 7 = true ∧ bit ((s 0 0 id).blk.get CAP_STAT_ARMED) 7 = false ∧
      (s 1 2 id).blk.flag (CAP_G_CFG_MU_MASTER 7) = true ∧ bit ((s 1 3 id).blk.get (CAP_G_CFG_MU 7)) 1 = true ∧
      bit ((s 1 3 id).blk.get (CAP_G_CFG_MU 7)) 0 = true ∧ bit ((s 1 2 id).blk.get (CAP_G_CFG_MU 7)) 0 = false ∧
      (s 1 0 id).blk.get (CAP_G_STAT_STATE 7) = 1 ∧ (s 0 0 id).blk.get (CAP_G_STAT_STATE 7) ≠ 1 ∧
      (s 2 0 id).blk.get (CAP_G_STAT_STATE 7) = 2 ∧ (s 0 0 id).blk.frozen 35 = false ∧
      ¬ (s 1 1 fun b => b.off (CAP_G_CFG_MU_MASTER 7)).blk.flag (CAP_G_CFG_MU_MASTER 7) = true ∧
      (s 1 0 fun b => (b.on (CAP_C_CFG_EN 63)).set (CAP_C_CFG_GROUP 63) 7).blk.capMembers 7 = [63] ∧
      (s 1 0 id).blk.lastT ≤ (s 1 0 id).blk.time ∧ ((s 1 0 id).blk.time : Int) < (s 1 0 id).blk.lastT + (s 1 0 id).blk.roundT ∧
      ((s 1 0 id).blk.cg 7).fireAt = none ∧ ((s 1 0 id).blk.cg 7).streams = false ∧ (s 1 0 id).blk.cap.fireLow = false ∧
      (s 1 0 id).blk.cap.armLow = false ∧ (s 1 1 id).blk.drivesArm = true ∧ (s 1 0 id).blk.cap.fireUntil ≤ (s 1 0 id).blk.up ∧
      ((s 1 1 fun b => b.modCg 7 fun x => { x with fireAt := some 0 }).blk.cg 7).fireAt = some 0 ∧ (s 1 0 id).blk.up = 0 ∧
      ((s 1 1 fun b => b.modCg 7 fun x => { x with fireAt := some 1 }).blk.cg 7).fireAt = some 1 := by
  intro s; unfold State.writes; and_intros <;> decide

theorem wit_captureReads :
    let r : Readout := ⟨63, 1, true, 0, 0, []⟩
    let s (f : Block → Block) : State := hs fun b => f ((b.on (CAP_C_CFG_EN 63)).set (CAP_C_CFG_GROUP 63) 7)
    let str : State := s fun b => (b.on (CAP_G_CFG_MODE 7)).modCc 63 fun x => { x with written := 2 }
    let some' : State := s fun b => (b.set CAP_RD_COUNT 1).modCc 63 fun x => { x with written := 1 }
    (s id).writes 36 aCAP_RD_CTL (BitVec.ofNat 32 (63 + 1 * 2 ^ 8 + b2n true * 2 ^ 12 + 2 ^ 16)) ∧ (s id).reads 36 aCAP_RD_DATA ∧
      (s id).blk.get CAP_RD_COUNT = 0 ∧ some'.blk.get CAP_RD_COUNT ≠ 0 ∧ some'.blk.get CAP_RD_FIRST < (some'.blk.capReadable 63).2 ∧
      some'.blk.capRecordWords 63 0 1 true ≠ [] ∧ some'.blk.capRecordWords 63 0 0 false = [] ∧ 0 < str.blk.capFill 63 ∧
      str.blk.flag (CAP_G_CFG_MODE (str.blk.get (CAP_C_CFG_GROUP 63))) = true ∧ some'.blk.flag (CAP_G_CFG_MODE (some'.blk.get (CAP_C_CFG_GROUP 63))) = false ∧
      ¬ (s id).blk.get CAP_RD_FIRST < ((s id).blk.capReadable 63).2 ∧ (s id).blk.cap.rd = none ∧
      (let a := s fun b => { b with cap.rd := some { r with words := [(1, false), (2, false)] } };
        a.blk.cap.rd = some { r with words := [(1, false), (2, false)] } ∧ a.reads 36 aCAP_RD_DATA) ∧
      (let a := s fun b => { b with cap.rd := some { r with words := [(1, true)] } };
        a.blk.cap.rd = some { r with words := [(1, true)] } ∧ a.reads 36 aCAP_RD_DATA) ∧
      (let a := s fun b => { b with cap.rd := some { r with words := [(1, false)] } };
        a.blk.cap.rd = some { r with words := [(1, false)] } ∧ r.left = 0 ∧ a.blk.flag (CAP_G_CFG_MODE (a.blk.get (CAP_C_CFG_GROUP 63))) = false) ∧
      (s fun b => { b with cap.rd := some r }).blk.cap.rd = some r ∧ (dt pairDeck id).blk.dealt.any (·.mirror.isSome) = true := by
  intro r s str some'; unfold State.writes State.reads; and_intros <;> decide

/-! ### ClockFailures -/

theorem wit_clocks :
    let s (stat : Word) (f : Pd0 → Pd0) (g : Block → Block) : State := st fun b =>
      g { b.wr aCPR_STAT stat with pd0 := f { b.pd0 with porst := false, rcDead := false } }
    let z (f : Pd0 → Pd0) : State := s 0x7F f id
    (z id).blk.pd0.porst = false ∧ (z id).blk.pd0.rcDead = false ∧ State.reset.blk.pd0.porst = true ∧ (z id).blk.flag CPR_STAT_REF_OK = true ∧
      (z id).blk.flag CPR_STAT_RC_OK = true ∧ (∀ k : Fin 5, (z id).blk.flag ⟨aCPR_STAT, k.1 + 2, 1⟩ = true) ∧ (z id).blk.pd0.failed = [] ∧
      (z id).blk.pd0.declaredAt = none ∧ (z id).blk.pd0.mux = [] ∧ (z id).blk.get CPR_CLK_FAIL_ID = 0xFF ∧
      0 ∈ (z fun p => { p with oddWindows := [0, 6] }).blk.pd0.oddWindows ∧ 0 ∉ (z id).blk.pd0.oddWindows ∧
      (s 0x7E id id).blk.flag CPR_STAT_REF_OK = false ∧ (z fun p => { p with stable := 63, lastCount := 100 }).blk.pd0.stable = 63 ∧
      (z fun p => { p with stable := 62, lastCount := 100 }).blk.pd0.stable = 62 ∧ (z fun p => { p with lastCount := 100 }).blk.pd0.lastCount = 100 ∧
      (s 0x7F id fun b => { b with boot := { b.boot with released := true } }).blk.boot.released = true ∧ (z id).blk.boot.step1 = false ∧
      (let t := s 0x7E id fun b => { b with boot := { b.boot with released := true } }; t.blk.flag CPR_STAT_REF_OK = false ∧
        t.blk.boot.released = true ∧ t.blk.boot.step1 = false ∧ t.blk.pd0.failed = [] ∧ t.blk.flag SAF_STAT_LOCKOUT = t.blk.safety.lockout ∧ t.blk.sourceLate 0 = false ∧
        ({ t.blk with up := 10000000 }).sourceLate 0 = true) ∧
      (z fun p => { p with rcOdd := true }).blk.pd0.rcOdd = true ∧ (z fun p => { p with failed := [3], declaredAt := some 0 }).blk.pd0.failed = [3] ∧
      (z fun p => { p with failed := [3], declaredAt := some 0, resetN := false }).blk.asyncDue = false ∧
      ({ (z fun p => { p with failed := [3], declaredAt := some 0, resetN := false }).blk with up := 20000 }).asyncDue = true ∧
      (z id).blk.boot.released = false ∧ (z fun p => { p with rcDead := true }).blk.pd0.rcDead = true := by
  intro s z; and_intros <;> decide

/-! ### Dealing -/

/-- An entry of a section table: type, offset, length, records. -/
def entryBytes (type offset length count : Nat) : List Byte :=
  bytesBE 4 (type * 2 ^ 16) ++ bytesBE 4 offset ++ bytesBE 4 length ++ bytesBE 20 (count * 2 ^ 128)

/-- A container in plain: a rate and its domains, no axis, the virtual line angle, the safety identity, the dispatcher's policy. -/
def container : List Byte :=
  bytesBE 16 0x4C584443000100402560000000000280 ++ bytesBE 48 (6 * 2 ^ 208) ++
    entryBytes 1 256 20 2 ++ entryBytes 2 288 0 0 ++ entryBytes 6 288 64 3 ++ entryBytes 7 352 24 1 ++ entryBytes 8 384 0 0 ++ entryBytes 9 384 36 1 ++
    bytesBE 32 (0x0101000C01000000000000000102000808870000 * 2 ^ 96) ++
    bytesBE 24 0x060100180300000000000001000100010000000000000000 ++ bytesBE 16 0x06020010010100000000000000000000 ++
    bytesBE 24 (0x06030018 * 2 ^ 160) ++ bytesBE 32 ((0x070100180000000004050100000A000000000000 * 2 ^ 32 + 2305589553) * 2 ^ 64) ++
    bytesBE 48 (0x2202000040000000407FFFFF0000000E00000000500000005000FFFF0000000E00000000 * 2 ^ 96) ++ List.replicate 208 0

/-- OTP of a provisioned part whose key slot 0 holds the hash of key 0. -/
def dealOtp : Otp := { Reset.otp with provisioned := true, slots := Reset.otp.slots.set 0 ⟨Config.sha384 (bytesBE 97 0), 1⟩ }

/-- A device of that part dealing staged bytes from the mailbox. -/
def dealer (raw : List Byte) (f : Block → Block) : State :=
  { st fun b => f (({ b with
      boot := { b.boot with dealing := true, stage := raw }, host.mb := ⟨0x20, 160, [], true, false, []⟩ }).set DCK_STAT_STATE 2) with
    nv.otp := dealOtp }

/-- Where the signature of that container verifies, every check passes it. -/
theorem wit_dealt (hash : Config.sha384 (bytesBE 97 0) ≠ 0)
    (sig : Config.ecdsaOk (BitVec.ofNat 776 0) (Config.sha384 (container.take 544)) (BitVec.ofNat 384 0) (BitVec.ofNat 384 0) = true) :
    (dealer container id).blk.deckFault (dealer container id).nv.otp (parseDeck (dealer container id).nv.otp (dealer container id).blk.boot.stage) = none := by
  have s : (parseDeck dealOtp container).sigOk = true := by
    have k : be container (sigAt (parseHeader container)) 97 = 0 ∧ be container (sigAt (parseHeader container) + 97) 15 = 0 ∧
      be container (sigAt (parseHeader container) + 112) 48 = 0 ∧ be container (sigAt (parseHeader container) + 160) 48 = 0 ∧
      (parseHeader container).total - 96 = 544 := by decide +kernel
    simp only [parseDeck, k.1, k.2.1, k.2.2.1, k.2.2.2.1, k.2.2.2.2, sig, decide_true, Bool.and_self]
  have h : (parseDeck dealOtp container).keyHash = Config.sha384 (bytesBE 97 0) := by
    have k : be container (sigAt (parseHeader container)) 97 = 0 := by decide +kernel
    simp only [parseDeck, k]
  show (dealer container id).blk.deckFault dealOtp (parseDeck dealOtp container) = none
  unfold Block.deckFault Block.deckChecks firstFail
  rw [List.find?_eq_none]
  simp only [List.forall_mem_append, Bool.not_eq_true, Bool.not_eq_false']
  have a : ∀ c ∈ (parseDeck dealOtp container).authChecks dealOtp, c.ok = true := by
    have k : (parseDeck dealOtp container).header.slot = 0 ∧ (parseDeck dealOtp container).header.flags = 0 ∧
      (parseDeck dealOtp container).header.secver = 0 := by decide +kernel
    have o : dealOtp.slots[0] = ⟨Config.sha384 (bytesBE 97 0), 1⟩ := rfl
    unfold Deck.authChecks
    simp only [k.1, k.2.1, k.2.2, s, h]
    intro c hc
    simp only [List.mem_cons, List.not_mem_nil, or_false] at hc
    rcases hc with rfl | rfl | rfl | rfl | rfl | rfl
    · rfl
    · rfl
    · have z : Nat.testBit 1 3 = false := by decide
      have e : Config.sha384 (bytesBE 97 0) ≠ 0#384 := hash
      simp [o, e, z, bit]
    · rfl
    · rfl
    · rfl
  refine ⟨⟨⟨⟨⟨⟨⟨⟨⟨⟨?_, a⟩, ?_⟩, ?_⟩, ?_⟩, ?_⟩, ?_⟩, ?_⟩, ?_⟩, ?_⟩, ?_⟩ <;> decide +kernel

set_option exponentiation.threshold 400 in
/-- Nothing staged is refused with reason 1; a deck whose checks have passed, of a mailbox that runs DEAL. -/
theorem wit_dealing :
    (dealer [] id).blk.deckFault dealOtp (parseDeck dealOtp []) = some ⟨1, 0, 0, false⟩ ∧ (dealer [] id).blk.boot.dealing = true ∧
      (dealer [] id).blk.boot.staging = false ∧ (dealer [] id).blk.boot.fromFlash = false ∧ (dealer [] id).blk.host.mb.code = 0x20 ∧
      (dealer [] id).blk.host.mb.running = true ∧ (dealer [] id).blk.get DCK_STAT_STATE = 2 ∧ (dealer [] id).blk.dealt = none ∧
      (dealer [] id).blk.passed = none ∧ (dealer [] id).blk.flag SAF_STAT_LOCKOUT = (dealer [] id).blk.safety.lockout ∧
      (dealer [] fun b => b.set DEV_BOOT_PHASE 2).blk.get DEV_BOOT_PHASE = 2 ∧
      (∃ d, (dealer [] fun b => { b with passed := some good }).blk.passed = some d) ∧ (st id).blk.boot.dealing = false := by
  refine ⟨by decide +kernel, ?_, ?_, ?_, ?_, ?_, ?_, ?_, ?_, ?_, ?_, ⟨_, rfl⟩, ?_⟩ <;> decide

theorem wit_flashRead :
    let s (strap q0 q1 : Nat) (f : Block → Block) : State :=
      { st fun b => f { ((b.set CPR_STRAP strap).set DEV_BOOT_PHASE 1) with boot.released := true } with
        nv.flash := flashWrite (flashWrite [] (slotBase 0) (descBytes q0 640)) (slotBase 1) (descBytes q1 640) }
    (s 4 0 0 id).blk.get DEV_BOOT_PHASE = 1 ∧ bit ((s 4 0 0 id).blk.get CPR_STRAP) 2 = true ∧ bit ((s 0 0 0 id).blk.get CPR_STRAP) 2 = false ∧
      (s 4 0 0 id).blk.get DCK_STAT_STATE ≠ 6 ∧ ((s 0 5 5 id).nv.flashDesc 0).valid = true ∧ ((s 0 5 5 id).nv.flashDesc 1).valid = true ∧
      laterThan 32 ((s 0 5 5 id).nv.flashDesc 1).seq ((s 0 5 5 id).nv.flashDesc 0).seq = false ∧
      laterThan 32 ((s 0 0xFFFFFFFF 0 id).nv.flashDesc 1).seq ((s 0 0xFFFFFFFF 0 id).nv.flashDesc 0).seq = true ∧
      (State.reset.nv.flashDesc 0).valid = false ∧ (State.reset.nv.flashDesc 1).valid = false ∧ (s 0 0 0 id).blk.boot.step3 = false ∧
      (s 0 0 0 id).blk.boot.dealing = false ∧ (s 0 0 0 id).blk.boot.released = true ∧ (s 0 0 0 id).blk.domainOn 1 = true ∧
      (s 0 0 0 id).blk.domainOn 7 = true ∧ (s 0 0 0 (·.wr aCPR_PD_STAT 0x7F)).blk.domainOn 7 = false ∧ (s 0 0 0 id).blk.dealt = none ∧
      (let t := s 0 5 5 fun b => { b with boot := { b.boot with dealing := true, staging := true, fromFlash := true } };
        t.blk.boot.dealing = true ∧ t.blk.boot.staging = true ∧ t.blk.boot.fromFlash = true) := by
  intro s; and_intros <;> decide +kernel

/-! ### DescriptorCommands -/

/-- The deck of one segment with a task of run time `n` hooked into its axis. -/
def tskDeck (n : Nat) : Deck := { segDeck false with graphs := [⟨1, 0, 0x20, 7, 0⟩], tasks := [⟨7, 0x4000, n⟩] }

theorem wit_descriptors :
    let s (f : Block → Block) : State := dt (tskDeck 100) f
    let staged (w0 w1 : Word) : State := s fun b => (b.wr (aDIS_DESC 0) w0).wr (aDIS_DESC 1) w1
    let dsc (b : Block) : Desc := { Reset.desc with words := b.stagedDesc }
    let word (op e all d : Nat) : Word := BitVec.ofNat 32 (op + e * 2 ^ 6 + all * 2 ^ 11 + d * 2 ^ 16)
    let run : State := s fun b => (b.modDesc 1023 fun _ => kindOf 3).modEng 31 fun x => { x with run := some (task .code) }
    let que : State := s fun b => (b.modDesc 1023 fun _ => kindOf 3).modEng 31 fun x => { x with cq := [⟨1023, false, false, 0, 0, 0⟩] }
    let adm (n : Nat) : State := dt (tskDeck n) fun b => b.modDesc 1023 fun _ => { kindOf 3 with admitting := true }
    (s id).writes 2 aDIS_CMD (word 0 0 0 1023) ∧ (s id).writes 2 aDIS_CMD (word 1 0 0 1023) ∧ (s id).writes 2 aDIS_CMD (word 2 0 0 256) ∧
      (s id).writes 2 aDIS_CMD (word 3 0 0 1023) ∧ (s id).writes 2 aDIS_CMD (word 4 31 0 1023) ∧ (s id).writes 2 aDIS_CMD (word 5 0 1 1023) ∧
      (s id).writes 2 aDIS_CMD (word 5 0 0 0) ∧ (s id).blk.flag DIS_RES_BUSY = false ∧ (s fun b => b.on DIS_RES_BUSY).blk.flag DIS_RES_BUSY = true ∧
      ((s id).blk.desc 256).kind = 0 ∧ (run.blk.desc 1023).kind = 3 ∧ (staged 0x70004 0).blk.validDesc (dsc (staged 0x70004 0).blk) = true ∧
      (staged 0x70002 0x3F0700).blk.validDesc (dsc (staged 0x70002 0x3F0700).blk) = true ∧ (s id).blk.validDesc (dsc (s id).blk) = false ∧
      (dsc (staged 0x70004 0).blk).kind = 4 ∧ (dsc (staged 0x70002 0x3F0700).blk).kind ≠ 4 ∧ (s id).blk.taskRec (dsc (staged 0x70002 0x3F0700).blk).task = some ⟨7, 0x4000, 100⟩ ∧
      (s id).blk.taskRec 6 = none ∧ (adm 100).blk.descs.find? (·.2.admitting) = some (1023, { kindOf 3 with admitting := true }) ∧
      (adm 100).blk.pathCheck none = true ∧ (adm 1000000).blk.pathCheck none = false ∧ run.blk.live 1023 = true ∧
      (run.blk.engines.any fun p => p.2.run.any (·.inst.desc = 1023)) = true ∧ (∀ k < 32, (run.blk.eng k).cq ++ (run.blk.eng k).bq = []) ∧
      (∃ y, que.blk.engines = [(31, y)]) ∧ (que.blk.engines.any fun p => p.2.run.any (·.inst.desc = 1023)) = false ∧
      (que.blk.eng 31).cq = [⟨1023, false, false, 0, 0, 0⟩] ∧
      (run.blk.desc 1023).cyclic = true ∧ run.blk.inPool 31 = true ∧ (s fun b => b.wr aCPR_PD_STAT 0).blk.inPool 31 = false := by
  intro s staged dsc word run que adm; unfold State.writes; and_intros <;> first | decide | exact ⟨_, rfl⟩

/-! ### EventTable -/

theorem wit_eventTable :
    let w (k2 : Word) : EvtWords := ⟨0, 0, k2, 0⟩
    let r : EvtRec := ⟨4095, w 0x140, none, none, false⟩
    let s (busy : Nat) (op k2 : Word) (l : List EvtRec) : State := st fun b => { ((b.wr (aANG_EVT_REC 2) k2).on ANG_STAT_RUNNING).set ANG_EVT_RES_BUSY busy with
      ang := { b.ang with absList := l, w := 1, th := 2 ^ 33, edit := if busy = 1 then some (op.toNat, w k2) else none } }
    let at' (k : Nat) : Word := BitVec.ofNat 32 (k + 4095 % 2 ^ 12 * 2 ^ 16)
    (s 0 1 0x140 []).blk.flag PTN_STAT_PAIRED = false ∧ (s 0 1 0x140 []).blk.flag ANG_EVT_RES_BUSY = false ∧ (s 0 1 0x140 []).writes 2 aANG_EVT_CMD 1 ∧
      (s 0 1 0x140 [r]).writes 2 aANG_EVT_CMD (at' 2) ∧ (s 0 1 0x140 [r]).writes 2 aANG_EVT_CMD (at' 3) ∧ (s 0 1 0x140 [r]).writes 2 aANG_EVT_CMD (at' 0) ∧
      (s 1 1 0x140 []).blk.flag ANG_EVT_RES_BUSY = true ∧ (s 1 1 0x140 []).blk.ang.edit = some (1, w 0x140) ∧
      (s 1 (at' 2) 0x140 [r]).blk.ang.edit = some ((at' 2).toNat, w 0x140) ∧ (s 1 (at' 3) 0x100 [r]).blk.ang.edit = some ((at' 3).toNat, w 0x100) ∧
      (s 1 (at' 0) 0x140 [r]).blk.ang.edit = some ((at' 0).toNat, w 0x140) ∧
      (w 0).valid = false ∧ (w 0x140).valid = true ∧ (w 0x140).cyclic = true ∧ (w 0x100).valid = true ∧ (w 0x100).cyclic = false ∧
      (s 1 1 0x100 []).blk.pastKey (w 0x100) = true ∧ (s 1 1 0x140 []).blk.pastKey (w 0x140) = false ∧ (s 1 1 0x140 []).blk.allEvents = [] ∧
      (s 1 (at' 2) 0x140 [r]).blk.allEvents = [r] ∧ r.handle = 4095 ∧
      (s 1 (at' 0) 0x140 [r]).blk.allEvents.find? (·.handle = 4095) = some r := by
  intro w r s at'; unfold State.writes; and_intros <;> decide

theorem wit_eventFull (r : EvtRec) : (st fun b => { b with ang := { b.ang with absList := List.replicate 4096 r } }).blk.allEvents =
    List.replicate 4096 r ++ [] ∧ 4096 ≤ (List.replicate 4096 r ++ []).length := ⟨rfl, by rw [List.append_nil, List.length_replicate]⟩

/-! ### FeedbackChannels -/

/-- Channel 15, enabled with type `ty`, changed by `g`, its registers by `f`. -/
def fbs (ty : Nat) (f : Block → Block) (g : Channel → Channel) : State :=
  st fun b => f (((b.on (FB_STAT_ENABLED 15)).set (FB_CFG_TYPE 15) ty).modCh 15 g)

theorem wit_decoder :
    let far : Int := countMax - 2 ^ 16 - 1
    let s := fbs 0 (fun b => (b.on (FB_CFG_ZCORR 15)).on (FB_STAT_UNCERT 15)) fun x =>
      { x with count := far, index := some (0, true), doubles := [0, 0, 0, 0], samples := 1023 }
    s.blk.flag (FB_STAT_ENABLED 15) = true ∧ (st id).blk.flag (FB_STAT_ENABLED 15) = false ∧ (fbs 1 id id).blk.get (FB_CFG_TYPE 15) ≠ 0 ∧
      s.blk.get (FB_CFG_TYPE 15) = 0 ∧ s.blk.sampleDue 15 = true ∧ (s.onBlk ({ · with time := 2 ^ 32 })).blk.sampleDue 15 = false ∧
      s.blk.reached 250 0 = true ∧ (s.onBlk ({ · with time := 2 ^ 32 })).blk.reached 250 0 = false ∧ s.blk.loadDue 15 = false ∧
      (s.onBlk fun b => { b with shadow := [(FB_CTL_LOAD 15, 1)], roundAt := 1 }).blk.loadDue 15 = true ∧ ((s.blk.ch 15).count.natAbs : Int) + 2 ^ 16 < countMax ∧ (s.blk.ch 15).index = some (0, true) ∧
      4 ≤ (s.blk.ch 15).doubles.length ∧ (s.blk.ch 15).samples + 1 ≤ (s.blk.ch 15).doubles.getD ((s.blk.ch 15).doubles.length - 4) 0 + 1024 ∧
      s.blk.flag (FB_CFG_ZCORR 15) = true ∧ s.blk.flag (FB_STAT_UNCERT 15) = true ∧ (quadPhase true true + 4 - quadPhase false false) % 4 = 2 ∧
      (quadPhase true false + 4 - quadPhase false false) % 4 = 1 := by
  intro far s; and_intros <;> decide

/-- An index one and two counts off the lines between, with a tolerance of one. -/
theorem wit_index : let D (q : Int) : Int := (q - 0) / 2 ^ 16 - 4
    (D (5 * 2 ^ 16)).natAbs ≤ 1 ∧ 1 < (D (6 * 2 ^ 16)).natAbs ∧ (D (6 * 2 ^ 16)).natAbs ≤ 2 * 1 ∧ ¬ (D (7 * 2 ^ 16)).natAbs ≤ 2 * 1 := by decide

theorem wit_ssi :
    let s (f : Block → Block) (g : Channel → Channel) := fbs 1 f g
    ((fbs 0 id id).blk.chReported 15).natAbs < 2 ^ 63 ∧ (s id id).blk.get (FB_CFG_TYPE 15) = 1 ∧ (s id id).blk.flag (FB_SSI_FMT_GRAY 15) = false ∧
      (s id fun x => { x with fieldV := some (0, 0) }).blk.flag (FB_SSI_FMT_UNWRAP 15) = false ∧
      (s (·.on (FB_SSI_FMT_UNWRAP 15)) id).blk.flag (FB_SSI_FMT_UNWRAP 15) = true ∧
      ((s (·.set (FB_JUMP 15) 1) fun x => { x with edges := { x.edges with started := true, prev := some 0 } }).blk.ch 15).edges.prev = some 0 ∧
      (s (·.set (FB_JUMP 15) 1) id).blk.get (FB_JUMP 15) = 1 ∧ ((s id fun x => { x with fails := 2 }).blk.ch 15).fails = 2 ∧
      (s ({ · with up := 1200 }) id).blk.ssiFrameDue 15 = true ∧ (s ({ · with up := 1201 }) id).blk.ssiFrameDue 15 = false ∧
      ((s id id).blk.ch 15).sampled < 0 ∧ (s id id).blk.get (FB_JUMP 15) = 0 ∧ (s id id).blk.flag (FB_CFG_SLFLT 15) = false := by
  intro s; and_intros <;> decide

/-- Types that a channel refuses, an SSI frame too long for its round, and one that fits. -/
theorem wit_fbEnable :
    let s (ty : Nat) : State := st fun b => b.set (FB_CFG_TYPE 15) ty
    let long : State := (s 1).onBlk (·.set (FB_SSI_TIM_MONO 15) 255)
    (s 3).blk.get (FB_CFG_TYPE 15) = 3 ∧ long.blk.get (FB_CFG_TYPE 15) = 1 ∧ long.blk.ssiFits 15 = false ∧ (s 1).blk.ssiFits 15 = true ∧
      ((s 1).blk.on (FB_CTL_EN 15)).chLate 15 = false ∧ (s 0).blk.get (FB_CFG_TYPE 15) = 0 ∧ (s 0).blk.flag (FB_STAT_ENABLED 15) = false ∧
      (7 : Fin 16).1 < 8 ∧ ((fbs 0 id fun x => { x with below := true }).blk.ch 15).below = true ∧ (fbs 0 id id).blk.get (FB_LINES 15) = 0 ∧ (fbs 0 id id).blk.flag (FB_CFG_SLFLT 15) = false := by
  intro s long; and_intros <;> decide

/-! ### FieldIo -/

theorem wit_fieldIo :
    let b : Block := ((st fun b => b.set FLD_GEN_DOUT 3).blk.set DEV_BOOT_PHASE 7).set FLD_DOUT 0xFFFF
    let t : State := st fun b => { b.set (FLD_OGCFG_RETRY 1) 1 with field := { b.field with tripped := 0x8000, wdArmed := true } }
    b.switchOn 15 = true ∧ t.blk.setTripped 15 = true ∧ t.blk.retryAt 15 = some 10000000 ∧ t.blk.up < 10000000 ∧ 10000000 ≤ ({ t.blk with up := 10000000 }).up ∧
      (st id).writes 2 ((st id).blk.pageFor aFLD_WDOG) 0 ∧ t.blk.field.wdArmed = true ∧
      (let u : State := st fun b => b.set FLD_WDCFG_WDTIME 1
       u.blk.get FLD_WDCFG_WDTIME ≠ 0 ∧ u.blk.up < u.blk.field.wdAt + u.blk.get FLD_WDCFG_WDTIME * 1000000 ∧
         u.blk.field.wdAt + u.blk.get FLD_WDCFG_WDTIME * 1000000 ≤ ({ u.blk with up := 1000000 }).up) ∧
      (st id).writes 2 ((st id).blk.pageFor FLD_FMASK_HI.addr) 0xFFFFFFFF ∧ (st id).writes 2 ((st id).blk.pageFor FLD_FMASK_LO.addr) 0 := by
  intro b t; unfold State.writes; and_intros <;> decide

/-! ### FifoWindows -/

/-- Words `ws` in window `w`. -/
def fw (w : Fin 16) (ws : List Word) (f : Block → Block) : State :=
  hs fun b => f { b with host.fw := b.host.fw.set w ws }

theorem wit_fifoRead :
    (fw 7 [1, 2] id).reads 36 (aHST_FW_DATA 7 0) ∧ (fw 7 [1, 2] id).blk.host.fw[7] = [1, 2] ∧
      (∀ f < 16, (fw 7 [1, 2] id).blk.flowWindow f ≠ some 7) ∧ (fw 8 [] id).reads 2 (aHST_FW_DATA 8 0) ∧
      (fw 8 [] id).blk.host.fw[8] = [] ∧ (fw 7 [] id).reads 36 (aHST_FW_DATA 7 0) ∧ (fw 7 [] id).blk.host.fw[7] = [] ∧
      (fw 8 [] id).reads 36 (aHST_FW_DATA 8 0) ∧ (fw 7 [] id).reads 2 (aHST_FW_DATA 7 0) := by
  unfold State.reads; and_intros <;> decide

theorem wit_fifoWrite :
    (fw 8 [] id).writes 36 (aHST_FW_DATA 8 0) 5 ∧
      (fw 15 [] id).writes 36 (aHST_FW_DATA 15 0) 5 ∧ (fw 7 [] id).writes 36 (aHST_FW_DATA 7 0) 5 ∧ (fw 8 [] id).writes 2 (aHST_FW_DATA 8 0) 5 := by
  unfold State.writes; and_intros <;> decide

theorem wit_fifoFull : (fw 15 (List.replicate 1024 0) id).blk.host.fw[15] = List.replicate 1024 0 ∧
    (List.replicate 1024 (0 : Word)).length = 1024 := ⟨rfl, List.length_replicate⟩

/-! ### HostPort -/

theorem wit_hostPort :
    (hs id).blk.connected 36 = true ∧ (hs id).blk.connected 2 = true ∧ (hs id).writes 36 aHST_CTL 1 ∧
      (st id).blk.flag HST_MODE_PORT = false ∧ (st fun b => b.on HST_MODE_PORT).blk.flag HST_MODE_PORT = true := by
  unfold State.writes; and_intros <;> decide

/-! ### ISA -/

theorem wit_words : (rg 0 id).mayGo 31 ((rg 0 id).nextOf 31).2 ∧ (rg 0 id).blk.flag (LE_CFG_AOV_FAULT 31) = false ∧
    (rg 0 id).blk.flag (LE_CFG_SOV_FAULT 31) = false := by
  unfold State.mayGo; and_intros <;> decide

theorem wit_accumulatorMoves (w : Word) (codes : List Nat) (words : List (Bool × Nat)) :
    (rg w id).canIssue 31 w codes words ∧ (rg w id).mayGo 31 ((rg w id).nextOf 31).2 :=
  ⟨rg_issues .., by unfold State.mayGo; rintro ⟨h, -⟩; revert h; change ¬ (65532 < 0x4000); omega⟩

theorem wit_imaged : ((rg 0 id).onBlk fun b => { b with dealt := some { deck with images := [⟨0xFFF8, [0, 1]⟩] } }).blk.imaged
    ((rg 0 id).pcOf 31) = true ∧ (rg 0 id).blk.imaged ((rg 0 id).pcOf 31) = false := by decide

theorem wit_registerMoves (c k : BitVec 7) (v : BitVec 16) : let w := moveWord c k
    (rg (immediateWord true c v) id).canIssue 31 (immediateWord true c v) [c.toNat] [] ∧
      (rg w id).canIssue 31 w [c.toNat, k.toNat] [] ∧ narrowReg 0x20 = false ∧
      (Reset.eregs.write 0x1B 0xFFFFFFFF).isSome = true ∧ (Reset.eregs.write 0x23 0x7FFF0001).isSome = true ∧
      (Reset.eregs.read 0x3E).isSome = true ∧ (Reset.eregs.write 0x3E 5).isSome = true :=
  ⟨rg_issues .., rg_issues .., by decide, by decide, by decide, by decide, by decide⟩

theorem wit_integerWords (op : Nat) (d g : Fin 8) (imm : Bool) : let w := integerWord op d g imm 7
    (rg w id).canIssue 31 w ([0x08 + d.1, 0x08 + g.1] ++ if imm then [] else [0x08 + (7 : BitVec 16).toNat]) [] ∧
      (7 : BitVec 16).toNat < 8 :=
  ⟨rg_issues .., by decide⟩

/-- The highest products, at `X0 = Y0 = -2^31`, and the lowest accumulator. -/
theorem wit_multiplies (aop : Nat) : let w := multiplyForm aop 15 3 true 0x7F 0x7F true
    (rg w id).canIssue 31 w [0, 1, 2, 3, 0x30, 0x34, 0x38, 0x3C] [] ∧ bits (0x7F : BitVec 10).toNat 7 3 = 0 ∧
    (15 : BitVec 4) ≠ 0 ∧ (∀ n : Fin 4, ((rg 0 id).blk.eng 31).regs.sat[n] = false) ∧ (2 : Int) ^ 79 - 2 ^ 63 - 1 + 2 ^ 63 < 2 ^ 79 :=
  ⟨rg_issues .., by decide, by decide, by decide, by decide⟩

/-- Pointer 3 at the last word a move may store to, and eight bytes below it for TAP and LDP. -/
theorem wit_multiplyMoves :
    let at' (v : BitVec 16) := rg (multiplyForm 0 0 0 true 700 0 false) fun r => { r with p := r.p.set 3 v }
    (∀ v codes words, (at' v).canIssue 31 (multiplyForm 0 0 0 true 700 0 false) codes words) ∧ ((at' 0xFDF8).blk.eng 31).regs.step 3 4 = some 0xFDF8 ∧
      ((at' 0xFDF8).blk.eng 31).regs.step 3 1 = some 0xFDFC ∧ mayRead false 0xFDF8 = true ∧ mayRead false 0xFDFC = true ∧
      mayWrite (decide ((at' 0xFDFC).pcOf 31 < 0x4000)) (at' 0).blk.trust.loaded false 0xFDFC = true ∧ (fracStore (2 ^ 63 - 2 ^ 31 - 1)).2 = false := by
  refine ⟨fun _ _ _ => rg_issues .., ?_⟩; and_intros <;> decide

theorem wit_banks :
    let at' (k : Fin 8) (v : BitVec 16) := rg (bankForm 4 3 k 0 true) fun r => { r with p := r.p.set k v }
    (∀ k v codes words, (at' k v).canIssue 31 (bankForm 4 3 k 0 true) codes words) ∧ ((at' 7 0xFFF8).blk.eng 31).regs.step 7 0 = some 0xFFF8 ∧
      ((at' 7 0xFFF8).blk.eng 31).regs.step 7 1 = some 0xFFFC ∧ mayRead true 0xFFFC = true ∧ mayRead false 0xFFE0 = true ∧
      (((at' 7 0).blk.eng 31).regs.write 0x0F 5).isSome = true ∧ (2 : Fin 4).1 % 2 = 0 ∧
      mayWrite (decide ((at' 7 0).pcOf 31 < 0x4000)) ((at' 7 0).blk.runsCyclic 31) false 0x4000 = true ∧
      mayWrite (decide ((at' 7 0).pcOf 31 < 0x4000)) ((at' 7 0).blk.runsCyclic 31) true 0xBFFC = true := by
  refine ⟨fun _ _ _ _ => rg_issues .., ?_⟩; and_intros <;> decide

/-- An accumulator at the last value a fractional store holds, and at the first it does not; one at the limits of its 80 bits. -/
theorem wit_saturation : let x (v : BitVec 80) := ((rg 0 fun r => { r with a := #v[v, 1, 0xFFFFFFFFFFFFFFFFFFFF, 0] }).blk.eng 31).regs
    (x 0x7FFFFFFF7FFFFFFF).acc 0 + 2 ^ 31 < 2 ^ 63 ∧ ¬ (x 0x7FFFFFFF80000000).acc 0 + 2 ^ 31 < 2 ^ 63 ∧
      2 ^ 79 ≤ (x 0x7FFFFFFFFFFFFFFFFFFF).a[0].toInt + (x 0x7FFFFFFFFFFFFFFFFFFF).a[1].toInt ∧
      (x 0x80000000000000000000).a[0].toInt + (x 0x80000000000000000000).a[2].toInt < -(2 ^ 79) ∧
      (x 0).sat[0] = false := by
  intro x; and_intros <;> decide

theorem wit_branches : let z (d : Nat) : Repeat := ⟨2, 0x4000, 0x4000 + 4 * d⟩
    let s := rg (controlWord 4 0) fun r => { r with reps := [z 0, z 1, z 2], rets := List.replicate 7 0x4000 }
    s.mayGo 31 0xFFFC ∧ s.mayGo 31 0x4000 ∧ s.canIssue 31 (controlWord 4 0) [] [] ∧ (s.blk.eng 31).regs.atEnd = false ∧
      (s.blk.eng 31).regs.reps.length < 4 ∧ (s.blk.eng 31).regs.rets.length < 8 ∧ (s.blk.eng 31).run.any (·.stage = .code) = true ∧
      (s.blk.eng 31).regs.condition 0 7 = some true ∧ (s.blk.eng 31).regs.condition 1 7 = some false ∧
      (s.blk.eng 31).regs.condition 0xB 3 = some true ∧ (s.blk.eng 31).regs.condition 0xC 15 = some false := by
  intro z s; refine ⟨by unfold State.mayGo; decide, by unfold State.mayGo; decide, rg_issues .., ?_⟩; and_intros <;> decide

theorem wit_repeats : let z (n d : Nat) : Repeat := ⟨n, 0x4000, 0xFFF8 + 4 * d⟩
    let s (l : List Repeat) := rg (controlWord 0 0) fun r => { r with reps := l }
    (∀ l, (s l).canIssue 31 (controlWord 0 0) [] []) ∧ (s []).mayGo 31 0x4000 ∧ (s []).pcOf 31 = (z 2 0).fin ∧ (s []).pcOf 31 ≠ (z 2 1).fin ∧
      ((s [z 1 0, z 2 0]).blk.eng 31).regs.reps = [z 1 0, z 2 0] := by
  intro z s; refine ⟨fun _ => rg_issues .., by unfold State.mayGo; decide, ?_⟩; and_intros <;> decide

theorem wit_invalidWords : let s (f : ERegs → ERegs) := rg 0x70000001 f
    spelled 0x70000001 = false ∧ (s id).canIssue 31 0x70000001 [] [] ∧ ((s id).blk.desc 1023).kind = 3 ∧ ((s id).blk.desc 1023).deferred = none ∧
      ((s id).blk.eng 31).run = some (task .code) ∧ ((s id).blk.eng 31).cq = [] ∧ ((s id).blk.eng 31).held = none ∧
      ((s id).blk.eng 31).regs.rets = [] ∧ ((s id).blk.eng 31).regs.atEnd = false ∧
      ((s fun r => { r with reps := [⟨1, 0, 0xFFF8⟩] }).blk.eng 31).regs.atEnd = true ∧
      (let x (k : Nat) : State := (rg (controlWord 0 0) id).onBlk ({ · with ecc := [(engBase 31 + (s id).pcOf 31, k)] });
        (x 1).blk.eccAt (engBase 31 + (x 1).pcOf 31) = 1 ∧ 1 < (x 2).blk.eccAt (engBase 31 + (x 2).pcOf 31) ∧ ((x 2).blk.eng 31).loads = [] ∧
          (x 1).mayGo 31 ((x 1).nextOf 31).2) := by
  unfold State.mayGo; intro s; refine ⟨by decide, rg_issues .., ?_⟩; and_intros <;> decide

/-- Three accesses outstanding, of the first axis record of shared memory and of the last block of a bank. -/
theorem wit_fabricIssue : let l : Load := ⟨0x30000000, 4, .reg 8, false, true⟩
    let w := fabricForm 5 1 3 0 7 1 false
    let s := (eg fun x => { x with
      regs := { x.regs with pc := 0xFFF8, fa := #v[0x30000000, 0x31FFFFE0, 0, 0], p := x.regs.p.set 7 0xFFE0 }, loads := [l, l, l] }).onBlk
        fun b => { b with mem := Memory.writeWord b.mem (engBase 31 + 0xFFF8) w }
    s.mayGo 31 (s.nextOf 31).2 ∧ s.canIssue 31 w [0x29, 0x17] [(true, 0xFFE0)] ∧ s.blk.allowed 33 0x31FFFFE0 32 true (s.blk.runsCyclic 31) = true ∧
      s.blk.allowed 33 0x30000000 4 false (s.blk.runsCyclic 31) = true ∧ (s.blk.eng 31).loads.length < 4 ∧ 0x31FFFFE0 % 32 = 0 ∧
      (∀ j < 8, mayRead true ((0xFFE0 + 4 * j) % 2 ^ 16) = true) ∧ (s.blk.eng 31).regs.step 7 1 = some 0xFFE4 ∧
      (∀ j < 8, mayWrite (decide (s.pcOf 31 < 0x4000)) false true ((0xFFE0 + 4 * j) % 2 ^ 16) = true) := by
  unfold State.mayGo State.canIssue; and_intros <;> decide

theorem wit_fabricReturn : let l : Load := ⟨0x31FFFFFC, 4, .reg 8, false, false⟩
    let s := eg fun x => { x with loads := [l], stores := [⟨0x31FFFFF8, [1, 2], 1023, 0, 0⟩] }
    let bad : State := { s with blk := { s.blk with ecc := [(0x31FFFFFC, 2)] } }
    let gone := eg fun x => { x with dropped := [l] }
    (s.blk.eng 31).dropped = [] ∧ (s.blk.eng 31).loads = [l] ∧ s.blk.domainOn 10 = true ∧ s.blk.domainOn 7 = true ∧
      (s.blk.eng 31).run.any (·.stage = .ended) = false ∧ s.blk.eccAt l.addr ≤ 1 ∧ 1 < bad.blk.eccAt l.addr ∧ (bad.blk.eng 31).loads = [l] ∧
      ((s.blk.eng 31).regs.write 8 7).isSome = true ∧ 0x31FFFFF8 + 4 * 2 ≤ 0x32000000 ∧ (s.blk.desc 1023).kind ≠ 4 ∧
      (gone.blk.eng 31).dropped = [l] ∧ gone.blk.domainOn 10 = true ∧ (gone.blk.eng 31).loads = [] ∧ (gone.blk.eng 31).stores = [] := by
  intro l s bad gone; and_intros <;> decide

theorem wit_taskEnd : let s := rg (controlWord 8 0) id
    s.blk.wordAt 31 = controlWord 8 0 ∧ (rg (controlWord 11 0) id).blk.wordAt 31 = controlWord 11 0 ∧
    (s.blk.eng 31).run = some (task .code) ∧ s.blk.ecc = [] ∧ (s.blk.eng 31).loads.any (!·.held) = false ∧ (s.blk.desc 1023).kind = 3 ∧
      (s.blk.eng 31).bq = [] ∧ (s.blk.desc 1023).deleting = false ∧ s.blk.frozen 33 = false ∧ 1023 < 1024 ∧
      ((eg fun x => { x with loads := [⟨0, 4, .reg 8, false, false⟩] }).blk.eng 31).loads.any (!·.held) = true ∧
      ((eg fun x => { x with stores := [⟨0, [1], 1023, 0, 0⟩] }).blk.eng 31).stores = [⟨0, [1], 1023, 0, 0⟩] := by
  intro s; and_intros <;> decide

theorem wit_operandForms : bits (0x70000000 : Word).toNat (4 * (7 : Fin 8).1) 2 = (3 : Fin 4).1 ∧ bits (0x70000000 : Word).toNat 30 2 = 1 ∧
    windowOk 0x80008000 = true ∧ windowOk 0x80008004 = false ∧ attachOk 0xC0000000 = false ∧ attachOk 0xB9000000 = true ∧
    (15 : BitVec 4).toNat ≠ 7 := by decide

theorem wit_engineHalts :
    let s (h f y : Nat) (a : Option Nat) := st fun b => ((((b.set (LE_CTL 31) h).set TRU_FRZ_HI f).modEng 31 fun x =>
      { x with leftAt := a }).modDesc 1023 fun _ => { kindOf y with words := (kindOf y).words.set 2 31 })
    let old (f y : Nat) : State := (s 1 f y (some 0)).onBlk ({ · with up := 2000 })
    let alone : State := (old 2 2).onBlk (·.wr aCPR_PD_STAT 7)
    (s 0 0 2 none).blk.frozen 33 = false ∧ (s 0 2 2 none).blk.frozen 33 = true ∧ ((s 0 0 2 none).blk.eng 31).leftAt = none ∧
      (s 0 0 2 none).blk.flag (LE_STAT_HALTED 31) = false ∧ (s 1 0 2 none).blk.flag (LE_CTL 31) = true ∧
      ((s 1 0 2 none).blk.eng 31).run = none ∧ (s 1 0 4 none).blk.handList 31 = [] ∧ (s 1 0 2 none).blk.handList 31 = [1023] ∧
      (s 1 0 2 none).blk.inPool 31 = false ∧ (s 1 0 2 (some 0)).blk.leftLongAgo 31 = false ∧
      (old 0 2).blk.frozen 33 = false ∧ (old 0 2).blk.inPool 31 = false ∧ (old 0 2).blk.leftLongAgo 31 = true ∧ (old 0 2).blk.atPhase = true ∧
      (old 0 2).blk.handList 31 = [1023] ∧ (old 0 2).blk.pool.filter (· ≠ 31) ≠ [] ∧
      (old 0 2).blk.bestEngine ((old 0 2).blk.pool.filter (· ≠ 31)) = some 0 ∧
      (old 2 1).blk.frozen 33 = true ∧ (old 2 1).blk.leftLongAgo 31 = true ∧ (old 2 1).blk.atPhase = true ∧ (old 2 1).blk.handList 31 = [1023] ∧
      ((old 2 1).blk.desc 1023).kind = 1 ∧ ((old 2 1).blk.moveHand 31 true).pathCheck none = true ∧
      alone.blk.frozen 33 = true ∧ alone.blk.leftLongAgo 31 = true ∧ alone.blk.atPhase = true ∧ ((old 0 2).onBlk ({ · with time := 2 ^ 32 })).blk.atPhase = false ∧ alone.blk.pool.filter (· ≠ 31) = [] ∧ alone.blk.handList 31 ≠ [] := by
  intro s old alone; and_intros <;> decide

/-! ### InterruptsAndSnapshots -/

theorem wit_interrupts :
    (st id).reads 2 (aIRQ_S_TIME_LO 255) ∧ (st id).writes 2 (aIRQ_S_ACK 255) ((5 : BitVec 16).zeroExtend 32) ∧
      (st fun b => b.set (IRQ_S_FLAGS_CNT 255) 5).blk.get (IRQ_S_FLAGS_CNT 255) = 5 ∧ (∀ j < 4, (st id).blk.capLevel j = false) ∧
      (hs id).writes 36 aSNP_CTL 1 ∧ (st fun b => { b with host.writing := some 1 }).blk.host.writing = some 1 := by
  try unfold State.writes State.reads
  and_intros <;> decide

/-! ### LaunchQueues -/

theorem wit_push :
    let e : QEntry := ⟨31, 0, false, 0⟩
    let s (l : List QEntry) (n : Nat) : State := st fun b => { (b.on (PLT_Q_CFG_EN 7)).set PLT_SLOT_BUSY n with
      plant := { b.plant with queues := b.plant.queues.set 7 l } }
    (s [] 0).writes 2 (aPLT_Q_PUSH 7) 31 ∧ (s (List.replicate 15 e) 0).blk.plant.queues[7].length < 16 ∧
      16 ≤ (s (List.replicate 16 e) 0).blk.plant.queues[7].length ∧ (s [] 0).blk.flag (PLT_Q_CFG_EN 7) = true ∧
      (st id).blk.flag (PLT_Q_CFG_EN 7) = false ∧ (s [] 0x80000000).blk.flag ⟨aPLT_SLOT_BUSY, 31, 1⟩ = true ∧
      (s [] 0x7FFFFFFF).blk.flag ⟨aPLT_SLOT_BUSY, 31, 1⟩ = false := by
  intro e s; unfold State.writes; and_intros <;> decide

theorem wit_launch :
    let e (lt : Nat) : QEntry := ⟨31, lt, false, 0⟩
    let s (lt ns : Nat) (link : Nat) : State := st fun b => { ((b.on (PLT_Q_CFG_EN 7)).set (PLT_Q_CFG_PORT 7) 1).set (PLT_P_STAT_LINK 1) link with
      time := ns * 2 ^ 32, plant := { b.plant with queues := b.plant.queues.set 7 [e lt] } }
    (st id).blk.dueQueue 0 = none ∧ (s 5 5 1).blk.dueQueue 1 = some (7, e 5) ∧ (s 5 6 0).blk.dueQueue 1 = some (7, e 5) ∧
      ¬ (e 5).lt + 1000 * (s 5 5 1).blk.get (PLT_Q_CFG_LATE_TOL 7) < (s 5 5 1).blk.ns ∧
      (e 5).lt + 1000 * (s 5 6 0).blk.get (PLT_Q_CFG_LATE_TOL 7) < (s 5 6 0).blk.ns ∧ (s 5 5 1).blk.flag (PLT_P_STAT_LINK 1) = true ∧
      (s 5 6 0).blk.flag (PLT_P_STAT_LINK 1) = false ∧ (e 5).slot < 32 := by
  intro e s; and_intros <;> decide

/-- Messages of a known peer: unknown serial, wrong version, old, new. -/
theorem wit_lineAngleMessage :
    let r : LarxRec := ⟨1, 9, 5⟩
    let x (serial ver time : Nat) : LaMsg := ⟨0x4C41, ver, 8, serial, 0, 0, time, 0, 0, 0⟩
    let d : Deck := { deck with plant := ⟨[], [], [], [], [r]⟩ }
    let s (run : Bool) : State := dt d fun b => { (b.set PLT_STAT_STATE 3).put ANG_STAT_RUNNING run with
      time := 2 ^ 32, ang := { b.ang with kind := 4, index := 1, accepted := 2 }, plant := { b.plant with laLast := [(9, 0)] } }
    (s true).blk.larx 1 8 = none ∧ (s true).blk.larx 1 9 = some r ∧ (x 9 2 1).ver ≠ 1 ∧ (x 9 1 1).magic = 0x4C41 ∧
      bit (x 9 1 1).flags 3 = true ∧ (s true).blk.get PLT_STAT_STATE = 3 ∧ (s true).blk.plant.lastOf 9 = some 0 ∧ 0 < (x 9 1 1).time ∧
      (s false).blk.flag ANG_STAT_RUNNING = false ∧ (s true).blk.flag ANG_STAT_RUNNING = true ∧ (s true).blk.ang.handover = none ∧
      ¬ ((x 9 1 1).time ≤ (s true).blk.ang.lastT) ∧ ¬ ((2 * (s true).blk.roundNs : Int) < ((s true).blk.ns : Int) - (x 9 1 1).time) := by
  intro r x d s; and_intros <;> decide

theorem wit_plantPorts :
    (st id).writes 2 aPLT_MDIO 0xFFFFFFFF ∧ (st id).blk.flag PLT_MDIO_BUSY = false ∧ (st fun b => b.on PLT_MDIO_BUSY).blk.flag PLT_MDIO_BUSY = true ∧
      (st id).blk.flag (PLT_P_STAT_LINK 1) = false ∧ (st id).blk.flag (PLT_P_STAT_AN_DONE 1) = false ∧ (st id).writes 2 aPLT_CTL 2 := by
  unfold State.writes; and_intros <;> decide

/-! ### LineAngleTime -/

theorem wit_lineAngleTime :
    let e : CapinEntry := ⟨true, 1, 2⟩
    let s (l : List CapinEntry) : State := st fun b => { b.on ANG_EVT_RES_BUSY with
      ang := { b.ang with pulses := b.ang.pulses.set 15 (some 0), capCfg := b.ang.capCfg.set 7 (3, 65535), capFifo := b.ang.capFifo.set 7 l } }
    (st fun b => { b with boot := { b.boot with frozen := true } }).blk.boot.frozen = true ∧
      (∀ g < 8, (s []).blk.get (CAP_G_CFG_TKIND g) ≠ 2 ∧ (s []).blk.get (CAP_G_CFG_TKIND g) ≠ 3) ∧ (s []).blk.flag ANG_STAT_LOCKED = false ∧
      (s []).blk.flag ANG_EVT_RES_BUSY = true ∧ (s []).writes 2 aANG_EVT_CMD 1 ∧ (s []).blk.ang.pulses[15] = some 0 ∧
      bit (s []).blk.ang.capCfg[7].1 0 = true ∧ bit (s []).blk.ang.capCfg[7].1 1 = true ∧
      16 ≤ (s (List.replicate 16 e)).blk.ang.capFifo[7].length ∧ (s (List.replicate 15 e)).blk.ang.capFifo[7].length < 16 ∧
      (s []).writes 2 (aANG_CAP_POP 7) 0 ∧ (s [e]).blk.ang.capFifo[7] = [e] := by
  intro e s; unfold State.writes; and_intros <;> decide

/-- A partner link with nothing to send, and a path whose newest point lies as far back as the filter of input 7 reaches. -/
theorem wit_capturePath :
    let p : PathPt := { up := 0, th := 3, v := 2, time := 5, tv := 1 }
    let s : State := st fun b => { b with up := 524280, ang := { b.ang with capCfg := b.ang.capCfg.set 7 (3, 65535), past := [p] } }
    nextTx s.blk.partner.tx = none ∧ s.blk.partner.helloAt = none ∧
      ¬ (s.blk.get PTN_STAT_ROLE = 1 ∧ s.blk.flag PTN_STAT_XFER = true ∧ s.blk.partner.bulkDue = false) ∧ s.blk.ang.past = p :: [] ∧
      (p.up : Int) + 8 * s.blk.ang.capCfg[7].2 ≤ s.blk.up ∧ (0 : Int) < 8 * s.blk.ang.capCfg[7].2 := by
  intro p s; and_intros <;> decide

/-! ### Mailbox -/

theorem wit_mailbox :
    let mb (code : Nat) (waiting running : Bool) (reply : List Word) : Mailbox := ⟨code, 0, [], running, waiting, reply⟩
    let s (f : Block → Block) (m : Mailbox) : State := hs fun b => { f b with host := { b.host with mb := m } }
    let o (x : Bool) : State := s id (mb 0 false false []) |> fun t => { t with nv.otp.provisioned := x }
    (s id (mb 0 false false [])).writes 36 aHST_MB_CMD 1 ∧ (s id (mb 0 false false [])).blk.flag HST_MB_STAT_BUSY = false ∧
      (s (·.on HST_MB_STAT_BUSY) (mb 0x20 true false [])).blk.flag HST_MB_STAT_BUSY = true ∧
      (s (·.on HST_MB_STAT_BUSY) (mb 0x20 true false [])).writes 36 aHST_MB_CMD 0 ∧ (s id (mb 0x20 true false [])).blk.boot.dealing = false ∧
      (s id (mb 0 false false [7])).reads 36 aHST_MB_REPLY ∧ (s id (mb 0 false false [7])).blk.host.mb.reply = [7] ∧
      (s id (mb 0 false false [])).writes 36 aHST_MB_CMD (BitVec.ofNat 32 (0x20 + (2 ^ 21 - 1) * 2 ^ 8)) ∧
      (s (·.set DEV_BOOT_PHASE 3) (mb 0 false false [])).blk.mayDeal = true ∧ (s id (mb 0x20 true false [])).writes 36 aHST_MB_DATA 5 ∧
      (s (fun b => { b with boot := { b.boot with dealing := true } }) (mb 0x20 true false [])).blk.boot.dealing = true ∧
      (s (fun b => { b with boot := { b.boot with dealing := true } }) (mb 0x20 true false [])).writes 36 aHST_MB_DATA 5 ∧
      (s (·.set HST_MB_LEFT 1) (mb 0x20 true false [])).blk.get HST_MB_LEFT = 0 + 1 ∧ (s id (mb 0 false false [])).blk.host.mb.waiting = false ∧
      (o false).writes 36 aHST_MB_CMD 0x1510 ∧ (o false).nv.otp.provisioned = false ∧
      (o false).writes 36 aHST_MB_CMD 0x21 ∧
      (s (·.set DCK_STAT_STATE 4) (mb 0 false false [])).blk.get DCK_STAT_STATE = 4 ∧ (o false).blk.get DCK_STAT_STATE ≠ 4 := by
  intro mb s o; unfold State.writes State.reads; and_intros <;> decide

theorem wit_storeDone :
    let s : State := dt deck fun b => { b.set DCK_STAT_STATE 7 with host := { b.host with mb := ⟨0x21, 0, [], true, false, []⟩ } }
    s.blk.get DCK_STAT_STATE = 7 ∧ s.blk.dealt = some deck ∧ s.blk.host.mb.code = 0x21 ∧ s.blk.host.mb.running = true := by
  intro s; exact ⟨by decide, rfl, rfl, rfl⟩

theorem wit_provision : ∀ w ∈ List.replicate 21 (1 : Word), (hs id).writes 36 aHST_MB_DATA w := by
  intro w hw; rw [List.eq_of_mem_replicate hw]; unfold State.writes; and_intros <;> decide

/-! ### MotionCommands -/

/-- Axis 255, virtual or as `k` says, in command mode `c` of a move at speed 1, with limits `l` and line angle rate `w`. -/
def mv (k c l w : Nat) (f : Block → Block) : State :=
  axs k fun b => f { ((((b.wr (aAX_PVEL 255) (BitVec.ofNat 32 l)).wr (aAX_PACC 255) (BitVec.ofNat 32 l)).wr (aAX_PDEC 255) (BitVec.ofNat 32 l)).modAx 255
    fun a => { a with cmode := c, gen := { a.gen with tr := ⟨0, 1, 0⟩ } }) with ang := { b.ang with w := w } }

theorem wit_motionModes :
    (axs 3 id).blk.axisExists 254 = false ∧ (mv 3 0 0 0 id).blk.axisExists 255 = true ∧ ((mv 3 0 0 0 id).blk.ax 255).jog = false ∧
      (mv 3 0 0 0 id).blk.helperRuns 255 = true ∧ (mv 1 0 0 0 id).blk.helperRuns 255 = false ∧ ((mv 3 0 0 0 id).blk.cmd 255).v ≠ 0 ∧
      ((axs 3 id).blk.cmd 255).v = 0 ∧ ((axs 3 id).blk.cmd 255).a = 0 ∧ ((mv 3 0 0 0 id).blk.limits 255).dec = 0 ∧
      ((mv 3 0 1 0 id).blk.limits 255).dec ≠ 0 ∧ ((mv 3 0 1 0 id).blk.limits 255).vel ≠ 0 ∧ ((mv 3 0 1 0 id).blk.limits 255).acc ≠ 0 ∧
      ((mv 3 0 0 0 id).blk.limits 255).vel = 0 ∧ (mv 3 0 0 0 id).blk.modulo 255 = false ∧
      (mv 3 0 0 1 (·.on ANG_STAT_LOCKED)).blk.flag ANG_STAT_LOCKED = true ∧ (mv 3 0 0 1 id).blk.ang.w ≠ 0 ∧
      (mv 3 0 0 0 id).blk.flag ANG_STAT_LOCKED = false ∧ (mv 3 0 0 0 id).blk.get (AX_GBLEND 255) = 0 ∧
      (mv 3 0 0 0 (·.set (AX_GBLEND 255) 1)).blk.get (AX_GBLEND 255) ≠ 0 := by
  and_intros <;> decide

theorem wit_modulo :
    let s (m : Nat) : State := dt { axDeck 3 0 with axes := [{ axisRec 255 3 with flags := 1 }] } fun b => b.set (AX_MODULUS 255) m
    (s 0).blk.modulo 255 = true ∧ ((s 0).blk.get (AX_MODULUS 255) * 2 ^ 32 : Int) = 0 ∧ ((s 1).blk.get (AX_MODULUS 255) * 2 ^ 32 : Int) ≠ 0 := by
  intro s; and_intros <;> decide

theorem wit_targets :
    let t0 : Triple := ⟨0, 1, 0⟩
    let p : Plan := ⟨t0, [], 0, some 5⟩
    let s (c : Nat) : State := axs 3 fun b => (((b.wr (aAX_PVEL 255) 1).wr (aAX_PACC 255) 1).wr (aAX_PDEC 255) 1).modAx 255 fun a =>
      { a with cmode := c, gen := ⟨t0, some p, ⟨1, 1, 1, 0⟩, true⟩ }
    ((s 1).blk.ax 255).cmode = 1 ∧ ((s 2).blk.ax 255).cmode = 2 ∧ ((s 3).blk.ax 255).cmode ≠ 1 ∧ ((s 3).blk.ax 255).cmode ≠ 2 ∧
      ((s 1).blk.ax 255).gen.plan.any (·.target.isSome) = true ∧ ((s 1).blk.ax 255).gen.kept = true ∧
      ((mv 3 1 0 0 id).blk.ax 255).gen.plan.any (·.target.isSome) = false ∧ ((s 1).blk.limits 255).vel ≠ 0 ∧
      let q : State := axs 2 fun b => (((((b.on (AX_MSTAT_CUR_RED 255)).on (AX_STAT_ENABLED 255)).on (AX_STAT_AUTO 255)).wr (aAX_PVEL 255) 1).wr
        (aAX_PACC 255) 1).wr (aAX_PDEC 255) 1
      q.blk.stepper 255 = true ∧ q.blk.flag (AX_MSTAT_CUR_RED 255) = true ∧ q.blk.helperRuns 255 = true ∧ (q.blk.ax 255).jog = false ∧
        (q.blk.limits 255).vel ≠ 0 ∧ (q.blk.limits 255).acc ≠ 0 ∧ (q.blk.limits 255).dec ≠ 0 ∧ q.blk.modulo 255 = false := by
  intro t0 p s; and_intros <;> decide

/-- Velocity mode without an acceleration limit, its jog speed above the present one. -/
theorem wit_velocity :
    let s : State := mv 3 0 1 0 fun b => (b.set (AX_JVEL 255) 1).wr (aAX_PACC 255) 0
    let l := s.blk.limits 255
    let v := mkRat (clampI (-(l.vel : Int)) l.vel (s.blk.geti (AX_JVEL 255))) (2 ^ 16)
    l.acc = 0 ∧ (velNeeds (s.blk.cmd 255).rat l v).1 = true ∧ (velNeeds (s.blk.cmd 255).rat ⟨1, 1, 0, 0⟩ 0).2 = true := by
  intro s l v
  have hv : clampI (-(l.vel : Int)) l.vel (s.blk.geti (AX_JVEL 255)) = 1 := by decide
  have hc : s.blk.cmd 255 = ⟨0, 1, 0⟩ := by decide
  have hj : l.jerk = 0 := by decide
  refine ⟨by decide, ?_, ?_⟩
  · simp only [v, hv, hc, velNeeds, Triple.rat, rat48, limR, hj, signR]; norm_num
  · simp only [hc, velNeeds, Triple.rat, rat48, limR, signR]; norm_num

/-! ### PartnerElection -/

theorem wit_election :
    let s (f : Block → Block) : State := { dt pairDeck fun b => f { b with boot := { b.boot with step3 := true } } with nv.otp.serial := 2 }
    (s id).blk.boot.step3 = true ∧ (s id).blk.boot.step4 = false ∧ (s id).blk.partner.electing = none ∧ (s id).blk.pair = some ⟨1, 2, 16, 0⟩ ∧
      (2 : Nat) = (s id).nv.otp.serial.toNat ∧ (dt deck id).blk.pair = none ∧ (s id).blk.boot.step2 = false ∧
      (s fun b => { b with partner := { b.partner with electing := some 0 } }).blk.partner.electing.isSome = true ∧
      (s id).blk.partner.hello = none ∧ (s fun b => { b with up := 4000000, partner := { b.partner with electing := some 0 } }).blk.up = 0 + 4000000 := by
  intro s; exact ⟨rfl, rfl, rfl, rfl, by decide, rfl, rfl, rfl, rfl, rfl⟩

/-- A HELLO sealed under K_P is accepted by a unit of the pair in any state of its election, and says what was sealed in it. -/
theorem wit_helloFrame (b : Block) (h : Hello) :
    let f := arrives b.partnerKey 0 5 1 ⟨5, h.toWords⟩
    f.ptnOk b.partnerKey = true ∧ f.ptnType = 5 ∧ f.ptnRound = 5 ∧ b.frameWords f = h.toWords := by
  intro f
  have hl : h.toWords.length ≤ 256 := by simp [Hello.toWords, pairWords, longWords]
  obtain ⟨hk, ty, -, -, hr, -, hw⟩ := arrives_opens (key := b.partnerKey) (p := 0) (round := 5) (seq := 1) (x := ⟨5, h.toWords⟩) (by omega)
    (show 5 < 16 by omega) (by omega) (by omega) hl
  exact ⟨hk, ty, hr, hw⟩

set_option exponentiation.threshold 400 in
/-- HELLO words of a stranger, and of the partner with the same deck or another, unresolved, as declarer or as dummy. -/
theorem wit_hello :
    let h (serial : Nat) (hash : BitVec 384) (role epoch : Nat) : Hello := ⟨serial, hash, 0, role, epoch, 0⟩
    let s (e : Option Nat) (p : Nat) (step4 : Bool) : State := dt pairDeck fun b =>
      { ((b.set PTN_PEER 2).set PTN_EPOCH 5).set PTN_STAT_P p with boot := { b.boot with step4 := step4 }, partner := { b.partner with electing := e } }
    (∀ x ∈ [h 3 0 0 0, h 2 0 0 0, h 2 0 1 4, h 2 0 1 5, h 2 1 0 0, h 2 1 2 0], helloOf x.toWords = x) ∧
      (s none 0 true).blk.partner.rxFrame = none ∧ (s none 0 true).blk.pair.isSome = true ∧ (dt deck id).blk.pair = none ∧
      (h 3 0 0 0).serial ≠ (s none 0 true).blk.get PTN_PEER ∧
      (h 2 0 0 0).serial = (s none 0 true).blk.get PTN_PEER ∧ (s (some 0) 0 false).blk.partner.electing.isSome = true ∧
      (s (some 0) 0 false).blk.boot.step2 = false ∧ (s (some 0) 1 false).blk.flag PTN_STAT_P = true ∧ (s (some 0) 0 false).blk.flag PTN_STAT_P = false ∧
      (s none 0 true).blk.boot.step4 = true ∧ (s none 0 false).blk.boot.step4 = false ∧ (s none 0 true).blk.get PTN_STAT_ROLE = 0 ∧
      ((s none 0 true).onBlk (·.set PTN_STAT_ROLE 1)).blk.get PTN_STAT_ROLE ≠ 0 ∧
      laterThan 32 ((s none 0 true).blk.get PTN_EPOCH) (h 2 0 1 4).epoch = true ∧
      ((s none 0 true).blk.get PTN_EPOCH = (h 2 0 1 5).epoch ∧ (s none 0 true).blk.flag PTN_STAT_P = false) ∧
      ¬ laterThan 32 ((s none 1 true).blk.get PTN_EPOCH) (h 2 0 1 5).epoch = true ∧
      (∀ g < 8, (s none 1 true).blk.get (SEG_STAT_STATE g) ≠ 6) := by
  intro h s; and_intros <;> decide

set_option exponentiation.threshold 400 in
theorem wit_helloHash : ((dt pairDeck id).blk.dealt.map (·.digest)).getD 0 = 0 ∧ ((dt pairDeck id).blk.dealt.map (·.digest)).getD 0 ≠ 1 := by
  decide

/-! ### PartnerFrames -/

/-- A frame of the partner in this round, sealed under K_P: it is accepted, and its payload is the one sealed in it. -/
theorem wit_frames (role : Fin 4) (x : TxFrame) (ht : x.type < 16) (hl : x.words.length ≤ 256) :
    let b := (pr role id).blk
    let f := arrives b.partnerKey 0 5 1 x
    f.ptnOk b.partnerKey = true ∧ f.ptnType = x.type ∧ f.ptnRound = b.round ∧ b.roundsSince f.ptnRound ≤ 1 ∧ b.partner.rxFrame = none ∧
      b.partner.partAfter f.ptnRound f.ptnSeq = some [] ∧ b.frameWords f = x.words := by
  intro b f
  obtain ⟨hk, ty, -, -, hr, -, hw⟩ := arrives_opens (key := b.partnerKey) (p := 0) (round := 5) (seq := 1) (x := x) (by omega) ht (by omega) (by omega) hl
  have r5 : ∀ k : Fin 4, (pr k id).blk.round = 5 ∧ (pr k id).blk.roundsSince 5 ≤ 1 := by decide
  refine ⟨hk, ty, (show f.ptnRound = 5 from hr).trans (r5 role).1.symm, ?_, rfl, rfl, hw⟩
  rw [show f.ptnRound = 5 from hr]; exact (r5 role).2

/-- A frame with a code error, and the round before the last. -/
theorem wit_frameLost : (Frame.ptnOk ⟨true, []⟩ 0 = false) ∧ ¬ (pr 2 id).blk.roundsSince 3 ≤ 1 ∧ (pr 2 id).blk.roundsSince 4 ≤ 1 := by
  and_intros <;> decide

theorem wit_heartbeats :
    (pr 1 id).blk.flag PTN_STAT_PAIRED = true ∧ (st id).blk.flag PTN_STAT_PAIRED = false ∧ (pr 1 id).blk.get PTN_STAT_ROLE = 1 ∧
      (pr 2 id).blk.get PTN_STAT_ROLE = 2 ∧ (pr 0 id).blk.get PTN_STAT_ROLE = 0 ∧ (pr 2 id).blk.frozen 38 = false ∧
      (pr 2 fun b => b.set TRU_FRZ_HI 0x40).blk.frozen 38 = true ∧ (pr 2 id).blk.up ≤ (pr 2 id).blk.roundAt + 4000 ∧
      (pr 2 id).blk.partner.outB = none ∧ ¬ ({ (pr 2 id).blk with up := 4001 }).up ≤ (pr 2 id).blk.roundAt + 4000 ∧
      (pr 2 id).blk.partner.stepTime = false ∧ (pr 2 fun b => { b with partner := { b.partner with stepTime := true } }).blk.partner.stepTime = true ∧
      (pr 2 id).blk.flag PLT_MODE = false ∧ (pr 2 id).blk.get PLT_STAT_STATE ≤ 1 := by
  and_intros <;> decide

/-- The payloads of mirror frames: each kind of item comes back from its words. -/
theorem wit_mirrorItems :
    let s : State := pr 2 fun b => { b with partner := { b.partner with xferDone := true, digest := some 7 } }
    let items (b : Block) (x : MirItem) : List MirItem := (cutItems (mirLen b.regionWords) x.toWords.length x.toWords).1.filterMap mirItemOf
    let one : State := dt { pairDeck with mirror := some ⟨[⟨1, 2, 16, 0⟩], [(255, 255)], [⟨0x30000000, 1⟩]⟩ } fun b =>
      { b with trust := { b.trust with policy := [dispatcherBlock], loaded := true } }
    (pr 2 id).blk.partner.xferDone = false ∧ s.blk.partner.xferDone = true ∧ s.blk.partner.digest = some 7 ∧
      items s.blk (.rc 255 4095 (-1)) = [.rc 255 4095 (-1)] ∧ s.blk.rcMirrored 0 = false ∧
      (dt { pairDeck with axes := [axisRec 255 1] } id).blk.rcMirrored 255 = true ∧
      items s.blk (.words 0 [1, 2]) = [.words 0 [1, 2]] ∧
      ((s.blk.dealt.bind (·.mirror)).map (·.words)).bind (·[0]?) = some ⟨0x30000000, 2⟩ ∧ (∀ j < 2, s.blk.passes 38 (0x30000000 + 4 * j) true = true) ∧
      items one.blk (.words 0 [1]) = [.words 0 [1]] ∧ ((one.blk.dealt.bind (·.mirror)).map (·.words)).bind (·[0]?) = some ⟨0x30000000, 1⟩ ∧
      one.blk.passes 38 0x30000000 true = false ∧ items s.blk (.header 5 1 2 (-3) 4 5 1) = [.header 5 1 2 (-3) 4 5 1] := by
  intro s items one; and_intros <;> decide

/-- The payloads of SESSION and BULK frames. -/
theorem wit_sessionItems :
    let items (x : SessItem) : List SessItem := (cutItems itemLen x.toWords.length x.toWords).1.filterMap sessItemOf
    let bulk (first last ask : Bool) : List Word := [bulkHead first last ask 5]
    items (.lead 7 5) = [.lead 7 5] ∧ items (.node 7 63 9 5) = [.node 7 63 9 5] ∧ items (.ended 7 63) = [.ended 7 63] ∧
      (bit (wordAt (bulk true false false) 0) 0 = true ∧ bit (wordAt (bulk true false false) 0) 1 = false ∧
        bit (wordAt (bulk true false false) 0) 2 = false) ∧
      (bit (wordAt (bulk false true false) 0) 0 = false ∧ bit (wordAt (bulk false true false) 0) 1 = true) ∧
      bit (wordAt (bulk false false true) 0) 2 = true ∧
      (cutItems itemLen (bulk true false false).length ((bulk true false false).drop 1)).1.filterMap bulkItemOf = [] ∧
      (pr 2 id).blk.partner.held = [] := by
  intro items bulk; and_intros <;> decide

/-- A SESSION frame waits behind a MIRROR frame queued after it, and not behind a HELLO already sent. -/
theorem wit_sending :
    let s : State := pr 2 fun b => { b with up := 5, partner := { b.partner with tx := [⟨3, []⟩, ⟨2, []⟩, ⟨3, [0]⟩], lineFree := 60 } }
    (∀ j < 8, s.blk.get (CAP_G_CFG_TKIND j) ≠ 2) ∧ s.blk.partner.helloAt = none ∧ s.blk.partner.lineFree ≤ (s.blk.up + 1) * 10 ∧
      s.blk.partner.tx = [⟨3, []⟩] ++ ⟨2, []⟩ :: [⟨3, [0]⟩] ∧ txRank 2 < txRank 3 ∧
      (s.onBlk ({ · with up := 4 })).blk.partner.lineFree > ((s.onBlk ({ · with up := 4 })).blk.up + 1) * 10 := by
  intro s; and_intros <;> decide

theorem wit_captureFrame :
    let s (st mu : Nat) : State := pr 0 fun b => ((b.set (CAP_G_STAT_STATE 7) st).set (CAP_G_CFG_MU 7) mu).set CAP_STAT_ARMED (if st = 1 then 0x80 else 0)
    (∀ op < 4, bits (wordAt (captureWords op 7 (2 ^ 96 - 1)) 0) 0 3 = 7 ∧ bits (wordAt (captureWords op 7 (2 ^ 96 - 1)) 0) 8 2 = op) ∧
      bit ((s 0 1).blk.get (CAP_G_CFG_MU 7)) 1 = false ∧ bit ((s 0 2).blk.get (CAP_G_CFG_MU 7)) 1 = true ∧
      (s 0 2).blk.flag (CAP_G_CFG_MU_MASTER 7) = false ∧ (s 0 2).blk.frozen 35 = false ∧ bit ((s 1 2).blk.get CAP_STAT_ARMED) 7 = true ∧
      ((s 0 2).onBlk (·.on (CAP_G_CFG_MU_MASTER 7))).blk.flag (CAP_G_CFG_MU_MASTER 7) = true ∧
      bit ((s 0 2).blk.get CAP_STAT_ARMED) 7 = false ∧ (s 3 2).blk.get (CAP_G_STAT_STATE 7) = 3 ∧ (s 1 2).blk.get (CAP_G_STAT_STATE 7) = 1 := by
  intro s; and_intros <;> decide

/-! ### PlantMessages -/

/-- Port 1 enabled with role `role` and profile `prof`, its engine as `y`, changed by `f`. -/
def pt (role prof : Nat) (y : PtpPort) (f : Block → Block) : State := st fun b => f { ((b.on (PLT_P_CFG_EN 1)).set (PLT_P_CFG_ROLE 1) role).set
  (PLT_P_CFG_PROFILE 1) prof with plant := { b.plant with ports := b.plant.ports.set 1 y } }

theorem wit_messages :
    let y (src : Option Nat) (tw : Option (Nat × Int)) (rq pd : Option Int) (rs : Option (Int × Int)) : PtpPort := ⟨src, tw, rq, 0, pd, rs, some (0, 1), 0, 0, none, 0, some 0, some 0, some 0⟩
    let n : PtpPort := y none none none none none
    (pt 1 0 n id).blk.flag (PLT_P_CFG_EN 1) = true ∧ (pt 1 0 n id).blk.get (PLT_P_CFG_ROLE 1) = 1 ∧ (pt 2 0 n id).blk.get (PLT_P_CFG_ROLE 1) = 2 ∧
      (st id).blk.flag (PLT_P_CFG_EN 1) = false ∧ (pt 1 2 n id).blk.get (PLT_P_CFG_PROFILE 1) = 2 ∧ (pt 1 0 n id).blk.get (PLT_P_CFG_PROFILE 1) ≠ 2 ∧
      (pt 1 0 n id).blk.get (PLT_P_CFG_DOMAIN 1) = 0 ∧ (pt 1 0 n id).blk.plant.ports[1].source = none ∧
      (pt 1 0 (y (some 3) (some (9, 5)) none none none) id).blk.plant.ports[1].twoStep = some (9, 5) ∧
      (pt 1 0 (y (some 3) none (some 5) none none) id).blk.plant.ports[1].reqSent = some 5 ∧
      (pt 1 2 (y (some 3) none none (some 5) (some (6, 7))) id).blk.plant.ports[1].pdResp = some (6, 7) ∧
      (pt 1 2 (y (some 3) none none (some 5) (some (6, 7))) id).blk.plant.ports[1].ratioAt = some (0, 1) ∧ (7 : Int) ≠ 1 ∧
      (pt 2 0 n id).blk.intervalDue none 1000000000 = true ∧ (pt 2 0 n id).blk.intervalDue (some 0) 1000000000 = false ∧
      (pt 2 0 n fun b => { b with up := 1000000000 }).blk.intervalDue (some 0) 1000000000 = true ∧
      (pt 1 0 n id).blk.up < (pt 1 0 n id).blk.plant.ports[1].heardAt + (pt 1 0 n id).blk.receiptNs 1 ∧
      (pt 1 0 n id).blk.plant.ports[1].heardAt + (pt 1 0 n id).blk.receiptNs 1 ≤ (pt 1 0 n fun b => { b with up := 1000000000 }).blk.up := by
  intro y n; and_intros <;> decide

theorem wit_servo :
    let s (state phase : Nat) (f : Plant → Plant) : State := st fun b =>
      { (b.set PLT_STAT_STATE state).set DEV_BOOT_PHASE phase with plant := f { b.plant with inRange := 7 } }
    (s 1 7 id).blk.get PLT_STAT_STATE = 1 ∧ (s 1 7 id).blk.get DEV_BOOT_PHASE = 7 ∧ (s 3 6 id).blk.get DEV_BOOT_PHASE ≠ 7 ∧
      (s 3 6 id).blk.get PLT_STAT_STATE = 3 ∧ 7 ≤ (s 2 6 id).blk.plant.inRange ∧ (s 2 6 id).blk.flag PLT_STAT_PARTNER = false ∧
      (s 2 6 id).blk.flag PLT_MODE = false ∧ (s 1 7 fun p => { p with step := some 3 }).blk.plant.step = some 3 ∧ (s 1 7 id).blk.atPhase = true ∧ (s 1 7 id).blk.plant.step = none ∧
      (st id).writes 2 aPLT_CTL 1 ∧ ¬ (s 3 6 id).blk.jumpTh * 2 ^ 32 < (((s 3 6 id).blk.jumpTh : Int) * 2 ^ 32).natAbs ∧
      (s 3 6 id).blk.jumpTh * 2 ^ 32 < (((s 3 6 id).blk.jumpTh : Int) * 2 ^ 32 + 1).natAbs := by
  intro s; unfold State.writes; and_intros <;> decide

/-! ### PowerAndLinks -/

theorem wit_powerAndLinks :
    let s (f : Pd0 → Pd0) (phase : Nat) (r : Bool) : State := st fun b => { b.set DEV_BOOT_PHASE phase with
      pd0 := f { b.pd0 with gatePend := [47] }, boot := { b.boot with released := r } }
    (46 : Fin 48).1 ∉ (s id 0 true).blk.pd0.gatePend ∧ (47 : Fin 48).1 ∈ (s id 0 true).blk.pd0.gatePend ∧ (s id 0 true).blk.pd0.switching = [] ∧
      (s id 0 true).blk.domainOn 11 = true ∧ (s id 0 true).blk.domainHeld 11 = false ∧ (st fun b => b.wr aCPR_PD_STAT 0x7FF).blk.domainOn 11 = false ∧
      (s (fun p => { p with switching := [(11, true)] }) 0 true).blk.pd0.switching = [(11, true)] ∧
      (s (fun p => { p with switching := [(1, false), (6, false)] }) 0 true).blk.pd0.switching = [(1, false), (6, false)] ∧
      (s id 0 false).blk.boot.released = false ∧ (s id 4 true).blk.get DEV_BOOT_PHASE = 4 ∧ (s id 5 true).blk.get DEV_BOOT_PHASE = 5 ∧
      (s id 14 true).blk.get DEV_BOOT_PHASE = 14 ∧ (s id 0 true).blk.flag SAF_STAT_LOCKOUT = (s id 0 true).blk.safety.lockout ∧
      (s id 0 true).blk.field.linkLost = false ∧ (s id 0 true).blk.field.rxAt = 0 ∧ (s id 0 true).blk.up < 2000 ∧
      2000 ≤ (st fun b => { b with up := 2000 }).blk.up ∧ (s (fun p => { p with tempHigh := true }) 0 true).blk.pd0.tempHigh = true ∧
      (s id 0 true).blk.boot.step1 = false ∧ (s id 0 true).blk.boot.step2 = false ∧ (⟨true, 7⟩ : D2dCopy).payload ≠ (⟨true, 8⟩ : D2dCopy).payload := by
  intro s; and_intros <;> decide

/-! ### Resets -/

theorem wit_resets :
    let s (f : Pd0 → Pd0) (phase dck : Nat) : State := st fun b => { (b.set DEV_BOOT_PHASE phase).set DCK_STAT_STATE dck with
      pd0 := f { b.pd0 with porst := false, resetN := false } }
    (s id 7 0).blk.pd0.porst = false ∧ (s id 7 0).blk.pd0.resetN = false ∧ State.reset.blk.pd0.porst = true ∧
      (s (fun p => { p with resetN := true, resetLow := some 0 }) 0 0).blk.pd0.resetLow = some 0 ∧ (s id 7 0).writes 2 aCPR_CTL 1 ∧
      (s id 7 0).blk.get DEV_BOOT_PHASE = 7 ∧ (s id 6 7).blk.get DCK_STAT_STATE = 7 ∧ (s id 6 4).blk.get DCK_STAT_STATE ≠ 7 ∧
      (s id 6 4).blk.get DEV_BOOT_PHASE ≠ 7 ∧ (s id 0 0).blk.pd0.devResetAt = none ∧
      (s (fun p => { p with devResetAt := some 0 }) 0 0).blk.pd0.devResetAt = some 0 ∧
      (s (fun p => { p with goodSince := some 0, restarts := [0, 0] }) 0 0).blk.pd0.goodSince = some 0 ∧
      0 + 100000000 ≤ ({ (s id 0 0).blk with up := 100000000 }).up ∧ ({ (s id 0 0).blk with up := 99999999 }).up < 0 + 100000000 ∧
      (s (fun p => { p with rcDead := true, resetN := true }) 0 0).blk.pd0.rcDead = true ∧
      ((s (fun p => { p with restarts := [0, 0, 0] }) 0 0).blk.pd0.restarts.filter fun t => decide (0 < t + 3600000000000)).length = 3 ∧
      (s id 0 0).blk.pd0.rcDead = false := by
  intro s; unfold State.writes; and_intros <;> decide

/-! ### RoundBoundary -/

/-- A device released from reset with a commit waiting in the highest node-position register and one in the lowest. -/
theorem wit_roundBoundary :
    let f (a : Nat) : Fld := ⟨a, 0, 32⟩
    let s : State := st fun b => { ((b.on SNP_STAT_PEND).off SNP_STAT_BUSY) with
      up := 5, boot := { b.boot with released := true }, shadow := [(f 0x105000, 5), (f 0x106FFC, 7)] }
    s.blk.boot.released = true ∧ State.reset.blk.boot.released = false ∧ s.blk.atBoundary = true ∧
      (s.onBlk ({ · with roundAt := 5 })).blk.atBoundary = false ∧ s.blk.cap.groups = [] ∧ s.blk.cap.chans = [] ∧ s.blk.cap.rd = none ∧
      s.blk.descs = [] ∧ s.blk.segs = [] ∧ s.blk.dealt = none ∧ s.blk.get PTN_STAT_ROLE = 0 ∧
      s.blk.flag PTN_STAT_PAIRED = false ∧ s.blk.ang.items = [] ∧ s.blk.flag PLT_LA_CTL_EN = false ∧ s.blk.flag ANG_STAT_RUNNING = false ∧
      s.blk.flag ANG_CTL_RUN = false ∧ s.blk.partner.stopAt = none ∧ s.blk.trust.nonce = none ∧ s.blk.host.writing = none ∧
      (∀ c ∈ s.blk.shadow, 0x105000 ≤ c.1.addr ∧ c.1.addr < 0x107000 ∧ c.1.lo + c.1.w ≤ 32) ∧
      s.blk.shadow.Pairwise (·.1.addr ≠ ·.1.addr) ∧ s.blk.due = [] ∧ s.blk.flag SNP_STAT_PEND = true ∧
      s.blk.flag SNP_STAT_BUSY = false ∧ s.blk.boot.dealing = false := by
  intro f s; and_intros <;> decide

/-! ### SafetyFunctions -/

/-- Inputs 14 and 15 an equivalent pair, input 0 alone, function 31 on input 0, output pair 7 tested. -/
def sf (sdiA sdiB phase : Nat) (f : Safety → Safety) : State :=
  dt { deck with safety := ⟨[], [⟨14, 2, 15, 15, 1⟩, ⟨0, 1, 15, 15, 1⟩], [⟨7, false, true⟩], [⟨31, 0, 1, 0x80, 1, 0, 0, []⟩], []⟩ } fun b =>
    { b.set DEV_BOOT_PHASE phase with safety := f { b.safety with a.sdi := sdiA, b.sdi := sdiB } }

theorem wit_safetyInputs :
    let s (f : Safety → Safety) : State := sf 1 0xC001 7 f
    bit (s id).blk.safety.raw 15 = false ∧ bit (s fun x => { x with raw := 0x8000 }).blk.safety.raw 15 = true ∧
      (s id).blk.safSect.functions.Pairwise (·.func ≠ ·.func) ∧ (s id).blk.safety.a.stops = [] ∧
      (sf 1 1 7 id).blk.safety.a.sdi = (sf 1 1 7 id).blk.safety.b.sdi ∧ (s id).blk.safety.flock = false ∧
      bit ((s id).blk.safety.a.sdi ^^^ (s id).blk.safety.b.sdi) 15 = true ∧ ((s id).blk.inputOf 15).isSome = true ∧
      (s fun x => { x with mismatch := x.mismatch.set 15 (some 0) }).blk.safety.mismatch[15] = some 0 ∧
      0 + 2 * (s id).blk.sfilt < ({ (s id).blk with up := 1 }).up ∧ (s id).blk.inputOf 14 = some (⟨14, 2, 15, 15, 1⟩, false) ∧
      (s id).blk.safety.disc[14] = .none ∧
      (let v : State := sf 0x4001 0 7 fun x => { x with apart := x.apart.set 14 (some 5) }
       v.blk.safety.apart[14] = some 5 ∧ v.blk.pairApart 14 = true ∧ v.blk.up < 5 + 1 * 10000000 ∧
         5 + 1 * 10000000 ≤ ({ v.blk with up := 10000005 }).up) ∧
      (let v : State := s fun x => { x with b.exchAt := some 7 }
       v.blk.safety.b.exchAt = some 7 ∧ v.blk.up < 7 + 1000000 ∧
         ∀ t ∈ v.blk.safety.b.exchAt, t + 1000000 ≤ ({ v.blk with up := 1000007 }).up) ∧
      (∀ t ∈ (s id).blk.safety.a.exchAt, t + 1000000 ≤ (s id).blk.up) ∧
      (∃ z ∈ (s id).blk.safSect.souts, z.pair = (7 : Fin 8).1 ∧ z.test = true) := by
  intro s; and_intros <;> decide

theorem wit_safetyStops :
    let z (demand removed auto : Bool) : Stop := ⟨.func 31, [], 0x80, true, 1, 0, 0, 0, [], removed, auto, demand⟩
    let s (sdi : Nat) (d r a : Bool) : State := sf sdi sdi 7 fun x => { x with a.stops := [z d r a], raw := sdi }
    (s 1 true true true).blk.safety.a.stops.Pairwise (·.src ≠ ·.src) ∧ (s 1 true true true).blk.demands 1 0 = false ∧
      (s 0 true true true).blk.demands 0 0 = true ∧ (z true true true).src = .func 31 ∧ (z true true true).ss1 = true ∧
      (z true true true).t0 + (z true true true).ss1T * 1000000 ≤ ({ (s 1 true true true).blk with up := 1000000 }).up ∧ bit (z true true true).sout 7 = true := by
  intro z s; and_intros <;> decide

/-- Lockout resets: of 100 ms and 5 s, too short, too far apart, with an input demanding, refused by an unlock. -/
theorem wit_lockoutReset :
    let s (sdi phase : Nat) (f : Safety → Safety) : State := sf sdi sdi phase fun x => f { x with raw := sdi }
    let demand (s : State) : Bool := (List.range 16).any fun k => s.blk.reads (s.blk.filterSdi s.blk.safety.a.sdi) k
    demand (s 0xC001 7 id) = false ∧ demand (s 0xC000 7 id) = true ∧ (s 0xC001 7 id).blk.trust.writeUnlock = false ∧
      (s 0xC001 7 fun x => { x with a.fault := 4 }).blk.safety.flock = true ∧ (s 0xC001 7 id).blk.safety.flock = false ∧
      ((List.finRange 16).any fun k => (s 0xC001 7 id).blk.safety.inputFault k || (s 0xC001 7 id).blk.safety.disc[k] == .raised ||
        (s 0xC001 7 id).blk.safety.disc[k] == .bothDemand) = false ∧
      (s 0xC001 7 fun x => { x with faultNow := x.faultNow.set 3 1 }).blk.safety.inputFault 0 = true ∧
      min 100 120 = 100 ∧ max 100 120 ≤ 100 + 20 ∧ min 5000 5000 = 5000 ∧ (s 0xC001 6 id).blk.get DEV_BOOT_PHASE = 6 := by
  intro s demand; and_intros <;> decide

theorem wit_selfTests : (st id).blk.boot.step4 = false ∧
    (st fun b => { b.set DEV_BOOT_PHASE 3 with boot := { b.boot with step4 := true } }).blk.boot.step4 = true ∧
    (st fun b => { b.set DEV_BOOT_PHASE 3 with boot := { b.boot with step4 := true } }).blk.get DEV_BOOT_PHASE = 3 ∧
    (st id).blk.get PTN_STAT_ROLE ≠ 3 := by
  and_intros <;> decide

/-! ### Scorepad -/

theorem wit_scorepad :
    let e : ScpEvent := ⟨5, 0, false, false, false, false, 0, 0, 0, 0, 0, 1, 2, 0, 0⟩
    let s (f : ScpUnit → ScpUnit) : State := st fun b => { b.off SCP_STAT_FD_DOWN with scp := f b.scp, boot := { b.boot with released := true } }
    (s id).blk.scp.queue = [] ∧ (s id).blk.scp.newest = none ∧ (s fun x => { x with newest := some (0, e) }).blk.scp.newest = some (0, e) ∧
      e.same ((s id).blk.stampEvent 5 0 1 2 false false) = true ∧ e.same ((s id).blk.stampEvent 5 0 1 3 false false) = false ∧
      (s id).blk.flag SCP_STAT_FD_DOWN = false ∧ (s id).blk.field.padOff = false ∧ (st fun b => b.on SCP_STAT_FD_DOWN).blk.flag SCP_STAT_FD_DOWN = true ∧
      (s fun x => { x with repDirty := true }).blk.scp.repDirty = true ∧ slotSeq (s id).nv.pad (slotOf 0) = 0 ∧ slotSeq (s id).nv.pad (slotOf 1) ≠ 1 ∧
      (s id).blk.scp.lostSince = 0 ∧ (s id).blk.boot.released = true ∧ (st id).blk.boot.released = false ∧ (s id).writes 2 aSCP_HW_CMD 0xF000 ∧
      (s id).writes 2 aSCP_HW_CMD 0xEFFF ∧ (s fun x => { x with lastHost := some 0 }).blk.scp.lastHost = some 0 ∧
      ({ (s id).blk with up := 999999 }).up < 0 + 1000000 ∧ ¬ ({ (s id).blk with up := 1000000 }).up < 0 + 1000000 ∧
      (s fun x => { x with wroteAt := some 0 }).blk.scp.wroteAt = some 0 ∧ ({ (s id).blk with up := 19999 }).up < 0 + 20000 ∧
      0 + 20000 ≤ ({ (s id).blk with up := 20000 }).up ∧ (s id).blk.scp.wroteAt = none ∧
      (s id).writes 2 aSCP_RD_CTL 1 ∧ (s fun x => { x with readSeq := some 0 }).blk.scp.readSeq = some 0 := by
  intro e s; unfold State.writes; and_intros <;> decide

/-- A slot sealed with the CRC-32 of its first 52 bytes, and a blank one. -/
theorem wit_slots : slotValid (Memory.writeBytes [] 60 (bytesBE 4 (crc32 (List.replicate 52 0)))) 0 = true ∧ slotValid [] 0 = false := by decide +kernel

theorem wit_queueFull (e : ScpEvent) : (List.replicate 255 e ++ [e]).length = 256 := by
  rw [List.length_append, List.length_replicate]; rfl

/-! ### SegmentControl -/

theorem wit_segmentControl :
    let s (n : Nat) (f : Seg → Seg) : State := sg7 n fun b => (b.set DEV_ROUND 7).modSg 7 f
    (s 0 id).blk.flag PTN_STAT_PAIRED = false ∧ (s 0 id).blk.segUsed 7 = true ∧ (s 0 id).blk.flag (SEG_STAT_SPLIT 7) = false ∧
      (s 0 id).blk.flag (SEG_STAT_OPEN 7) = false ∧ (s 0 id).blk.flag (SEG_STAT_CLOSING 7) = false ∧ (s 0 id).writes 2 (aSEG_CTL 7) 1 ∧
      (s 6 id).writes 2 (aSEG_CTL 7) 2 ∧ (s 6 id).writes 2 (aSEG_CTL 7) (BitVec.ofNat 32 (0x80 + 7 * 2 ^ 4)) ∧
      (s 6 id).writes 2 (aSEG_CTL 7) (BitVec.ofNat 32 (0x80 + 0 * 2 ^ 4)) ∧ (s 0 id).blk.get (SEG_STAT_STATE 7) = 0 ∧
      (s 6 id).blk.get (SEG_STAT_STATE 7) = 6 ∧ ((s 6 id).blk.sg 7).switchAt = none ∧ ((s 6 id).blk.sg 7).want = none ∧
      ((s 6 fun x => { x with switchAt := some 9 }).blk.sg 7).switchAt.isSome = true ∧ (s 6 id).blk.get (SEG_STAT_CONTRACT 7) = 0 ∧
      (s 2 id).blk.get (SEG_STAT_STATE 7) = 2 ∧ (s 5 id).blk.get (SEG_STAT_STATE 7) = 5 ∧ (s 5 fun x => { x with sr := 256 }).blk.segDue 7 = true ∧
      ((s 5 fun x => { x with sr := 256 }).blk.sg 7).sr = 256 := by
  intro s; unfold State.writes; and_intros <;> decide

/-! ### SegmentLinks -/

theorem wit_links :
    let s (f : Block → Block) : State := dt (segDeck true) f
    let locked (f : Block → Block) : State := s fun b => f { b with ports := Vector.replicate 9 (some 0) }
    (s id).blk.ports[8] = none ∧ (s id).blk.ports[1] = none ∧ (s id).blk.flag PTN_STAT_LINK = false ∧
      (s fun b => b.on (SEG_STAT_OPEN 0)).blk.flag (SEG_STAT_OPEN 0) = true ∧ (s id).blk.flag (SEG_STAT_OPEN 0) = false ∧
      (s id).blk.flag (SEG_STAT_SPLIT 0) = false ∧ (s fun b => b.on (SEG_STAT_SPLIT 0)).blk.flag (SEG_STAT_SPLIT 0) = true ∧
      (locked id).blk.ports[8].isSome = true ∧ (locked id).blk.ports[1].isSome = true ∧
      (locked fun b => b.on PTN_STAT_LINK).blk.flag PTN_STAT_LINK = true ∧ (s id).blk.segRing 0 = true ∧ (s id).blk.segRing 6 = false ∧
      (s fun b => b.set (SEG_STAT_STATE 0) 6).blk.get (SEG_STAT_STATE 0) = 6 ∧
      ((s fun b => b.modSg 0 fun x => { x with closeAt := some 1 }).blk.sg 0).closeAt = some ((s id).blk.round + 1) := by
  intro s locked; and_intros <;> decide

/-- A break notice of a node of ring 0, tagged under its session key. -/
theorem wit_breakNotice :
    let ks : BitVec 128 := 1
    let s : State := dt { segDeck true with turns := [⟨0, 0, 9, 63, 1, 4⟩] } fun b => ((b.set (SEG_STAT_STATE 0) 6).set DEV_ROUND 5).modSn 0 63 fun n =>
      { n with session := true, ks }
    s.blk.segRing 0 = true ∧ s.blk.get (SEG_STAT_STATE 0) = 6 ∧ s.blk.flag (SEG_STAT_SPLIT 0) = false ∧ s.blk.noticeOk 0 ⟨true, []⟩ = false ∧
      s.blk.noticeOk 0 (wireFrame 0 5 2 9 [] (wireTag ks true 0 0 5 2 9 [])) = true := by
  intro ks s
  refine ⟨by decide, by decide, by decide, by decide, ?_⟩
  obtain ⟨hc, -, -, -, hi, -, hg⟩ := wireFrame_reads (p := 0) (round := 5) (type := 2) (turn := 9) (pay := []) (wireTag ks true 0 0 5 2 9 [])
    (by omega) (by omega) (by omega) rfl (by decide)
  have ho : s.blk.order 0 (s.blk.get (SEG_STAT_CONTRACT 0)) = [⟨0, 0, 9, 63, 1, 4⟩] := by decide
  have hn : (s.blk.sn 0 63).session = true ∧ (s.blk.sn 0 63).ks = ks := ⟨rfl, rfl⟩
  have hr : s.blk.round = 5 := by decide
  have ht : wireTag ks true 0 0 5 2 9 [] % 2 ^ 32 = wireTag ks true 0 0 5 2 9 [] := Nat.mod_eq_of_lt (wireTag_lt ..)
  simp only [Block.noticeOk, ho, List.any_cons, List.any_nil, hn.1, hn.2, hr, hc, hi, hg, ht]
  simp [wireTag]

/-! ### SegmentNodes -/

theorem wit_nodes :
    let s (st : Nat) (f : SegNode → SegNode) (g : Seg → Seg) : State := sg7 st fun b =>
      (((b.set DEV_ROUND 7).set (SEG_NSTAT_STATE 7 63) 1).modSg 7 g).modSn 7 63 f
    let k (f : Kitty) : State := s 6 id fun x => { x with kitty := [f] }
    ((s 5 (fun n => { n with auth := .sent1 4 }) id).blk.sn 7 63).auth = .sent1 4 ∧ (s 5 id id).blk.segDue 7 = true ∧
      ((s 5 (fun n => { n with auth := .sent3 12 }) id).blk.sn 7 63).auth = .sent3 12 ∧ (s 5 id id).blk.flag PTN_STAT_PAIRED = false ∧
      ((s 5 id id).blk.sg 7).kitty = [] ∧ (s 6 id id).blk.hasTurn 7 63 = true ∧ (s 6 id id).blk.hasTurn 7 0 = false ∧
      ((s 6 (fun n => { n with session := true }) fun x => { x with switchAt := some 9 }).blk.sn 7 63).session = true ∧
      ((s 6 (fun n => { n with session := true }) fun x => { x with switchAt := some 9 }).blk.sg 7).switchAt.isSome = true ∧
      (s 6 id id).blk.get (SEG_STAT_NEXT 7) = 0 ∧ (s 5 id id).blk.get (SEG_NSTAT_STATE 7 63) = 1 ∧ ((s 5 id id).blk.sn 7 63).session = false ∧
      0 < (((s 6 id id).blk.contract 7 ((s 6 id id).blk.get (SEG_STAT_CONTRACT 7))).map (·.kcount)).getD 0 ∧
      (s 6 id id).blk.get (SEG_STAT_STATE 7) = 6 ∧ (s 5 id id).blk.get (SEG_STAT_STATE 7) = 5 ∧ ((k ⟨0, 63, 8⟩).blk.sg 7).kitty = [⟨0, 63, 8⟩] := by
  intro s k; and_intros <;> decide

/-- A frame of an exchange before Run, tagged under `k` or off by `e`. -/
theorem wit_authForms {st : Nat} (h : st ≠ 6) (b : Block) (hb : b.get (SEG_STAT_STATE 7) = st) (k : BitVec 128) (msg : Nat) (hm : msg < 256) (a b' : List Byte)
    (ha : a.length = 3) (hl : b'.length = 28) (e : Nat) (he : e < 2) :
    let f := nodeFrame b 7 k 4 63 (bytesBE 1 msg ++ a ++ b') e
    b.authForm 7 63 f msg = true ∧ b.mgmtTag 7 f k = decide (e = 0) ∧ ∀ j n, 4 ≤ j → j + n ≤ 32 → f.pay j n = ofBytesBE ((b'.drop (j - 4)).take n) := by
  intro f
  have l : (bytesBE 1 msg ++ a).length = 4 := by simp [ha]
  obtain ⟨hf, hg, hq⟩ := nodeFrame_valid b 7 k (type := 4) (turn := 63) (pay := bytesBE 1 msg ++ a ++ b') (msg := msg) (e := e) (by omega) (by omega)
    (by simp [ha, hl]) (by simp [bytesBE]; omega) he
  refine ⟨?_, hg, fun j n h4 hj => ?_⟩
  · simp only [Block.authForm, Block.mgmtHead, hb, if_neg h, Option.any_some]; exact hf
  · rw [show f.pay j n = _ from hq j n hj, show j = 4 + (j - 4) by omega, ← List.drop_drop, List.drop_left' l]
    simp

/-- The state in which a node is answered, its part of the exchange `a`. -/
def sgAuth (a : AuthStage) (claimed : Bool) : State := sg7 5 fun b =>
  ((b.set DEV_ROUND 7).set (SEG_NSTAT_STATE 7 63) 1).modSn 7 63 fun n => { n with auth := a, claimed }

/-- AUTH2 with the proof the head computes, with another one, under a wrong tag, and a frame with a code error. -/
theorem wit_auth2 : let s := sgAuth (.sent1 4) false
    let b := s.blk
    let nh := (b.sn 7 63).nh
    let ks := b.sessionKey 7 (b.nodeSerial 7 63) (b.get PTN_EPOCH) nh 0
    let proof := cmac12 ks (ascii "NPRF" ++ bytesBE 8 (b.nodeSerial 7 63) ++ bytesBE 1 7 ++ bytesBE 1 63 ++
      bytesBE 2 (b.get (SEG_NDLY_DOWN 7 63)) ++ bytesBE 2 (b.get (SEG_NDLY_UP 7 63)) ++ bytesBE 16 nh.toNat ++ bytesBE 16 0)
    let f (p e : Nat) := nodeFrame b 7 ks 4 63 (bytesBE 1 0x92 ++ [0, 0, 0] ++ (bytesBE 16 0 ++ bytesBE 12 p)) e
    b.authForm 7 63 ⟨true, []⟩ 0x92 = false ∧
      (b.authForm 7 63 (f proof.toNat 0) 0x92 = true ∧ b.mgmtTag 7 (f proof.toNat 0) ks = true ∧ (f proof.toNat 0).pay 4 16 = 0 ∧
        (f proof.toNat 0).pay 20 12 = proof.toNat) ∧
      (b.mgmtTag 7 (f (proof.toNat + 1) 0) ks = true ∧ (f (proof.toNat + 1) 0).pay 4 16 = 0 ∧ proof.toNat ≠ (f (proof.toNat + 1) 0).pay 20 12) ∧
      b.authForm 7 63 (f proof.toNat 1) 0x92 = true ∧ b.mgmtTag 7 (f proof.toNat 1) ks = false := by
  intro s b nh ks proof f
  have hb : b.get (SEG_STAT_STATE 7) = 5 := by decide
  have go (p e : Nat) (he : e < 2) := wit_authForms (st := 5) (by decide) b hb ks 0x92 (by omega) [0, 0, 0] (bytesBE 16 0 ++ bytesBE 12 p) rfl
    (by simp) e he
  have h16 (p e : Nat) (he : e < 2) : (f p e).pay 4 16 = 0 := by
    rw [show (f p e).pay 4 16 = _ from (go p e he).2.2 4 16 (by omega) (by omega)]
    rw [List.drop_zero, List.take_left' (by simp)]; decide
  have h12 (p e : Nat) (he : e < 2) : (f p e).pay 20 12 = p % 2 ^ 96 := by
    rw [show (f p e).pay 20 12 = _ from (go p e he).2.2 20 12 (by omega) (by omega), List.drop_left' (by simp),
      List.take_of_length_le (by simp), ofBytesBE_bytesBE]
    norm_num
  have l : proof.toNat < 2 ^ 96 := proof.isLt
  refine ⟨by decide, ⟨(go _ 0 (by omega)).1, (go _ 0 (by omega)).2.1, h16 _ _ (by omega), ?_⟩, ⟨(go _ 0 (by omega)).2.1, h16 _ _ (by omega), ?_⟩,
    (go _ 1 (by omega)).1, (go _ 1 (by omega)).2.1⟩
  · rw [h12 _ _ (by omega), Nat.mod_eq_of_lt l]
  · rw [h12 _ _ (by omega)]; omega

/-- AUTH4 with the confirmation the head computes, with another one and under a wrong tag, and AUTH4_NAK. -/
theorem wit_auth4 : let s := sgAuth (.sent3 12) true
    let b := s.blk
    let n := b.sn 7 63
    let confirm := cmac12 n.ks (ascii "NCNF" ++ bytesBE 12 n.d.toNat ++ bytesBE 16 n.nh.toNat)
    let f (msg p e : Nat) := nodeFrame b 7 n.ks 4 63 (bytesBE 1 msg ++ [0, 0, 0] ++ (bytesBE 12 p ++ bytesBE 16 0)) e
    b.authForm 7 63 ⟨true, []⟩ 0x94 = false ∧ b.authForm 7 63 ⟨true, []⟩ 0x95 = false ∧
      (b.authForm 7 63 (f 0x94 confirm.toNat 0) 0x94 = true ∧ b.mgmtTag 7 (f 0x94 confirm.toNat 0) n.ks = true ∧
        (f 0x94 confirm.toNat 0).pay 4 12 = confirm.toNat) ∧
      (b.authForm 7 63 (f 0x94 (confirm.toNat + 1) 0) 0x94 = true ∧ b.mgmtTag 7 (f 0x94 (confirm.toNat + 1) 0) n.ks = true ∧
        (f 0x94 (confirm.toNat + 1) 0).pay 4 12 ≠ confirm.toNat) ∧
      (b.authForm 7 63 (f 0x94 0 1) 0x94 = true ∧ b.mgmtTag 7 (f 0x94 0 1) n.ks = false) ∧
      (b.authForm 7 63 (f 0x95 0 1) 0x95 = true ∧ b.mgmtTag 7 (f 0x95 0 1) n.ks = false) ∧
      (b.authForm 7 63 (f 0x95 0 0) 0x95 = true ∧ b.mgmtTag 7 (f 0x95 0 0) n.ks = true) ∧ n.claimed = true ∧ n.auth = .sent3 12 := by
  intro s b n confirm f
  have hb : b.get (SEG_STAT_STATE 7) = 5 := by decide
  have go (msg p e : Nat) (hm : msg < 256) (he : e < 2) := wit_authForms (st := 5) (by decide) b hb n.ks msg hm [0, 0, 0]
    (bytesBE 12 p ++ bytesBE 16 0) rfl (by simp) e he
  have h12 (p : Nat) : (f 0x94 p 0).pay 4 12 = p % 2 ^ 96 := by
    rw [show (f 0x94 p 0).pay 4 12 = _ from (go 0x94 p 0 (by omega) (by omega)).2.2 4 12 (by omega) (by omega), List.drop_zero,
      List.take_left' (by simp), ofBytesBE_bytesBE]
    norm_num
  have l : confirm.toNat < 2 ^ 96 := confirm.isLt
  have ok (msg p e : Nat) (hm : msg < 256) (he : e < 2) := And.intro (go msg p e hm he).1 (go msg p e hm he).2.1
  refine ⟨by decide, by decide, ⟨(ok _ _ 0 (by omega) (by omega)).1, (ok _ _ 0 (by omega) (by omega)).2, ?_⟩,
    ⟨(ok _ _ 0 (by omega) (by omega)).1, (ok _ _ 0 (by omega) (by omega)).2, ?_⟩, ok _ _ 1 (by omega) (by omega), ok _ _ 1 (by omega) (by omega),
    ok _ _ 0 (by omega) (by omega), rfl, rfl⟩
  · rw [h12, Nat.mod_eq_of_lt l]
  · rw [h12]; omega

/-- In Run, an exchange in kitty window 0. -/
theorem wit_auth4Run : let k : BitVec 128 := 1
    let s : State := sg7 6 fun b => ((b.set DEV_ROUND 7).modSg 7 fun x => { x with kitty := [⟨0, 63, 0⟩] }).modSn 7 63 fun n =>
      { n with auth := .sent3 0, claimed := true, ks := k }
    ∃ f, s.blk.authForm 7 63 f 0x94 = true ∧ s.blk.mgmtTag 7 f k = true ∧
      f.pay 4 12 = (cmac12 k (ascii "NCNF" ++ bytesBE 12 (s.blk.sn 7 63).d.toNat ++ bytesBE 16 (s.blk.sn 7 63).nh.toNat)).toNat := by
  intro k s
  have hb : s.blk.get (SEG_STAT_STATE 7) = 6 := by decide
  have hk : (s.blk.sg 7).kitty.find? (·.pos = 63) = some ⟨0, 63, 0⟩ := by decide
  obtain ⟨hf, hg, hq⟩ := nodeFrame_valid s.blk 7 k (type := 4 + Config.mgmtType 0 % 4) (turn := Config.kittyTurn 0 63 % 2 ^ 16) (msg := 0x94) (e := 0)
    (pay := bytesBE 1 0x94 ++ [0, 0, 0] ++ (bytesBE 12 (cmac12 k (ascii "NCNF" ++ bytesBE 12 (s.blk.sn 7 63).d.toNat ++
      bytesBE 16 (s.blk.sn 7 63).nh.toNat)).toNat ++ bytesBE 16 0)) (by omega) (by omega) (by simp) (by simp [bytesBE]) (by omega)
  refine ⟨_, ?_, hg, ?_⟩
  · simp only [Block.authForm, Block.mgmtHead, hb, if_pos, hk, Option.map_some, Option.any_some]; exact hf
  · rw [hq 4 12 (by omega), List.drop_left' (by simp), List.take_left' (by simp), ofBytesBE_bytesBE]
    exact Nat.mod_eq_of_lt (by have := (cmac12 k (ascii "NCNF" ++ bytesBE 12 (s.blk.sn 7 63).d.toNat ++
      bytesBE 16 (s.blk.sn 7 63).nh.toNat)).isLt; norm_num at this ⊢; exact this)

/-- Claims in Settle and in Run, and a NACK of contract 0. -/
theorem wit_claims :
    let k : BitVec 128 := 1
    let s (st : Nat) : State := sg7 st fun b => ((b.set DEV_ROUND 7).set (SEG_NSTAT_STATE 7 63) 1).modSn 7 63 fun n => { n with session := true, ks := k }
    let pay (msg : Byte) : List Byte := msg :: 63 :: List.replicate 30 0
    let own := nodeFrame (s 5).blk 7 0 4 63 (pay 0x83) 0
    let kitty := nodeFrame (s 6).blk 7 0 (4 + Config.mgmtType 0 % 4) (Config.kittyTurn 0 63 % 2 ^ 16) (pay 0x83) 0
    let nack := nodeFrame (s 6).blk 7 k (4 + Config.mgmtType 4 % 4) 0 (0x96 :: List.replicate 31 0) 0
    (own.pay 1 1 = 63 ∧ (s 5).blk.claimOk 7 63 own (4, 63) = true) ∧
      (kitty.pay 1 1 = 63 ∧ (s 6).blk.claimOk 7 63 kitty (4 + Config.mgmtType 0 % 4, Config.kittyTurn 0 63 % 2 ^ 16) = true) ∧
      (s 6).blk.nackOk 7 63 nack = true ∧ (s 5).blk.claimOk 7 63 ⟨true, []⟩ (4, 63) = false := by
  intro k s pay own kitty nack
  have ser : ∀ st : Fin 8, (s st).blk.nodeSerial 7 63 = 0 := by decide
  have claim (st : Fin 8) (type turn : Nat) (ht : type < 8) (hu : turn < 2 ^ 16) :
      let f := nodeFrame (s st).blk 7 0 type turn (pay 0x83) 0
      f.pay 1 1 = 63 ∧ (s st).blk.claimOk 7 63 f (type, turn) = true := by
    intro f
    obtain ⟨hf, hg, hq⟩ := nodeFrame_valid (s st).blk 7 0 (type := type) (turn := turn) (msg := 0x83) (e := 0) (pay := pay 0x83) ht hu rfl rfl (by omega)
    have h8 : f.pay 8 8 = 0 := (hq 8 8 (by omega)).trans (by decide)
    refine ⟨(hq 1 1 (by omega)).trans (by decide), ?_⟩
    simp only [Block.claimOk, show (s st).blk.mgmtForm 7 f 0x83 8 (type, turn) = true from hf, show (s st).blk.mgmtTag 7 f 0 = _ from hg, h8, ser]
    rfl
  refine ⟨claim 5 4 63 (by omega) (by omega), claim 6 _ _ (by omega) (by omega), ?_, by decide⟩
  obtain ⟨hf, hg, hq⟩ := nodeFrame_valid (s 6).blk 7 k (type := 4 + Config.mgmtType 4 % 4) (turn := 0) (msg := 0x96) (e := 0)
    (pay := 0x96 :: List.replicate 31 0) (by omega) (by omega) rfl rfl (by omega)
  have h1 : nack.pay 1 1 = 0 := (hq 1 1 (by omega)).trans (by decide)
  have ht : (s 6).blk.turnOf 7 ((s 6).blk.get (SEG_STAT_CONTRACT 7)) 63 = some ⟨7, 0, 0, 63, 1, 4⟩ := by decide
  have hk : ((s 6).blk.sn 7 63).ks = k := rfl
  have h6 : (s 6).blk.get (SEG_STAT_STATE 7) = 6 := by decide
  have hn : (s 6).blk.get (SEG_STAT_NEXT 7) = 0 := by decide
  simp only [Block.nackOk, h6, if_pos, ht, Option.any_some, hk, h1, hn, show (s 6).blk.mgmtTag 7 nack k = _ from hg, decide_true, Bool.and_true]
  exact hf

/-! ### SegmentStart -/

theorem wit_segmentStart :
    let s (st : Nat) (f : Seg → Seg) : State := sg7 st fun b => (b.set DEV_ROUND 7).modSg 7 fun x => f { x with fresh := false }
    let w (pos missed : Nat) : Walk := ⟨pos, false, missed, false⟩
    let far (n : Nat) : State := sg7 4 fun b => (b.set (SEG_NDLY_DOWN 7 62) n).modSg 7 fun x => { x with walk := some (w 63 0) }
    (s 1 fun x => { x with listen := 3, k := 2 }).blk.get (SEG_STAT_STATE 7) = 1 ∧
      ((s 1 fun x => { x with listen := 3, k := 2 }).blk.sg 7).listen = 3 ∧ ((s 1 fun x => { x with listen := 3, k := 2 }).blk.sg 7).k + 1 = 3 ∧
      (s 1 id).blk.segDue 7 = true ∧ (s 1 id).blk.flag PTN_STAT_PAIRED = false ∧ ((s 1 id).blk.sg 7).fresh = false ∧
      (s 2 id).blk.get (SEG_STAT_STATE 7) = 2 ∧ ((s 2 id).blk.sg 7).call = none ∧ (s 2 id).blk.segDue 7 = true ∧
      (s 3 id).blk.get (SEG_STAT_STATE 7) = 3 ∧ (s 3 id).blk.segDue 7 = true ∧ (s 4 id).blk.get (SEG_STAT_STATE 7) = 4 ∧ (s 4 id).blk.segDue 7 = true ∧
      ((s 4 fun x => { x with walk := some (w 0 1) }).blk.sg 7).walk = some (w 0 1) ∧ ((far 60000).blk.sg 7).walk = some (w 63 0) ∧
      (0 : Int) ≤ (((3200 * 4 : Nat) - (0 : Nat) - 12000 : Int) + 1) / 2 ∧ ((((12800 : Nat) - (0 : Nat) - 12000 : Int) + 1) / 2) ≤ 60000 ∧
      60000 < ((((1 : Nat) : Int) * 1000000 - 12000 + 1) / 2) ∧ ((s 4 id).blk.sg 7).lead = none ∧
      60000 < (((far 60000).blk.get (SEG_NDLY_DOWN 7 62) : Nat) : Int) + (far 0).blk.get (SEG_NLAT_LD 7 62) +
        (((3200 * 4 : Nat) - (0 : Nat) - 12000 : Int) - ((far 0).blk.sn 7 62).rtt - 0 - 0 + 1) / 2 := by
  intro s w far; and_intros <;> decide

/-- CALL and ENUM_R at the ends of the walk window, the answers of the nearest and of the farthest node that is placed, and of one beyond. -/
theorem wit_walkFrames (b : Block) :
    (∀ msg < 256, ∀ arrival, 2500 ≤ arrival → arrival ≤ 50000 → ∃ f, b.walkFrame 7 arrival f msg = true) ∧ b.walkFrame 7 3000 ⟨true, []⟩ 0x81 = false ∧
      (0 : Int) ≤ ((((3000 * 4 : Nat) : Int) - (0 : Nat) - 12000 + 1) / 2) ∧ ((((33000 * 4 : Nat) : Int) - (0 : Nat) - 12000 + 1) / 2) ≤ 60000 ∧
      60000 < ((((33001 * 4 : Nat) : Int) - (0 : Nat) - 12000 + 1) / 2) := by
  refine ⟨fun msg hm a h1 h2 => ?_, rfl, by decide, by decide, by decide⟩
  obtain ⟨hf, hg, -⟩ := nodeFrame_valid b 7 0 (type := 5) (turn := 0xFFFE) (msg := msg) (e := 0) (pay := bytesBE 1 msg ++ List.replicate 31 0)
    (by omega) (by omega) (by simp) (by simp [bytesBE]; omega) (by omega)
  refine ⟨nodeFrame b 7 0 5 0xFFFE (bytesBE 1 msg ++ List.replicate 31 0) 0, ?_⟩
  simp only [Block.walkFrame, hf, hg, Bool.and_true, decide_true, decide_eq_true_eq]
  omega

/-! ### SetpointFlows -/

/-- Axes 255 and 254 share the turn of node 63 in contract 0; contract 1 has no turn of theirs. Flow 15 leaves by window 15. -/
def flowDeck : Deck :=
  { segDeck false with
    axes := [axisRec 255 1, { axisRec 254 1 with sub := 1 }]
    turns := [⟨7, 0, 0, 63, 2, 4⟩, ⟨7, 1, 0, 0, 1, 4⟩], flows := [{ flow := 15, window := 15 }] }

theorem wit_setpoints :
    let s (f : Block → Block) : State := dt flowDeck fun b =>
      f (((b.set (SEG_STAT_NEXT 7) 1).set DIS_CFG_FLOW_TO 1).modSg 7 fun x => { x with switchAt := some 1 })
    let slot (x : SlotState) (rel : Nat) : State := s fun b => b.modAx 255 fun a => { a with cur := { a.cur with st := x, rel } }
    let two : State := s fun b => (b.modAx 255 fun a => { a with cur := { a.cur with st := .waiting } }).modAx 254 fun a =>
      { a with cur := { a.cur with st := .complete } }
    let r : FlowResult := ⟨1, 1023, 0, [1, 2], false, false⟩
    let fl (l : List FlowResult) : State := s fun b => { b.modFlow 15 fun x => { x with results := l } with up := 1000 }
    let at' (x : SlotState) (rel : Nat) : State := (slot x rel).onBlk ({ · with up := 1000000 })
    let lone : State := dt { flowDeck with turns := [⟨7, 0, 0, 63, 1, 0⟩], axes := [axisRec 255 1] } fun b => { b.modAx 255 fun a =>
      { a with cur := { a.cur with st := .released } } with up := 1000000 }
    (at' .released 0).blk.axisRec 255 = some (axisRec 255 1) ∧ (at' .released 0).blk.fetchDue 255 = true ∧ (slot .released 0).blk.fetchDue 255 = false ∧
      (((at' .released 0).blk.ax 255).cur.rel : Int) ≤ (at' .released 0).blk.fetchTime 255 7 false ∧
      ¬ (((at' .released 1000000).blk.ax 255).cur.rel : Int) ≤ (at' .released 1000000).blk.fetchTime 255 7 false ∧
      (at' .released 1000000).blk.fetchDue 255 = true ∧ (at' .waiting 0).blk.fetchDue 255 = true ∧
      (two.onBlk ({ · with up := 1000000 })).blk.fetchDue 255 = true ∧ (at' .released 0).blk.turnOf 7 0 63 = some ⟨7, 0, 0, 63, 2, 4⟩ ∧
      lone.blk.turnOf 7 0 63 = some ⟨7, 0, 0, 63, 1, 0⟩ ∧ lone.blk.fetchDue 255 = true ∧ lone.blk.axisAt 7 63 0 = some 255 ∧
      ((slot .none 0).blk.ax 255).cur.st = .none ∧ ((slot .released 0).blk.ax 255).cur.st = .released ∧ ((slot .released 0).blk.ax 255).cur.unfetched = true ∧
      ((slot .waiting 0).blk.ax 255).cur.st = .waiting ∧ (two.blk.ax 254).cur.st = .complete ∧
      two.blk.slotSeq 7 = [(255, false), (254, false)] ∧ ((fl []).blk.flow 15).results = [] ∧ ((fl [r]).blk.flow 15).results = [r] ∧
      (fl [r]).blk.up = 1000 ∧ r.opened + (fl [r]).blk.flowTo = 1000 ∧ (fl [{ r with opened := 1 }]).blk.up < 1 + (fl []).blk.flowTo ∧
      ((fl [r]).blk.flow 15).out = [] ∧ ((fl [r, { r with closed := true }]).blk.flow 15).results = [r, { r with closed := true }] ∧
      (fl [r]).blk.flowWindow 15 = some 15 ∧ (fl [r]).blk.host.fw[15].length + 1 + 2 ≤ fwDepth 15 := by
  intro s slot two r fl at' lone; and_intros <;> decide

/-! ### SwitchOver -/

/-- The pair's deck with ring 0, whose axis 255 it commands. -/
def ringDeck : Deck := { pairDeck with
  segs := [⟨0, 1, 0, 2, 2⟩], axes := [{ axisRec 255 1 with segment := 0 }], graphs := [⟨1, 0, 0, 0, 0⟩]
  contracts := [⟨0, 0, 1, 1, 4⟩], turns := [⟨0, 0, 0, 63, 1, 4⟩] }

/-- What a lead block of round 5 says, of epoch `e`. -/
def leadOf (e : Nat) : Lead :=
  ⟨5, 1, 1, 2, 3, e, 0, 2, 4, 0, 0, 0, 0, 0, false, 0, ⟨0, 0, 0, 0, 0, 0⟩, ⟨0, 0, 0, 0, 0, 0⟩, true, []⟩

/-- That lead block on segment 0, of emitting path 1, tagged under lead key 0 or off by `d`. -/
def leadFrame (e d : Nat) : Frame :=
  wireFrame 1 5 0 0xFFFF (leadOf e).payload (wireTag 0 false 0 1 5 0 0xFFFF (leadOf e).payload + d)

theorem wit_switchOver :
    let s (role : Nat) (f : Block → Block) : State := dt ringDeck fun b =>
      f ((((b.set PTN_STAT_ROLE role).on PTN_STAT_PAIRED).set PTN_PEER 2).set DEV_ROUND 5)
    let q (f : Partner → Partner) : State := s 2 fun b => { b with partner := f b.partner }
    (st id).blk.flag PTN_STAT_PAIRED = false ∧ (s 1 id).blk.flag PTN_STAT_PAIRED = true ∧ (s 1 id).blk.get PTN_STAT_ROLE = 1 ∧
      (s 2 id).blk.get PTN_STAT_ROLE = 2 ∧ (s 2 id).blk.partner.outA = none ∧ (s 2 id).blk.partner.outB = none ∧ (s 2 id).blk.partner.missB = 0 ∧
      (q fun p => { p with outB := some (5, true) }).blk.partner.outB = some (5, true) ∧ (q id).blk.round = 5 ∧
      (q fun p => { p with missA := 2, missB := 2 }).blk.partner.missA = 2 ∧ (q fun p => { p with missA := 2, missB := 2 }).blk.partner.missB = 2 ∧
      (q id).blk.partner.wasReady = false ∧ (q fun p => { p with wasReady := true }).blk.partner.wasReady = true ∧
      (s 1 fun b => b.on PTN_STAT_READY).blk.flag PTN_STAT_READY = true ∧ (s 1 id).blk.flag PTN_STAT_READY = false ∧
      (q fun p => { p with yieldAt := some 6 }).blk.partner.yieldAt = some ((q id).blk.round + 1) ∧ (q id).blk.partner.yieldAt = none ∧
      (q id).blk.segRing 0 = true ∧ (q id).blk.segUsed 0 = true ∧ (q id).blk.segUsed 7 = false ∧
      (s 2 fun b => b.set (SEG_STAT_STATE 0) 7).blk.get (SEG_STAT_STATE 0) = 7 ∧ (s 1 fun b => b.set (SEG_STAT_STATE 0) 6).blk.get (SEG_STAT_STATE 0) = 6 ∧
      (∃ r ∈ (s 2 id).blk.axisList, r.axis = 255 ∧ r.kind ≠ 3 ∧ r.segment ∈ [0, 2, 4, 6].filter (s 2 id).blk.segRing) ∧
      (s 2 fun b => b.set (SEG_STAT_STATE 0) 1).blk.get (SEG_STAT_STATE 0) = 1 ∧ (s 2 id).blk.get PTN_STAT_P = 0 ∧ (s 2 id).blk.get PTN_EPOCH = 0 ∧
      (s 2 id).blk.up ≤ (s 2 id).blk.roundAt + 8000 ∧ (s 2 fun b => { b with up := 8000 }).blk.up = (s 2 id).blk.roundAt + 8000 ∧
      (s 2 fun b => { b with roundAt := 1 }).blk.atBoundary = true ∧ (s 2 id).blk.atBoundary = false ∧ (s 2 fun b => b.on PTN_STAT_P).blk.get PTN_STAT_P = 1 ∧ laterThan 32 1 0 = true ∧
      laterThan 32 0 0 = false ∧ ((s 2 id).blk.axisRec 255).any (·.segment = 0) = true := by
  intro s q; and_intros <;> decide

/-- A lead block is valid under the key of the segment, and not where its tag is off; one with a code error is no lead block. -/
theorem wit_lead (e : Nat) (he : e < 2 ^ 32) :
    let s (n : Nat) : State := dt ringDeck fun b => ((b.set (SEG_STAT_STATE 0) n).set DEV_ROUND 5).modSg 0 fun x => { x with hasKl := true }
    Frame.leadForm ⟨true, []⟩ = false ∧ (leadFrame e 0).leadForm = true ∧ (leadFrame e 0).leadP = 1 ∧ (leadFrame e 0).leadEpoch = e ∧
      (leadFrame e 0).leadRound = 5 ∧ (∀ n : Fin 8, 6 ≤ n.1 → (s n).blk.leadOk 0 (leadFrame e 0) = true) ∧
      (∀ n : Fin 8, (s n).blk.leadOk 0 (leadFrame e 1) = false) ∧ (s 7).blk.round = 5 := by
  intro s
  have l : (leadOf e).payload.length = 80 := by simp [Lead.payload]
  have go (d : Nat) := wireFrame_reads (p := 1) (round := 5) (type := 0) (turn := 0xFFFF) (pay := (leadOf e).payload)
    (wireTag 0 false 0 1 5 0 0xFFFF (leadOf e).payload + d) (by omega) (by omega) (by omega) (by omega) (by omega)
  have form (d : Nat) : (leadFrame e d).leadForm = true := by
    obtain ⟨hc, -, hn, -, hi, -, -⟩ := go d
    simp only [Frame.leadForm, show (leadFrame e d).crcOk = true from hc, show (leadFrame e d).num 4 2 = _ from hn,
      show (leadFrame e d).isA 0 0xFFFF 20 _ = _ from hi .., l]
    rfl
  have rd (d : Nat) : (leadFrame e d).leadRound = 5 := by
    obtain ⟨-, -, -, -, -, hq, -⟩ := go d
    rw [Frame.leadRound, show (leadFrame e d).pay 0 6 = _ from hq 0 6 (by omega)]
    simp [Lead.payload, leadOf, bytesBE, ofBytesBE]
  have ep : (leadFrame e 0).leadEpoch = e := by
    obtain ⟨-, -, -, -, -, hq, -⟩ := go 0
    rw [Frame.leadEpoch, show (leadFrame e 0).pay 8 4 = _ from hq 8 4 (by omega)]
    have : ((leadOf e).payload.drop 8).take 4 = bytesBE 4 e := by simp [Lead.payload, leadOf, bytesBE]
    rw [this, ofBytesBE_bytesBE]; omega
  have tg (d : Nat) (hd : d < 2) : (leadFrame e d).tagged 0 false 0 5 = decide (d = 0) := by
    obtain ⟨-, -, -, -, -, -, hg⟩ := go d
    have lt := wireTag_lt 0 false 0 1 5 0 0xFFFF (leadOf e).payload
    rw [show (leadFrame e d).tagged 0 false 0 5 = _ from hg 0 false 0 5]
    congr 1
    apply propext
    show wireTag 0 false 0 1 5 0 0xFFFF (leadOf e).payload = _ ↔ _
    omega
  have kl : ∀ n : Fin 8, ((s n).blk.sg 0).kl = 0 ∧ ((s n).blk.sg 0).hasKl = true := by decide
  have sr : ∀ n : Fin 8, 6 ≤ n.1 → (s n).blk.segRound 0 % 2 ^ 16 = 5 := by decide
  refine ⟨by decide, form 0, (go 0).2.1, ep, rd 0, fun n hn => ?_, fun n => ?_, by decide⟩
  · simp only [Block.leadOk, form, (kl n).1, (kl n).2, rd, tg 0 (by omega), show (leadFrame e 0).num 4 2 = _ from (go 0).2.2.1, sr n hn]
    rfl
  · simp only [Block.leadOk, (kl n).1, (kl n).2, rd, tg 1 (by omega)]
    simp

/-! ### TaskWakes -/

theorem wit_wakes :
    let dsc (k w0 : Word) (f : Desc → Desc) : Desc := f { kindOf (k ||| w0) with words := (kindOf (k ||| w0)).words.set 2 31 }
    let s (x : Desc) (f : Block → Block) : State := dt (segDeck false) fun b => f { b.modDesc 1023 fun _ => x with up := 1000000 }
    let a (k : Word) : Desc := dsc k 0 fun x => { x with armed := true }
    let on (e : Nat) (f : Engine → Engine) (b : Block) : Block := b.modEng e f
    let cyc : Run := { task .code with inst := ⟨1021, false, false, 0, 0, 0⟩ }
    let bkg : Run := { task .code with inst := ⟨1022, false, false, 0, 0, 0⟩ }
    let run (b : Block) : Block := (on 31 fun x => { x with run := some cyc }) (b.modDesc 1021 fun _ => kindOf 3)
    let pre : State := s (a 3) fun b => (on 31 fun x => { x with run := some bkg }) (b.modDesc 1022 fun _ => kindOf 4)
    let full : State := s (a 3) fun b => (on 0 fun x => { x with run := some { cyc with inst := ⟨1020, false, false, 0, 0, 0⟩ } })
      ((on 31 fun x => { x with cq := List.replicate 8 ⟨1019, false, false, 0, 0, 0⟩ }) ((run b).set DIS_CFG_QMAX 8))
    let dl (w0 : Word) : Desc := dsc 4 w0 id
    (s (a 3) id).blk.waitOver 1023 = true ∧ ((s (a 3) id).onBlk ({ · with roundAt := 1000001 })).blk.waitOver 1023 = false ∧ (s (a 2) id).blk.waitOver 1023 = true ∧
      ((s (a 2) id).blk.sn ((s (a 2) id).blk.descSeg 1023) ((s (a 2) id).blk.descNode 1023)).first = false ∧
      (s (a 1) id).blk.roundAt * 10 + (s (a 1) id).blk.wakeAt 1023 ≤ (s (a 1) id).blk.up * 10 ∧ (s (a 2) id).blk.woken 1023 = false ∧ (a 3).armed = true ∧ (a 3).kind = 3 ∧ (a 2).kind = 2 ∧ (a 1).kind = 1 ∧
      ((s (a 2) fun b => b.modSn 0 0 fun n => { n with lastValid := some 0 }).blk.sn ((s (a 2) id).blk.descSeg 1023) ((s (a 2) id).blk.descNode 1023)).lastValid
        = some (s (a 2) id).blk.round ∧
      (s (a 3) fun b => b.modEng 31 fun x => { x with run := some (task .code) }).blk.live 1023 = true ∧ (s (a 3) id).blk.live 1023 = false ∧
      (s (a 3) run).blk.live 1023 = false ∧ (s (a 3) id).blk.inPool 31 = true ∧ ((s (a 3) run).blk.eng 31).run.isSome = true ∧
      (s (a 3) run).blk.runsBkg 31 = false ∧ ((s (a 3) run).blk.eng 31).cq.length < (s (a 3) run).blk.qmax ∧
      ((s (a 3) id).blk.eng 31).run = none ∧ ((s (a 3) id).blk.eng 31).cq = [] ∧ (pre.blk.eng 31).run = some bkg ∧ pre.blk.runsBkg 31 = true ∧
      (pre.blk.eng 31).held = none ∧ pre.blk.live 1023 = false ∧ full.blk.qmax ≤ (full.blk.eng 31).cq.length ∧ (a 3).pin = false ∧
      full.blk.bestEngine (full.blk.pool.filter (· ≠ 31)) = some 0 ∧ (full.blk.eng 0).run.isSome = true ∧ full.blk.live 1023 = false ∧ full.blk.runsBkg 0 = false ∧
      (s (dl 0) id).blk.boot.dealing = false ∧ ((s (dl 0) id).blk.used.filter fun k => ((s (dl 0) id).blk.desc k).kind = 4 && !((s (dl 0) id).blk.desc k).deleting) = [1023] ∧
      (dl 0).kick = false ∧ (dl 0).flowOf = 0 ∧ (dl 0).enabled = false ∧ (dl 8).enabled = true ∧ (s (dl 8) id).blk.reached 1000 0 = true ∧ (s (dl 8) id).blk.dueBy (dl 8).due = true ∧ (s (dl 8) id).blk.dueBy 1 = false ∧ (dl 8).words[3] = 0 ∧
      ((s (dl 8) run).blk.eng 31).bq.length < (s (dl 8) run).blk.bqmax ∧ ((s (dl 8) id).blk.eng 31).held = none ∧
      (s (dl 8) fun b => b.modEng 31 fun x => { x with run := some (task .code) }).blk.live 1023 = true := by
  intro dsc s a on cyc bkg run pre full dl; and_intros <;> decide

/-! ### Tokens -/

/-- A token of type `t` for slot `k` with ARG `a`, all else 0. -/
def tok (t k a : Word) : List Word := [0x4C58544B, 0x10000 ||| t, 0, 0, 0, 0, 0, 0, 0, 0, 0, 0, k, a, 0, 0] ++ List.replicate 49 0

/-- What that token says. -/
def tokOf (t k a : Nat) : Token :=
  { magic := 0x4C58544B, version := 1, type := t, serial := 0, challenge := List.replicate 8 0, slot := k, arg := a, viol := 0
    reserved := 0, sigR := 0, sigS := 0, key := 0, pad := 0 }

/-- OTP that holds the hash of key 0 as its root key and, with flags `f`, in slot 0. -/
def keyOtp (f : Nat) : Otp :=
  { Reset.otp with
    serial := 0, rootHash := Config.sha384 (bytesBE 97 0)
    slots := Reset.otp.slots.set 0 ⟨Config.sha384 (bytesBE 97 0), f⟩ }

/-- A signature that verifies makes each type of token pass; one without words never does. -/
theorem wit_tokens (h : Config.sha384 (bytesBE 97 0) ≠ 0)
    (sig : ∀ t ∈ [tok 1 0 2, tok 2 0 0, tok 3 0xFFFFFFFF 0],
      Config.ecdsaOk (BitVec.ofNat 776 0) (Config.sha384 ((wordBytes t).take 64)) (BitVec.ofNat 384 0) (BitVec.ofNat 384 0) = true) :
    let b : Block := (st fun b => b.set TRU_FRZ_LO 1).blk
    let c := some (List.replicate 8 (0 : Word))
    b.tokenReason (keyOtp 4) (tok 1 0 2) c = 0 ∧ parseToken (tok 1 0 2) = some (tokOf 1 0 2) ∧
      b.tokenReason (keyOtp 2) (tok 2 0 0) c = 0 ∧ parseToken (tok 2 0 0) = some (tokOf 2 0 0) ∧
      b.tokenReason (keyOtp 0) (tok 3 0xFFFFFFFF 0) c = 0 ∧ parseToken (tok 3 0xFFFFFFFF 0) = some (tokOf 3 0xFFFFFFFF 0) ∧
      b.tokenReason (keyOtp 0) [] c ≠ 0 := by
  have p1 : parseToken (tok 1 0 2) = some (tokOf 1 0 2) := by decide
  have p2 : parseToken (tok 2 0 0) = some (tokOf 2 0 0) := by decide
  have p3 : parseToken (tok 3 0xFFFFFFFF 0) = some (tokOf 3 0xFFFFFFFF 0) := by decide
  have s1 : (keyOtp 4).tokenSlot 0 = some (Config.sha384 (bytesBE 97 0), 4, false) := if_neg h
  have s2 : (keyOtp 2).tokenSlot 0 = some (Config.sha384 (bytesBE 97 0), 2, false) := if_neg h
  have f : (st fun b => b.set TRU_FRZ_LO 1).blk.frozen 0 = true := by decide
  have v : (st fun b => b.set TRU_FRZ_LO 1).blk.get TRU_VIOL_CNT = 0 := by decide
  have q : (st fun b => b.set TRU_FRZ_LO 1).blk.get DEV_BOOT_PHASE ≠ 7 := by decide
  intro b c
  refine ⟨?_, p1, ?_, p2, ?_, p3, by decide⟩ <;> unfold Block.tokenReason
  · simp only [p1]
    rw [if_neg (by decide), show (keyOtp 4).tokenSlot (tokOf 1 0 2).slot = _ from s1]
    show ite _ _ _ = 0
    rw [if_neg (fun o => o.elim (· rfl) (· (sig _ (by simp)))), if_neg (by decide), if_neg (by decide), if_neg (by decide), if_neg (by decide),
      if_neg (fun o => q o.2)]
  · simp only [p2]
    rw [if_neg (by decide), show (keyOtp 2).tokenSlot (tokOf 2 0 0).slot = _ from s2]
    show ite _ _ _ = 0
    rw [if_neg (fun o => o.elim (· rfl) (· (sig _ (by simp)))), if_neg (by decide), if_neg (by decide), if_neg (by decide), if_pos (by decide),
      if_neg (fun o => o.elim (absurd · (by decide)) (· f)), if_neg (fun o => o v.symm)]
  · simp only [p3]
    rw [if_neg (by decide), show (keyOtp 0).tokenSlot (tokOf 3 0xFFFFFFFF 0).slot = some (Config.sha384 (bytesBE 97 0), 0, true) from rfl]
    show ite _ _ _ = 0
    rw [if_neg (fun o => o.elim (· rfl) (· (sig _ (by simp)))), if_neg (by decide), if_neg (by decide), if_neg (by decide), if_neg (by decide),
      if_neg (fun o => q o.2)]

theorem wit_tokenWrites : let s : State := st fun b => { b with trust.fifo := List.replicate 66 0 }
    s.writes 2 aTRU_CTL 2 ∧ s.blk.flag TRU_STAT_TOKEN_BUSY = false ∧ 65 ≤ s.blk.trust.fifo.length ∧ s.blk.trust.quoteLeft = 0 := by
  intro s; unfold State.writes; and_intros <;> decide

/-! ### TrustPage -/

theorem wit_trustPage :
    let s (f : Trust → Trust) : State := hs fun b => { b with trust := f b.trust }
    (s id).writes 36 aTRU_CTL 1 ∧ (s id).writes 36 aTRU_CTL 4 ∧ (s id).writes 36 aTRU_CTL 8 ∧ (s id).writes 36 aTRU_CTL 16 ∧
      (s id).writes 36 aTRU_FIFO 7 ∧ (s id).reads 36 aTRU_FIFO ∧ (s fun t => { t with hostChal := some 0 }).blk.trust.hostChal = some 0 ∧
      (s fun t => { t with dbgChal := some ([], 0) }).blk.trust.dbgChal = some ([], 0) ∧ (s fun t => { t with fifo := [7] }).blk.trust.fifo = [7] ∧
      8 ≤ (s fun t => { t with fifo := List.replicate 8 7 }).blk.trust.fifo.length ∧ (s id).blk.trust.quoteLeft = 0 ∧
      (s fun t => { t with quoteBody := [0] }).blk.trust.quoteBody ≠ [] ∧ (s fun t => { t with unlock := some 1 }).blk.trust.unlock.isSome = true := by
  intro s; unfold State.writes State.reads; and_intros <;> decide

/-! ### TurnsAndSwitches -/

/-- Turn 0 of a node with one axis in round 5: valid under `ks`, of another round, and under a wrong tag. -/
theorem wit_turnFrames (ks : BitVec 128) : let r : TurnRec := ⟨7, 0, 0, 63, 1, 4⟩
    let tag (round : Nat) := wireTag ks true 7 0 round 1 0 (List.replicate 32 0)
    let f (round e : Nat) : Frame := wireFrame 0 round 1 0 (List.replicate 32 0) (tag round + e)
    ((f 5 0).crcOk = true ∧ (f 5 0).turnOk r 5 = true ∧ (f 5 0).tagged ks true 7 5 = true) ∧
      ((f 6 0).crcOk = true ∧ (f 6 0).turnOk r 5 = false) ∧
      ((f 5 1).crcOk = true ∧ (f 5 1).turnOk r 5 = true ∧ (f 5 1).tagged ks true 7 5 = false) ∧ Frame.crcOk ⟨true, []⟩ = false := by
  intro r tag f
  have go (round e : Nat) := wireFrame_reads (p := 0) (round := round) (type := 1) (turn := 0) (pay := List.replicate 32 0) (tag round + e)
    (by omega) (by omega) (by omega) rfl (by decide)
  have l : tag 5 < 2 ^ 32 := wireTag_lt ..
  have t (e : Nat) (he : e < 2) : (f 5 e).tagged ks true 7 5 = decide (e = 0) := by
    rw [show (f 5 e).tagged ks true 7 5 = _ from (go 5 e).2.2.2.2.2.2 ks true 7 5]
    congr 1
    apply propext
    show tag 5 = (tag 5 + e) % 2 ^ 32 ↔ e = 0
    omega
  have i (round e : Nat) : (f round e).turnOk r 5 = decide (5 % 2 ^ 16 = round % 2 ^ 16) := by
    rw [Frame.turnOk, show (f round e).isA _ _ _ _ = _ from (go round e).2.2.2.2.1 1 r.turn (8 * r.axes) 5]
    simp [r]
  exact ⟨⟨(go 5 0).1, i 5 0, t 0 (by omega)⟩, ⟨(go 6 0).1, i 6 0⟩, ⟨(go 5 1).1, i 5 1, t 1 (by omega)⟩, rfl⟩

theorem wit_turns :
    let s (f : SegNode → SegNode) (st : Nat) : State := sg7 6 fun b =>
      (b.set (SEG_NSTAT_STATE 7 63) st).modSn 7 63 fun n => f { n with session := true }
    let x (f : Seg → Seg) (n : Nat) : State := sg7 n fun b => b.modSg 7 f
    (s id 3).blk.openTurn 7 63 = some ⟨7, 0, 0, 63, 1, 4⟩ ∧ (s id 3).blk.get (SEG_NSTAT_STATE 7 63) = 3 ∧ (s id 3).blk.round = 5 ∧
      (s id 3).blk.axisAt 7 63 0 = some 255 ∧ (s id 3).blk.axisRec 255 = some (axisRec 255 1) ∧ (axisRec 255 2).feedback = 0 ∧
      ({ axisRec 255 1 with feedback := 1 } : AxisRec).feedback ≠ 0 ∧
      (s (fun n => { n with missRun := 2 }) 3).blk.segMiss 7 ≤ 2 ∧
      ((s (fun n => { n with missRun := 2 }) 3).blk.sn 7 63).missRun = 2 ∧ (sg7 6 fun b => { b with dealt := some deck }).blk.nodeAxes 7 63 = [] ∧
      ((x (fun y => { y with switchAt := some 6, announced := 5 }) 6).blk.sg 7).switchAt.isSome = true ∧
      ((x (fun y => { y with switchAt := some 14, announced := 5 }) 6).blk.set DEV_ROUND 12).roundsSince 5 + 1 = 8 ∧
      ((x id 6).blk.sg 7).nack = false ∧
      ((x (fun y => { y with nack := true }) 5).blk.sg 7).nack = true ∧ (x id 5).blk.get (SEG_STAT_STATE 7) = 5 ∧ (x id 5).blk.rateCode = 1 ∧
      ((x (fun y => { y with switchAt := some 6 }) 5).blk.sg 7).switchAt = some ((x id 5).blk.roundIn 1) ∧ ((x id 5).blk.sg 7).kitty = [] := by
  intro s x; and_intros <;> decide

/-- A window that has closed and one that has not; a ring that is split, with no copy of the turn yet or a bad one; the round of a closure. -/
theorem wit_turnCopies :
    let s (up : Nat) (f : SegNode → SegNode) : State := sg7 6 fun b =>
      { ((b.on (SEG_STAT_SPLIT 7)).modSg 7 fun x => { x with closedAt := some 5 }).modSn 7 63 fun n => f { n with session := true } with up := up }
    (s 0 id).blk.windowClosed 7 63 = false ∧ (s 1000000 id).blk.windowClosed 7 63 = true ∧ (s 0 id).blk.openTurn 7 63 = some ⟨7, 0, 0, 63, 1, 4⟩ ∧
      (s 0 id).blk.flag (SEG_STAT_SPLIT 7) = true ∧ ((s 0 id).blk.sg 7).closedAt = some (s 0 id).blk.round ∧
      ((s 0 fun n => { n with far := true }).blk.sn 7 63).far = true ∧ (s 0 id).blk.badCopy 7 63 = none ∧
      (s 0 fun n => { n with bad := some (5, .crc) }).blk.badCopy 7 63 = some .crc ∧
      (s 0 fun n => { n with bad := some (5, .tag) }).blk.badCopy 7 63 = some .tag := by
  intro s; and_intros <;> decide

/-! ### ValidatedWrites -/

theorem wit_validated :
    let lv (n : Nat) (f : Block → Block) : State := dt { axDeck 1 0 with axes := [{ axisRec 255 1 with level := n }] } f
    let full : State := lv 0 fun b => { b with vq := List.replicate 64 ⟨0xFFD00, 5, [AX_KPP 255], aAX_VSTAT 255, 0x100⟩ }
    (lv 0 id).writes 2 0xBFD00 5 ∧ (lv 1 id).writes 2 0xBFD00 5 ∧ full.writes 2 0xBFD00 5 ∧
      ((findReg 0xFFD00).map fun r => (r.desc.wide, r.desc.fields.map (·.basic))) = some (false, [.rwv]) ∧
      (lv 0 id).blk.layout.isRaw 0xBFD00 = false ∧ ((lv 0 id).blk.axisRec ((0xBFD00 - 0x80000) / 0x400)).map (·.level) = some 0 ∧
      ((lv 1 id).blk.axisRec 255).map (·.level) = some 1 ∧ (lv 0 id).blk.vq.length < 64 ∧ full.blk.vq.length = 64 := by
  intro lv full; unfold State.writes; and_intros <;> decide

theorem wit_validation :
    let f := AX_KPP 255
    let k (flags step : Nat) : Deck := { axDeck 1 0 with ranges := [⟨0xBFD00, 0, 32, 0, flags, 4, 100, step⟩] }
    let s (fl step v : Nat) (g : Block → Block) : State := dt (k fl step) fun b => g { b with vq := [⟨0xFFD00, v, [f], aAX_VSTAT 255, 0x100⟩] }
    let q (fl step : Nat) : Option (Int × Int × Nat × Bool) := (rwvAt 0xFFD00 0 32).map ((k fl step).rangeOf 0xFFD00)
    let far : State := s 0 0 5 fun b => { b with valid := [⟨f, 5, true, aAX_VSTAT 255, 0x100⟩], time := 124800 * 2 ^ 32 }
    let still : State := s 0 0 5 fun b =>
      { b.on (FB_N_STAT_STANDSTILL 255) with valid := far.blk.valid, time := far.blk.time }
    q 1 7 = some (4, 100, 7, true) ∧ (rwvAt 0xFFD00 0 32).map (fun d => (d.value 3, d.value 101)) = some (3, 101) ∧
      (s 1 7 11 id).blk.comingValue f = 0 ∧ (s 1 7 7 id).blk.inModulus f 7 = true ∧ (s 1 7 7 id).blk.limitsOrdered f 7 = true ∧
      (s 1 7 7 id).blk.limitsOrdered (FB_N_SLO 255) 1 = false ∧ (s 1 7 7 id).blk.stillFor f.addr = false ∧
      (s 1 7 7 fun b => b.on (FB_N_STAT_STANDSTILL 255)).blk.stillFor f.addr = true ∧ ¬ (0x101000 ≤ f.addr ∧ f.addr < 0x102000) ∧
      aAX_VSTAT 255 ≠ aDEV_STAT ∧ ¬ irqReg 0 (aAX_VSTAT 255) ∧ far.blk.valid.Pairwise (·.fld ≠ ·.fld) ∧ far.blk.due = [] ∧
      far.blk.latchCloses = true ∧ (s 0 0 5 id).blk.latchCloses = false ∧
      far.blk.stillFor f.addr = false ∧ far.blk.valid = [⟨f, 5, true, aAX_VSTAT 255, 0x100⟩] ∧
      still.blk.latchCloses = true ∧ ∀ x ∈ still.blk.valid, still.blk.stillFor x.fld.addr = true := by
  intro f k s q far still; unfold irqReg; and_intros <;> decide

/-! ### Violations -/

theorem wit_violations :
    let s (f : Block → Block) : State := dt deck fun b => f { b with trust.policy := [dispatcherBlock], trust.loaded := true }
    (s id).blk.allowed 34 0x4001FFE0 4 true true = true ∧ (s id).blk.allowed 34 0x00190000 4 true true = false ∧ (s id).blk.frozen 34 = false ∧
      (s id).blk.allowed 38 0x00190000 4 true false = false ∧ (s id).blk.frozen 38 = false ∧ (s fun b => b.set TRU_FRZ_HI 0x40).blk.frozen 38 = true ∧
      (s fun b => b.set TRU_FRZ_HI 0x40).blk.barred 38 0x00190000 = true ∧ (s id).blk.barred 34 0x4001FFE0 = false ∧
      (s id).blk.allowed 36 0x00190000 4 true false = false ∧ (s id).blk.frozen 36 = false ∧ (36 : Fin 39).1 < (38 : Fin 39).1 ∧
      (s id).blk.trust.unlock = none ∧ (s fun b => { b with trust := { b.trust with unlock := some 1 } }).blk.trust.unlock.isSome = true := by
  intro s; and_intros <;> decide

/-! ### WordPairs -/

theorem wit_wordPairs : ∃ r, (barWord 0x10 = true ∧ findReg (homeOf 0x10) = some r ∧ r.desc.wide = true ∧ r.base = homeOf 0x10 ∧
    isWindow 0x10 = false ∧ hiddenVstat 0x10 = false ∧ (st id).blk.layout.isRaw 0x10 = false) ∧ (st id).reads 2 0x10 ∧
    (st id).writes 2 0x10 5 ∧ (st id).writes 2 (aPLT_Q_LT 7 + 4) 9 := by
  refine ⟨_, ⟨by decide, rfl, by decide, by decide, by decide, by decide, by decide⟩, ?_⟩
  try unfold State.writes State.reads
  and_intros <;> decide

/-! ### The queue, the scorepad memory, OTP -/

theorem wit_pending (c : Instr) : ∃ s : State, s.pending = [c, .roundBoundary] := ⟨{ State.reset with pending := [c, .roundBoundary] }, rfl⟩

theorem wit_idle : State.reset.pending = [] ∧ step State.reset = .next State.reset ∧ Memory.wf State.reset.nv.pad = true := ⟨rfl, rfl, rfl⟩

set_option exponentiation.threshold 400 in
/-- A part whose slot 3 holds a key that a deck has revoked. -/
theorem wit_otp : let o : Otp := { Reset.otp with slots := Reset.otp.slots.set 3 ⟨7, 8⟩ }
    o.slots[3].hash ≠ 0 ∧ bit o.slots[3].flags 3 = true ∧ ∃ s : State, s.nv.otp = o ∧ ∃ t, step s = .next t :=
  ⟨by decide, by decide, ⟨[], { State.reset.nv with otp := { Reset.otp with slots := Reset.otp.slots.set 3 ⟨7, 8⟩ } }, State.reset.blk⟩, rfl, _, rfl⟩

/-! ### Ill-formed commands -/

theorem test_wf_refuses_registers :
    (Instr.hostRegisterWrite 36 0x1000000 0).wf = false ∧ (Instr.hostRegisterWrite 36 2 0).wf = false ∧ (Instr.lowWordRead 36 0x1000000).wf = false ∧
      (Instr.lowWordWrite 36 2 0).wf = false ∧ (Instr.highWordWrite 36 0x1000000 0).wf = false ∧ (Instr.rwvWrite 36 2 0).wf = false ∧
      (Instr.hostRegisterWrite 36 0xFFFFFC 0).wf = true := by decide

theorem test_wf_refuses_trust :
    (Instr.violation 2 0 4 true ⟨false, [⟨3, 0, 0, true, false⟩]⟩).wf = false ∧ (Instr.violation 2 0xFFFFFFFC 8 true ⟨false, []⟩).wf = false ∧
      (Instr.violation 2 0 0 true ⟨false, []⟩).wf = false ∧ (Instr.debugToken []).wf = false ∧
      (Instr.provision 36 []).wf = false ∧ (Instr.deal 36 0).wf = false ∧ (Instr.deal 36 (2 ^ 21)).wf = false ∧
      (Instr.violation 2 0xFFFFFFFC 4 true ⟨false, []⟩).wf = true := by decide

theorem test_wf_refuses_angle :
    (Instr.angleSample 1 256 0 0 false).wf = false ∧ (Instr.angleSample 1 0 0 (2 ^ 64) false).wf = false ∧ (Instr.evtDelete 36 4096).wf = false ∧
      (Instr.evtReplace 36 4096).wf = false ∧ (Instr.evtRead 36 4096).wf = false ∧ (Instr.evtRead 36 4095).wf = true := by decide

theorem test_wf_refuses_links :
    (Instr.enumR 0 (2 ^ 19) false [] []).wf = false ∧ (Instr.enumR 0 0 false [] []).wf = true ∧
      (Instr.ssiFrameEnd 0 (2 ^ 64) false false).wf = false ∧ (Instr.gateForced 0 [(2, 2 ^ 32)]).wf = false ∧ (Instr.linkUp 0).wf = false := by decide

theorem test_wf_refuses_plant :
    (Instr.sync 0 0 256 0 0 0).wf = false ∧ (Instr.followUp 0 0 (2 ^ 16) 0).wf = false ∧ (Instr.delayReq 0 (2 ^ 80)).wf = false ∧
      (Instr.delayResp 0 (2 ^ 80) 0).wf = false ∧ (Instr.pdelayReq 0 (2 ^ 80)).wf = false := by decide

/-! ### The spec's worked examples -/

/-- The nonces under R166 (05_thrumlos_link_and_frames.md): segment 5, P = 1, round 0x12345678. -/
theorem test_nonces :
    tagNonce false 1 5 0x12345678 0xFFFF = [0x45, 0, 0, 0, 0, 0, 0x12, 0x34, 0x56, 0x78, 0xFF, 0xFF] ∧
      tagNonce false 1 5 0x12345678 9 = [0x45, 0, 0, 0, 0, 0, 0x12, 0x34, 0x56, 0x78, 0x00, 0x09] ∧
      tagNonce true 0 5 0x12345678 9 = [0x85, 0, 0, 0, 0, 0, 0x12, 0x34, 0x56, 0x78, 0x00, 0x09] := by decide

/-- The ring of 64 nodes at 64 kHz (05_thrumlos_link_and_frames.md, Table 5.12): positions 0 to 15 with a command slot. -/
def ring64 : List TurnRec := (List.range 64).map fun i => ⟨2, 1, i, i, 1, if i < 16 then 1 else 0⟩

theorem test_ring64 :
    leadBytes ring64 0 = 2848 ∧ blockStart ring64 96 63 = some 2808 ∧ windowOpen ring64 6000 41 = some 95216 ∧ windowOpen ring64 6000 63 = some 143088 ∧
      windowsEnd ring64 6000 = 145264 := by decide

/-- The conversion under R111 (04_line_angle.md): 1,000,000.5 counts at 280,000 / 3 counts a turn. -/
theorem test_convertAngle : convertAngle 65536032768 280000 3 0 = 0x0000000AB6DBC797 := by decide

/-- The walk under R198 (06_thrumlos_start_and_schedules.md): segment 3, answers at 1,225.2 ns and 1,405.2 ns. -/
def walkState (p : Nat) (f : Block → Block) : State :=
  st fun b => f ((b.set (SEG_STAT_STATE 3) 4).modSg 3 fun x => { x with walk := some ⟨p, false, 0, false⟩, lead := some { leadOf 0 with bofs := 12 } })

/-- An answer in the walk of segment 3, with the latencies it reports. -/
def answerOf (b : Block) (ld lu : Nat) : Frame :=
  nodeFrame b 3 0 5 0xFFFE ((0x82 : Byte) :: 0 :: bytesBE 2 ld ++ bytesBE 2 lu ++ List.replicate 26 0) 0

theorem answerOf_reads (b : Block) {a ld lu : Nat} (h1 : 2500 ≤ a) (h2 : a ≤ 50000) (hd : ld < 2 ^ 16) (hu : lu < 2 ^ 16) :
    b.walkFrame 3 a (answerOf b ld lu) 0x82 = true ∧ (answerOf b ld lu).pay 2 2 = ld ∧ (answerOf b ld lu).pay 4 2 = lu ∧
      (answerOf b ld lu).pay 12 4 = 0 ∧ (answerOf b ld lu).pay 8 4 = 0 := by
  obtain ⟨hf, hg, hq⟩ := nodeFrame_valid b 3 0 (type := 5) (turn := 0xFFFE) (msg := 0x82) (e := 0)
    (pay := (0x82 : Byte) :: 0 :: bytesBE 2 ld ++ bytesBE 2 lu ++ List.replicate 26 0) (by omega) (by omega) (by simp) rfl (by omega)
  refine ⟨?_, ?_, ?_, (hq 12 4 (by omega)).trans ?_, (hq 8 4 (by omega)).trans ?_⟩
  · simp only [Block.walkFrame, answerOf, hf, hg, Bool.and_true, decide_true, decide_eq_true_eq]
    omega
  · have e : ((0x82 : Byte) :: 0 :: bytesBE 2 ld ++ bytesBE 2 lu ++ List.replicate 26 0).drop 2 = bytesBE 2 ld ++ (bytesBE 2 lu ++ List.replicate 26 0) := rfl
    rw [answerOf, hq 2 2 (by omega), e, List.take_left' (by simp), ofBytesBE_bytesBE]
    omega
  · have e : ((0x82 : Byte) :: 0 :: bytesBE 2 ld ++ bytesBE 2 lu ++ List.replicate 26 0).drop 4 = bytesBE 2 lu ++ List.replicate 26 0 := rfl
    rw [answerOf, hq 4 2 (by omega), e, List.take_left' (by simp), ofBytesBE_bytesBE]
    omega
  · rfl
  · rfl

theorem test_walk_first : ∃ t, exec (.enumR 3 3063 false [] (answerOf (walkState 0 id).blk 784 816).bytes) (walkState 0 id) = .next t ∧ (t.blk.sn 3 0).rtt = 240 ∧
    t.blk.get (SEG_NDLY_DOWN 3 0) = 120 ∧ t.blk.get (SEG_NDLY_UP 3 0) = 120 := by
  obtain ⟨hw, h2, h4, h12, h8⟩ := answerOf_reads (walkState 0 id).blk (a := 3063) (ld := 784) (lu := 816) (by omega) (by omega) (by omega) (by omega)
  rw [show exec _ (walkState 0 id) = enumAnswer 3 3063 (answerOf (walkState 0 id).blk 784 816) (walkState 0 id) from rfl]
  refine ⟨_, rfl, ?_⟩
  simp only [State.onBlk, show (walkState 0 id).blk.walkFrame (3 : Fin 8).1 3063 _ _ = _ from hw, h2, h4, h12, h8]
  and_intros <;> decide

theorem test_walk_second :
    let s := walkState 1 fun b => ((((b.set (SEG_NDLY_DOWN 3 0) 120).set (SEG_NDLY_UP 3 0) 120).set (SEG_NLAT_LD 3 0) 784).set (SEG_NLAT_LU 3 0) 816).modSn 3 0
      fun n => { n with rtt := 240 }
    ∃ t, exec (.enumR 3 3513 false [] (answerOf s.blk 0 0).bytes) s = .next t ∧ (t.blk.sn 3 1).rtt = 2040 ∧ t.blk.get (SEG_NDLY_DOWN 3 1) = 1004 ∧
      t.blk.get (SEG_NDLY_UP 3 1) = 1036 := by
  intro s
  obtain ⟨hw, h2, h4, h12, h8⟩ := answerOf_reads s.blk (a := 3513) (ld := 0) (lu := 0) (by omega) (by omega) (by omega) (by omega)
  rw [show exec _ s = enumAnswer 3 3513 (answerOf s.blk 0 0) s from rfl]
  refine ⟨_, rfl, ?_⟩
  simp only [State.onBlk, show s.blk.walkFrame (3 : Fin 8).1 3513 _ _ = _ from hw, h2, h4, h12, h8]
  and_intros <;> decide

/-- The SSI frame under R296 (09_position_feedback.md): 25 bits, CLKDIV 25, DCOMP 25. -/
theorem test_ssiFrame :
    (st fun b => ((b.set (FB_SSI_FMT_BITS 9) 25).set (FB_SSI_TIM_CLKDIV 9) 25).set (FB_SSI_TIM_DCOMP 9) 25).blk.ssiFrameNs 9 = 2900 := by decide

/-- The ring pointer under R355 (11_loop_engine_model.md): P2 on lane 1, windows of 48 and 20 bytes. -/
theorem test_ringPointer :
    let r (w : Word) (p d : BitVec 16) : ERegs :=
      { Reset.eregs with pa := 0x500, w := Reset.eregs.w.set 1 w, p := Reset.eregs.p.set 2 p, d := Reset.eregs.d.set 1 d }
    (r 0x00144040 0x4068 8).step 2 1 = some 0x4044 ∧ (r 0x00144040 0x4044 8).step 2 4 = some 0x4050 ∧
      (r 0x00304040 0x4050 8).step 2 1 = some 0x4054 ∧ (r 0x00304060 0x4054 8).step 2 1 = some 0x4068 := by decide

/-- Words of a record of a 64-bit channel with HDR = 1 and RED = 0b1001 (13_capture.md). -/
theorem test_readoutWords : ((st fun b => b.set (CAP_C_CFG_KIND 0) 3).blk.capRecordWords 0 0 9 true).length = 5 := by decide

/-- MAXSTEP (03_deck.md): 8.0 committed; 9.5 passes, 11.0 alone is refused with reason 3, after 9.5 it passes. -/
theorem test_maxStep :
    let f := AX_PACC 40
    let b := (st fun b => b.set f 0x80000).blk
    let c : Block := { b with valid := [⟨f, 0x98000, false, 0, 0⟩] }
    let q : Int × Int × Nat × Bool := (0, 2 ^ 31, 0x20000, false)
    (rwvAt (aAX_PACC 40) f.lo f.w).map (fun d => (b.checkField f d q 0x98000, b.checkField f d q 0xB0000, c.checkField f d q 0xB0000)) = some (0, 3, 0) := by
  decide

/-! ### Commands on a small state -/

/-- A step runs the command in front and leaves the queue behind it. -/
theorem test_step : ∃ t, step { st id with pending := [.hostRegisterWrite 2 (aIRQ_EN 7) 5, .roundBoundary] } = .next t ∧
    t.pending = [.roundBoundary] ∧ t.blk.rd (aIRQ_EN 7) = 5 := by
  refine ⟨_, rfl, ?_⟩; and_intros <;> decide

/-- R7: a boundary ends a round. -/
theorem test_roundBoundary : ∃ t, exec .roundBoundary (st fun b => { b with up := 5, boot := { b.boot with released := true } }) = .next t ∧ t.blk.round = 1 := by refine ⟨_, rfl, ?_⟩; decide +kernel

/-- R224: START takes a segment that is off to Listen. -/
theorem test_segStart : ∃ t, exec (.segStart 2 7) (sg7 0 id) = .next t ∧ t.blk.get (SEG_STAT_STATE 7) = 1 := by refine ⟨_, rfl, ?_⟩; decide +kernel

/-- R507: a register that does not exist reads 0. -/
theorem test_readNothing : ∃ t, exec (.lowWordRead 36 0x7FFFFC) (hs id) = .next t ∧ t.blk.readData[36] = 0 := by refine ⟨_, rfl, ?_⟩; decide

/-- The CRC-32 of R165 over the digits 1 to 9, as IEEE 802.3 has it. -/
theorem test_crc32 : crc32 [0x31, 0x32, 0x33, 0x34, 0x35, 0x36, 0x37, 0x38, 0x39] = 0xCBF43926 := by decide +kernel

/-! ### Words of the loop engines, each written out from its layout in 12_loop_engine_instructions.md -/

/-- The worked example under R386: MAC A0 | XA TAP [P0]-4 | YA LD [P4]-4. -/
theorem test_wordMac : multiplyForm 1 0b0001 0 false 0x282 0x082 false = 0x8A282208 := by decide

/-- LDI P0, 0x4078 and REPI 30 with a body of one word, from the worked example of the 32-tap filter. -/
theorem test_wordLdi : immediateWord false 0x10 0x4078 = 0b0011_0_0010000_0000_0100000001111000 ∧
    controlWord 5 (0 * 2 ^ 16 + 30) = 0b0000_0101_00000000_0000000000011110 := by decide

/-- BFY A2, A0; ASHA G1; SUB G1, G0, #2; MOV G0, BX; STAP [P0]+D, A2 with SCN; LDF64 A1 from FA3 with a step of 8. -/
theorem test_words : accWord 4 2 0 0 0 = 0b0001_0100_10_00_0_000_0000000000000000 ∧
    accWord 9 0 0 1 0 = 0b0001_1001_00_00_0_001_0000000000000000 ∧
    integerWord 1 1 0 true 2 = 0b0010_0001_001_000_1_0_0000000000000010 ∧
    moveWord 0x08 0x2D = 0b0100_0_0001000_0101101_0000000000000 ∧
    bankForm 5 2 0 3 true = 0b0101_0101_0_0000010_000_011_1_000000000 ∧
    fabricForm 2 3 2 1 0 0 false = 0b0110_0010_11_10_00000_01_000_000_0_000000 := by decide

/-- R379: class 0x7, a reserved operation, a bit of an unused field and AOP 3 are no words. -/
theorem test_spelled : spelled 0x70000000 = false ∧ spelled 0x0C000000 = false ∧ spelled 0x00000001 = false ∧
    spelled 0x86000000 = false ∧ spelled 0x8A282208 = true ∧ spelled 0x48008000 = false := by decide

end Sys2Proof.Tests
end

section
/-!
PROOFS. The host port (17_host_interface.md): what counting an event of the host port page writes, what a write to a write-only register
comes to, the counters cleared, the fields of HST_MODE as words, the frames of the quad-SPI port; with them O9.
-/

namespace Sys2Proof.Machine

/-! ### A field set, as a mask on the word -/

/-- The word of a register with a field set: the field masked out, the value put in. -/
theorem ofNat_setBits (x : Word) (lo w v : Nat) :
    BitVec.ofNat 32 (setBits x.toNat lo w v) =
      x &&& ~~~BitVec.ofNat 32 ((2 ^ w - 1) * 2 ^ lo) ||| BitVec.ofNat 32 (v % 2 ^ w * 2 ^ lo) := by
  apply BitVec.eq_of_getLsbD_eq
  intro i hi
  simp only [BitVec.getLsbD_or, BitVec.getLsbD_and, BitVec.getLsbD_not, BitVec.getLsbD_ofNat, testBit_setBits,
    Nat.testBit_mul_two_pow, Nat.testBit_mod_two_pow, Nat.testBit_two_pow_sub_one, BitVec.testBit_toNat, hi, decide_true,
    Bool.true_and]
  by_cases a : lo ≤ i
  · by_cases b : i < lo + w
    · have c : i - lo < w := by omega
      simp [a, b, c]
    · have c : ¬ i - lo < w := by omega
      simp [a, b, c]
  · simp [a]

/-- Masking bits out and setting them is setting them. -/
theorem and_not_or_self (x m : Word) : x &&& ~~~m ||| m = x ||| m := by
  ext i hi
  cases h : m[i] <;> simp [h]

/-- The bits from 24 up, by division and by mask. -/
theorem div_mul_eq_mask (x : Word) : x.toNat / 2 ^ 24 * 2 ^ 24 = (x &&& 0xFF000000).toNat := by
  apply Nat.eq_of_testBit_eq
  intro i
  rw [BitVec.toNat_and, show (0xFF000000 : Word).toNat = (2 ^ 8 - 1) * 2 ^ 24 from rfl, Nat.testBit_and,
    Nat.testBit_mul_two_pow, Nat.testBit_mul_two_pow, Nat.testBit_div_two_pow, Nat.testBit_two_pow_sub_one]
  by_cases a : 24 ≤ i
  · by_cases b : i < 32
    · have c : i - 24 < 8 := by omega
      simp [a, c]
    · have c : x.toNat.testBit i = false := x.getLsbD_of_ge i (by omega)
      simp [a, c]
  · simp [a]

/-! ### Blocks that differ in registers -/

/-- A command's change of the block is what it makes of the block before it. -/
theorem State.onBlk_congr {s : State} {f g : Block → Block} (h : f s.blk = g s.blk) : s.onBlk f = s.onBlk g := by
  unfold State.onBlk; rw [h]

/-- A command that makes of `s` a block that differs from `b` in registers of `p` alone, where `b` has the registers of `s`. -/
theorem State.becomes_of {s : State} {b : Block} {f : Block → Block} {p : Nat → Prop} (hr : b.regs = s.blk.regs)
    (h : b.Within p (f s.blk)) : s.becomes (s.onBlk f) b p := by
  refine ⟨State.eq_of rfl rfl h.1, fun a n => ?_⟩
  rw [State.onBlk_blk, Block.rd_eq, Block.rd_eq, h.2 a n, hr]

/-- The registers of a list cleared: nothing else changes. -/
theorem Block.within_clearAll (l : List Nat) (b : Block) : b.Within (· ∈ l) (l.foldl (fun b a => b.wr a 0) b) := by
  induction l generalizing b with
  | nil => exact .refl _ b
  | cons x t ih =>
    exact (b.within_wr 0 List.mem_cons_self).trans ((ih (b.wr x 0)).mono fun _ => List.mem_cons_of_mem x)

/-- A register of a list cleared reads 0. -/
theorem Block.rd_clearAll (l : List Nat) (b : Block) {a : Nat} (h : a ∈ l) : (l.foldl (fun b a => b.wr a 0) b).rd a = 0 := by
  suffices k : ∀ c : Block, a ∈ l ∨ c.rd a = 0 → (l.foldl (fun b a => b.wr a 0) c).rd a = 0 from k b (.inl h)
  clear h
  induction l with
  | nil => exact fun c h => h.resolve_left List.not_mem_nil
  | cons x t ih =>
    intro c h
    apply ih
    by_cases e : a = x
    · subst e; simp
    · refine h.imp (fun m => (List.mem_cons.1 m).resolve_left e) fun z => ?_
      rw [Block.rd_eq, Block.wr_regs, sget_sput_ne _ _ _ e]
      exact z

/-! ### An event of the host port page counted (Table 17.5, source 183) -/

section
variable (b : Block) {f : Fld}

theorem Block.within_hostCount (n : f.lo + f.w ≤ 32) :
    b.Within (fun a => a = f.addr ∨ irqReg 183 a) (b.hostCount f) :=
  (b.within_set_narrow _ n (.inl rfl)).trans (Block.within_irq _ fun _ => .inr)

/-- The counter is one greater, up to its maximum. -/
theorem Block.get_hostCount (n : f.lo + f.w ≤ 32) (h : ¬ irqReg 183 f.addr) (g : ¬ irqReg 183 (f.addr + 4)) :
    Regs.get (b.hostCount f).regs f = satInc f.w (Regs.get b.regs f) := by
  unfold Block.hostCount
  rw [Block.get_irq_far _ h g, Block.inc_eq, Block.get_set_same _ _ _ (by omega)]
  have : 0 < 2 ^ f.w := by positivity
  exact Nat.mod_eq_of_lt (by unfold satInc; split <;> omega)

/-- The count of source 183 advances. -/
theorem Block.count_hostCount (n : f.lo + f.w ≤ 32) (h : f.addr ≠ aIRQ_S_FLAGS 183) :
    Regs.get (b.hostCount f).regs (IRQ_S_FLAGS_CNT 183) = (Regs.get b.regs (IRQ_S_FLAGS_CNT 183) + 1) % 2 ^ 16 := by
  unfold Block.hostCount
  rw [Block.count_irq, Block.inc_eq, Block.get_set_other _ _ n (by simp [IRQ_S_FLAGS_CNT]) (.inl h.symm)]

end

/-- Between `s` and `t` an event was counted in the 32-bit counter `f` of the host port page (Table 17.5): the counter is one greater up
to its maximum, source 183 asserted, and of the rest `t` is `b`. -/
def State.hostCounted (s t : State) (b : Block) (f : Fld) : Prop :=
  s.becomes t b (fun a => a = f.addr ∨ irqReg 183 a) ∧ t.blk.get f = satInc 32 (s.blk.get f) ∧ s.asserted t 183

/-- A command that counts an event in the registers of `s` and makes it `b` otherwise. -/
theorem State.hostCounted_of {s : State} {b : Block} {g : Block → Block} {f : Fld} (ho : b.RegsOnly (g s.blk))
    (hg : (g s.blk).regs = (s.blk.hostCount f).regs) (hl : f.lo = 0) (hw : f.w = 32) (ha : f.addr < 0x1000) :
    s.hostCounted (s.onBlk g) b f := by
  have n : f.lo + f.w ≤ 32 := by omega
  have far : ∀ a, a < 0x2000 → ¬ irqReg 183 a := fun a h => by simp only [irqReg, aIRQ_PEND, aIRQ_S_TIME_LO]; omega
  refine ⟨⟨State.eq_of rfl rfl ho, fun a k => ?_⟩, ?_, ?_, ?_⟩
  · rw [State.onBlk_blk, Block.rd_eq, Block.rd_eq, hg, (s.blk.within_hostCount n).2 a k]
  · rw [State.onBlk_blk, Block.get_eq, Block.get_eq, hg, s.blk.get_hostCount n (far _ (by omega)) (far _ (by omega)), hw]
  · rw [State.onBlk_blk, Block.pendingIrq, Block.flag_eq, hg]
    exact (s.blk.inc f).pending_irq 183
  · rw [State.onBlk_blk, Block.get_eq, Block.get_eq, hg, s.blk.count_hostCount n (by simp only [aIRQ_S_FLAGS]; omega)]

/-- Returning a word keeps to registers what did. -/
theorem Block.RegsOnly.answer {b c : Block} (h : b.RegsOnly c) (m : Fin 39) (v : Word) : (b.answer m v).RegsOnly (c.answer m v) := by
  unfold Block.RegsOnly at h ⊢
  rw [h]
  rfl

/-! ### Write-only registers (Table 0.6) -/

/-- Write-only fields change nothing when written, queue nothing for a commit and mirror nothing to a partner. -/
theorem Block.writeFields_writeOnly {code : FDesc → Acc} {l : List FDesc} (h : ∀ f ∈ l, code f = .wo) :
    (∀ (b : Block) (run : Bool) (x v : Nat), l.foldl (fun b f => b.writeField run (code f) ⟨x, f.lo, f.w⟩ v) b = b) ∧
      (l.filter fun f => code f = .rwv) = [] ∧ (l.any fun f => code f = .rw || code f = .rwl) = false := by
  refine ⟨fun b run x v => ?_, List.filter_eq_nil_iff.2 fun f k => by simp [h f k], List.any_eq_false.2 fun f k => by simp [h f k]⟩
  induction l with
  | nil => rfl
  | cons y t ih =>
    rw [List.foldl_cons, h y List.mem_cons_self]
    exact ih fun f k => h f (List.mem_cons_of_mem y k)

/-- A write to a register of write-only fields is its action alone (Table 0.6). -/
theorem Block.writeReg_writeOnly (b : Block) (m : Fin 39) {r : Hit} (basic level : Bool) (v : Nat) (ha : r.base ≠ aANG_CTL)
    (hw : ∀ f ∈ r.desc.fields, f.basic = .wo ∧ f.expert = .wo) : b.writeReg m r basic level v = b.regAction m r.base v := by
  have code : ∀ f ∈ r.desc.fields, (if basic = true then f.basic else f.expert) = .wo := fun f h => by
    obtain ⟨hb, he⟩ := hw f h
    rw [hb, he, ite_self]
  obtain ⟨fields, queued, mirrored⟩ := Block.writeFields_writeOnly code
  have all : (r.desc.fields.filter fun _ => true) = r.desc.fields := List.filter_eq_self.2 fun _ _ => rfl
  unfold Block.writeReg
  simp only [ha, decide_false, Bool.false_and, Bool.false_eq_true, if_false, Bool.not_false, all, fields, queued, mirrored,
    List.isEmpty_nil, if_true, ite_self]

/-- The register HST_CTL as the map finds it: CNT_CLR alone, write-only (Table 17.5). -/
theorem findReg_hstCtl : ∃ r, findReg (homeOf aHST_CTL) = some r ∧ r.base = aHST_CTL ∧ r.desc.wide = false ∧
    ∀ f ∈ r.desc.fields, f.basic = .wo ∧ f.expert = .wo := by
  refine ⟨_, rfl, rfl, rfl, ?_⟩
  decide

/-- HST_CTL.CNT_CLR written where it reaches the register clears the counters. -/
theorem State.writeN_cntClr {s : State} {m : Fin 39} (h : s.writes m aHST_CTL 1) : s.writeN m aHST_CTL 1 = s.onBlk (·.hostClear) := by
  obtain ⟨r, hf, hb, hn, hw⟩ := findReg_hstCtl
  have e := State.write_reg h rfl (by decide) (by unfold Layout.isRaw; rfl) rfl rfl (by decide) hf hn
  unfold State.writeN
  rw [show BitVec.ofNat 32 1 = (1 : Word) from rfl, e]
  apply State.onBlk_congr
  rw [Block.writeReg_writeOnly _ m _ _ _ (by rw [hb]; decide) hw, hb]
  rfl

/-! ### HST_MODE (Table 17.5) -/

/-- HST_MODE with LINK_UP cleared. -/
theorem Block.rd_linkDown (b : Block) : (b.off HST_MODE_LINK_UP).rd aHST_MODE = b.rd aHST_MODE &&& ~~~8 := by
  rw [Block.off_eq, Block.rd_eq, show aHST_MODE = HST_MODE_LINK_UP.addr from rfl, b.rd_set_same 0 (by decide), ofNat_setBits]
  exact BitVec.or_zero

/-- HST_MODE with LINK_UP set and a speed. -/
theorem Block.rd_linkUp (b : Block) (speed : Fin 4) :
    ((b.on HST_MODE_LINK_UP).set HST_MODE_SPEED speed).rd aHST_MODE =
      b.rd aHST_MODE &&& ~~~6 ||| 8 ||| BitVec.ofNat 32 (2 * speed) := by
  have up : sget resetReg (b.on HST_MODE_LINK_UP).regs aHST_MODE = b.rd aHST_MODE ||| 8 :=
    (b.rd_set_same 1 (f := HST_MODE_LINK_UP) (by decide)).trans ((ofNat_setBits _ _ _ _).trans (and_not_or_self _ 8))
  have mask : (b.rd aHST_MODE ||| 8) &&& ~~~6 = b.rd aHST_MODE &&& ~~~6 ||| 8 := by
    rw [BitVec.and_or_distrib_right]; rfl
  calc ((b.on HST_MODE_LINK_UP).set HST_MODE_SPEED speed).rd aHST_MODE
      = (b.rd aHST_MODE ||| 8) &&& ~~~6 ||| BitVec.ofNat 32 (speed % 4 * 2) := by
        rw [Block.rd_eq, ← up]
        exact (Block.rd_set_same _ _ (f := HST_MODE_SPEED) (by decide)).trans (ofNat_setBits _ _ _ _)
    _ = b.rd aHST_MODE &&& ~~~6 ||| 8 ||| BitVec.ofNat 32 (2 * speed) := by
        rw [mask, Nat.mod_eq_of_lt speed.isLt, Nat.mul_comm]

/-! ### Configuration requests (R510, R526) -/

/-- The bits of the Command and Status word that R526 names. -/
theorem Block.configWord_bits (b : Block) : b.configWord.getLsbD 1 = b.host.pcie.memEnable ∧
    b.configWord.getLsbD 10 = b.host.pcie.intDisable ∧ b.configWord.getLsbD 19 = b.intStatus := by
  unfold Block.configWord
  generalize b.host.pcie.memEnable = me, b.host.pcie.intDisable = dis, b.intStatus = st
  revert me dis st
  decide

/-- Where the host port is PCIe, a change of the block under that condition is the change. -/
theorem State.onBlk_pcie {s : State} (f : Block → Block) (h : s.blk.flag HST_MODE_PORT = false) :
    (s.onBlk fun b => if b.flag HST_MODE_PORT then b else f b) = s.onBlk f :=
  State.onBlk_congr (if_neg (ne_true_of_eq_false h))

theorem exec_configurationRequest (req : CfgReq) (s : State) :
    exec (.configurationRequest req) s = execConfigurationRequest req s := by rfl

/-- What a configuration request does to the block of a device whose host port is PCIe. -/
def Block.configured (b : Block) : CfgReq → Block
  | .read => b.answer 36 b.configWord
  | .command me dis => { b with host.pcie.memEnable := me, host.pcie.intDisable := dis }
  | .bar0 base => { b with host.pcie.bar0 := base.toNat / 2 ^ 24 * 2 ^ 24 }
  | .power d => { b with host.pcie.d3hot := d }

theorem configurationRequest_completes {s : State} (req : CfgReq) (h : s.blk.flag HST_MODE_PORT = false) :
    Completes (.configurationRequest req) s fun t => t = s.onBlk (·.configured req) := by
  refine ⟨s.onBlk (·.configured req), ?_, rfl⟩
  rw [exec_configurationRequest, ← s.onBlk_pcie _ h]
  cases req <;> rfl

/-- A read of the configuration space returns its Command and Status word. -/
theorem configurationRead_completes {s : State} (h : s.blk.flag HST_MODE_PORT = false) :
    Completes (.configurationRequest .read) s fun t =>
      t = s.onBlk ({ · with readData := s.blk.readData.set 36 s.blk.configWord }) := by
  obtain ⟨t, e, rfl⟩ := configurationRequest_completes .read h
  exact ⟨_, e, State.onBlk_congr rfl⟩

/-! ### The link (R512, R611) -/

theorem exec_endpointReset (s : State) : exec .endpointReset s = execEndpointReset s := by rfl

theorem exec_linkUp (speed : Fin 4) (s : State) : exec (.linkUp speed) s = execLinkUp speed s := by rfl

/-- The endpoint at its defaults. -/
def Block.endpointDefaults (b : Block) : Block := { b with host.pcie := ⟨false, false, false, 0⟩ }

theorem endpointReset_completes {s : State} (h : s.blk.flag HST_MODE_PORT = false) :
    Completes .endpointReset s fun t =>
      s.becomes t s.blk.endpointDefaults (· = aHST_MODE) ∧ t.blk.rd aHST_MODE = s.blk.rd aHST_MODE &&& ~~~8 := by
  refine ⟨s.onBlk (·.endpointDefaults.off HST_MODE_LINK_UP), ?_, ?_, ?_⟩
  · rw [exec_endpointReset, ← s.onBlk_pcie _ h]; rfl
  · exact State.becomes_of rfl (s.blk.endpointDefaults.within_set_narrow (f := HST_MODE_LINK_UP) 0 (by decide) rfl)
  · exact s.blk.endpointDefaults.rd_linkDown

theorem linkUp_completes {s : State} (speed : Fin 4) (h : s.blk.flag HST_MODE_PORT = false) :
    Completes (.linkUp speed) s fun t => s.keepsBut t (· = aHST_MODE) ∧
      t.blk.rd aHST_MODE = s.blk.rd aHST_MODE &&& ~~~6 ||| 8 ||| BitVec.ofNat 32 (2 * speed) := by
  refine ⟨s.onBlk fun b => (b.on HST_MODE_LINK_UP).set HST_MODE_SPEED speed, ?_, State.keepsBut_of ?_, s.blk.rd_linkUp speed⟩
  · rw [exec_linkUp, ← s.onBlk_pcie _ h]; rfl
  · exact (s.blk.within_set_narrow (p := (· = aHST_MODE)) (f := HST_MODE_LINK_UP) 1 (by decide) rfl).trans
      (Block.within_set_narrow _ (f := HST_MODE_SPEED) _ (by decide) rfl)

/-! ### Accesses below 32 bits (R5, R511) -/

theorem exec_subWordAccess (m : Fin 39) (write : Bool) (s : State) : exec (.subWordAccess m write) s = execSubWordAccess m write s := by
  rfl

theorem subWordAccess_completes {s : State} {m : Fin 39} (write : Bool) (h : s.blk.connected m = true) :
    Completes (.subWordAccess m write) s fun t =>
      s.hostCounted t (if write then s.blk else s.blk.answer m 0) HST_SUBWORD_CNT := by
  refine ⟨s.onBlk fun b => if write then b.subWord else b.subWord.answer m 0, ?_, State.hostCounted_of ?_ ?_ rfl rfl (by decide)⟩
  · rw [exec_subWordAccess, execSubWordAccess, if_pos h]
  · cases write
    · exact (s.blk.only_hostCount _).answer m 0
    · exact s.blk.only_hostCount _
  · cases write <;> rfl

/-! ### The counters cleared (R515) -/

theorem exec_hstCntClr (m : Fin 39) (s : State) : exec (.hstCntClr m) s = execHstCntClr m s := by rfl

theorem hstCntClr_completes {s : State} {m : Fin 39} (h : s.writes m aHST_CTL 1) :
    let counters := [aHST_SUBWORD_CNT, aHST_UNMAP_CNT, aHST_SPI_ERR_CNT, aHST_LAT_MAX, aHST_ERR_RD_CNT]
    Completes (.hstCntClr m) s fun t => s.keepsBut t (· ∈ counters) ∧ ∀ a ∈ counters, t.blk.rd a = 0 := by
  refine ⟨s.onBlk (·.hostClear), ?_, State.keepsBut_of (Block.within_clearAll _ _), fun _ => Block.rd_clearAll _ _⟩
  rw [exec_hstCntClr, execHstCntClr, State.writeN_cntClr h]

/-! ### Frames of the quad-SPI port (R513, R514) -/

theorem exec_qspiFrame (cmd : Byte) (addr : BitVec 24) (data : List Word) (n : Nat) (late cut : Bool) (s : State) :
    exec (.qspiFrame cmd addr data n late cut) s = execQspiFrame cmd addr data n late cut s := by rfl

theorem frameAddr_first (a : Nat) : frameAddr a 0 = a := by
  unfold frameAddr; split <;> rfl

section
variable {s : State} (addr : BitVec 24) (data : List Word) (n : Nat) (late cut : Bool)

/-- A write frame, where the host port is quad-SPI. -/
theorem exec_qspiWrite (h : s.blk.flag HST_MODE_PORT = true) :
    exec (.qspiFrame 2 addr data n late cut) s = .next (
      let t := (List.range data.length).foldl (fun s k => s.write 36 (frameAddr addr.toNat k) (data.getD k 0)) s
      if cut then t.onBlk Block.subWord else t) := by
  rw [exec_qspiFrame, execQspiFrame, if_neg (not_not_intro h), if_neg (by decide), if_pos rfl]

/-- A read frame, where the host port is quad-SPI. -/
theorem exec_qspiRead (h : s.blk.flag HST_MODE_PORT = true) :
    exec (.qspiFrame 0x0B addr data n late cut) s = .next (
      let t := (List.range n).foldl (fun s k => s.read 36 (frameAddr addr.toNat k)) s
      if late then t.onBlk Block.spiError else t) := by
  rw [exec_qspiFrame, execQspiFrame, if_neg (not_not_intro h), if_pos rfl]

/-- A frame of any other command byte, where the host port is quad-SPI. -/
theorem exec_qspiUnknown {cmd : Byte} (h : s.blk.flag HST_MODE_PORT = true) (hw : cmd ≠ 2) (hr : cmd ≠ 0x0B) :
    exec (.qspiFrame cmd addr data n late cut) s = .next (s.onBlk Block.spiError) := by
  rw [exec_qspiFrame, execQspiFrame, if_neg (not_not_intro h), if_neg hr, if_neg hw]

end

section
variable {s : State} (addr : BitVec 24) (h : s.blk.flag HST_MODE_PORT = true)
include h

/-- A write frame of two words writes them one after the other, both to a window register. -/
theorem qspiWrite_completes (v w : Word) (n : Nat) (late : Bool) :
    Completes (.qspiFrame 2 addr [v, w] n late false) s fun t =>
      t = if isWindow (wordAddr addr.toNat) then (s.write 36 addr.toNat v).write 36 addr.toNat w
        else (s.write 36 addr.toNat v).write 36 (addr.toNat + 4) w := by
  refine ⟨(s.write 36 (frameAddr addr.toNat 0) v).write 36 (frameAddr addr.toNat 1) w, exec_qspiWrite addr [v, w] n late false h, ?_⟩
  rw [frameAddr_first, frameAddr]
  split <;> rfl

/-- A read frame of one word reads it. -/
theorem qspiRead_completes : Completes (.qspiFrame 0x0B addr [] 1 false false) s fun t => t = s.read 36 addr.toNat :=
  ⟨s.read 36 (frameAddr addr.toNat 0), exec_qspiRead addr [] 1 false false h, by rw [frameAddr_first]⟩

theorem qspiUnknown_completes {cmd : Byte} (data : List Word) (n : Nat) (late : Bool) (hw : cmd ≠ 2) (hr : cmd ≠ 0x0B) :
    Completes (.qspiFrame cmd addr data n late false) s fun t => s.hostCounted t s.blk HST_SPI_ERR_CNT :=
  ⟨s.onBlk Block.spiError, exec_qspiUnknown addr data n late false h hw hr,
    State.hostCounted_of (s.blk.only_hostCount _) rfl rfl rfl (by decide)⟩

/-- A read frame that ends before its first word is counted. -/
theorem qspiLate_completes : Completes (.qspiFrame 0x0B addr [] 0 true false) s fun t => s.hostCounted t s.blk HST_SPI_ERR_CNT :=
  ⟨s.onBlk Block.spiError, exec_qspiRead addr [] 0 true false h, State.hostCounted_of (s.blk.only_hostCount _) rfl rfl rfl (by decide)⟩

/-- A write frame cut short in its first word is a sub-word access. -/
theorem qspiCut_completes : Completes (.qspiFrame 2 addr [] 0 false true) s fun t => s.hostCounted t s.blk HST_SUBWORD_CNT :=
  ⟨s.onBlk Block.subWord, exec_qspiWrite addr [] 0 false true h, State.hostCounted_of (s.blk.only_hostCount _) rfl rfl rfl (by decide)⟩

end

/-- Settles O9: each clause is what its command does, one lemma above per command. -/
theorem hostPort : Obligations.HostPort := by
  unfold Obligations.HostPort
  intro s m write dis me d3 late speed base addr v w cmd n b counters counted
  refine ⟨subWordAccess_completes write, hstCntClr_completes, fun pcie => ?_, fun qspi => ?_⟩
  · refine ⟨endpointReset_completes pcie, linkUp_completes speed pcie, configurationRequest_completes (.command me dis) pcie,
      configurationRequest_completes (.power d3) pcie, ?_, b.configWord, b.configWord_bits, ?_⟩
    · rw [← div_mul_eq_mask]
      exact configurationRequest_completes (.bar0 base) pcie
    · exact configurationRead_completes pcie
  · exact ⟨qspiWrite_completes addr qspi v w n late, qspiRead_completes addr qspi, qspiUnknown_completes addr qspi [v] n late,
      qspiLate_completes addr qspi, qspiCut_completes addr qspi⟩

end Sys2Proof.Machine
end

section
/-!
PROOFS. The operands of the loop engines (11_loop_engine_model.md R337, R351 to R357; 12_loop_engine_instructions.md R378 to R394): what
each register code keeps and reads back, the pointer updates by mode, the exponents as runs of equal bits, the tests of BC, the words as
their fields side by side; with them O34.
-/

namespace Sys2Proof.Machine

/-! ### Register codes (R380) -/

/-- A code of a range of `n` codes from `lo` on, as an index. -/
theorem exists_index {lo n code : Nat} (h : lo ≤ code) (h' : code < lo + n) : ∃ k : Fin n, code = lo + k.1 :=
  ⟨⟨code - lo, by omega⟩, (Nat.add_sub_cancel' h).symm⟩

section
variable (r : ERegs) (v : Word) (k : Fin 8) (j : Fin 4)

theorem ERegs.read_g : r.read (0x08 + k.1) = some r.g[k] := by
  have h : r.g.toList[k.1]? = some r.g[k] := by simp
  fin_cases k <;> exact h

theorem ERegs.read_p : r.read (0x10 + k.1) = some (r.p[k].zeroExtend 32) := by
  have h : r.p.toList[k.1]?.map (BitVec.zeroExtend 32) = some (r.p[k].zeroExtend 32) := by simp
  fin_cases k <;> exact h

theorem ERegs.read_d : r.read (0x18 + j.1) = some (r.d[j].signExtend 32) := by
  have h : r.d.toList[j.1]?.map (BitVec.signExtend 32) = some (r.d[j].signExtend 32) := by simp
  fin_cases j <;> exact h

theorem ERegs.read_w : r.read (0x20 + j.1) = some r.w[j] := by
  have h : r.w.toList[j.1]? = some r.w[j] := by simp
  fin_cases j <;> exact h

theorem ERegs.read_fa : r.read (0x28 + j.1) = some r.fa[j] := by
  have h : r.fa.toList[j.1]? = some r.fa[j] := by simp
  fin_cases j <;> exact h

/-- An accumulator as reads by register code find it. -/
theorem ERegs.getD_a : r.a.toList.getD j.1 0 = r.a[j] := by simp

theorem ERegs.read_accLow : r.read (0x30 + 4 * j.1) = some (r.a[j].truncate 32) := by
  rw [← r.getD_a j]; fin_cases j <;> rfl

theorem ERegs.read_accHigh : r.read (0x31 + 4 * j.1) = some ((r.a[j] >>> 32).truncate 32) := by
  rw [← r.getD_a j]; fin_cases j <;> rfl

theorem ERegs.read_accGuard : r.read (0x32 + 4 * j.1) = some (((r.a[j] >>> 64).truncate 16).signExtend 32) := by
  rw [← r.getD_a j]; fin_cases j <;> rfl

/-- The fourth code of each accumulator is reserved. -/
theorem ERegs.read_accReserved : r.read (0x33 + 4 * j.1) = none := by fin_cases j <;> rfl

/-- The codes above the accumulators are reserved. -/
theorem ERegs.read_reserved {code : Nat} (h : 0x40 ≤ code) : r.read code = none := by
  unfold ERegs.read
  split
  any_goals omega
  iterate 6 rw [if_neg (by omega)]

theorem ERegs.write_g : r.write (0x08 + k.1) v = some { r with g := r.g.set k v } := by fin_cases k <;> rfl

theorem ERegs.write_p : r.write (0x10 + k.1) v = some { r with p := r.p.set k (aligned16 v.toNat) } := by fin_cases k <;> rfl

theorem ERegs.write_d : r.write (0x18 + j.1) v = some { r with d := r.d.set j (aligned16 v.toNat) } := by fin_cases j <;> rfl

theorem ERegs.write_w : r.write (0x20 + j.1) v =
    if windowOk v.toNat then some { r with w := r.w.set j (v &&& 0xFFFCFFFC) } else none := by
  fin_cases j <;> rfl

theorem ERegs.write_fa : r.write (0x28 + j.1) v = some { r with fa := r.fa.set j v } := by fin_cases j <;> rfl

theorem ERegs.write_accLow : r.write (0x30 + 4 * j.1) v = r.writePart j 0 v := by fin_cases j <;> rfl

theorem ERegs.write_accHigh : r.write (0x31 + 4 * j.1) v = r.writePart j 1 v := by fin_cases j <;> rfl

theorem ERegs.write_accGuard : r.write (0x32 + 4 * j.1) v = r.writePart j 2 v := by fin_cases j <;> rfl

theorem ERegs.write_accReserved : r.write (0x33 + 4 * j.1) v = none := by fin_cases j <;> rfl

theorem ERegs.write_reserved {code : Nat} (h : 0x40 ≤ code) : r.write code v = none := by
  unfold ERegs.write
  split
  any_goals omega
  iterate 6 rw [dif_neg (by omega)]

end

/-- A word with bits [1:0] cleared, by division and by mask. -/
theorem aligned16_eq (v : Word) : aligned16 v.toNat = (v.truncate 16 &&& 0xFFFC : BitVec 16) := by
  rw [show (0xFFFC : BitVec 16) = BitVec.allOnes 16 <<< 2 from rfl, ← BitVec.shiftLeft_ushiftRight]
  apply BitVec.eq_of_toNat_eq
  simp only [aligned16, BitVec.toNat_ofNat, BitVec.toNat_shiftLeft, BitVec.toNat_ushiftRight, BitVec.truncate_eq_setWidth,
    BitVec.toNat_setWidth, Nat.shiftRight_eq_div_pow, Nat.shiftLeft_eq]
  omega

/-- The register code `code` takes the word `v`, and then reads `w`. -/
def ERegs.ReadsBack (r : ERegs) (v : Word) (code : Nat) (w : Word) : Prop := ∃ q, r.write code v = some q ∧ q.read code = some w

section
variable {r : ERegs} {v : Word} {code : Nat}

theorem ERegs.readsBack_xy (h : code < 4) : r.ReadsBack v code v := by
  interval_cases code <;> exact ⟨_, rfl, by simp [ERegs.read]⟩

theorem ERegs.readsBack_g (h : 0x08 ≤ code ∧ code < 0x10) : r.ReadsBack v code v := by
  obtain ⟨k, rfl⟩ := exists_index (n := 8) h.1 h.2
  exact ⟨_, r.write_g v k, by simp [ERegs.read_g]⟩

theorem ERegs.readsBack_fa (h : 0x28 ≤ code ∧ code < 0x2C) : r.ReadsBack v code v := by
  obtain ⟨j, rfl⟩ := exists_index (n := 4) h.1 h.2
  exact ⟨_, r.write_fa v j, by simp [ERegs.read_fa]⟩

/-- Xi, Yi, Gi and FAi keep the whole word. -/
theorem ERegs.readsBack_word (h : code < 4 ∨ (0x08 ≤ code ∧ code < 0x10) ∨ (0x28 ≤ code ∧ code < 0x2C)) : r.ReadsBack v code v := by
  rcases h with h | h | h
  · exact readsBack_xy h
  · exact readsBack_g h
  · exact readsBack_fa h

theorem ERegs.readsBack_p (h : 0x10 ≤ code) (h' : code < 0x18) :
    r.ReadsBack v code ((v.truncate 16 &&& 0xFFFC : BitVec 16).zeroExtend 32) := by
  obtain ⟨k, rfl⟩ := exists_index (n := 8) h h'
  exact ⟨_, r.write_p v k, by simp [ERegs.read_p, aligned16_eq]⟩

theorem ERegs.readsBack_d (h : 0x18 ≤ code) (h' : code < 0x1C) :
    r.ReadsBack v code ((v.truncate 16 &&& 0xFFFC : BitVec 16).signExtend 32) := by
  obtain ⟨j, rfl⟩ := exists_index (n := 4) h h'
  exact ⟨_, r.write_d v j, by simp [ERegs.read_d, aligned16_eq]⟩

/-- A window that R356 does not allow is not taken. -/
theorem ERegs.readsBack_w (h : 0x20 ≤ code) (h' : code < 0x24) :
    if windowOk v.toNat then r.ReadsBack v code (v &&& 0xFFFCFFFC) else r.write code v = none := by
  obtain ⟨j, rfl⟩ := exists_index (n := 4) h h'
  split
  next ok => exact ⟨_, (r.write_w v j).trans (if_pos ok), by simp [ERegs.read_w]⟩
  next bad => exact (r.write_w v j).trans (if_neg bad)

/-- An attachment with a pointer in mode 3 is not taken (R355). -/
theorem ERegs.readsBack_pa : if attachOk v.toNat then r.ReadsBack v 0x24 v else r.write 0x24 v = none := by
  split
  next ok => exact ⟨_, if_pos ok, rfl⟩
  next bad => exact if_neg bad

variable (n : Fin 4)

theorem ERegs.readsBack_accLow : r.ReadsBack v (0x30 + 4 * n.1) v := by
  refine ⟨_, r.write_accLow v n, (ERegs.read_accLow _ n).trans (congrArg some (BitVec.eq_of_toNat_eq ?_))⟩
  simp only [Fin.getElem_fin, Vector.getElem_set_self, BitVec.truncate_eq_setWidth, BitVec.toNat_setWidth, BitVec.toNat_ofNat]
  omega

/-- Bits [63:32] written put the word there with its sign above it. -/
theorem ERegs.readsBack_accHigh : r.ReadsBack v (0x31 + 4 * n.1) v := by
  refine ⟨_, r.write_accHigh v n, (ERegs.read_accHigh _ n).trans (congrArg some (BitVec.eq_of_toNat_eq ?_))⟩
  simp only [ERegs.beginSum, Fin.getElem_fin, Vector.getElem_set_self, BitVec.truncate_eq_setWidth, BitVec.toNat_setWidth,
    BitVec.toNat_ushiftRight, Nat.shiftRight_eq_div_pow, BitVec.toNat_ofInt, BitVec.toInt_eq_toNat_cond]
  split <;> omega

theorem ERegs.readsBack_accGuard : r.ReadsBack v (0x32 + 4 * n.1) ((v.truncate 16).signExtend 32) := by
  refine ⟨_, r.write_accGuard v n, (ERegs.read_accGuard _ n).trans (congrArg (some ∘ BitVec.signExtend 32) (BitVec.eq_of_toNat_eq ?_))⟩
  simp only [Fin.getElem_fin, Vector.getElem_set_self, BitVec.truncate_eq_setWidth, BitVec.toNat_setWidth,
    BitVec.toNat_ushiftRight, Nat.shiftRight_eq_div_pow, BitVec.toNat_ofNat]
  omega

end

/-! ### Pointer updates (R354 to R357) -/

/-- `d` is what the update `u` adds to a pointer of lane `j` (R354). -/
def ERegs.Adds (r : ERegs) (j : Fin 4) (u : Nat) (d : Int) : Prop :=
  (u = 1 ∧ d = 4) ∨ (u = 2 ∧ d = -4) ∨ (u = 3 ∧ d = r.d[j].toInt) ∨ (u = 4 ∧ d = -r.d[j].toInt)

/-- The base of the window of lane `j` (R356). -/
def ERegs.ringBase (r : ERegs) (j : Fin 4) : Nat := r.w[j].toNat % 2 ^ 16

/-- The length of the window of lane `j` (R356). -/
def ERegs.ringLen (r : ERegs) (j : Fin 4) : Nat := r.w[j].toNat / 2 ^ 16

/-- The lane of pointer `k` (R355). -/
def ERegs.lane (r : ERegs) (k : Fin 8) : Nat := bits r.pa.toNat (4 * k.1) 2

/-- The mode of pointer `k` (R355). -/
def ERegs.mode (r : ERegs) (k : Fin 8) : Nat := bits r.pa.toNat (4 * k.1 + 2) 2

/-- The offset of pointer `k` in the window of lane `j`, before it is brought into the ring (R357). -/
def ERegs.ringOffset (r : ERegs) (k : Fin 8) (j : Fin 4) : Nat := (r.p[k].toNat + 2 ^ 16 - r.ringBase j) % 2 ^ 16

/-- Where a pointer of ring mode goes from there by `d` (R357). -/
def ERegs.ringNext (r : ERegs) (k : Fin 8) (j : Fin 4) (d : Int) : Int :=
  r.ringBase j + ((r.ringOffset k j % r.ringLen j : Nat) + d) % r.ringLen j

theorem ERegs.step_zero (r : ERegs) (k : Fin 8) : r.step k 0 = some r.p[k] := rfl

section
variable {r : ERegs} {k : Fin 8} {j : Fin 4} {u : Nat} {d : Int} (hl : r.lane k = j.1) (hd : r.Adds j u d)
include hl hd

/-- The updates other than 0, by mode. -/
theorem ERegs.step_of_adds : r.step k u =
    if r.mode k = 0 ∨ r.mode k = 2 ∧ u < 3 then some (BitVec.ofInt 16 (r.p[k].toNat + d))
    else if r.mode k = 1 then
      if r.ringLen j = 0 then none else some (BitVec.ofInt 16 (r.ringNext k j d))
    else if r.mode k = 2 then some (BitVec.ofNat 16 (revAdd r.p[k].toNat r.d[j].toNat (u = 4)))
    else none := by
  obtain rfl : (⟨r.lane k, bits_lt _ _ 2⟩ : Fin 4) = j := Fin.ext hl
  rcases hd with ⟨rfl, rfl⟩ | ⟨rfl, rfl⟩ | ⟨rfl, rfl⟩ | ⟨rfl, rfl⟩
  all_goals
    unfold ERegs.step ERegs.mode
    generalize bits r.pa.toNat (4 * k.1 + 2) 2 = m
    match m with
    | 0 => rfl
    | 1 => rfl
    | 2 => rfl
    | m + 3 => simp

theorem ERegs.step_linear (h : r.mode k = 0 ∨ r.mode k = 2 ∧ u < 3) :
    ∃ q, r.step k u = some q ∧ (q.toNat : Int) = (r.p[k].toNat + d) % 2 ^ 16 := by
  refine ⟨_, (ERegs.step_of_adds hl hd).trans (if_pos h), ?_⟩
  rw [BitVec.toNat_ofInt]
  omega

theorem ERegs.step_ring (h : r.mode k = 1) (h0 : 0 < r.ringLen j) (hb : r.ringBase j + r.ringLen j ≤ 2 ^ 16) :
    ∃ q, r.step k u = some q ∧ (q.toNat : Int) = r.ringNext k j d := by
  have len : (0 : Int) < r.ringLen j := Int.natCast_pos.2 h0
  have lo := Int.emod_nonneg ((r.ringOffset k j % r.ringLen j : Nat) + d) len.ne'
  have hi := Int.emod_lt_of_pos ((r.ringOffset k j % r.ringLen j : Nat) + d) len
  refine ⟨BitVec.ofInt 16 (r.ringNext k j d), ?_, ?_⟩
  · rw [ERegs.step_of_adds hl hd, if_neg (by omega), if_pos h, if_neg h0.ne']
  · rw [BitVec.toNat_ofInt, ERegs.ringNext]
    omega

theorem ERegs.step_ring_empty (h : r.mode k = 1) (h0 : r.ringLen j = 0) : r.step k u = none := by
  rw [ERegs.step_of_adds hl hd, if_neg (by omega), if_pos h, if_pos h0]

theorem ERegs.step_mode3 (h : r.mode k = 3) : r.step k u = none := by
  rw [ERegs.step_of_adds hl hd, if_neg (by omega), if_neg (by omega), if_neg (by omega)]

end

/-! ### Exponents (R351) -/

theorem leadZeros_of_testBit {w n : Nat} (h : n.testBit w = true) : leadZeros (w + 1) n = 0 := if_pos h

theorem leadZeros_of_not_testBit {w n : Nat} (h : n.testBit w = false) : leadZeros (w + 1) n = 1 + leadZeros w n :=
  if_neg (Bool.eq_false_iff.1 h)

theorem leadZeros_le (w n : Nat) : leadZeros w n ≤ w := by
  induction w with
  | zero => rfl
  | succ w ih =>
    cases b : n.testBit w with
    | true => rw [leadZeros_of_testBit b]; exact Nat.zero_le _
    | false => rw [leadZeros_of_not_testBit b]; omega

theorem testBit_of_lt_leadZeros {w n k : Nat} (h : k < leadZeros w n) : n.testBit (w - 1 - k) = false := by
  induction w generalizing k with
  | zero => exact absurd h (Nat.not_lt_zero k)
  | succ w ih =>
    cases b : n.testBit w with
    | true => exact absurd (leadZeros_of_testBit b ▸ h) (Nat.not_lt_zero k)
    | false =>
      rw [leadZeros_of_not_testBit b] at h
      cases k with
      | zero => exact b
      | succ k =>
        rw [show w + 1 - 1 - (k + 1) = w - 1 - k by omega]
        exact ih (by omega)

theorem testBit_leadZeros {w n : Nat} (h : leadZeros w n < w) : n.testBit (w - 1 - leadZeros w n) = true := by
  induction w with
  | zero => exact absurd h (Nat.not_lt_zero _)
  | succ w ih =>
    cases b : n.testBit w with
    | true => rwa [leadZeros_of_testBit b]
    | false =>
      rw [leadZeros_of_not_testBit b] at h ⊢
      rw [show w + 1 - 1 - (1 + leadZeros w n) = w - 1 - leadZeros w n by omega]
      exact ih (by omega)

/-- The bits of `x` told from its top bit: `x`, or its complement where it is negative. -/
def flipNeg {w : Nat} (x : BitVec w) : BitVec w := if x.msb then ~~~x else x

theorem toNat_flipNeg {w : Nat} (x : BitVec w) : (flipNeg x).toNat = if x.toInt < 0 then (-1 - x.toInt).toNat else x.toInt.toNat := by
  unfold flipNeg
  cases h : x.msb with
  | true =>
    rw [if_pos rfl, if_pos (BitVec.toInt_neg_of_msb_true h), BitVec.toInt_eq_msb_cond, h, if_pos rfl, BitVec.toNat_not]
    have := x.isLt
    omega
  | false =>
    rw [if_neg (by decide), if_neg (BitVec.toInt_nonneg_of_msb_false h).not_gt, BitVec.toNat_toInt_of_msb x h]

theorem getLsbD_flipNeg {w i : Nat} (x : BitVec (w + 1)) (h : i < w) : (flipNeg x).getLsbD i = (x.getLsbD i != x.getLsbD w) := by
  have m : x.getLsbD w = x.msb := by rw [BitVec.msb_eq_getLsbD_last, Nat.add_sub_cancel]
  rw [m, flipNeg]
  cases x.msb <;> simp [h.trans (Nat.lt_succ_self w)]

/-- How many bits directly below the top bit of `x` equal it. -/
def signRun {w : Nat} (x : BitVec (w + 1)) : Nat := leadZeros w (flipNeg x).toNat

section
variable {w : Nat} (x : BitVec (w + 1))

theorem signRun_le : signRun x ≤ w := leadZeros_le w _

theorem getLsbD_of_lt_signRun {k : Nat} (h : k < signRun x) : x.getLsbD (w - 1 - k) = x.getLsbD w := by
  have b : (flipNeg x).getLsbD (w - 1 - k) = false := testBit_of_lt_leadZeros h
  rw [getLsbD_flipNeg x (by have := signRun_le x; omega)] at b
  exact bne_eq_false_iff_eq.1 b

theorem getLsbD_signRun (h : signRun x < w) : x.getLsbD (w - 1 - signRun x) ≠ x.getLsbD w := by
  have b : (flipNeg x).getLsbD (w - 1 - signRun x) = true := testBit_leadZeros h
  rw [getLsbD_flipNeg x (by omega)] at b
  exact bne_iff_ne.1 b

end

theorem accExp_eq_signRun (a : BitVec 80) : accExp a.toInt = signRun a - 16 := by
  rw [accExp, signRun, toNat_flipNeg]

theorem wordExp_eq_signRun (x : Word) : wordExp x = signRun x := by
  rw [wordExp, signRun, toNat_flipNeg]
  congr 2
  split
  · rfl
  · next h => rw [BitVec.toNat_toInt_of_msb x (by rw [BitVec.msb_eq_toInt]; exact decide_eq_false h)]

/-- R351, for an accumulator. -/
theorem accExp_spec (a : BitVec 80) : -16 ≤ accExp a.toInt ∧ accExp a.toInt ≤ 63 ∧
    (∀ k : Nat, k < (accExp a.toInt + 16).toNat → a.getLsbD (78 - k) = a.getLsbD 79) ∧
    (accExp a.toInt < 63 → a.getLsbD (78 - (accExp a.toInt + 16).toNat) ≠ a.getLsbD 79) := by
  have n : (accExp a.toInt + 16).toNat = signRun a := by rw [accExp_eq_signRun]; omega
  have l := signRun_le a
  rw [n, accExp_eq_signRun]
  exact ⟨by omega, by omega, fun k => getLsbD_of_lt_signRun a, fun h => getLsbD_signRun a (by omega)⟩

/-- R351, for a word. -/
theorem wordExp_spec (x : Word) : 0 ≤ wordExp x ∧ wordExp x ≤ 31 ∧
    (∀ k : Nat, k < (wordExp x).toNat → x.getLsbD (30 - k) = x.getLsbD 31) ∧
    (wordExp x < 31 → x.getLsbD (30 - (wordExp x).toNat) ≠ x.getLsbD 31) := by
  have l := signRun_le x
  rw [wordExp_eq_signRun, Int.toNat_natCast]
  exact ⟨by omega, by omega, fun k => getLsbD_of_lt_signRun x, fun h => getLsbD_signRun x (by omega)⟩

/-! ### Branch tests (Table 12.10) -/

section
variable (r : ERegs) (c x : BitVec 4)

theorem ERegs.condition_g {k : Fin 8} (hc : c.toNat < 6) (hx : x.toNat = k.1) :
    r.condition c x = some (signTest c.toNat r.g[k].toInt) := by
  simp [ERegs.condition, hc, hx]

theorem ERegs.condition_acc {n : Fin 4} (hc : 6 ≤ c.toNat ∧ c.toNat < 12) (hx : x.toNat = n.1) :
    r.condition c x = some (signTest (c.toNat - 6) r.a[n].toInt) := by
  simp [ERegs.condition, ERegs.acc, hc.1.not_gt, hc.2, hx]

theorem ERegs.condition_g_none (hc : c.toNat < 6) (hx : 8 ≤ x.toNat) : r.condition c x = none := by
  simp [ERegs.condition, hc, hx.not_gt]

theorem ERegs.condition_acc_none (hc : 6 ≤ c.toNat) (hc' : c.toNat < 12) (hx : 4 ≤ x.toNat) : r.condition c x = none := by
  simp [ERegs.condition, hc.not_gt, hc', hx.not_gt]

/-- The six tests of Table 12.10 on the signed value `v`, from the condition `base` on. -/
def ERegs.SixTests (r : ERegs) (base x : BitVec 4) (v : Int) : Prop :=
  r.condition base x = some (decide (v = 0)) ∧ r.condition (base + 1) x = some (decide (v ≠ 0)) ∧
  r.condition (base + 2) x = some (decide (v < 0)) ∧ r.condition (base + 3) x = some (decide (0 ≤ v)) ∧
  r.condition (base + 4) x = some (decide (0 < v)) ∧ r.condition (base + 5) x = some (decide (v ≤ 0))

theorem ERegs.sixTests_g {k : Fin 8} (hx : x.toNat = k.1) : r.SixTests 0 x r.g[k].toInt := by
  and_intros <;> exact r.condition_g _ x (by decide) hx

theorem ERegs.sixTests_acc {n : Fin 4} (hx : x.toNat = n.1) : r.SixTests 6 x r.a[n].toInt := by
  and_intros <;> exact r.condition_acc _ x (by decide) hx

end

/-! ### Words as their fields, most significant bits first (R378, R381, R387, R389 to R394) -/

/-- Bit vectors side by side, as a number. -/
theorem toNat_append_add {m n : Nat} (x : BitVec m) (y : BitVec n) : (x ++ y).toNat = x.toNat * 2 ^ n + y.toNat := by
  rw [BitVec.toNat_append, ← Nat.shiftLeft_add_eq_or_of_lt y.isLt, Nat.shiftLeft_eq]

theorem b2n_eq_toNat (b : Bool) : b2n b = (BitVec.ofBool b).toNat := by cases b <;> rfl

/-- A number that is a bit vector's, as that bit vector. -/
theorem ofNat_eq_of_toNat {w n : Nat} {x : BitVec w} (h : x.toNat = n) : BitVec.ofNat w n = x := by
  rw [← h, BitVec.ofNat_toNat, BitVec.setWidth_eq]

section
variable (op : BitVec 4) (n m : Fin 4) (g d : Fin 8) (s : Bool) (c1 c2 : BitVec 7) (u : BitVec 3) (imm : BitVec 16)

theorem controlWord_eq_append (field : BitVec 24) : controlWord op.toNat field.toNat = 0x0#4 ++ op ++ field := by
  refine ofNat_eq_of_toNat ?_
  simp only [toNat_append_add, BitVec.toNat_ofNat]
  omega

theorem accWord_eq_append : accWord op.toNat n m g imm.toNat =
    0x1#4 ++ op ++ BitVec.ofNat 2 n.1 ++ BitVec.ofNat 2 m.1 ++ 0#1 ++ BitVec.ofNat 3 g.1 ++ imm := by
  refine ofNat_eq_of_toNat ?_
  simp only [toNat_append_add, BitVec.toNat_ofNat]
  omega

theorem integerWord_eq_append : integerWord op.toNat d g s imm =
    0x2#4 ++ op ++ BitVec.ofNat 3 d.1 ++ BitVec.ofNat 3 g.1 ++ BitVec.ofBool s ++ 0#1 ++ imm := by
  refine ofNat_eq_of_toNat ?_
  simp only [toNat_append_add, b2n_eq_toNat, BitVec.toNat_ofNat]
  omega

theorem immediateWord_eq_append : immediateWord s c1 imm = 0x3#4 ++ BitVec.ofBool s ++ c1 ++ 0#4 ++ imm := by
  refine ofNat_eq_of_toNat ?_
  simp only [toNat_append_add, b2n_eq_toNat, BitVec.toNat_ofNat]
  omega

theorem moveWord_eq_append : moveWord c1 c2 = 0x4#4 ++ 0#1 ++ c1 ++ c2 ++ 0#13 := by
  refine ofNat_eq_of_toNat ?_
  simp only [toNat_append_add, BitVec.toNat_ofNat]
  omega

theorem bankForm_eq_append : bankForm op.toNat c1.toNat g u s =
    0x5#4 ++ op ++ 0#1 ++ c1 ++ BitVec.ofNat 3 g.1 ++ u ++ BitVec.ofBool s ++ 0#9 := by
  refine ofNat_eq_of_toNat ?_
  simp only [toNat_append_add, b2n_eq_toNat, BitVec.toNat_ofNat]
  omega

theorem fabricForm_eq_append : fabricForm op.toNat n m c1.toNat g u s =
    0x6#4 ++ op ++ BitVec.ofNat 2 n.1 ++ BitVec.ofNat 2 m.1 ++ c1 ++ BitVec.ofNat 3 g.1 ++ u ++ BitVec.ofBool s ++ 0#6 := by
  refine ofNat_eq_of_toNat ?_
  simp only [toNat_append_add, b2n_eq_toNat, BitVec.toNat_ofNat]
  omega

theorem multiplyForm_eq_append (aop : BitVec 2) (men : BitVec 4) (xm ym : BitVec 10) (scn : Bool) :
    multiplyForm aop.toNat men n s xm ym scn =
      1#1 ++ men ++ aop ++ BitVec.ofNat 2 n.1 ++ BitVec.ofBool s ++ xm ++ ym ++ BitVec.ofBool scn ++ 0#1 := by
  refine ofNat_eq_of_toNat ?_
  simp only [toNat_append_add, b2n_eq_toNat, BitVec.toNat_ofNat]
  omega

end

/-- Settles O34: the register codes, the pointer updates by mode, the exponents as runs of equal bits, the branch tests and the words,
each clause by its lemma above. -/
theorem operandForms : Obligations.OperandForms := by
  unfold Obligations.OperandForms
  refine ⟨fun r v => ?codes, fun r k j u d lane adds => ?pointers, ⟨accExp_spec, by decide, wordExp_spec, by decide⟩,
    fun r x k n => ?branches, fun op aop field n m g d s c1 c2 u men xm ym imm => ?words⟩
  case codes =>
    refine ⟨fun _ => ERegs.readsBack_word, fun _ => ERegs.readsBack_p, fun _ => ERegs.readsBack_d, fun _ => ERegs.readsBack_w,
      ERegs.readsBack_pa, fun n hn => ?_, fun _ h => ⟨r.read_reserved h, r.write_reserved v h⟩⟩
    let a : Fin 4 := ⟨n, hn⟩
    exact ⟨ERegs.readsBack_accLow a, ERegs.readsBack_accHigh a, ERegs.readsBack_accGuard a, r.read_accReserved a, r.write_accReserved v a⟩
  case pointers =>
    exact ⟨r.step_zero k, ERegs.step_linear lane adds, ERegs.step_ring lane adds, ERegs.step_ring_empty lane adds,
      ERegs.step_mode3 lane adds⟩
  case branches =>
    exact ⟨r.sixTests_g x, r.sixTests_acc x, fun c => r.condition_g_none c x, fun c => r.condition_acc_none c x, rfl, rfl, rfl, rfl⟩
  case words =>
    exact ⟨controlWord_eq_append op field, accWord_eq_append op n m g imm, integerWord_eq_append op g d s imm,
      immediateWord_eq_append s c1 imm, moveWord_eq_append c1 c2, bankForm_eq_append op g s c1 u, fabricForm_eq_append op n m g s c1 u,
      multiplyForm_eq_append n s aop men xm ym (!s)⟩

end Sys2Proof.Machine
end

section
/-!
PROOFS. Interrupt sources side by side (17_host_interface.md R523), and the plant unit beside the registers: an assertion leaves every other
source alone, and so does a change of registers outside the interrupt pages.
-/

namespace Sys2Proof.Machine

/-! ### Interrupt sources side by side (17_host_interface.md R523) -/

/-- The pending bit of source `n`. -/
def irqBit (n : Nat) : Fld := ⟨aIRQ_PEND (n / 32), n % 32, 1⟩

/-- Source `n` has asserted once between `b` and `c`. -/
def Block.Asserted (n : Nat) (b c : Block) : Prop :=
  c.pendingIrq n = true ∧ Regs.get c.regs (IRQ_S_FLAGS_CNT n) = (Regs.get b.regs (IRQ_S_FLAGS_CNT n) + 1) % 2 ^ 16

/-- Source `n` has not asserted between `b` and `c`: its pending bit and its count are what they were. -/
def Block.Quiet (n : Nat) (b c : Block) : Prop :=
  Regs.get c.regs (irqBit n) = Regs.get b.regs (irqBit n) ∧
    Regs.get c.regs (IRQ_S_FLAGS_CNT n) = Regs.get b.regs (IRQ_S_FLAGS_CNT n)

/-- A field that holds its value shows the same flag. -/
theorem Block.flag_of_get {b c : Block} {f : Fld} (h : Regs.get c.regs f = Regs.get b.regs f) : c.flag f = b.flag f := by
  rw [Block.flag_eq, Block.flag_eq, h]

/-- The registers of the interrupt sources lie below offset 0x6000. -/
theorem irqReg_lt {n a : Nat} (hn : n < 256) (h : irqReg n a) : a < 0x6000 := by
  simp only [irqReg, aIRQ_PEND, aIRQ_S_TIME_LO, aIRQ_S_FLAGS] at h
  omega

theorem irqBit_narrow (n : Nat) : (irqBit n).lo + (irqBit n).w ≤ 32 := by
  simp only [irqBit]; omega

/-- After the pending bit an assertion writes the stamp record of its source alone. -/
theorem Block.within_irq_stamp (b : Block) (s : Nat) :
    (b.set (irqBit s) 1).Within (fun a => aIRQ_S_TIME_LO s ≤ a ∧ a ≤ aIRQ_S_FLAGS s) (b.irq s) := by
  have lo : aIRQ_S_TIME_LO s = 0x4000 + 0x20 * s := rfl
  have hi : aIRQ_S_FLAGS s = 0x4018 + 0x20 * s := rfl
  have flags (c : Block) (f : Fld) (v : Nat) (at_ : f.addr = aIRQ_S_FLAGS s) (n : f.lo + f.w ≤ 32) :
      c.Within (fun a => aIRQ_S_TIME_LO s ≤ a ∧ a ≤ aIRQ_S_FLAGS s) (c.set f v) := c.within_set_narrow v n (by omega)
  have word (c : Block) (v : Word) (k : Nat) (hk : k ≤ 0x14) :
      c.Within (fun a => aIRQ_S_TIME_LO s ≤ a ∧ a ≤ aIRQ_S_FLAGS s) (c.wr (0x4000 + k + 0x20 * s) v) := c.within_wr v (by omega)
  have angle (c : Block) (v : Nat) : c.Within (fun a => aIRQ_S_TIME_LO s ≤ a ∧ a ≤ aIRQ_S_FLAGS s) (c.set (IRQ_S_ANG s) v) :=
    c.within_set v fun a m => by
      simp only [Fld.meets, IRQ_S_ANG, aIRQ_S_ANG] at m
      omega
  unfold Block.irq
  exact (flags _ (IRQ_S_FLAGS_CNT s) _ rfl (by simp [IRQ_S_FLAGS_CNT])).trans <|
    (flags _ (IRQ_S_FLAGS_ANG_VALID s) _ rfl (by simp [IRQ_S_FLAGS_ANG_VALID])).trans <|
    (word _ _ 0 (by decide)).trans <| (word _ _ 4 (by decide)).trans <| (word _ _ 8 (by decide)).trans <|
    (angle _ _).trans (word _ _ 0x14 (by decide))

section
variable {n : Nat} {b c d : Block}

theorem Block.Quiet.trans (h : b.Quiet n c) (g : c.Quiet n d) : b.Quiet n d := ⟨g.1.trans h.1, g.2.trans h.2⟩

theorem Block.Quiet.asserted (h : b.Quiet n c) (g : c.Asserted n d) : b.Asserted n d := by
  obtain ⟨pending, count⟩ := g
  exact ⟨pending, by rw [count, h.2]⟩

theorem Block.Asserted.quiet (h : b.Asserted n c) (g : c.Quiet n d) : b.Asserted n d := by
  obtain ⟨bit, count⟩ := g
  exact ⟨(Block.flag_of_get bit).trans h.1, by rw [count, h.2]⟩

theorem Block.asserted_irq (b : Block) (n : Nat) : b.Asserted n (b.irq n) := ⟨b.pending_irq n, b.count_irq n⟩

variable (hn : n < 256)
include hn

/-- A change of registers from offset 0x6000 on asserts nothing. -/
theorem Block.Within.quiet {p : Nat → Prop} (h : b.Within p c) (far : ∀ a, p a → 0x6000 ≤ a) : b.Quiet n c := by
  constructor
  · refine h.get (fun k => ?_) (.inl (irqBit_narrow n))
    have := far _ k
    simp only [irqBit, aIRQ_PEND] at this
    omega
  · refine h.get (fun k => ?_) (.inl (by simp [IRQ_S_FLAGS_CNT]))
    have := far _ k
    simp only [IRQ_S_FLAGS_CNT, aIRQ_S_FLAGS] at this
    omega

theorem Block.quiet_set (b : Block) {f : Fld} (v : Nat) (narrow : f.lo + f.w ≤ 32) (far : 0x6000 ≤ f.addr) : b.Quiet n (b.set f v) :=
  (b.within_set_narrow (p := (· = f.addr)) v narrow rfl).quiet hn fun _ e => e ▸ far

/-- An assertion leaves fields from offset 0x6000 on alone. -/
theorem Block.get_irq_plant (b : Block) {f : Fld} (far : 0x6000 ≤ f.addr) : Regs.get (b.irq n).regs f = Regs.get b.regs f :=
  b.get_irq_far (fun h => by have := irqReg_lt hn h; omega) (fun h => by have := irqReg_lt hn h; omega)

/-- Another source's assertion leaves source `n` alone: its pending bit is another one, its stamp record lies elsewhere. -/
theorem Block.quiet_irq (b : Block) {s : Nat} (hs : s < 256) (ne : s ≠ n) : b.Quiet n (b.irq s) := by
  constructor
  · rw [(b.within_irq_stamp s).get (by simp only [irqBit, aIRQ_PEND, aIRQ_S_TIME_LO]; omega) (.inl (irqBit_narrow n))]
    refine b.get_set_other 1 (irqBit_narrow s) (irqBit_narrow n) ?_
    simp only [irqBit, aIRQ_PEND]
    omega
  · refine (b.within_irq fun _ => id).get ?_ (.inl (by simp [IRQ_S_FLAGS_CNT]))
    simp only [irqReg, IRQ_S_FLAGS_CNT, aIRQ_PEND, aIRQ_S_TIME_LO, aIRQ_S_FLAGS]
    omega

end

/-! ### Blocks that differ in registers and in the plant unit -/

/-- A counter that saturates, one more. -/
theorem Block.get_inc_same (b : Block) {f : Fld} (n : f.lo + f.w ≤ 32) :
    Regs.get (b.inc f).regs f = satInc f.w (Regs.get b.regs f) := by
  rw [Block.inc_eq, Block.get_set_same _ _ _ (by omega)]
  have : 0 < 2 ^ f.w := by positivity
  exact Nat.mod_eq_of_lt (by unfold satInc; split <;> omega)

/-- A one-bit field just put reads back. -/
theorem Block.flag_put_same (b : Block) {f : Fld} (v : Bool) (n : f.lo + 1 ≤ 64) (hw : f.w = 1) : (b.put f v).flag f = v := by
  rw [Block.put_eq, Block.flag_eq, Block.get_set_same _ _ _ (by omega), hw]
  cases v <;> rfl

/-- The plant unit replaced on both sides. -/
theorem Block.Within.withPlant {p : Nat → Prop} {b c : Block} (h : b.Within p c) (x : Plant) :
    ({ b with plant := x } : Block).Within p { c with plant := x } := by
  obtain ⟨regs, rest⟩ := h
  refine ⟨?_, rest⟩
  unfold Block.RegsOnly at regs ⊢
  rw [regs]

/-- Of the plant unit `t` differs from `s` in the launch queues alone, with the ports `y`; of the rest, in registers. -/
def State.queuesOnly (s t : State) (y : Vector PtpPort 2) : Prop :=
  t = { s with blk := { s.blk with regs := t.blk.regs, plant := { s.blk.plant with queues := t.blk.plant.queues, ports := y } } }

/-- Launch queue `q` of `t` is `l`, the others are those of `s`. -/
def State.queueIs (s t : State) (q : Fin 8) (l : List QEntry) : Prop :=
  t.blk.plant.queues[q] = l ∧ ∀ j, j ≠ q → t.blk.plant.queues[j] = s.blk.plant.queues[j]

/-- The block with launch queue `q` and the ports replaced. -/
def Block.withQueue (b : Block) (q : Fin 8) (l : List QEntry) (y : Vector PtpPort 2) : Block :=
  { b with plant := { b.plant with queues := b.plant.queues.set q l, ports := y } }

theorem State.queue_of_within {s : State} {q : Fin 8} {l : List QEntry} {y : Vector PtpPort 2} {p : Nat → Prop} {c : Block}
    (h : (s.blk.withQueue q l y).Within p c) :
    s.queuesOnly { s with blk := c } y ∧ s.regsBut { s with blk := c } p ∧ s.queueIs { s with blk := c } q l := by
  have plant : c.plant = (s.blk.withQueue q l y).plant := h.1.p_plant
  refine ⟨State.eq_of rfl rfl ?_, h.2, ?_, fun j ne => ?_⟩ <;> dsimp only <;> rw [plant]
  · exact h.1
  · simp [Block.withQueue]
  · have : (q : Nat) ≠ j := fun e => ne (Fin.ext e.symm)
    simp [Block.withQueue, Vector.getElem_set_ne, this]

/-- A command's change of the block, by the block it makes. -/
theorem State.onBlk_eq {s : State} {f : Block → Block} {c : Block} (h : f s.blk = c) : s.onBlk f = { s with blk := c } :=
  State.onBlk_congr (g := fun _ => c) h

end Sys2Proof.Machine
end

section
/-!
PROOFS. The launch queues (18_plant_time.md R544 to R548): what writes to the plant unit's registers come to, a drop, a push, a launch.
-/

namespace Sys2Proof.Machine

/-! ### Writes to the plant page (Table 18.7) -/

/-- A write that reaches a one-word register of the plant unit's expert pages acts on it. -/
theorem State.write_plant {s : State} {m : Fin 39} {x : Nat} {v : Word} {r : Hit} (h : s.writes m x v) (lo : 0x30400 ≤ x) (hi : x < 0x32000)
    (word : x % 4 = 0) (hf : findReg (homeOf x) = some r) (hn : r.desc.wide = false) :
    s.write m x v = s.onBlk (·.writeReg m r (basicPage x) (s.blk.levelAt x) v.toNat) := by
  have axis : axisAt x = none := if_neg (by omega)
  refine State.write_reg h ?_ (by omega) ?_ ?_ ?_ (by simp only [aHST_MB_CMD]; omega) hf hn
  · simp [barWord, word]; omega
  · simp [Layout.isRaw, axis]
  · simp [hiddenVstat]; omega
  · unfold isWindow aHST_MB_DATA aHST_MB_REPLY aCAP_RD_DATA aTRU_FIFO
    simp; omega

/-- A register whose write is its action alone, without RWV fields and not mirrored to a partner. -/
theorem Block.writeReg_actionAlone (b : Block) (m : Fin 39) {r : Hit} (basic level : Bool) (v : Nat) (ha : actionAlone r.base = true)
    (hs : r.base ≠ aANG_CTL) (hm : mirroredReg r.base = false) (hn : r.desc.wide = false)
    (hw : ∀ f ∈ r.desc.fields, f.basic ≠ .rwv ∧ f.expert ≠ .rwv) : b.writeReg m r basic level v = b.regAction m r.base v := by
  have queued : (r.desc.fields.filter fun f => (if basic = true then f.basic else f.expert) = .rwv) = [] := by
    refine List.filter_eq_nil_iff.2 fun f k => ?_
    obtain ⟨hb, he⟩ := hw f k
    cases basic <;> simp [hb, he]
  have all : (r.desc.fields.filter fun _ => true) = r.desc.fields := List.filter_eq_self.2 fun _ _ => rfl
  unfold Block.writeReg Block.mirrorWord
  simp only [hs, ha, hm, hn, decide_false, Bool.false_and, Bool.false_eq_true, if_false, if_true, Bool.not_false, all, queued,
    List.isEmpty_nil, ite_self]

theorem findReg_push (q : Fin 8) : ∃ r, findReg (homeOf (aPLT_Q_PUSH q)) = some r ∧ r.base = aPLT_Q_PUSH q ∧ r.desc.wide = false ∧
    ∀ f ∈ r.desc.fields, f.basic = .wo ∧ f.expert = .wo := by
  fin_cases q <;> exact ⟨_, rfl, rfl, rfl, by decide⟩

theorem findReg_pltCtl : ∃ r, findReg (homeOf aPLT_CTL) = some r ∧ r.base = aPLT_CTL ∧ r.desc.wide = false ∧
    ∀ f ∈ r.desc.fields, f.basic = .wo ∧ f.expert = .wo := ⟨_, rfl, rfl, rfl, by decide⟩

theorem findReg_mdio : ∃ r, findReg (homeOf aPLT_MDIO) = some r ∧ r.base = aPLT_MDIO ∧ r.desc.wide = false ∧
    ∀ f ∈ r.desc.fields, f.basic ≠ .rwv ∧ f.expert ≠ .rwv := ⟨_, rfl, rfl, rfl, by decide⟩

theorem Block.regAction_push (b : Block) (m : Fin 39) (q : Fin 8) (v : Nat) : b.regAction m (aPLT_Q_PUSH q) v = b.queuePush q v := by
  fin_cases q <;> rfl

theorem State.write_push {s : State} {m : Fin 39} {q : Fin 8} {v : Word} (h : s.writes m (aPLT_Q_PUSH q) v) :
    s.write m (aPLT_Q_PUSH q) v = s.onBlk (·.queuePush q v.toNat) := by
  obtain ⟨r, hf, hb, hn, hw⟩ := findReg_push q
  have at_ : aPLT_Q_PUSH q = 0x31004 + 0x20 * q := rfl
  rw [State.write_plant h (by omega) (by omega) (by omega) hf hn]
  apply State.onBlk_congr
  rw [Block.writeReg_writeOnly _ m _ _ _ (by rw [hb, at_]; simp only [aANG_CTL]; omega) hw, hb, Block.regAction_push]

theorem State.write_pltCtl {s : State} {m : Fin 39} {v : Word} (h : s.writes m aPLT_CTL v) :
    s.write m aPLT_CTL v = s.onBlk (·.pltCtl v.toNat) := by
  obtain ⟨r, hf, hb, hn, hw⟩ := findReg_pltCtl
  rw [State.write_plant h (by decide) (by decide) (by decide) hf hn]
  apply State.onBlk_congr
  rw [Block.writeReg_writeOnly _ m _ _ _ (by rw [hb]; decide) hw, hb]
  rfl

theorem State.write_mdio {s : State} {m : Fin 39} {v : Word} (h : s.writes m aPLT_MDIO v) :
    s.write m aPLT_MDIO v = s.onBlk (·.mdioWrite v.toNat) := by
  obtain ⟨r, hf, hb, hn, hw⟩ := findReg_mdio
  rw [State.write_plant h (by decide) (by decide) (by decide) hf hn]
  apply State.onBlk_congr
  rw [Block.writeReg_actionAlone _ m _ _ _ (by rw [hb]; rfl) (by rw [hb]; decide) (by rw [hb]; rfl) hn hw, hb]
  rfl

/-! ### Launch queues (R544, R545, R548) -/

theorem queueN_narrow (i : Nat) : (PLT_Q_STAT_N i).lo + (PLT_Q_STAT_N i).w ≤ 32 := by simp [PLT_Q_STAT_N]

theorem queueDrops_narrow (i : Nat) : (PLT_Q_STAT_DROPS i).lo + (PLT_Q_STAT_DROPS i).w ≤ 32 := by simp [PLT_Q_STAT_DROPS]

theorem queueStat_far (i : Nat) : 0x6000 ≤ aPLT_Q_STAT i := by simp only [aPLT_Q_STAT]; omega

theorem slotBusy_ne_queueStat (i : Nat) : aPLT_SLOT_BUSY ≠ aPLT_Q_STAT i := by simp only [aPLT_Q_STAT, aPLT_SLOT_BUSY]; omega

/-- Whether frame slot `k` is busy (R544). -/
def slotBit (k : Nat) : Fld := ⟨aPLT_SLOT_BUSY, k, 1⟩

/-- The registers that show queue `q` and the slots in use. -/
def queueReg (q : Fin 8) (a : Nat) : Prop := a = aPLT_Q_STAT q ∨ a = aPLT_SLOT_BUSY

theorem queueReg_far (q : Fin 8) (a : Nat) (h : queueReg q a) : 0x6000 ≤ a := by
  obtain rfl | rfl := h
  · exact queueStat_far q
  · decide

/-- A queue holds `l` from now on, and frame slot `k` becomes busy or free: what a push and a launch have in common. -/
def Block.requeue (b : Block) (q : Fin 8) (l : List QEntry) (k : Nat) (v : Bool) : Block := (b.setQueue q l).slotBusy k v

section
variable (b : Block) (q : Fin 8) (l : List QEntry) {k : Nat} (v : Bool) (hk : k < 32)
include hk

theorem Block.within_requeue : (b.withQueue q l b.plant.ports).Within (queueReg q) (b.requeue q l k v) :=
  (Block.within_set_narrow _ (f := PLT_Q_STAT_N q) _ (queueN_narrow q) (.inl rfl)).trans
    (Block.within_set_narrow _ (f := slotBit k) _ hk (.inr rfl))

theorem Block.quiet_requeue {n : Nat} (hn : n < 256) : b.Quiet n (b.requeue q l k v) :=
  have quiet := (b.within_requeue q l v hk).quiet hn (queueReg_far q)
  quiet

/-- Fields outside the queue's status and the slots keep their values. -/
theorem Block.get_requeue {f : Fld} (n : f.lo + f.w ≤ 32) (hq : f.addr ≠ aPLT_Q_STAT q) (hs : f.addr ≠ aPLT_SLOT_BUSY) :
    Regs.get (b.requeue q l k v).regs f = Regs.get b.regs f :=
  (b.within_requeue q l v hk).get (fun h => h.elim hq hs) (.inl n)

theorem Block.get_requeue_stat {f : Fld} (n : f.lo + f.w ≤ 32) (hq : f.addr = aPLT_Q_STAT q) :
    Regs.get (b.requeue q l k v).regs f = Regs.get (b.setQueue q l).regs f :=
  Block.get_set_other _ (f := slotBit k) _ hk n (.inl (hq ▸ (slotBusy_ne_queueStat q).symm))

theorem Block.get_requeue_drops : Regs.get (b.requeue q l k v).regs (PLT_Q_STAT_DROPS q) = Regs.get b.regs (PLT_Q_STAT_DROPS q) := by
  rw [b.get_requeue_stat q l v hk (queueDrops_narrow q) rfl]
  exact Block.get_set_other _ _ (queueN_narrow q) (queueDrops_narrow q) (.inr (.inr (by simp [PLT_Q_STAT_N, PLT_Q_STAT_DROPS])))

theorem Block.get_requeue_n (h : l.length < 32) : Regs.get (b.requeue q l k v).regs (PLT_Q_STAT_N q) = l.length := by
  rw [b.get_requeue_stat q l v hk (queueN_narrow q) rfl]
  exact (Block.get_set_same _ (PLT_Q_STAT_N q) _ ((queueN_narrow q).trans (by decide))).trans (Nat.mod_eq_of_lt h)

theorem Block.flag_requeue_slot : (b.requeue q l k v).flag (slotBit k) = v :=
  Block.flag_put_same _ v (by show k + 1 ≤ 64; omega) rfl

/-- The other slots stay as they are. -/
theorem Block.flag_requeue_other {j : Nat} (hj : j < 32) (ne : j ≠ k) : (b.requeue q l k v).flag (slotBit j) = b.flag (slotBit j) := by
  have slot : Regs.get (b.requeue q l k v).regs (slotBit j) = Regs.get (b.setQueue q l).regs (slotBit j) :=
    Block.get_set_other _ (f := slotBit k) _ hk hj (.inr (by simp only [slotBit]; omega))
  have stat : Regs.get (b.setQueue q l).regs (slotBit j) = Regs.get b.regs (slotBit j) :=
    Block.get_set_other _ _ (queueN_narrow q) hj (.inl (slotBusy_ne_queueStat q))
  exact Block.flag_of_get (slot.trans stat)
end

/-- The source that a drop of queue `q` asserts. -/
def Block.dropSource (b : Block) (q : Fin 8) : Nat := 167 + 6 * b.get (PLT_Q_CFG_PORT q)

section
variable (b : Block) (q : Fin 8)

theorem Block.dropSource_lt : b.dropSource q < 256 := by
  have : b.get (PLT_Q_CFG_PORT q) < 2 := by
    rw [Block.get_eq, Regs.get, if_pos (by simp [PLT_Q_CFG_PORT])]
    exact bits_lt _ _ _
  unfold Block.dropSource
  omega

/-- Queue entries and slots do not decide which source a drop asserts. -/
theorem Block.dropSource_requeue (l : List QEntry) {k : Nat} (v : Bool) (hk : k < 32) :
    (b.requeue q l k v).dropSource q = b.dropSource q :=
  congrArg (167 + 6 * ·) (b.get_requeue q l v hk (by simp [PLT_Q_CFG_PORT])
    (by simp only [PLT_Q_CFG_PORT, aPLT_Q_CFG, aPLT_Q_STAT]; omega) (by simp only [PLT_Q_CFG_PORT, aPLT_Q_CFG, aPLT_SLOT_BUSY]; omega))

theorem Block.within_queueDrop :
    b.Within (fun a => a = aPLT_Q_STAT q ∨ irqReg (b.dropSource q) a) (b.queueDrop q) :=
  (b.within_set_narrow _ (queueDrops_narrow q) (.inl rfl)).trans (Block.within_irq _ fun _ => .inr)

theorem Block.get_queueDrop {f : Fld} (n : f.lo + f.w ≤ 32) (far : 0x6000 ≤ f.addr) (h : f.addr ≠ aPLT_Q_STAT q ∨ f.lo + f.w ≤ 16) :
    Regs.get (b.queueDrop q).regs f = Regs.get b.regs f :=
  (Block.get_irq_plant (b.dropSource_lt q) _ far).trans
    (b.get_set_other _ (queueDrops_narrow q) n (h.imp_right .inl))

theorem Block.flag_queueDrop_slot {j : Nat} (hj : j < 32) : (b.queueDrop q).flag (slotBit j) = b.flag (slotBit j) :=
  Block.flag_of_get (b.get_queueDrop q (f := slotBit j) hj (by show 0x6000 ≤ aPLT_SLOT_BUSY; decide) (.inl (slotBusy_ne_queueStat q)))

theorem Block.get_queueDrop_drops :
    Regs.get (b.queueDrop q).regs (PLT_Q_STAT_DROPS q) = satInc 16 (Regs.get b.regs (PLT_Q_STAT_DROPS q)) :=
  (Block.get_irq_plant (b.dropSource_lt q) _ (queueStat_far q)).trans
    (b.get_inc_same (queueDrops_narrow q))

theorem Block.asserted_queueDrop : b.Asserted (b.dropSource q) (b.queueDrop q) :=
  (b.quiet_set (b.dropSource_lt q) _ (queueDrops_narrow q) (queueStat_far q)).asserted
    (Block.asserted_irq _ _)
end

/-! ### A push (R545) -/

/-- A drop of queue `q` is counted and asserts the source of the queue's port. -/
def State.dropCounted (s t : State) (q : Fin 8) : Prop :=
  t.blk.get (PLT_Q_STAT_DROPS q) = satInc 16 (s.blk.get (PLT_Q_STAT_DROPS q)) ∧ s.asserted t (s.blk.dropSource q)

/-- Frame slot `k` shows `w`, the other slots what they showed. -/
def State.slotShows (s t : State) (k : Nat) (w : Bool) : Prop :=
  t.blk.flag (slotBit k) = w ∧ ∀ j < 32, j ≠ k → t.blk.flag (slotBit j) = s.blk.flag (slotBit j)

/-- A push that finds the queue full or disabled, or the slot busy. -/
def Block.pushRefused (b : Block) (q : Fin 8) (k : Nat) : Prop :=
  16 ≤ b.plant.queues[q].length ∨ b.flag (PLT_Q_CFG_EN q) = false ∨ b.flag (slotBit k) = true

/-- The entry a push makes: the slot named, the launch time staged, the STAMP option. -/
def Block.pushEntry (b : Block) (q : Fin 8) (v : Word) : QEntry :=
  ⟨v.toNat % 2 ^ 5, b.get (PLT_Q_LT q), v.getLsbD 5, v.toNat / 2 ^ 16 % 2 ^ 11⟩

section
variable (b : Block) (q : Fin 8) (v : Word)

theorem bits_low (n w : Nat) : bits n 0 w = n % 2 ^ w := by simp [bits]

theorem Block.queuePush_refused (h : b.pushRefused q (v.toNat % 2 ^ 5)) : b.queuePush q v.toNat = b.queueDrop q := by
  refine if_pos ?_
  rw [bits_low, Bool.not_eq_true]
  exact h

theorem Block.queuePush_taken (h : ¬ b.pushRefused q (v.toNat % 2 ^ 5)) :
    b.queuePush q v.toNat = b.requeue q (b.plant.queues[q] ++ [b.pushEntry q v]) (v.toNat % 2 ^ 5) true := by
  unfold Block.queuePush
  rw [bits_low]
  exact if_neg fun k => h (by rwa [Bool.not_eq_true] at k)
end

theorem exec_push (m : Fin 39) (q : Fin 8) (v : Word) (s : State) : exec (.push m q v) s = .next (s.write m (aPLT_Q_PUSH q) v) := by rfl

section
variable {s : State} {m : Fin 39} {q : Fin 8} {v : Word} (h : s.writes m (aPLT_Q_PUSH q) v)
include h

theorem push_refused (r : s.blk.pushRefused q (v.toNat % 2 ^ 5)) : Completes (.push m q v) s fun t =>
    s.keepsBut t (fun a => a = aPLT_Q_STAT q ∨ irqReg (s.blk.dropSource q) a) ∧ s.dropCounted t q ∧
      t.blk.get (PLT_Q_STAT_N q) = s.blk.get (PLT_Q_STAT_N q) := by
  refine ⟨{ s with blk := s.blk.queueDrop q }, ?_, State.keepsBut_of (f := fun _ => s.blk.queueDrop q) (s.blk.within_queueDrop q),
    ⟨s.blk.get_queueDrop_drops q, s.blk.asserted_queueDrop q⟩, ?_⟩
  · rw [exec_push, State.write_push h, State.onBlk_eq (s.blk.queuePush_refused q v r)]
  · exact s.blk.get_queueDrop q (queueN_narrow q) (queueStat_far q) (.inr (by simp [PLT_Q_STAT_N]))

theorem push_taken (room : s.blk.plant.queues[q].length < 16) (en : s.blk.flag (PLT_Q_CFG_EN q) = true)
    (idle : s.blk.flag (slotBit (v.toNat % 2 ^ 5)) = false) : Completes (.push m q v) s fun t =>
    s.queuesOnly t s.blk.plant.ports ∧ s.regsBut t (queueReg q) ∧
      s.queueIs t q (s.blk.plant.queues[q] ++ [s.blk.pushEntry q v]) ∧
      t.blk.get (PLT_Q_STAT_N q) = s.blk.plant.queues[q].length + 1 ∧ s.slotShows t (v.toNat % 2 ^ 5) true := by
  have hk : v.toNat % 2 ^ 5 < 32 := Nat.mod_lt _ (by decide)
  have taken : ¬ s.blk.pushRefused q (v.toNat % 2 ^ 5) := by
    unfold Block.pushRefused
    rw [en, idle]
    simp only [Bool.true_eq_false, Bool.false_eq_true, or_false]
    omega
  have length : (s.blk.plant.queues[q] ++ [s.blk.pushEntry q v]).length = s.blk.plant.queues[q].length + 1 := List.length_append
  obtain ⟨only, regs, queue⟩ := State.queue_of_within (s.blk.within_requeue q (s.blk.plant.queues[q] ++ [s.blk.pushEntry q v]) true hk)
  refine ⟨_, ?_, only, regs, queue, ?_, s.blk.flag_requeue_slot q _ true hk, fun j hj => s.blk.flag_requeue_other q _ true hk hj⟩
  · rw [exec_push, State.write_push h, State.onBlk_eq (s.blk.queuePush_taken q v taken)]
  · rw [← length]
    exact s.blk.get_requeue_n q _ true hk (by omega)
end

/-! ### A launch (R546 to R548) -/

/-- The head that a port starts next is due, and its queue serves that port. -/
theorem Block.dueQueue_some {b : Block} {p : Fin 2} {q : Fin 8} {e : QEntry} (h : b.dueQueue p = some (q, e)) :
    (e.lt = 0 ∨ (e.lt : Int) * 2 ^ 32 ≤ b.egress p) ∧ (∃ rest, b.plant.queues[q] = e :: rest) ∧ b.get (PLT_Q_CFG_PORT q) = p.1 := by
  obtain ⟨k, -, hk⟩ := List.exists_of_findSome?_eq_some h
  split at hk
  next port =>
    obtain ⟨e', head, eq⟩ := Option.map_eq_some_iff.1 hk
    obtain ⟨rfl, rfl⟩ := Prod.mk.inj eq
    have at_ : (if b.get (PLT_Q_CFG_PORT k) = 1 then 1 else 0 : Fin 2) = p := by
      rw [port]; fin_cases p <;> rfl
    unfold Block.headDue at head
    split at head
    · cases head
    next x rest list =>
      rw [at_] at head
      split at head
      next due =>
        cases head
        exact ⟨due, ⟨rest, list⟩, port⟩
      · cases head
  · cases hk

/-- A head is late (R548). -/
theorem Block.lateEntry_iff (b : Block) (q : Fin 8) (e : QEntry) :
    b.lateEntry q e = true ↔ e.lt ≠ 0 ∧ e.lt + 1000 * b.get (PLT_Q_CFG_LATE_TOL q) < b.ns := by
  unfold Block.lateEntry
  rw [Bool.and_eq_true, decide_eq_true_eq, decide_eq_true_eq]

/-- The frame a head puts on the line (R544, R547). -/
def Block.launchFrame (b : Block) (p : Fin 2) (e : QEntry) : TxMsg :=
  .frame (withFcs (if e.stamp then overlay (b.slotFrame e.slot) e.ofs (ptpStamp (b.egress p)) else b.slotFrame e.slot))

/-- The ports once port `p` has sent `x`. -/
def Block.portsSent (b : Block) (p : Fin 2) (x : TxMsg) : Vector PtpPort 2 :=
  b.plant.ports.set p { b.plant.ports[p] with lastTx := some x, seq := b.plant.ports[p].seq + 1 }

theorem Block.Within.send {b c : Block} {q : Fin 8} {l : List QEntry} {r : Nat → Prop} (h : (b.withQueue q l b.plant.ports).Within r c)
    (p : Fin 2) (x : TxMsg) : (b.withQueue q l (b.portsSent p x)).Within r (c.send p x) := by
  have plant : c.plant = (b.withQueue q l b.plant.ports).plant := h.1.p_plant
  have sent := h.withPlant (c.send p x).plant
  rw [show (c.send p x).plant = { c.plant with ports := c.portsSent p x } from rfl, Block.portsSent, plant] at sent
  rw [Block.send, Block.setPort, plant]
  exact sent

theorem exec_launch (p : Fin 2) (s : State) : exec (.launch p) s = execLaunch p s := by rfl

theorem launch_idle {s : State} {p : Fin 2} (h : s.blk.dueQueue p = none) : Completes (.launch p) s (· = s) := by
  refine ⟨s, ?_, rfl⟩
  rw [exec_launch, execLaunch, State.onBlk, h]

section
variable {s : State} {p : Fin 2} {q : Fin 8} {e : QEntry} (h : s.blk.dueQueue p = some (q, e)) (hk : e.slot < 32)
include h hk

/-- A head that is late, or whose port has no link, is dropped. -/
theorem launch_dropped (late : s.blk.lateEntry q e = true ∨ s.blk.flag (PLT_P_STAT_LINK p) = false) : Completes (.launch p) s fun t =>
    s.queuesOnly t s.blk.plant.ports ∧ s.regsBut t (fun a => queueReg q a ∨ irqReg (s.blk.dropSource q) a) ∧
      s.queueIs t q (s.blk.plant.queues[q].drop 1) ∧ s.dropCounted t q ∧ s.slotShows t e.slot false := by
  let c := s.blk.requeue q (s.blk.plant.queues[q].drop 1) e.slot false
  have head : s.blk.launchHead q p e = c.queueDrop q := if_pos (late.imp_right ne_true_of_eq_false)
  have drop := c.within_queueDrop q
  have asserted := c.asserted_queueDrop q
  rw [s.blk.dropSource_requeue q _ false hk] at drop asserted
  have within : (s.blk.withQueue q (s.blk.plant.queues[q].drop 1) s.blk.plant.ports).Within
      (fun a => queueReg q a ∨ irqReg (s.blk.dropSource q) a) (c.queueDrop q) :=
    ((s.blk.within_requeue q _ false hk).mono fun _ => .inl).trans (drop.mono fun _ => .imp_left .inl)
  have quiet : s.blk.Quiet (s.blk.dropSource q) c := s.blk.quiet_requeue q _ false hk (s.blk.dropSource_lt q)
  obtain ⟨only, regs, queue⟩ := State.queue_of_within within
  refine ⟨_, ?_, only, regs, queue, ⟨?_, quiet.asserted asserted⟩, ?_, fun j hj ne => ?_⟩
  · rw [exec_launch, execLaunch, State.onBlk, h, ← head]
  · exact (c.get_queueDrop_drops q).trans (congrArg (satInc 16) (s.blk.get_requeue_drops q _ false hk))
  · exact (c.flag_queueDrop_slot q hk).trans (s.blk.flag_requeue_slot q _ false hk)
  · exact (c.flag_queueDrop_slot q hj).trans (s.blk.flag_requeue_other q _ false hk hj ne)

/-- A head in time, on a port with its link up, is sent. -/
theorem launch_sent (intime : s.blk.lateEntry q e = false) (link : s.blk.flag (PLT_P_STAT_LINK p) = true) : Completes (.launch p) s fun t =>
    s.queuesOnly t (s.blk.portsSent p (s.blk.launchFrame p e)) ∧ s.regsBut t (queueReg q) ∧
      s.queueIs t q (s.blk.plant.queues[q].drop 1) ∧ s.slotShows t e.slot false ∧
      t.blk.get (PLT_Q_STAT_DROPS q) = s.blk.get (PLT_Q_STAT_DROPS q) := by
  let c := s.blk.requeue q (s.blk.plant.queues[q].drop 1) e.slot false
  have head : s.blk.launchHead q p e = c.send p (s.blk.launchFrame p e) := if_neg (by rw [intime, link]; decide)
  obtain ⟨only, regs, queue⟩ := State.queue_of_within ((s.blk.within_requeue q _ false hk).send p (s.blk.launchFrame p e))
  refine ⟨_, ?_, only, regs, queue, ⟨s.blk.flag_requeue_slot q _ false hk, fun j hj ne => s.blk.flag_requeue_other q _ false hk hj ne⟩,
    s.blk.get_requeue_drops q _ false hk⟩
  rw [exec_launch, execLaunch, State.onBlk, h, ← head]
end

end Sys2Proof.Machine
end

section
/-!
PROOFS. Line-angle messages received (18_plant_time.md R550): what a sample of the line angle does and leaves alone, and which messages
become one.
-/

namespace Sys2Proof.Machine

/-! ### What a sample of the line angle leaves alone (04_line_angle.md R114 to R116) -/

/-- Between `b` and `c` the plant unit stays and source `n` does not assert. -/
def Block.Apart (n : Nat) (b c : Block) : Prop := c.plant = b.plant ∧ b.Quiet n c

theorem Block.Apart.refl (n : Nat) (b : Block) : b.Apart n b := ⟨rfl, rfl, rfl⟩

section
variable {n : Nat} {b c : Block} (h : b.Apart n c)
include h

/-- The line-angle unit changes. -/
theorem Block.Apart.ang (a : Ang) : b.Apart n { c with ang := a } := h

theorem Block.Apart.safEvent (code : Nat) (axes : List Nat) : b.Apart n (c.safEvent code axes) := h

variable (hn : n < 256)
include hn

theorem Block.Apart.set {f : Fld} (v : Nat) (narrow : f.lo + f.w ≤ 32) (far : 0x6000 ≤ f.addr) : b.Apart n (c.set f v) :=
  ⟨(c.set_plant f v).trans h.1, h.2.trans (c.quiet_set hn v narrow far)⟩

theorem Block.Apart.irq {s : Nat} (hs : s < 256) (ne : s ≠ n) : b.Apart n (c.irq s) :=
  ⟨(c.irq_plant s).trans h.1, h.2.trans (c.quiet_irq hn hs ne)⟩

theorem Block.Apart.stepAngle (th : Nat) : b.Apart n (c.stepAngle th) := by
  unfold Block.stepAngle
  dsimp only
  have turned (e : Prop) [Decidable e] : b.Apart n (if e then ({ c with ang.th := th % 2 ^ 96 } : Block).followGaps
      else { ({ c with ang.th := th % 2 ^ 96 } : Block).followGaps with ang.stepped := true, ang.resyncSince := true }) := by
    split <;> exact .ang (.ang h _) _
  split
  · exact turned _
  · exact ((turned _).set hn _ (by decide) (by decide)).set hn _ (by decide) (by decide)

variable (far : n ≠ 184 ∧ n ≠ 185)
include far

/-- RESYNC shown. -/
theorem Block.Apart.resync : b.Apart n ((c.on ANG_STAT_RESYNC).irq 185) :=
  (h.set hn (f := ANG_STAT_RESYNC) 1 (by decide) (by decide)).irq hn (by decide) far.2.symm

theorem Block.Apart.settingStep (th : Nat) : b.Apart n (c.settingStep th) := by
  unfold Block.settingStep
  dsimp only
  split
  · exact (h.stepAngle hn th).resync hn far
  · exact h.stepAngle hn th

theorem Block.Apart.setRate (w : Int) : b.Apart n (c.setRate w) := by
  unfold Block.setRate
  dsimp only
  split
  · exact .resync (.ang h _) hn far
  · exact .ang h _

theorem Block.Apart.foundSource : b.Apart n c.foundSource := by
  unfold Block.foundSource
  split
  · refine .irq ?_ hn (by decide) far.1.symm
    refine .set ?_ hn 0 (by decide) (by decide)
    refine .set ?_ hn 0 (by decide) (by decide)
    exact .ang h _
  · exact h

theorem Block.Apart.acceptSample (theta tk : Nat) : b.Apart n (c.acceptSample theta tk) :=
  .foundSource (.ang h _) hn far

theorem Block.Apart.useSample (theta tk : Nat) : b.Apart n (c.useSample theta tk) := by
  unfold Block.useSample
  dsimp only
  split
  case isTrue =>
    refine .acceptSample (.ang ?_ _) hn far _ _
    exact h.settingStep hn far _
  case isFalse =>
    split
    case isTrue =>
      refine .acceptSample (.set (.ang ?_ _) hn 1 (by decide) (by decide)) hn far _ _
      exact (h.settingStep hn far _).setRate hn far _
    case isFalse =>
      split
      case isTrue =>
        refine .acceptSample (.safEvent ?_ _ _) hn far _ _
        refine .resync (.set ?_ hn _ (by decide) (by decide)) hn far
        refine .setRate (.ang ?_ _) hn far _
        exact h.stepAngle hn _
      case isFalse =>
        refine .acceptSample (.ang ?_ _) hn far _ _
        exact h.setRate hn far _
end

section
variable (b : Block) (theta tk : Nat)

theorem Block.foundSource_last : b.foundSource.ang.lastT = b.ang.lastT ∧ b.foundSource.ang.lastTheta = b.ang.lastTheta := by
  unfold Block.foundSource
  split
  · simp only [Block.off_eq, Block.irq_ang, Block.set_ang, and_self]
  · exact ⟨rfl, rfl⟩

theorem Block.acceptSample_last : (b.acceptSample theta tk).ang.lastT = tk ∧ (b.acceptSample theta tk).ang.lastTheta = theta :=
  Block.foundSource_last _

theorem Block.useSample_last : (b.useSample theta tk).ang.lastT = tk ∧ (b.useSample theta tk).ang.lastTheta = theta := by
  unfold Block.useSample
  dsimp only
  split
  · exact Block.acceptSample_last _ _ _
  · split
    · exact Block.acceptSample_last _ _ _
    · split <;> exact Block.acceptSample_last _ _ _
end

/-! ### What the line-angle unit makes of a sample (R114) -/

/-- The unit runs on the sampled source (`kind`, `index`) and no handover is under way. -/
def Block.follows (b : Block) (kind index : Nat) : Prop :=
  b.flag ANG_STAT_RUNNING = true ∧ b.ang.handover = none ∧ b.ang.kind = kind ∧ b.ang.index = index ∧ kind ≠ 3 ∧ kind ≠ 0

/-- A sample of time `tk` is no later than the last one, or more than 2 rounds old. -/
def Block.refuses (b : Block) (tk : Nat) : Prop := (b.ang.accepted ≠ 0 ∧ tk ≤ b.ang.lastT) ∨ (2 * b.roundNs : Int) < (b.ns : Int) - tk

section
variable (b : Block) {kind index theta tk : Nat} (uncertain : Bool)

theorem Block.angleSample_stopped (stopped : b.flag ANG_STAT_RUNNING = false) :
    b.angleSample kind index theta tk uncertain = b := if_pos (ne_true_of_eq_false stopped)

variable (h : b.follows kind index)
include h

/-- A sample of the source followed is dropped or used. -/
theorem Block.angleSample_source :
    (b.refuses tk → b.angleSample kind index theta tk uncertain = b.dropSample) ∧
      (¬ b.refuses tk → b.angleSample kind index theta tk uncertain =
        (b.useSample ((theta + b.ang.ofs) % 2 ^ 64) tk).put ANG_STAT_UNCERT uncertain) := by
  obtain ⟨running, settled, source⟩ := h
  unfold Block.angleSample
  rw [if_neg (not_not_intro running)]
  dsimp only
  rw [settled, Option.any_none, if_neg Bool.false_ne_true, if_pos source]
  exact ⟨fun bad => if_pos bad, fun good => if_neg good⟩
end

theorem Block.within_dropSample (b : Block) : b.Within (fun a => a = aANG_DROP_CNT ∨ a = aANG_STAT) b.dropSample :=
  (b.within_set_narrow (f := ANG_DROP_CNT) _ (by decide) (.inl rfl)).trans
    (Block.within_set_narrow _ (f := ANG_STAT_SMP_DROP) _ (by decide) (.inr rfl))

theorem Block.get_dropSample (b : Block) : Regs.get b.dropSample.regs ANG_DROP_CNT = satInc 32 (Regs.get b.regs ANG_DROP_CNT) :=
  (Block.get_set_other _ (f := ANG_STAT_SMP_DROP) _ (by decide) (by decide) (.inl (by decide))).trans (b.get_inc_same (by decide))

/-! ### Line-angle messages received (R550) -/

/-- A message meets every condition of R550 under the LARX record `r`. -/
def Block.accepts (b : Block) (p : Fin 2) (x : LaMsg) (tag : BitVec 128) (r : LarxRec) : Prop :=
  b.larx p x.serial = some r ∧ x.magic = 0x4C41 ∧ x.ver = 1 ∧ x.tag r.key = tag ∧ bit x.flags 3 = true ∧ b.get PLT_STAT_STATE = 3 ∧
    ∀ t0, b.plant.lastOf x.serial = some t0 → t0 < x.time

/-- The message is the newest of its sender. -/
def Block.remembered (b : Block) (x : LaMsg) : Block :=
  { b with plant.laLast := (x.serial, x.time) :: b.plant.laLast.filter (·.1 ≠ x.serial) }

/-- A message starts at port `p` and is the newest of its sender. -/
def Block.heard (b : Block) (p : Fin 2) (x : LaMsg) : Block := (b.frameStart p).remembered x

/-- A message discarded and counted. -/
def Block.laDropped (b : Block) (p : Fin 2) : Block := (b.inc (PLT_P_LA_DROP p)).irq (168 + 6 * p)

theorem exec_lineAngleMessage (p : Fin 2) (x : LaMsg) (tag : BitVec 128) (s : State) :
    exec (.lineAngleMessage p x tag) s = execLineAngleMessage p x tag s := by rfl

section
variable (b : Block) (p : Fin 2)

theorem Block.larx_frameStart (k serial : Nat) : (b.frameStart p).larx k serial = b.larx k serial := by
  unfold Block.larx Block.frameStart
  rw [Block.irq_dealt]

theorem Block.frameStart_plant : (b.frameStart p).plant = b.plant := b.irq_plant _

theorem stat_far : 0x6000 ≤ PLT_STAT_STATE.addr := by decide

theorem Block.get_frameStart {f : Fld} (far : 0x6000 ≤ f.addr) : Regs.get (b.frameStart p).regs f = Regs.get b.regs f :=
  b.get_irq_plant (by omega) far
end

section
variable {s : State} {p : Fin 2} {x : LaMsg} {tag : BitVec 128} {r : LarxRec}

theorem exec_lineAngleMessage_refused (h : s.blk.larx p x.serial = none ∨ (s.blk.larx p x.serial = some r ∧ ¬ s.blk.accepts p x tag r)) :
    exec (.lineAngleMessage p x tag) s = .next { s with blk := (s.blk.frameStart p).laDropped p } := by
  rw [exec_lineAngleMessage, execLineAngleMessage]
  refine congrArg _ (State.onBlk_eq ?_)
  dsimp only
  rw [Block.larx_frameStart]
  refine if_neg fun ok => ?_
  obtain none | ⟨some, refused⟩ := h
  · rw [none] at ok
    cases ok
  · rw [some] at ok
    simp only [Block.get_eq, Block.frameStart_plant, Block.get_frameStart _ _ stat_far, Bool.and_eq_true, decide_eq_true_eq] at ok
    obtain ⟨⟨⟨⟨⟨magic, ver⟩, mac⟩, plock⟩, locked⟩, newer⟩ := ok
    refine refused ⟨some, magic, ver, mac, plock, locked, fun t0 last => ?_⟩
    rw [last] at newer
    exact of_decide_eq_true newer

theorem exec_lineAngleMessage_accepted (h : s.blk.accepts p x tag r) :
    exec (.lineAngleMessage p x tag) s =
      .next { s with blk := (s.blk.heard p x).angleSample 4 p x.angle x.time false } := by
  rw [exec_lineAngleMessage, execLineAngleMessage]
  refine congrArg _ (State.onBlk_eq ?_)
  dsimp only
  rw [Block.larx_frameStart]
  obtain ⟨known, magic, ver, mac, plock, locked, newer⟩ := h
  refine if_pos ?_
  rw [known]
  simp only [Block.get_eq, Block.frameStart_plant, Block.get_frameStart _ _ stat_far, Bool.and_eq_true, decide_eq_true_eq]
  refine ⟨⟨⟨⟨⟨magic, ver⟩, mac⟩, plock⟩, locked⟩, ?_⟩
  cases last : s.blk.plant.lastOf x.serial with
  | none => rfl
  | some t0 => exact decide_eq_true (newer t0 last)
end

section
variable (b : Block) (p : Fin 2)

theorem laDrop_narrow (i : Nat) : (PLT_P_LA_DROP i).lo + (PLT_P_LA_DROP i).w ≤ 32 := by simp [PLT_P_LA_DROP]

theorem laDrop_far (i : Nat) : 0x6000 ≤ (PLT_P_LA_DROP i).addr := by simp only [PLT_P_LA_DROP, aPLT_P_LA_DROP]; omega

theorem Block.within_frameStart : b.Within (irqReg (164 + 6 * p)) (b.frameStart p) := b.within_irq fun _ => id

theorem Block.within_laDropped : b.Within (fun a => a = aPLT_P_LA_DROP p ∨ irqReg (168 + 6 * p) a) (b.laDropped p) :=
  (b.within_set_narrow _ (laDrop_narrow p) (.inl rfl)).trans (Block.within_irq _ fun _ => .inr)

theorem Block.get_laDropped :
    Regs.get (b.laDropped p).regs (PLT_P_LA_DROP p) = satInc 32 (Regs.get b.regs (PLT_P_LA_DROP p)) :=
  (Block.get_irq_plant (by omega) _ (laDrop_far p)).trans (b.get_inc_same (laDrop_narrow p))

theorem Block.asserted_laDropped : b.Asserted (168 + 6 * p) (b.laDropped p) :=
  (b.quiet_set (by omega) _ (laDrop_narrow p) (laDrop_far p)).asserted (Block.asserted_irq _ _)

/-- The frame start of a discarded message shows beside its discard. -/
theorem Block.quiet_laDropped : b.Quiet (164 + 6 * p) (b.laDropped p) :=
  (b.quiet_set (by omega) _ (laDrop_narrow p) (laDrop_far p)).trans (Block.quiet_irq (by omega) _ (by omega) (by omega))

theorem Block.quiet_frameStart : b.Quiet (168 + 6 * p) (b.frameStart p) := b.quiet_irq (by omega) (by omega) (by omega)

theorem Block.asserted_frameStart : b.Asserted (164 + 6 * p) (b.frameStart p) := b.asserted_irq _

section
variable (x : LaMsg)

theorem Block.heard_eq : b.heard p x = { b.frameStart p with plant := (b.remembered x).plant } := by
  unfold Block.heard Block.remembered
  rw [Block.frameStart_plant]

theorem Block.heard_regs : (b.heard p x).regs = (b.frameStart p).regs := rfl

theorem Block.heard_ang : (b.heard p x).ang = b.ang := by
  simp only [Block.heard_eq, Block.frameStart, Block.irq_ang]

theorem Block.heard_roundNs : (b.heard p x).roundNs = b.roundNs := by
  unfold Block.roundNs
  simp only [Block.heard_eq, Block.frameStart, Block.irq_dealt]

theorem Block.heard_ns : (b.heard p x).ns = b.ns := by
  unfold Block.ns
  simp only [Block.heard_eq, Block.frameStart, Block.irq_time]

theorem Block.heard_plant : (b.heard p x).plant = (b.remembered x).plant := by rw [Block.heard_eq]

theorem Block.within_heard : (b.remembered x).Within (irqReg (164 + 6 * p)) (b.heard p x) := by
  rw [Block.heard_eq]
  exact (b.within_frameStart p).withPlant (b.remembered x).plant

theorem Block.get_heard {f : Fld} (far : 0x6000 ≤ f.addr) : Regs.get (b.heard p x).regs f = Regs.get b.regs f := by
  rw [Block.heard_regs, Block.get_frameStart _ _ far]

theorem Block.flag_heard {f : Fld} (far : 0x6000 ≤ f.addr) : (b.heard p x).flag f = b.flag f := by
  rw [Block.flag_eq, Block.flag_eq, Block.get_heard _ _ _ far]

theorem Block.follows_heard {kind index : Nat} (h : b.follows kind index) : (b.heard p x).follows kind index := by
  unfold Block.follows
  rw [Block.flag_heard _ _ _ (by decide), Block.heard_ang]
  exact h

theorem Block.refuses_heard (tk : Nat) : (b.heard p x).refuses tk ↔ b.refuses tk := by
  unfold Block.refuses
  rw [Block.heard_ang, Block.heard_roundNs, Block.heard_ns]

theorem Block.asserted_heard : b.Asserted (164 + 6 * p) (b.heard p x) := by
  unfold Block.Asserted Block.pendingIrq
  rw [Block.flag_eq, Block.heard_regs]
  exact b.asserted_frameStart p
end
end

/-! ### A message received (R550) -/

section
variable {s : State} {p : Fin 2} {x : LaMsg} {tag : BitVec 128} {r : LarxRec}

theorem lineAngleMessage_refused
    (h : s.blk.larx p x.serial = none ∨ (s.blk.larx p x.serial = some r ∧ ¬ s.blk.accepts p x tag r)) :
    Completes (.lineAngleMessage p x tag) s fun t =>
      s.keepsBut t (fun a => irqReg (164 + 6 * p) a ∨ a = aPLT_P_LA_DROP p ∨ irqReg (168 + 6 * p) a) ∧
      t.blk.get (PLT_P_LA_DROP p) = satInc 32 (s.blk.get (PLT_P_LA_DROP p)) ∧ s.asserted t (164 + 6 * p) ∧ s.asserted t (168 + 6 * p) := by
  let c := s.blk.frameStart p
  have within : s.blk.Within (fun a => irqReg (164 + 6 * p) a ∨ a = aPLT_P_LA_DROP p ∨ irqReg (168 + 6 * p) a) (c.laDropped p) :=
    ((s.blk.within_frameStart p).mono fun _ => .inl).trans ((c.within_laDropped p).mono fun _ => .inr)
  refine ⟨_, exec_lineAngleMessage_refused h, State.keepsBut_of (f := fun _ => c.laDropped p) within, ?_,
    (s.blk.asserted_frameStart p).quiet (c.quiet_laDropped p), (s.blk.quiet_frameStart p).asserted (c.asserted_laDropped p)⟩
  exact (c.get_laDropped p).trans (congrArg (satInc 32) (s.blk.get_frameStart p (laDrop_far p)))

section
variable (h : s.blk.accepts p x tag r)
include h

theorem lineAngleMessage_stopped (stopped : s.blk.flag ANG_STAT_RUNNING = false) : Completes (.lineAngleMessage p x tag) s fun t =>
    (s.onBlk (·.remembered x)).keepsBut t (irqReg (164 + 6 * p)) ∧ s.asserted t (164 + 6 * p) := by
  have still : (s.blk.heard p x).flag ANG_STAT_RUNNING = false := (s.blk.flag_heard p x (by decide)).trans stopped
  refine ⟨{ s with blk := s.blk.heard p x }, ?_, ?_, s.blk.asserted_heard p x⟩
  · rw [exec_lineAngleMessage_accepted h, Block.angleSample_stopped _ _ still]
  · exact State.keepsBut_of (s := s.onBlk (·.remembered x)) (f := fun _ => s.blk.heard p x) (s.blk.within_heard p x)

variable (source : s.blk.follows 4 p)
include source

theorem lineAngleMessage_dropped (bad : s.blk.refuses x.time) :
    Completes (.lineAngleMessage p x tag) s fun t =>
      (s.onBlk (·.remembered x)).keepsBut t (fun a => irqReg (164 + 6 * p) a ∨ a = aANG_DROP_CNT ∨ a = aANG_STAT) ∧
        t.blk.get ANG_DROP_CNT = satInc 32 (s.blk.get ANG_DROP_CNT) := by
  have within : (s.blk.remembered x).Within (fun a => irqReg (164 + 6 * p) a ∨ a = aANG_DROP_CNT ∨ a = aANG_STAT)
      (s.blk.heard p x).dropSample :=
    ((s.blk.within_heard p x).mono fun _ => .inl).trans ((Block.within_dropSample _).mono fun _ => .inr)
  refine ⟨{ s with blk := (s.blk.heard p x).dropSample }, ?_, ?_, ?_⟩
  · rw [exec_lineAngleMessage_accepted h, (Block.angleSample_source _ _ (s.blk.follows_heard p x source)).1 ((s.blk.refuses_heard p x _).2 bad)]
  · exact State.keepsBut_of (s := s.onBlk (·.remembered x)) (f := fun _ => (s.blk.heard p x).dropSample) within
  · exact (Block.get_dropSample _).trans (congrArg (satInc 32) (s.blk.get_heard p x (by decide)))

theorem lineAngleMessage_used (good : ¬ s.blk.refuses x.time) : Completes (.lineAngleMessage p x tag) s fun t =>
    t.blk.plant = (s.blk.remembered x).plant ∧ t.blk.ang.lastT = x.time ∧ t.blk.ang.lastTheta = (x.angle + s.blk.ang.ofs) % 2 ^ 64 ∧
      s.asserted t (164 + 6 * p) := by
  have used := (Block.Apart.refl (164 + 6 * p) (s.blk.heard p x)).useSample (by omega) (by omega) ((x.angle + s.blk.ang.ofs) % 2 ^ 64) x.time
  obtain ⟨plant, quiet⟩ := used.set (by omega) (f := ANG_STAT_UNCERT) (b2n false) (by decide) (by decide)
  have last := (s.blk.heard p x).useSample_last ((x.angle + s.blk.ang.ofs) % 2 ^ 64) x.time
  obtain ⟨lastT, lastTheta⟩ := last
  refine ⟨{ s with blk := ((s.blk.heard p x).useSample ((x.angle + s.blk.ang.ofs) % 2 ^ 64) x.time).put ANG_STAT_UNCERT false }, ?_,
    plant.trans (s.blk.heard_plant p x), ?_, ?_, (s.blk.asserted_heard p x).quiet quiet⟩
  · rw [exec_lineAngleMessage_accepted h, (Block.angleSample_source _ _ (s.blk.follows_heard p x source)).2 (mt (s.blk.refuses_heard p x _).1 good),
      Block.heard_ang]
  · dsimp only
    rw [Block.put_eq, Block.set_ang, lastT]
  · dsimp only
    rw [Block.put_eq, Block.set_ang, lastTheta]
end
end

end Sys2Proof.Machine
end

section
/-!
PROOFS. MDIO, links and counters of the plant unit (18_plant_time.md R531, R552, R553), and with the sections before O56.
-/

namespace Sys2Proof.Machine

/-! ### MDIO (R531) -/

theorem exec_pltMdio (m : Fin 39) (v : Word) (s : State) : exec (.pltMdio m v) s = .next (s.write m aPLT_MDIO v) := by rfl

theorem exec_mdioDone (data : BitVec 16) (s : State) : exec (.mdioDone data) s = execMdioDone data s := by rfl

/-- A field of PLT_MDIO after the write of `v` that starts a frame. -/
theorem Block.get_mdioWrite (b : Block) (v : Nat) {f : Fld} (ha : f.addr = aPLT_MDIO) (n : f.lo + f.w ≤ 32) :
    Regs.get (b.mdioWrite v).regs f = bits (v % 2 ^ 29 + 2 ^ 31) f.lo f.w := by
  rw [Regs.get, if_pos n, ha, Block.mdioWrite, Block.wr_regs, sget_sput_same, bits_toNat_ofNat n, bits_low]

theorem pltMdio_completes {s : State} {m : Fin 39} {v : Word} (h : s.writes m aPLT_MDIO v) : Completes (.pltMdio m v) s fun t =>
    s.keepsBut t (· = aPLT_MDIO) ∧ t.blk.flag PLT_MDIO_BUSY = true ∧ t.blk.get PLT_MDIO_OP = v.toNat / 2 ^ 26 % 4 ∧
      t.blk.get PLT_MDIO_DATA = v.toNat % 2 ^ 16 ∧ t.blk.get PLT_MDIO_REG = v.toNat / 2 ^ 16 % 2 ^ 5 ∧
      t.blk.get PLT_MDIO_PHYAD = v.toNat / 2 ^ 21 % 2 ^ 5 ∧ t.blk.get PLT_MDIO_C45 = v.toNat / 2 ^ 28 % 2 := by
  have field {f : Fld} (ha : f.addr = aPLT_MDIO) (n : f.lo + f.w ≤ 32) := s.blk.get_mdioWrite v.toNat ha n
  refine ⟨s.onBlk (·.mdioWrite v.toNat), ?_, State.keepsBut_of (s.blk.within_wr _ rfl), decide_eq_true ?_, ?_, ?_, ?_, ?_, ?_⟩
  · rw [exec_pltMdio, State.write_mdio h]
  all_goals
    simp only [State.onBlk_blk, Block.get_eq]
    rw [field rfl (by decide)]
    simp only [bits, PLT_MDIO_BUSY, PLT_MDIO_OP, PLT_MDIO_DATA, PLT_MDIO_REG, PLT_MDIO_PHYAD, PLT_MDIO_C45]
    omega

theorem mdioDone_idle {s : State} (data : BitVec 16) (h : s.blk.flag PLT_MDIO_BUSY = false) : Completes (.mdioDone data) s (· = s) := by
  refine ⟨s, ?_, rfl⟩
  rw [exec_mdioDone, execMdioDone, State.onBlk, if_neg (ne_true_of_eq_false h)]

theorem mdioDone_busy {s : State} (data : BitVec 16) (h : s.blk.flag PLT_MDIO_BUSY = true) : Completes (.mdioDone data) s fun t =>
    s.keepsBut t (· = aPLT_MDIO) ∧ t.blk.flag PLT_MDIO_BUSY = false ∧
      t.blk.get PLT_MDIO_DATA = if 2 ≤ s.blk.get PLT_MDIO_OP then data.toNat else s.blk.get PLT_MDIO_DATA := by
  have op : (s.blk.off PLT_MDIO_BUSY).get PLT_MDIO_OP = s.blk.get PLT_MDIO_OP :=
    s.blk.get_set_other (f := PLT_MDIO_BUSY) 0 (by decide) (by decide) (.inr (by decide))
  have idle : (s.blk.off PLT_MDIO_BUSY).flag PLT_MDIO_BUSY = false := s.blk.flag_put_same false (by decide) rfl
  have cleared : s.blk.Within (· = aPLT_MDIO) (s.blk.off PLT_MDIO_BUSY) := s.blk.within_set_narrow (f := PLT_MDIO_BUSY) 0 (by decide) rfl
  rw [Completes, exec_mdioDone, execMdioDone, State.onBlk, if_pos h]
  dsimp only
  rw [op]
  split
  case isTrue =>
    refine ⟨_, rfl, State.keepsBut_of (f := fun _ => (s.blk.off PLT_MDIO_BUSY).set PLT_MDIO_DATA data.toNat)
      (cleared.trans (Block.within_set_narrow _ (f := PLT_MDIO_DATA) _ (by decide) rfl)), ?_, ?_⟩
    · refine (Block.flag_of_get ?_).trans idle
      exact Block.get_set_other _ (f := PLT_MDIO_DATA) _ (by decide) (by decide) (.inr (by decide))
    · exact (Block.get_set_same _ PLT_MDIO_DATA _ (by decide)).trans (Nat.mod_eq_of_lt data.isLt)
  case isFalse =>
    refine ⟨_, rfl, State.keepsBut_of (f := (·.off PLT_MDIO_BUSY)) cleared, idle, ?_⟩
    exact s.blk.get_set_other (f := PLT_MDIO_BUSY) 0 (by decide) (by decide) (.inr (by decide))

/-! ### Links (R553) -/

theorem exec_plantLinkChange (p : Fin 2) (link done : Bool) (s : State) :
    exec (.plantLinkChange p link done) s = execPlantLinkChange p link done s := by rfl

theorem plantLinkChange_same {s : State} {p : Fin 2} {link done : Bool}
    (h : s.blk.flag (PLT_P_STAT_LINK p) = link ∧ s.blk.flag (PLT_P_STAT_AN_DONE p) = done) :
    Completes (.plantLinkChange p link done) s (· = s) := by
  refine ⟨s, ?_, rfl⟩
  rw [exec_plantLinkChange, execPlantLinkChange, State.onBlk, if_pos h]

/-- The link shown as it is. -/
def Block.linkShown (b : Block) (p : Fin 2) (link done : Bool) : Block := (b.put (PLT_P_STAT_LINK p) link).put (PLT_P_STAT_AN_DONE p) done

section
variable (b : Block) (p : Fin 2) (link done : Bool)

theorem link_narrow (i : Nat) : (PLT_P_STAT_LINK i).lo + (PLT_P_STAT_LINK i).w ≤ 32 := by simp [PLT_P_STAT_LINK]

theorem anDone_narrow (i : Nat) : (PLT_P_STAT_AN_DONE i).lo + (PLT_P_STAT_AN_DONE i).w ≤ 32 := by simp [PLT_P_STAT_AN_DONE]

theorem Block.within_linkShown : b.Within (· = aPLT_P_STAT p) (b.linkShown p link done) :=
  (b.within_set_narrow (p := (· = aPLT_P_STAT p)) _ (link_narrow p) rfl).trans (Block.within_set_narrow _ _ (anDone_narrow p) rfl)

theorem Block.flag_linkShown_link : (b.linkShown p link done).flag (PLT_P_STAT_LINK p) = link := by
  have kept := (b.put (PLT_P_STAT_LINK p) link).get_set_other (b2n done) (anDone_narrow p) (link_narrow p)
    (.inr (.inl (by simp [PLT_P_STAT_LINK, PLT_P_STAT_AN_DONE])))
  refine (Block.flag_of_get kept).trans (b.flag_put_same link ?_ rfl)
  exact Nat.le_of_lt_succ (by simp [PLT_P_STAT_LINK])

theorem Block.flag_linkShown_done : (b.linkShown p link done).flag (PLT_P_STAT_AN_DONE p) = done :=
  Block.flag_put_same _ done (by simp [PLT_P_STAT_AN_DONE]) rfl

theorem Block.get_linkShown_syncOk :
    Regs.get (b.linkShown p link done).regs (PLT_P_STAT_SYNC_OK p) = Regs.get b.regs (PLT_P_STAT_SYNC_OK p) := by
  have narrow : (PLT_P_STAT_SYNC_OK p).lo + (PLT_P_STAT_SYNC_OK p).w ≤ 32 := by simp [PLT_P_STAT_SYNC_OK]
  refine (Block.get_set_other _ _ (anDone_narrow p) narrow (.inr (.inr ?_))).trans
    (b.get_set_other _ (link_narrow p) narrow (.inr (.inr ?_)))
  · simp [PLT_P_STAT_AN_DONE, PLT_P_STAT_SYNC_OK]
  · simp [PLT_P_STAT_LINK, PLT_P_STAT_SYNC_OK]
end

theorem plantLinkChange_shown {s : State} {p : Fin 2} {link done : Bool}
    (h : ¬ (s.blk.flag (PLT_P_STAT_LINK p) = link ∧ s.blk.flag (PLT_P_STAT_AN_DONE p) = done)) :
    Completes (.plantLinkChange p link done) s fun t =>
      s.keepsBut t (fun a => a = aPLT_P_STAT p ∨ irqReg (165 + 6 * p) a) ∧ t.blk.flag (PLT_P_STAT_LINK p) = link ∧
        t.blk.flag (PLT_P_STAT_AN_DONE p) = done ∧ t.blk.get (PLT_P_STAT_SYNC_OK p) = s.blk.get (PLT_P_STAT_SYNC_OK p) ∧
        s.asserted t (165 + 6 * p) := by
  let c := s.blk.linkShown p link done
  have shown := s.blk.within_linkShown p link done
  have far : 0x6000 ≤ aPLT_P_STAT p := by simp only [aPLT_P_STAT]; omega
  have kept {f : Fld} (hf : f.addr = aPLT_P_STAT p) : Regs.get (c.irq (165 + 6 * p)).regs f = Regs.get c.regs f :=
    c.get_irq_plant (by omega) (hf ▸ far)
  have within : s.blk.Within (fun a => a = aPLT_P_STAT p ∨ irqReg (165 + 6 * p) a) (c.irq (165 + 6 * p)) :=
    (shown.mono fun _ => .inl).trans (c.within_irq fun _ => .inr)
  refine ⟨s.onBlk fun _ => c.irq (165 + 6 * p), ?_, State.keepsBut_of within, ?_, ?_, ?_, ?_⟩
  · rw [exec_plantLinkChange, execPlantLinkChange, State.onBlk, if_neg h]
    rfl
  · exact (Block.flag_of_get (kept rfl)).trans (s.blk.flag_linkShown_link p link done)
  · exact (Block.flag_of_get (kept rfl)).trans (s.blk.flag_linkShown_done p link done)
  · exact (kept rfl).trans (s.blk.get_linkShown_syncOk p link done)
  · exact (shown.quiet (by omega) fun _ e => e ▸ far).asserted (c.asserted_irq _)

/-! ### The counters cleared (R552) -/

/-- The counters of the plant unit. -/
def plantCounters : List Fld :=
  [PLT_JREF_CNT, PLT_HO_CNT] ++ (List.range 2).flatMap (fun p => [PLT_P_RX_DROP p, PLT_P_LA_DROP p]) ++ (List.range 8).map PLT_Q_STAT_DROPS

theorem mem_plantCounters {f : Fld} : f ∈ plantCounters ↔
    f = PLT_JREF_CNT ∨ f = PLT_HO_CNT ∨ (∃ i < 2, f = PLT_P_RX_DROP i ∨ f = PLT_P_LA_DROP i) ∨ ∃ i < 8, f = PLT_Q_STAT_DROPS i := by
  simp [plantCounters, eq_comm]

/-- Fields set to 0 one after the other. -/
def Block.zeroed (b : Block) (l : List Fld) : Block := l.foldl (fun b f => b.set f 0) b

/-- Bit 1 of PLT_CTL sets the counters to 0 and does nothing else. -/
theorem Block.pltCtl_cntClr (b : Block) : b.pltCtl 2 = b.zeroed plantCounters := by rfl

section
variable {l : List Fld} (narrow : ∀ f ∈ l, f.lo + f.w ≤ 32)
include narrow

theorem Block.within_zeroed (b : Block) : b.Within (fun a => ∃ f ∈ l, a = f.addr) (b.zeroed l) := by
  induction l generalizing b with
  | nil => exact .refl _ b
  | cons f t ih =>
    refine (b.within_set_narrow 0 (narrow f List.mem_cons_self) ⟨f, List.mem_cons_self, rfl⟩).trans ?_
    refine (ih (fun g k => narrow g (List.mem_cons_of_mem f k)) (b.set f 0)).mono ?_
    rintro a ⟨g, k, rfl⟩
    exact ⟨g, List.mem_cons_of_mem f k, rfl⟩

/-- A field that shares no bit with those set to 0 keeps its value. -/
theorem Block.get_zeroed_other (b : Block) {g : Fld} (hg : g.lo + g.w ≤ 32)
    (apart : ∀ f ∈ l, g.addr ≠ f.addr ∨ g.lo + g.w ≤ f.lo ∨ f.lo + f.w ≤ g.lo) :
    Regs.get (b.zeroed l).regs g = Regs.get b.regs g := by
  induction l generalizing b with
  | nil => rfl
  | cons f t ih =>
    exact (ih (fun g k => narrow g (List.mem_cons_of_mem f k)) (b.set f 0) fun g k => apart g (List.mem_cons_of_mem f k)).trans
      (b.get_set_other 0 (narrow f List.mem_cons_self) hg (apart f List.mem_cons_self))

/-- Of fields in different registers each reads 0 once all are set to 0. -/
theorem Block.get_zeroed (b : Block) (apart : l.Pairwise (·.addr ≠ ·.addr)) {g : Fld} (hg : g ∈ l) : Regs.get (b.zeroed l).regs g = 0 := by
  induction l generalizing b with
  | nil => cases hg
  | cons f t ih =>
    obtain ⟨head, tail⟩ := List.pairwise_cons.1 apart
    have narrow' : ∀ f ∈ t, f.lo + f.w ≤ 32 := fun g k => narrow g (List.mem_cons_of_mem f k)
    rcases List.mem_cons.1 hg with rfl | hg
    · have n := narrow g List.mem_cons_self
      refine (Block.get_zeroed_other narrow' (b.set g 0) n fun f k => .inl (head f k)).trans ?_
      rw [Block.get_set_same _ _ _ (by omega), Nat.zero_mod]
    · exact ih narrow' (b.set f 0) tail hg
end

theorem exec_pltCntClr (m : Fin 39) (s : State) : exec (.pltCntClr m) s = .next (s.write m aPLT_CTL 2) := by rfl

/-- The registers of the plant unit's counters. -/
def plantCounterReg (a : Nat) : Prop :=
  a = aPLT_JREF_CNT ∨ a = aPLT_HO_CNT ∨ (∃ i < 2, a = aPLT_P_RX_DROP i ∨ a = aPLT_P_LA_DROP i) ∨ ∃ i < 8, a = aPLT_Q_STAT i

theorem plantCounterReg_addr {f : Fld} (h : f ∈ plantCounters) : plantCounterReg f.addr := by
  obtain rfl | rfl | ⟨i, hi, rfl | rfl⟩ | ⟨i, hi, rfl⟩ := mem_plantCounters.1 h
  · exact .inl rfl
  · exact .inr (.inl rfl)
  · exact .inr (.inr (.inl ⟨i, hi, .inl rfl⟩))
  · exact .inr (.inr (.inl ⟨i, hi, .inr rfl⟩))
  · exact .inr (.inr (.inr ⟨i, hi, rfl⟩))

theorem pltCntClr_completes {s : State} {m : Fin 39} (h : s.writes m aPLT_CTL 2) : Completes (.pltCntClr m) s fun t =>
    s.keepsBut t plantCounterReg ∧ t.blk.get PLT_JREF_CNT = 0 ∧ t.blk.get PLT_HO_CNT = 0 ∧
      (∀ i < 2, t.blk.get (PLT_P_RX_DROP i) = 0 ∧ t.blk.get (PLT_P_LA_DROP i) = 0) ∧
      ∀ i < 8, t.blk.get (PLT_Q_STAT_DROPS i) = 0 ∧ t.blk.get (PLT_Q_STAT_N i) = s.blk.get (PLT_Q_STAT_N i) := by
  have narrow : ∀ f ∈ plantCounters, f.lo + f.w ≤ 32 := by decide
  have within : s.blk.Within plantCounterReg (s.blk.zeroed plantCounters) :=
    (s.blk.within_zeroed narrow).mono fun a ⟨f, k, at_⟩ => at_ ▸ plantCounterReg_addr k
  have zero {f : Fld} (k : f ∈ plantCounters) : (s.blk.zeroed plantCounters).get f = 0 := s.blk.get_zeroed narrow (by decide) k
  have beside : ∀ i < 8, ∀ f ∈ plantCounters, (PLT_Q_STAT_N i).addr ≠ f.addr ∨ (PLT_Q_STAT_N i).lo + (PLT_Q_STAT_N i).w ≤ f.lo ∨
      f.lo + f.w ≤ (PLT_Q_STAT_N i).lo := by decide
  refine ⟨s.onBlk (·.zeroed plantCounters), ?_, State.keepsBut_of within, zero (mem_plantCounters.2 (.inl rfl)),
    zero (mem_plantCounters.2 (.inr (.inl rfl))), fun i hi => ⟨zero ?_, zero ?_⟩,
    fun i hi => ⟨zero ?_, s.blk.get_zeroed_other narrow (queueN_narrow i) (beside i hi)⟩⟩
  · rw [exec_pltCntClr, State.write_pltCtl h]
    exact congrArg _ (State.onBlk_congr s.blk.pltCtl_cntClr)
  · exact mem_plantCounters.2 (.inr (.inr (.inl ⟨i, hi, .inl rfl⟩)))
  · exact mem_plantCounters.2 (.inr (.inr (.inl ⟨i, hi, .inr rfl⟩)))
  · exact mem_plantCounters.2 (.inr (.inr (.inr ⟨i, hi, rfl⟩)))

/-- Settles O56: each clause is what its command does, one lemma above per command and case. -/
theorem launchQueues : Obligations.LaunchQueues := by
  unfold Obligations.LaunchQueues
  intro s m p q v e x tag r link done data b l port slot busy queues count dropIrq drops slots plant
  refine ⟨fun h => ⟨push_refused h, push_taken h⟩, launch_idle, fun h => ?launch, ?received, pltMdio_completes, mdioDone_idle data,
    mdioDone_busy data, ⟨plantLinkChange_same, plantLinkChange_shown⟩, pltCntClr_completes⟩
  case launch =>
    intro late y n frame ns stamp hk
    obtain ⟨due, head, served⟩ := Block.dueQueue_some h
    exact ⟨due, head, served, fun lost => launch_dropped h hk (lost.imp_left (b.lateEntry_iff q e).2),
      fun intime => launch_sent h hk (Bool.eq_false_iff.2 (mt (b.lateEntry_iff q e).1 intime))⟩
  case received =>
    intro ok starts last
    exact ⟨lineAngleMessage_refused, lineAngleMessage_stopped, fun h running settled kind index =>
      have source : b.follows 4 p := ⟨running, settled, kind, index, by decide⟩
      ⟨lineAngleMessage_dropped h source, fun new fresh => lineAngleMessage_used h source (not_or.2 ⟨new, fresh⟩)⟩⟩

end Sys2Proof.Machine
end

section
/-!
PROOFS. Events of the scorepad (19_scorepad.md R561 to R563): what an event makes of the queue, by whether it repeats the newest entry, and
the registers it may write.
-/

namespace Sys2Proof.Machine

/-! ### What an event makes of the queue -/

/-- The queue holds `l` from now on, as SCP_QUEUE shows it. -/
def Block.queued (b : Block) (l : List ScpEvent) : Block :=
  (({ b with scp.queue := l } : Block).set SCP_QUEUE_N l.length).peak SCP_QUEUE_PEAK l.length

/-- An event that finds the queue full is counted (R563). -/
def Block.eventLost (b : Block) : Block := (({ b with scp.lostSince := b.scp.lostSince + 1 } : Block).inc SCP_LOST).irq 177

@[simp] theorem Block.queued_scp (b : Block) (l : List ScpEvent) : (b.queued l).scp = { b.scp with queue := l } := by
  simp [Block.queued]

@[simp] theorem Block.eventLost_scp (b : Block) : b.eventLost.scp = { b.scp with lostSince := b.scp.lostSince + 1 } := by
  simp [Block.eventLost]

theorem setLast_concat {α : Type} (f : α → α) (l : List α) (x : α) : setLast f (l ++ [x]) = l ++ [f x] := by
  induction l with
  | nil => rfl
  | cons y t ih => cases t with
    | nil => rfl
    | cons z u => exact congrArg (y :: ·) ih

section
variable {b : Block} {e l : ScpEvent} {rest : List ScpEvent} {q : Nat}

/-- With nothing queued and nothing written, an event is queued. -/
theorem Block.enqueue_first (empty : b.scp.queue = []) (unwritten : b.scp.newest = none) : b.enqueue e = b.queued [e] := by
  have last : b.scp.queue.getLast? = none := List.getLast?_eq_none_iff.2 empty
  unfold Block.enqueue
  rw [last]
  dsimp only
  split
  next written => cases unwritten.symm.trans written
  next => rfl

/-- With nothing queued, an event is told from the newest record written. -/
theorem Block.enqueue_written (empty : b.scp.queue = []) (written : b.scp.newest = some (q, l)) :
    b.enqueue e = if l.same e then { b with scp := { b.scp with newest := some (q, l.repeated e.opsec), repDirty := true } }
      else b.queued [e] := by
  have last : b.scp.queue.getLast? = none := List.getLast?_eq_none_iff.2 empty
  unfold Block.enqueue
  rw [last]
  dsimp only
  split
  next newest => cases written.symm.trans newest; rfl
  next newest => cases written.symm.trans newest

/-- Otherwise it is told from the last entry queued. -/
theorem Block.enqueue_queued (last : b.scp.queue = rest ++ [l]) :
    b.enqueue e = if l.same e then { b with scp := { b.scp with queue := rest ++ [l.repeated e.opsec] } }
      else if 256 ≤ b.scp.queue.length then b.eventLost else b.queued (b.scp.queue ++ [e]) := by
  have newest : b.scp.queue.getLast? = some l := last ▸ List.getLast?_concat
  have repeated : setLast (·.repeated e.opsec) b.scp.queue = rest ++ [l.repeated e.opsec] := last ▸ setLast_concat _ _ _
  unfold Block.enqueue
  rw [newest, ← repeated]
  rfl
end

/-- An event changes the queue or the newest entry alone, shows a new queue, or is lost. -/
theorem Block.enqueue_cases (b : Block) (e : ScpEvent) :
    (∃ x : ScpUnit, b.enqueue e = { b with scp := x } ∧ x.lastHost = b.scp.lastHost) ∨ (∃ l, b.enqueue e = b.queued l) ∨
      b.enqueue e = b.eventLost := by
  rcases List.eq_nil_or_concat' b.scp.queue with empty | ⟨rest, l, last⟩
  · cases written : b.scp.newest with
    | none => exact .inr (.inl ⟨_, Block.enqueue_first empty written⟩)
    | some w =>
      rw [Block.enqueue_written empty written]
      split
      · exact .inl ⟨_, rfl, rfl⟩
      · exact .inr (.inl ⟨_, rfl⟩)
  · rw [Block.enqueue_queued last]
    split
    · exact .inl ⟨_, rfl, rfl⟩
    · split
      · exact .inr (.inr rfl)
      · exact .inr (.inl ⟨_, rfl⟩)

/-! ### The registers an event may write -/

/-- Of the block an event changes the scorepad unit and registers of its own alone. -/
theorem Block.within_enqueue (b : Block) (e : ScpEvent) :
    ({ b with scp := (b.enqueue e).scp } : Block).Within eventReg (b.enqueue e) := by
  rcases b.enqueue_cases e with ⟨x, h, -⟩ | ⟨l, h⟩ | h <;> rw [h]
  · exact .refl _ _
  · rw [Block.queued_scp]
    exact (Block.within_set_narrow _ (f := SCP_QUEUE_N) _ (by decide) (.inl rfl)).trans
      (Block.within_set_narrow _ (f := SCP_QUEUE_PEAK) _ (by decide) (.inl rfl))
  · rw [Block.eventLost_scp]
    exact (Block.within_set_narrow _ (f := SCP_LOST) _ (by decide) (.inr (.inl rfl))).trans
      (Block.within_irq _ fun _ h => .inr (.inr h))

/-- No event changes when the last host record came. -/
theorem Block.enqueue_lastHost (b : Block) (e : ScpEvent) : (b.enqueue e).scp.lastHost = b.scp.lastHost := by
  rcases b.enqueue_cases e with ⟨x, h, same⟩ | ⟨l, h⟩ | h <;> rw [h]
  · exact same
  · rw [Block.queued_scp]
  · rw [Block.eventLost_scp]

/-! ### An event counted in SCP_LOST -/

/-- SCP_LOST increments, and source 177 asserts (R568). -/
theorem Block.countLost (b : Block) : b.Within (fun a => a = aSCP_LOST ∨ irqReg 177 a) ((b.inc SCP_LOST).irq 177) ∧
    Regs.get ((b.inc SCP_LOST).irq 177).regs SCP_LOST = satInc 32 (Regs.get b.regs SCP_LOST) ∧
      b.Asserted 177 ((b.inc SCP_LOST).irq 177) :=
  ⟨(b.within_set_narrow (f := SCP_LOST) _ (by decide) (.inl rfl)).trans (Block.within_irq _ fun _ => .inr),
    (Block.get_irq_plant (by decide) _ (by decide)).trans (b.get_inc_same (f := SCP_LOST) (by decide)),
    (b.quiet_set (by decide) (f := SCP_LOST) _ (by decide) (by decide)).asserted (Block.asserted_irq _ 177)⟩

/-! ### The clauses on events -/

section
variable {b : Block} {code level x y q : Nat} {e : ScpEvent} {rest : List ScpEvent}

theorem Block.event_first (empty : b.scp.queue = []) (unwritten : b.scp.newest = none) :
    (b.event code level x y).scp = { b.scp with queue := [b.stampEvent code level x y false false] } := by
  rw [Block.event, Block.enqueue_first empty unwritten, Block.queued_scp]

theorem Block.event_afterWritten (empty : b.scp.queue = []) (written : b.scp.newest = some (q, e)) :
    (e.same (b.stampEvent code level x y false false) = true →
      (b.event code level x y).scp = { b.scp with newest := some (q, e.repeated (b.get SCP_OPSEC)), repDirty := true }) ∧
    (e.same (b.stampEvent code level x y false false) = false →
      (b.event code level x y).scp = { b.scp with queue := [b.stampEvent code level x y false false] }) := by
  rw [Block.event, Block.enqueue_written empty written]
  refine ⟨fun same => ?_, fun new => ?_⟩
  · rw [if_pos same]
    rfl
  · rw [if_neg (ne_true_of_eq_false new), Block.queued_scp]

theorem Block.event_afterQueued (last : b.scp.queue = rest ++ [e]) :
    (e.same (b.stampEvent code level x y false false) = true →
      (b.event code level x y).scp = { b.scp with queue := rest ++ [e.repeated (b.get SCP_OPSEC)] }) ∧
    (e.same (b.stampEvent code level x y false false) = false → b.scp.queue.length < 256 →
      (b.event code level x y).scp = { b.scp with queue := b.scp.queue ++ [b.stampEvent code level x y false false] }) ∧
    (e.same (b.stampEvent code level x y false false) = false → 256 ≤ b.scp.queue.length →
      (b.event code level x y).scp = { b.scp with lostSince := b.scp.lostSince + 1 } ∧
      (b.event code level x y).get SCP_LOST = satInc 32 (b.get SCP_LOST) ∧ (b.event code level x y).pendingIrq 177 = true) := by
  rw [Block.event, Block.enqueue_queued last]
  refine ⟨fun same => ?_, fun new room => ?_, fun new full => ?_⟩
  · rw [if_pos same]
    rfl
  · rw [if_neg (ne_true_of_eq_false new), if_neg room.not_ge, Block.queued_scp]
  · rw [if_neg (ne_true_of_eq_false new), if_pos full]
    obtain ⟨-, lost, asserted, -⟩ := Block.countLost { b with scp.lostSince := b.scp.lostSince + 1 }
    exact ⟨b.eventLost_scp, lost, asserted⟩
end

end Sys2Proof.Machine
end

section
/-!
PROOFS. What the ferroelectric memory holds (19_scorepad.md R555 to R559): bytes read in part, a sealed record's length, and that the copy of
the counter block just written is the one in force.
-/

namespace Sys2Proof.Machine

/-! ### Bytes -/

theorem Memory.length_readBytes (m : List Host.Cell) (a n : Nat) : (Memory.readBytes m a n).length = n := by
  induction n generalizing a with
  | zero => rfl
  | succ n ih => rw [Memory.readBytes, List.length_cons, ih]

/-- Bytes read together are the bytes read one part after the other. -/
theorem Memory.readBytes_add (m : List Host.Cell) (a k n : Nat) :
    Memory.readBytes m a (k + n) = Memory.readBytes m a k ++ Memory.readBytes m (a + k) n := by
  induction k generalizing a with
  | zero => rw [Nat.zero_add]; rfl
  | succ k ih => rw [Nat.succ_add, Memory.readBytes, ih, Memory.readBytes, List.cons_append, Nat.add_right_comm a 1 k, Nat.add_assoc a k 1]

/-- A part of the bytes read. -/
theorem Memory.take_drop_readBytes (m : List Host.Cell) (a : Nat) {i n l : Nat} (h : i + n ≤ l) :
    ((Memory.readBytes m a l).drop i).take n = Memory.readBytes m (a + i) n := by
  obtain ⟨k, rfl⟩ := Nat.exists_eq_add_of_le h
  rw [Nat.add_assoc, Memory.readBytes_add, List.drop_left' (Memory.length_readBytes m a i), Memory.readBytes_add,
    List.take_left' (Memory.length_readBytes m (a + i) n)]

/-- Bytes written where they are `n` read back, and no other byte changes. -/
theorem Memory.writeBytes_spec (m : List Host.Cell) (a : Nat) {bs : List Byte} {n : Nat} (h : bs.length = n) :
    Memory.readBytes (Memory.writeBytes m a bs) a n = bs ∧
      ∀ x, x < a ∨ a + n ≤ x → Memory.read (Memory.writeBytes m a bs) x = Memory.read m x := by
  subst h
  exact ⟨Memory.readBytes_writeBytes m a bs, fun x => Memory.read_writeBytes_ne m bs⟩

theorem ofBytesBE_lt (bs : List Byte) : ofBytesBE bs < 256 ^ bs.length := by
  induction bs using List.reverseRecOn with
  | nil => exact Nat.one_pos
  | append_singleton l x ih =>
    have := x.isLt
    rw [ofBytesBE] at ih ⊢
    rw [List.foldl_append, List.foldl_cons, List.foldl_nil, List.length_append, List.length_singleton, Nat.pow_succ]
    omega

theorem ScpEvent.length_record (e : ScpEvent) (q : Nat) : (e.record q).length = 64 := by
  simp [ScpEvent.record, ScpEvent.head]

/-! ### The counter block (R558) -/

/-- Bytes with their CRC behind them are a valid copy. -/
theorem copyOk_sealed {n : Nat} {bs : List Byte} (h : bs.length = n) : copyOk n (bs ++ bytesBE 4 (crc32 bs)) = true := by
  have lt : crc32 bs < 256 ^ 4 := crc32_lt bs
  rw [copyOk, List.drop_left' h, List.take_left' h, ofBytesBE_bytesBE, Nat.mod_eq_of_lt lt]
  simp [h]

section
variable (gen opsec pcyc next : Nat)

theorem copyOk_ctrBytes : copyOk 28 (ctrBytes gen opsec pcyc next) = true := copyOk_sealed (by simp)

theorem ctrField_gen : ctrField (ctrBytes gen opsec pcyc next) 0 4 = gen % 2 ^ 32 := by
  simp only [ctrField, ctrBytes, List.append_assoc, List.drop_zero]
  rw [List.take_left' (length_bytesBE 4 gen), ofBytesBE_bytesBE]
  rfl

theorem ctrField_pcyc : ctrField (ctrBytes gen opsec pcyc next) 8 4 = pcyc % 2 ^ 32 := by
  simp only [ctrField, ctrBytes, List.append_assoc]
  rw [← List.append_assoc (bytesBE 4 gen), List.drop_left' (by simp), List.take_left' (length_bytesBE 4 pcyc), ofBytesBE_bytesBE]
  rfl

theorem ctrField_next : ctrField (ctrBytes gen opsec pcyc next) 12 6 = next % 2 ^ 48 := by
  simp only [ctrField, ctrBytes, List.append_assoc]
  rw [← List.append_assoc (bytesBE 4 opsec), ← List.append_assoc (bytesBE 4 gen), List.drop_left' (by simp),
    List.take_left' (length_bytesBE 6 next), ofBytesBE_bytesBE]
  rfl
end

theorem ctrField_lt (c : List Byte) (i n : Nat) : ctrField c i n < 256 ^ n :=
  (ofBytesBE_lt _).trans_le (Nat.pow_le_pow_right (by decide) (List.length_take_le _ _))

/-- The next GEN is later than the one before it, and not the other way round. -/
theorem laterThan_next {g : Nat} (h : g < 2 ^ 32) :
    laterThan 32 ((g + 1) % 2 ^ 32) g = true ∧ laterThan 32 g ((g + 1) % 2 ^ 32) = false := by
  simp only [laterThan, Bool.and_eq_true, Bool.and_eq_false_iff, decide_eq_true_eq, decide_eq_false_iff_not]
  omega

/-- Copy `i` is in force when it is valid and, where the other is valid too, has the later GEN. -/
theorem NonVol.ctrAt_of_later {nv : NonVol} {i : Fin 2} (ok : copyOk 28 nv.ctr[i] = true)
    (later : copyOk 28 nv.ctr[1 - i] = true → laterThan 32 (ctrField nv.ctr[i] 0 4) (ctrField nv.ctr[1 - i] 0 4) = true ∧
      laterThan 32 (ctrField nv.ctr[1 - i] 0 4) (ctrField nv.ctr[i] 0 4) = false) : nv.ctrAt = some i := by
  unfold NonVol.ctrAt
  match i with
  | 0 => cases other : copyOk 28 nv.ctr[1] with
    | true => simp_all
    | false => simp_all
  | 1 => cases other : copyOk 28 nv.ctr[0] with
    | true => simp_all
    | false => simp_all

/-- The copy in force is valid. -/
theorem NonVol.copyOk_of_ctrAt {nv : NonVol} {i : Fin 2} (h : nv.ctrAt = some i) : copyOk 28 nv.ctr[i] = true := by
  unfold NonVol.ctrAt at h
  cases first : copyOk 28 nv.ctr[0] <;> cases second : copyOk 28 nv.ctr[1] <;> simp [first, second] at h
  · exact h ▸ second
  · exact h ▸ first
  · split at h
    · exact h ▸ second
    · exact h ▸ first

/-- With none in force, no copy is valid. -/
theorem NonVol.copyOk_of_ctrAt_none {nv : NonVol} (h : nv.ctrAt = none) (i : Fin 2) : copyOk 28 nv.ctr[i] = false := by
  unfold NonVol.ctrAt at h
  cases first : copyOk 28 nv.ctr[0] <;> cases second : copyOk 28 nv.ctr[1] <;> simp [first, second] at h
  fin_cases i
  · exact first
  · exact second

/-- One of two copies replaced, by the index of the other. -/
theorem getElem_set_otherCopy {α : Type} (v : Vector α 2) (i : Fin 2) (x : α) :
    (v.set (1 - i) x)[1 - i] = x ∧ (v.set (1 - i) x)[1 - (1 - i)] = v[i] := by
  match i with
  | 0 => exact ⟨v.getElem_set_self (i := 1) (by decide), v.getElem_set_ne (i := 1) (j := 0) (by decide) (by decide) (by decide)⟩
  | 1 => exact ⟨v.getElem_set_self (i := 0) (by decide), v.getElem_set_ne (i := 0) (j := 1) (by decide) (by decide) (by decide)⟩

section
variable (nv : NonVol) (next pcyc : Nat)

/-- A write of the counter block changes its copies alone. -/
theorem NonVol.writeCtr_eq : nv.writeCtr next pcyc = { nv with ctr := (nv.writeCtr next pcyc).ctr } := by
  unfold NonVol.writeCtr
  split <;> rfl

/-- The copy just written is in force. -/
theorem NonVol.ctrAt_writeCtr : ∃ i gen, (nv.writeCtr next pcyc).ctrAt = some i ∧
    (nv.writeCtr next pcyc).ctr[i] = ctrBytes gen nv.opsecNow pcyc next := by
  unfold NonVol.writeCtr
  split
  next i h =>
    obtain ⟨now, before⟩ := getElem_set_otherCopy nv.ctr i (ctrBytes (ctrField nv.ctr[i] 0 4 + 1) nv.opsecNow pcyc next)
    refine ⟨1 - i, _, NonVol.ctrAt_of_later ?_ fun _ => ?_, now⟩ <;> dsimp only
    · rw [now]
      exact copyOk_ctrBytes ..
    · rw [now, before, ctrField_gen]
      exact laterThan_next (ctrField_lt _ 0 4)
  next h =>
    have now : (nv.ctr.set 0 (ctrBytes 1 nv.opsecNow pcyc next))[(0 : Fin 2)] = ctrBytes 1 nv.opsecNow pcyc next :=
      nv.ctr.getElem_set_self (by decide)
    have other : (nv.ctr.set 0 (ctrBytes 1 nv.opsecNow pcyc next))[(1 - 0 : Fin 2)] = nv.ctr[(1 : Fin 2)] :=
      nv.ctr.getElem_set_ne (by decide) (by decide) (by decide)
    refine ⟨0, 1, NonVol.ctrAt_of_later ?_ fun valid => ?_, now⟩ <;> dsimp only
    · rw [now]
      exact copyOk_ctrBytes ..
    · dsimp only at valid
      rw [other, nv.copyOk_of_ctrAt_none h 1] at valid
      cases valid

theorem NonVol.nextSeq_writeCtr : (nv.writeCtr next pcyc).nextSeq = next % 2 ^ 48 := by
  obtain ⟨i, gen, at_, copy⟩ := nv.ctrAt_writeCtr next pcyc
  rw [NonVol.nextSeq, at_]
  exact (congrArg (ctrField · 12 6) copy).trans (ctrField_next ..)

theorem NonVol.pcyc_writeCtr : (nv.writeCtr next pcyc).pcyc = pcyc % 2 ^ 32 := by
  obtain ⟨i, gen, at_, copy⟩ := nv.ctrAt_writeCtr next pcyc
  rw [NonVol.pcyc, at_]
  exact (congrArg (ctrField · 8 4) copy).trans (ctrField_pcyc ..)

theorem NonVol.pcyc_lt : nv.pcyc < 2 ^ 32 := by
  unfold NonVol.pcyc
  split
  · exact ctrField_lt _ 8 4
  · decide
end

end Sys2Proof.Machine
end

section
/-!
PROOFS. The Dealer writes a record (19_scorepad.md R557, R558, R562): what waits, a repeat update, the head of the queue with what the page
then shows.
-/

namespace Sys2Proof.Machine

/-! ### Registers beside an interrupt source -/

/-- A change of registers that are none of source `n` asserts nothing there. -/
theorem Block.Within.quiet_of {p : Nat → Prop} {b c : Block} {n : Nat} (h : b.Within p c) (apart : ∀ a, p a → ¬ irqReg n a) : b.Quiet n c :=
  ⟨h.get (fun k => apart _ k (.inl rfl)) (.inl (irqBit_narrow n)),
    h.get (fun k => apart _ k (.inr ⟨by simp only [IRQ_S_FLAGS_CNT, aIRQ_S_TIME_LO, aIRQ_S_FLAGS]; omega, le_rfl⟩))
      (.inl (by simp [IRQ_S_FLAGS_CNT]))⟩

/-- A register outside the set holds its word. -/
theorem Block.Within.rd {p : Nat → Prop} {b c : Block} (h : b.Within p c) {a : Nat} (n : ¬ p a) : c.rd a = b.rd a := h.2 a n

/-- A command that keeps within a set beside a change of the block that is no register. -/
theorem State.keepsBut_onBlk {s : State} {g : Block → Block} {p : Nat → Prop} {c : Block} (h : (g s.blk).Within p c) :
    (s.onBlk g).keepsBut { s with blk := c } p := State.keepsBut_of (s := s.onBlk g) (f := fun _ => c) h

/-! ### The shown registers (R567) -/

/-- A status bit follows `p`: source 178 asserts where it sets (R568). -/
def Block.follow (b : Block) (f : Fld) (p : Prop) [Decidable p] : Block := if p then b.raise f 178 else b.off f

section
variable (b : Block) {f : Fld} (p : Prop) [Decidable p]

/-- A bit that is to show stays or sets with its source, one that is not to show clears. -/
theorem Block.follow_cases : p ∧ (b.flag f = true ∧ b.follow f p = b ∨ b.follow f p = (b.on f).irq 178) ∨ ¬ p ∧ b.follow f p = b.off f := by
  unfold Block.follow Block.raise
  split
  next h =>
    split
    next shown => exact .inl ⟨h, .inl ⟨shown, rfl⟩⟩
    · exact .inl ⟨h, .inr rfl⟩
  next h => exact .inr ⟨h, rfl⟩

variable (narrow : f.lo + 1 ≤ 32) (one : f.w = 1)
include narrow one

theorem Block.within_follow : b.Within (fun a => a = f.addr ∨ irqReg 178 a) (b.follow f p) := by
  have set (v : Nat) : b.Within (fun a => a = f.addr ∨ irqReg 178 a) (b.set f v) := b.within_set_narrow v (by omega) (.inl rfl)
  rcases b.follow_cases p with ⟨-, ⟨-, h⟩ | h⟩ | ⟨-, h⟩ <;> rw [h]
  · exact .refl _ b
  · exact (set 1).trans (Block.within_irq _ fun _ => .inr)
  · exact set 0

variable (far : 0x6000 ≤ f.addr)
include far

theorem Block.flag_follow : (b.follow f p).flag f = true ↔ p := by
  have put (v : Bool) : (b.put f v).flag f = v := b.flag_put_same v (by omega) one
  rcases b.follow_cases p with ⟨hp, ⟨shown, h⟩ | h⟩ | ⟨hp, h⟩ <;> rw [h]
  · exact iff_of_true shown hp
  · exact iff_of_true ((Block.flag_of_get (Block.get_irq_plant (by decide) _ far)).trans (put true)) hp
  · exact iff_of_false (ne_true_of_eq_false (put false)) hp

/-- No other source asserts. -/
theorem Block.quiet_follow {n : Nat} (hn : n < 256) (other : 178 ≠ n) : b.Quiet n (b.follow f p) := by
  have set (v : Nat) : b.Quiet n (b.set f v) := b.quiet_set hn v (by omega) far
  rcases b.follow_cases p with ⟨-, ⟨-, h⟩ | h⟩ | ⟨-, h⟩ <;> rw [h]
  · exact ⟨rfl, rfl⟩
  · exact (set 1).trans (Block.quiet_irq hn _ (by decide) other)
  · exact set 0

/-- The other bits of its register stay. -/
theorem Block.get_follow_other {g : Fld} (hg : g.lo + g.w ≤ 32) (same : g.addr = f.addr) (apart : g.lo + g.w ≤ f.lo ∨ f.lo + 1 ≤ g.lo) :
    Regs.get (b.follow f p).regs g = Regs.get b.regs g := by
  have set (v : Nat) : Regs.get (b.set f v).regs g = Regs.get b.regs g := b.get_set_other v (by omega) hg (.inr (by omega))
  rcases b.follow_cases p with ⟨-, ⟨-, h⟩ | h⟩ | ⟨-, h⟩ <;> rw [h]
  · exact (Block.get_irq_plant (by decide) _ (same ▸ far)).trans (set 1)
  · exact set 0
end

/-- The registers that follow the system area, before the status bits: NEXT_SEQ, operating seconds, power cycles. -/
def Block.countsShown (b : Block) (next opsec pcyc : Nat) : Block := ((b.set SCP_NEXT next).set SCP_OPSEC opsec).set SCP_PCYC pcyc

/-- The block with the shown registers of the system area (Table 19.5). -/
def Block.systemShown (b : Block) (next opsec pcyc : Nat) : Block :=
  ((b.countsShown next opsec pcyc).follow SCP_STAT_KEPT_FULL (2048 ≤ next)).follow SCP_STAT_WRAPPED (16384 ≤ next)

theorem State.showScp_eq (s : State) : s.showScp = s.onBlk (·.systemShown s.nv.nextSeq s.nv.opsecNow s.nv.pcyc) := by rfl

/-- The registers that show the counts of the system area. -/
def countReg (a : Nat) : Prop := a ∈ [aSCP_NEXT, aSCP_NEXT + 4, aSCP_OPSEC, aSCP_PCYC]

/-- The registers that follow the system area. -/
def systemReg (a : Nat) : Prop := countReg a ∨ a = aSCP_STAT ∨ irqReg 178 a

section
variable (b : Block) (next opsec pcyc : Nat)

theorem Block.within_countsShown : b.Within countReg (b.countsShown next opsec pcyc) :=
  (b.within_set (f := SCP_NEXT) next fun a h => by rcases h with rfl | ⟨-, rfl⟩ <;> simp [countReg, SCP_NEXT]).trans <|
    (Block.within_set_narrow _ (f := SCP_OPSEC) opsec (by decide) (by simp [countReg, SCP_OPSEC])).trans
      (Block.within_set_narrow _ (f := SCP_PCYC) pcyc (by decide) (by simp [countReg, SCP_PCYC]))

theorem Block.within_systemShown : b.Within systemReg (b.systemShown next opsec pcyc) := by
  have status (c : Block) (f : Fld) (p : Prop) [Decidable p] (at_ : f.addr = aSCP_STAT) (narrow : f.lo + 1 ≤ 32) (one : f.w = 1) :
      c.Within systemReg (c.follow f p) := (c.within_follow p narrow one).mono fun _ h => .inr (at_ ▸ h)
  exact ((b.within_countsShown next opsec pcyc).mono fun _ => .inl).trans <|
    (status _ SCP_STAT_KEPT_FULL _ rfl (by decide) rfl).trans (status _ SCP_STAT_WRAPPED _ rfl (by decide) rfl)

theorem Block.quiet_systemShown : b.Quiet 176 (b.systemShown next opsec pcyc) :=
  have far : ∀ a, countReg a → 0x6000 ≤ a := by unfold countReg; decide
  ((b.within_countsShown next opsec pcyc).quiet (by decide) far).trans <|
    (Block.quiet_follow _ (f := SCP_STAT_KEPT_FULL) _ (by decide) rfl (by decide) (by decide) (by decide)).trans
      (Block.quiet_follow _ (f := SCP_STAT_WRAPPED) _ (by decide) rfl (by decide) (by decide) (by decide))

theorem Block.get_systemShown_next : Regs.get (b.systemShown next opsec pcyc).regs SCP_NEXT = next % 2 ^ 48 := by
  have far {f g : Fld} (c : Block) (p : Prop) [Decidable p] (at_ : f.addr = aSCP_STAT) (narrow : f.lo + 1 ≤ 32) (one : f.w = 1)
      (hg : g.addr = aSCP_NEXT) : Regs.get (c.follow f p).regs g = Regs.get c.regs g := by
    refine (c.within_follow p narrow one).get ?_ (.inr ?_) <;> rw [at_, hg] <;> unfold irqReg <;> decide
  have beside {f : Fld} (c : Block) (v : Nat) (at_ : f.addr = aSCP_OPSEC ∨ f.addr = aSCP_PCYC) (narrow : f.lo + f.w ≤ 32) :
      Regs.get (c.set f v).regs SCP_NEXT = Regs.get c.regs SCP_NEXT := by
    have apart : ∀ k, k = 0 ∨ k = 4 → ¬ f.meets (aSCP_NEXT + k) := fun k hk m => by
      have := Fld.meets_narrow narrow m
      simp only [aSCP_NEXT, aSCP_OPSEC, aSCP_PCYC] at this at_
      omega
    exact c.get_set_far v (apart 0 (.inl rfl)) (.inr (apart 4 (.inr rfl)))
  exact (far _ _ rfl (by decide) rfl rfl).trans <| (far _ _ rfl (by decide) rfl rfl).trans <|
    (beside _ pcyc (.inr rfl) (by decide)).trans <| (beside _ opsec (.inl rfl) (by decide)).trans <|
    b.get_set_same SCP_NEXT next (by decide)

theorem Block.flag_systemShown_keptFull : (b.systemShown next opsec pcyc).flag SCP_STAT_KEPT_FULL = true ↔ 2048 ≤ next := by
  have kept := ((b.countsShown next opsec pcyc).follow SCP_STAT_KEPT_FULL (2048 ≤ next)).get_follow_other (f := SCP_STAT_WRAPPED)
    (g := SCP_STAT_KEPT_FULL) (16384 ≤ next) (by decide) rfl (by decide) (by decide) rfl (.inl (by decide))
  rw [show (b.systemShown next opsec pcyc).flag SCP_STAT_KEPT_FULL = _ from Block.flag_of_get kept]
  exact Block.flag_follow _ _ (by decide) rfl (by decide)
end

/-! ### The state of the deck after the record of its refusal (R109) -/

section
variable (b : Block) (code : Nat)

theorem Block.within_setDckState (v : Nat) : b.Within (fun a => a = aDCK_STAT ∨ irqReg 2 a) (b.setDckState v) := by
  unfold Block.setDckState
  split
  · exact .refl _ b
  · exact (b.within_set_narrow (f := DCK_STAT_STATE) v (by decide) (.inl rfl)).trans (Block.within_irq _ fun _ => .inr)

theorem Block.get_setDckState {v : Nat} (h : v < 2 ^ 4) : Regs.get (b.setDckState v).regs DCK_STAT_STATE = v := by
  unfold Block.setDckState
  split
  · assumption
  · have far := (b.set DCK_STAT_STATE v).get_irq_far (s := 2) (f := DCK_STAT_STATE) (by unfold irqReg; decide) (by unfold irqReg; decide)
    exact far.trans ((b.get_set_same DCK_STAT_STATE v (by decide)).trans (Nat.mod_eq_of_lt h))

theorem Block.within_refusalWritten : b.Within (fun a => a = aDCK_STAT ∨ irqReg 2 a) (b.refusalWritten code) := by
  unfold Block.refusalWritten
  split
  · exact b.within_setDckState _
  · exact .refl _ b

theorem Block.quiet_refusalWritten : b.Quiet 176 (b.refusalWritten code) := by
  refine (b.within_refusalWritten code).quiet_of ?_
  rintro a (rfl | h)
  · unfold irqReg; decide
  · simp only [irqReg, aIRQ_PEND, aIRQ_S_TIME_LO, aIRQ_S_FLAGS] at h ⊢
    omega

theorem Block.refusalWritten_other (h : code ≠ 7 ∨ b.get DCK_STAT_STATE ≠ 5) : b.refusalWritten code = b :=
  if_neg (not_and_or.2 h)

theorem Block.get_refusalWritten (h7 : code = 7) (h5 : b.get DCK_STAT_STATE = 5) :
    Regs.get (b.refusalWritten code).regs DCK_STAT_STATE = if b.dealt.isSome then 4 else 6 := by
  rw [Block.refusalWritten, if_pos ⟨h7, h5⟩]
  exact b.get_setDckState (by split <;> decide)
end

/-! ### The head of the queue is written (R557, R558) -/

/-- The block once the head `e` has left the queue for record `q`. -/
def Block.headTaken (b : Block) (q : Nat) (e : ScpEvent) (rest : List ScpEvent) : Block :=
  { b with scp := { b.scp with queue := rest, newest := some (q, e), wroteAt := some b.up } }

/-- The field die's memory with the record of `e` in its slot. -/
def NonVol.padded (nv : NonVol) (e : ScpEvent) : NonVol :=
  { nv with pad := Memory.writeBytes nv.pad (64 * slotOf nv.nextSeq) (e.record nv.nextSeq) }

/-- The field die's memory with that record and NEXT_SEQ advanced (R557, R558). -/
def NonVol.recorded (nv : NonVol) (e : ScpEvent) : NonVol := (nv.padded e).writeCtr (nv.nextSeq + 1) (nv.padded e).pcyc

section
variable (b : Block) (q : Nat) (e : ScpEvent) (rest : List ScpEvent)

/-- The block once SCP_QUEUE shows that the head has left, source 176 asserted from LEVEL 2 on (R568). -/
def Block.headQueued : Block :=
  let c := (b.headTaken q e rest).set SCP_QUEUE_N rest.length
  if 2 ≤ e.level then c.irq 176 else c

theorem Block.within_headQueued :
    (b.headTaken q e rest).Within (fun a => a = aSCP_QUEUE ∨ irqReg 176 a) (b.headQueued q e rest) := by
  have count : (b.headTaken q e rest).Within (fun a => a = aSCP_QUEUE ∨ irqReg 176 a)
      ((b.headTaken q e rest).set SCP_QUEUE_N rest.length) :=
    Block.within_set_narrow _ (f := SCP_QUEUE_N) _ (by decide) (.inl rfl)
  unfold Block.headQueued
  dsimp only
  split
  · exact count.trans (Block.within_irq _ fun _ => .inr)
  · exact count

theorem Block.get_headQueued_n : Regs.get (b.headQueued q e rest).regs SCP_QUEUE_N = rest.length % 2 ^ 9 := by
  have count : Regs.get ((b.headTaken q e rest).set SCP_QUEUE_N rest.length).regs SCP_QUEUE_N = rest.length % 2 ^ 9 :=
    Block.get_set_same _ SCP_QUEUE_N _ (by decide)
  unfold Block.headQueued
  dsimp only
  split
  · exact (Block.get_irq_plant (by decide) _ (by decide)).trans count
  · exact count

theorem Block.asserted_headQueued (h : 2 ≤ e.level) : (b.headTaken q e rest).Asserted 176 (b.headQueued q e rest) := by
  rw [Block.headQueued, if_pos h]
  exact (Block.quiet_set (by decide) _ (f := SCP_QUEUE_N) _ (by decide) (by decide)).asserted (Block.asserted_irq _ 176)

/-- Registers outside SCP_QUEUE and source 176 hold what they held. -/
theorem Block.rd_headQueued {a : Nat} (h : ¬ (a = aSCP_QUEUE ∨ irqReg 176 a)) : (b.headQueued q e rest).rd a = b.rd a :=
  (b.within_headQueued q e rest).rd h
end

section
variable (nv : NonVol) (e : ScpEvent)

theorem NonVol.recorded_pad : (nv.recorded e).pad = Memory.writeBytes nv.pad (64 * slotOf nv.nextSeq) (e.record nv.nextSeq) := by
  rw [NonVol.recorded, NonVol.writeCtr_eq, NonVol.padded]

/-- Of the field die's memory a record changes its slot and the counter block alone. -/
theorem NonVol.recorded_eq : nv.recorded e = { nv with pad := (nv.recorded e).pad, ctr := (nv.recorded e).ctr } := by
  rw [NonVol.recorded, NonVol.writeCtr_eq, NonVol.padded]

theorem NonVol.nextSeq_recorded : (nv.recorded e).nextSeq = (nv.nextSeq + 1) % 2 ^ 48 := NonVol.nextSeq_writeCtr ..

/-- Records do not hold the power-cycle count. -/
theorem NonVol.pcyc_pad (pad : List Host.Cell) : ({ nv with pad := pad } : NonVol).pcyc = nv.pcyc := by rfl

theorem NonVol.pcyc_recorded : (nv.recorded e).pcyc = nv.pcyc := by
  rw [NonVol.recorded, NonVol.pcyc_writeCtr, Nat.mod_eq_of_lt (NonVol.pcyc_lt _), NonVol.padded, NonVol.pcyc_pad]
end

/-- With no event lost, none is reported (R563). -/
theorem Block.reportLost_none {b : Block} (h : b.scp.lostSince = 0) : b.reportLost = b := if_neg fun k => k.1 h

/-- The block after the record of a head, as the page then shows it. -/
def State.headBlock (s : State) (e : ScpEvent) (rest : List ScpEvent) : Block :=
  ((s.blk.headQueued s.nv.nextSeq e rest).refusalWritten e.code).systemShown (s.nv.recorded e).nextSeq (s.nv.recorded e).opsecNow
    (s.nv.recorded e).pcyc

section
variable {s : State} {e : ScpEvent} {rest : List ScpEvent}

/-- With no event lost, the record of a head is all that is written. -/
theorem State.writeHead_eq (head : s.blk.scp.queue = e :: rest) (lost : s.blk.scp.lostSince = 0) :
    s.writeHead = { s with nv := s.nv.recorded e, blk := s.headBlock e rest } := by
  have unlost : ((s.blk.headQueued s.nv.nextSeq e rest).refusalWritten e.code).scp.lostSince = 0 := by
    rw [(Block.within_refusalWritten _ e.code).1.p_scp, (s.blk.within_headQueued s.nv.nextSeq e rest).1.p_scp]
    exact lost
  have shown : s.writeHead = ({ s with
      nv := s.nv.recorded e
      blk := ((s.blk.headQueued s.nv.nextSeq e rest).refusalWritten e.code).reportLost } : State).showScp := by
    unfold State.writeHead
    rw [head]
    rfl
  rw [shown, Block.reportLost_none unlost, State.showScp_eq]
  rfl
end

theorem systemReg_ne {a : Nat} (h : a = aSCP_QUEUE ∨ a = aDCK_STAT) : ¬ systemReg a := by
  rcases h with rfl | rfl <;> unfold systemReg countReg irqReg <;> decide

/-- The registers that the record of a head writes. -/
def headReg (a : Nat) : Prop :=
  a ∈ [aSCP_STAT, aSCP_NEXT, aSCP_NEXT + 4, aSCP_OPSEC, aSCP_PCYC, aSCP_QUEUE, aDCK_STAT] ∨ ∃ i ∈ [2, 176, 178], irqReg i a

theorem headReg_of {a : Nat} (h : ((a = aSCP_QUEUE ∨ irqReg 176 a) ∨ a = aDCK_STAT ∨ irqReg 2 a) ∨ systemReg a) : headReg a := by
  unfold headReg
  rcases h with ((h | h) | h | h) | h | h | h
  · simp [h]
  · exact .inr ⟨176, by decide, h⟩
  · simp [h]
  · exact .inr ⟨2, by decide, h⟩
  · unfold countReg at h
    simp only [List.mem_cons, List.not_mem_nil, or_false] at h ⊢
    tauto
  · simp [h]
  · exact .inr ⟨178, by decide, h⟩

section
variable (s : State) (e : ScpEvent) (rest : List ScpEvent)

theorem State.within_refused : (s.blk.headTaken s.nv.nextSeq e rest).Within
    (fun a => (a = aSCP_QUEUE ∨ irqReg 176 a) ∨ a = aDCK_STAT ∨ irqReg 2 a)
    ((s.blk.headQueued s.nv.nextSeq e rest).refusalWritten e.code) :=
  ((s.blk.within_headQueued _ e rest).mono fun _ => .inl).trans ((Block.within_refusalWritten _ e.code).mono fun _ => .inr)

theorem State.within_headBlock : (s.blk.headTaken s.nv.nextSeq e rest).Within
    (fun a => ((a = aSCP_QUEUE ∨ irqReg 176 a) ∨ a = aDCK_STAT ∨ irqReg 2 a) ∨ systemReg a) (s.headBlock e rest) :=
  ((s.within_refused e rest).mono fun _ => .inl).trans ((Block.within_systemShown _ ..).mono fun _ => .inr)

theorem State.get_headBlock_next : (s.headBlock e rest).get SCP_NEXT = (s.nv.nextSeq + 1) % 2 ^ 48 := by
  refine (Block.get_systemShown_next ..).trans ?_
  rw [s.nv.nextSeq_recorded e, Nat.mod_mod]

theorem State.flag_headBlock_keptFull :
    (s.headBlock e rest).flag SCP_STAT_KEPT_FULL = true ↔ 2048 ≤ (s.nv.nextSeq + 1) % 2 ^ 48 := by
  rw [← s.nv.nextSeq_recorded e]
  exact Block.flag_systemShown_keptFull ..

theorem State.rd_headBlock_dckStat : (s.headBlock e rest).rd aDCK_STAT =
    ((s.blk.headQueued s.nv.nextSeq e rest).refusalWritten e.code).rd aDCK_STAT :=
  (Block.within_systemShown _ ..).rd (systemReg_ne (.inr rfl))

theorem State.get_headQueued_state : (s.blk.headQueued s.nv.nextSeq e rest).get DCK_STAT_STATE = s.blk.get DCK_STAT_STATE :=
  (s.blk.within_headQueued _ e rest).get (by unfold irqReg; decide) (.inl (by decide))

/-- The state of the deck stays but for the record of its refusal. -/
theorem State.rd_headBlock_kept (other : e.code ≠ 7 ∨ s.blk.get DCK_STAT_STATE ≠ 5) :
    (s.headBlock e rest).rd aDCK_STAT = s.blk.rd aDCK_STAT := by
  rw [← s.get_headQueued_state e rest] at other
  rw [s.rd_headBlock_dckStat e rest, Block.refusalWritten_other _ _ other]
  exact s.blk.rd_headQueued _ e rest (by unfold irqReg; decide)

theorem State.get_headBlock_refused (h7 : e.code = 7) (h5 : s.blk.get DCK_STAT_STATE = 5) :
    (s.headBlock e rest).get DCK_STAT_STATE = if s.blk.dealt.isSome then 4 else 6 := by
  rw [← s.get_headQueued_state e rest] at h5
  have dealt : (s.blk.headQueued s.nv.nextSeq e rest).dealt = s.blk.dealt := (s.blk.within_headQueued _ e rest).1.p_dealt
  rw [← dealt, ← Block.get_refusalWritten _ _ h7 h5]
  exact (Block.within_systemShown _ ..).get (systemReg_ne (.inr rfl)) (.inl (by decide))

theorem State.get_headBlock_n : (s.headBlock e rest).get SCP_QUEUE_N = rest.length % 2 ^ 9 :=
  ((Block.within_systemShown _ ..).get (systemReg_ne (.inl rfl)) (.inl (by decide))).trans <|
    ((Block.within_refusalWritten _ e.code).get (by unfold irqReg; decide) (.inl (by decide))).trans
      (s.blk.get_headQueued_n _ e rest)

theorem State.asserted_headBlock (h : 2 ≤ e.level) : (s.blk.headTaken s.nv.nextSeq e rest).Asserted 176 (s.headBlock e rest) :=
  ((s.blk.asserted_headQueued s.nv.nextSeq e rest h).quiet (Block.quiet_refusalWritten _ e.code)).quiet
    (Block.quiet_systemShown _ ..)
end

/-! ### RECORD_WRITE -/

theorem exec_recordWrite (s : State) : exec .recordWrite s = execRecordWrite s := by rfl

/-- Writing waits: the field die is unreachable (R563), or VFIELD too low. -/
def State.padIdle (s : State) : Prop := s.blk.flag SCP_STAT_FD_DOWN = true ∨ s.blk.field.padOff = true

section
variable {s : State} {q : Nat} {e : ScpEvent} {rest : List ScpEvent}

theorem State.writeHead_empty (h : s.blk.scp.queue = []) : s.writeHead = s := by
  unfold State.writeHead
  rw [h]

theorem recordWrite_idle (h : s.padIdle ∨ (s.blk.scp.repDirty = false ∧ s.blk.scp.queue = [])) : Completes .recordWrite s (· = s) := by
  refine ⟨s, ?_, rfl⟩
  rw [exec_recordWrite, execRecordWrite]
  congr 1
  split
  · rfl
  next up =>
    obtain ⟨clean, empty⟩ := h.resolve_left up
    rw [if_neg (ne_true_of_eq_false clean), State.writeHead_empty empty, ite_self]

variable (up : ¬ s.padIdle)
include up

/-- A repeat update comes before the queue. -/
theorem exec_recordWrite_repeat (dirty : s.blk.scp.repDirty = true) : exec .recordWrite s = .next s.flushRepeat := by
  rw [exec_recordWrite, execRecordWrite]
  exact congrArg _ ((if_neg up).trans (if_pos dirty))

theorem exec_recordWrite_head (clean : s.blk.scp.repDirty = false) :
    exec .recordWrite s = .next (if s.blk.scp.wroteAt.all fun t => t + 20000 ≤ s.blk.up then s.writeHead else s) := by
  rw [exec_recordWrite, execRecordWrite]
  exact congrArg _ ((if_neg up).trans (if_neg (ne_true_of_eq_false clean)))

section
variable (dirty : s.blk.scp.repDirty = true) (written : s.blk.scp.newest = some (q, e))
include dirty written

theorem recordWrite_repeat (held : slotSeq s.nv.pad (slotOf q) = q) : Completes .recordWrite s fun t =>
    t = { s with nv := { s.nv with pad := t.nv.pad }, blk := { s.blk with scp := { s.blk.scp with repDirty := false } } } ∧
      Memory.readBytes t.nv.pad (64 * slotOf q + 52) 8 = bytesBE 4 e.repCnt ++ bytesBE 4 e.repSec ∧
      ∀ a, a < 64 * slotOf q + 52 ∨ 64 * slotOf q + 52 + 8 ≤ a → Memory.read t.nv.pad a = Memory.read s.nv.pad a := by
  have words : (bytesBE 4 e.repCnt ++ bytesBE 4 e.repSec).length = 8 := by simp
  refine ⟨{ s with
    nv := { s.nv with pad := Memory.writeBytes s.nv.pad (64 * slotOf q + 52) (bytesBE 4 e.repCnt ++ bytesBE 4 e.repSec) }
    blk := { s.blk with scp := { s.blk.scp with repDirty := false } } }, ?_, rfl, Memory.writeBytes_spec _ _ words⟩
  rw [exec_recordWrite_repeat up dirty, State.flushRepeat, written]
  exact congrArg _ (if_pos held)

theorem recordWrite_repeatLost (gone : slotSeq s.nv.pad (slotOf q) ≠ q) : Completes .recordWrite s fun t =>
    (s.onBlk fun b => { b with scp := { s.blk.scp with repDirty := false } }).keepsBut t (fun a => a = aSCP_LOST ∨ irqReg 177 a) ∧
      t.blk.get SCP_LOST = satInc 32 (s.blk.get SCP_LOST) ∧ s.asserted t 177 := by
  obtain ⟨within, lost, asserted⟩ := Block.countLost { s.blk with scp.repDirty := false }
  refine ⟨_, ?_, State.keepsBut_onBlk within, lost, asserted⟩
  rw [exec_recordWrite_repeat up dirty, State.flushRepeat, written]
  exact congrArg _ (if_neg gone)
end

section
variable (clean : s.blk.scp.repDirty = false)
include clean

theorem recordWrite_early (early : ∃ t0, s.blk.scp.wroteAt = some t0 ∧ s.blk.up < t0 + 20000) : Completes .recordWrite s (· = s) := by
  obtain ⟨t0, wrote, h⟩ := early
  refine ⟨s, ?_, rfl⟩
  rw [exec_recordWrite_head up clean, wrote, if_neg]
  simpa using h

theorem exec_recordWrite_record (head : s.blk.scp.queue = e :: rest)
    (late : ∀ t0, s.blk.scp.wroteAt = some t0 → t0 + 20000 ≤ s.blk.up) (lost : s.blk.scp.lostSince = 0) :
    exec .recordWrite s = .next { s with nv := s.nv.recorded e, blk := s.headBlock e rest } := by
  rw [exec_recordWrite_head up clean, State.writeHead_eq head lost, if_pos]
  cases wrote : s.blk.scp.wroteAt with
  | none => rfl
  | some t0 => exact decide_eq_true (late t0 wrote)

/-- The record of the head, its seal, NEXT_SEQ, and what the page shows of them. -/
theorem recordWrite_record (head : s.blk.scp.queue = e :: rest)
    (late : ∀ t0, s.blk.scp.wroteAt = some t0 → t0 + 20000 ≤ s.blk.up) (lost : s.blk.scp.lostSince = 0) :
    Completes .recordWrite s fun t =>
      t = { s with
        nv := { s.nv with pad := t.nv.pad, ctr := t.nv.ctr }
        blk := { s.blk with
          regs := t.blk.regs, scp := { s.blk.scp with queue := rest, newest := some (s.nv.nextSeq, e), wroteAt := some s.blk.up } } } ∧
      s.regsBut t headReg ∧ Memory.readBytes t.nv.pad (64 * slotOf s.nv.nextSeq) 64 = e.record s.nv.nextSeq ∧
      (∀ a, a < 64 * slotOf s.nv.nextSeq ∨ 64 * slotOf s.nv.nextSeq + 64 ≤ a → Memory.read t.nv.pad a = Memory.read s.nv.pad a) ∧
      t.nv.nextSeq = (s.nv.nextSeq + 1) % 2 ^ 48 ∧ t.nv.pcyc = s.nv.pcyc ∧ t.blk.get SCP_NEXT = (s.nv.nextSeq + 1) % 2 ^ 48 ∧
      t.blk.get SCP_QUEUE_N = rest.length % 2 ^ 9 ∧ (2 ≤ e.level → s.asserted t 176) ∧
      (t.blk.flag SCP_STAT_KEPT_FULL = true ↔ 2048 ≤ (s.nv.nextSeq + 1) % 2 ^ 48) ∧
      (e.code ≠ 7 ∨ s.blk.get DCK_STAT_STATE ≠ 5 → t.blk.rd aDCK_STAT = s.blk.rd aDCK_STAT) ∧
      (e.code = 7 → s.blk.get DCK_STAT_STATE = 5 → t.blk.get DCK_STAT_STATE = if s.blk.dealt.isSome then 4 else 6) := by
  obtain ⟨only, regs⟩ := s.within_headBlock e rest
  have slot := Memory.writeBytes_spec s.nv.pad (64 * slotOf s.nv.nextSeq) (e.length_record s.nv.nextSeq)
  rw [← s.nv.recorded_pad e] at slot
  refine ⟨{ s with nv := s.nv.recorded e, blk := s.headBlock e rest }, exec_recordWrite_record up clean head late lost,
    State.eq_of rfl (s.nv.recorded_eq e) only, fun a n => regs a (mt headReg_of n), slot.1, slot.2, s.nv.nextSeq_recorded e,
    s.nv.pcyc_recorded e, s.get_headBlock_next e rest, s.get_headBlock_n e rest, s.asserted_headBlock e rest,
    s.flag_headBlock_keptFull e rest, s.rd_headBlock_kept e rest, s.get_headBlock_refused e rest⟩
end
end

end Sys2Proof.Machine
end

section
/-!
PROOFS. Operating seconds, host records and readout of the scorepad (19_scorepad.md R559, R565, R566), and with the sections before O57.
-/

namespace Sys2Proof.Machine

/-! ### Operating seconds (R559) -/

theorem exec_opsecTick (s : State) : exec .opsecTick s = execOpsecTick s := by rfl

theorem opsecTick_idle {s : State} (h : s.blk.flag SCP_STAT_FD_DOWN = true ∨ s.blk.boot.released = false) :
    Completes .opsecTick s (· = s) := by
  refine ⟨s, ?_, rfl⟩
  rw [exec_opsecTick, execOpsecTick]
  exact congrArg _ (if_pos (h.imp_right (Bool.not_eq_true _).mpr))

/-- The copy of the operating-second cell with the lower count, the first where both are equal. -/
def NonVol.opsecLower (nv : NonVol) : Fin 2 := if opsecCount nv.opsec[1] < opsecCount nv.opsec[0] then 1 else 0

/-- The cell after one more second. -/
def NonVol.opsecNext (nv : NonVol) : NonVol :=
  { nv with opsec := nv.opsec.set nv.opsecLower (opsecBytes (satInc 32 nv.opsecNow)) }

theorem opsecTick_counts {s : State} (up : ¬ s.blk.flag SCP_STAT_FD_DOWN = true) (released : s.blk.boot.released = true) :
    Completes .opsecTick s fun t => t = { s with nv := s.nv.opsecNext, blk := { s.blk with regs := t.blk.regs } } ∧
      s.regsBut t (· = aSCP_OPSEC) ∧ t.blk.get SCP_OPSEC = t.nv.opsecNow % 2 ^ 32 := by
  have within : s.blk.Within (· = aSCP_OPSEC) (s.blk.set SCP_OPSEC s.nv.opsecNext.opsecNow) :=
    s.blk.within_set_narrow (f := SCP_OPSEC) _ (by decide) rfl
  obtain ⟨only, kept⟩ := within
  refine ⟨{ s with nv := s.nv.opsecNext, blk := s.blk.set SCP_OPSEC s.nv.opsecNext.opsecNow }, ?_, State.eq_of rfl rfl only, kept,
    s.blk.get_set_same SCP_OPSEC _ (by decide)⟩
  rw [exec_opsecTick, execOpsecTick]
  exact congrArg _ (if_neg (not_or.2 ⟨up, not_not_intro released⟩))

/-! ### Writes to the scorepad page (Table 19.5) -/

/-- A write that reaches a write-only register of the scorepad page is its action. -/
theorem State.write_scorepad {s : State} {m : Fin 39} {x : Nat} {v : Word} {r : Hit} (h : s.writes m x v)
    (page : x = aSCP_HW_CMD ∨ x = aSCP_RD_CTL) (hf : findReg (homeOf x) = some r) (hb : r.base = x) (hn : r.desc.wide = false)
    (hw : ∀ f ∈ r.desc.fields, f.basic = .wo ∧ f.expert = .wo) : s.write m x v = s.onBlk (·.regAction m x v.toNat) := by
  have reg : s.write m x v = s.onBlk (·.writeReg m r (basicPage x) (s.blk.levelAt x) v.toNat) := by
    rcases page with rfl | rfl <;> exact State.write_reg h rfl (by decide) rfl rfl rfl (by decide) hf hn
  rw [reg]
  apply State.onBlk_congr
  rw [Block.writeReg_writeOnly _ m _ _ _ ?_ hw, hb]
  rcases page with rfl | rfl <;> rw [hb] <;> decide

theorem findReg_scpHwCmd : ∃ r, findReg (homeOf aSCP_HW_CMD) = some r ∧ r.base = aSCP_HW_CMD ∧ r.desc.wide = false ∧
    ∀ f ∈ r.desc.fields, f.basic = .wo ∧ f.expert = .wo := ⟨_, rfl, rfl, rfl, by decide⟩

theorem findReg_scpRdCtl : ∃ r, findReg (homeOf aSCP_RD_CTL) = some r ∧ r.base = aSCP_RD_CTL ∧ r.desc.wide = false ∧
    ∀ f ∈ r.desc.fields, f.basic = .wo ∧ f.expert = .wo := ⟨_, rfl, rfl, rfl, by decide⟩

theorem State.write_scpHwCmd {s : State} {m : Fin 39} {v : Word} (h : s.writes m aSCP_HW_CMD v) :
    s.write m aSCP_HW_CMD v = s.onBlk (·.scpHwCmd v.toNat) := by
  obtain ⟨r, hf, hb, hn, hw⟩ := findReg_scpHwCmd
  rw [State.write_scorepad h (.inl rfl) hf hb hn hw]
  rfl

theorem State.write_scpRdCtl {s : State} {m : Fin 39} (h : s.writes m aSCP_RD_CTL 1) :
    s.write m aSCP_RD_CTL 1 = s.onBlk (·.scpRdGo 1) := by
  obtain ⟨r, hf, hb, hn, hw⟩ := findReg_scpRdCtl
  rw [State.write_scorepad h (.inr rfl) hf hb hn hw]
  rfl

/-! ### Host records (R565) -/

theorem exec_scpHwCmd (m : Fin 39) (v : Word) (s : State) : exec (.scpHwCmd m v) s = .next (s.write m aSCP_HW_CMD v) := by rfl

/-- A host record comes less than a millisecond after the last one. -/
def Block.hostEarly (b : Block) : Prop := ∃ t0, b.scp.lastHost = some t0 ∧ b.up < t0 + 1000000

/-- A host record is accepted now. -/
def Block.hostTaken (b : Block) : Block := { b with scp := { b.scp with lastHost := some b.up } }

/-- The event of a host record. -/
def Block.hostEvent (b : Block) (v : Word) : ScpEvent :=
  b.stampEvent (v.toNat % 2 ^ 16) (v.toNat / 2 ^ 16 % 4) (b.get SCP_HW_ARG0) (b.get SCP_HW_ARG1) true false

section
variable (b : Block) (v : Word)

/-- The test of the model says when a host record comes early. -/
theorem Block.hostEarly_iff : (match b.scp.lastHost with
    | some t => decide (b.up < t + 1000000)
    | none => false) = true ↔ b.hostEarly := by
  unfold Block.hostEarly
  cases b.scp.lastHost <;> simp

theorem Block.scpHwCmd_refused (bad : v.toNat % 2 ^ 16 < 0xF000 ∨ b.hostEarly) : b.scpHwCmd v.toNat = b.on SCP_STAT_HW_REF := by
  refine if_neg ?_
  rintro ⟨code, late⟩
  rw [bits_low] at code
  exact bad.elim code.not_gt fun early => late (b.hostEarly_iff.2 early)

theorem Block.scpHwCmd_taken (code : 0xF000 ≤ v.toNat % 2 ^ 16) (late : ¬ b.hostEarly) : b.scpHwCmd v.toNat =
    b.hostTaken.enqueue (b.hostEvent v) := by
  unfold Block.hostEvent
  rw [← bits_low] at code ⊢
  exact if_pos ⟨code, mt b.hostEarly_iff.1 late⟩
end

section
variable {s : State} {m : Fin 39} {v : Word} (h : s.writes m aSCP_HW_CMD v)
include h

theorem scpHwCmd_refused (bad : v.toNat % 2 ^ 16 < 0xF000 ∨ s.blk.hostEarly) : Completes (.scpHwCmd m v) s fun t =>
    s.keepsBut t (· = aSCP_STAT) ∧ t.blk.flag SCP_STAT_HW_REF = true := by
  refine ⟨s.onBlk (·.on SCP_STAT_HW_REF), ?_, State.keepsBut_of (s.blk.within_set_narrow (f := SCP_STAT_HW_REF) 1 (by decide) rfl),
    s.blk.flag_put_same (f := SCP_STAT_HW_REF) true (by decide) rfl⟩
  rw [exec_scpHwCmd, State.write_scpHwCmd h]
  exact congrArg _ (State.onBlk_congr (s.blk.scpHwCmd_refused v bad))

theorem scpHwCmd_taken (code : 0xF000 ≤ v.toNat % 2 ^ 16) (late : ¬ s.blk.hostEarly) : Completes (.scpHwCmd m v) s fun t =>
    (s.onBlk fun b => { b with scp := t.blk.scp }).keepsBut t eventReg ∧ t.blk.scp.lastHost = some s.blk.up ∧
      t.blk.scp = (s.blk.hostTaken.enqueue (s.blk.hostEvent v)).scp := by
  have within := s.blk.hostTaken.within_enqueue (s.blk.hostEvent v)
  refine ⟨{ s with blk := s.blk.hostTaken.enqueue (s.blk.hostEvent v) }, ?_,
    State.keepsBut_onBlk (g := fun b => { b with scp := (s.blk.hostTaken.enqueue (s.blk.hostEvent v)).scp }) within,
    Block.enqueue_lastHost _ _, rfl⟩
  rw [exec_scpHwCmd, State.write_scpHwCmd h, State.onBlk_eq (f := (·.scpHwCmd v.toNat)) (s.blk.scpHwCmd_taken v code late)]
end

/-! ### Readout (R566) -/

theorem exec_scpRdGo (m : Fin 39) (s : State) : exec (.scpRdGo m) s = .next (s.write m aSCP_RD_CTL 1) := by rfl

theorem exec_scpReadDone (s : State) : exec .scpReadDone s = execScpReadDone s := by rfl

/-- The status bits of a readout (R566). -/
def readStats : List Fld := [SCP_RD_STAT_BUSY, SCP_RD_STAT_VALID, SCP_RD_STAT_GONE, SCP_RD_STAT_SEAL_ERR]

theorem readStats_bit : ∀ f ∈ readStats, f.addr = aSCP_RD_STAT ∧ f.lo + 1 ≤ 32 ∧ f.w = 1 := by decide

theorem readStats_apart : ∀ f ∈ readStats, ∀ g ∈ readStats, f ≠ g → g.lo + g.w ≤ f.lo ∨ f.lo + f.w ≤ g.lo := by decide

section
variable (b : Block) {f g : Fld} (hf : f ∈ readStats)
include hf

theorem Block.within_set_readStat (v : Nat) : b.Within (· = aSCP_RD_STAT) (b.set f v) := by
  obtain ⟨at_, narrow, one⟩ := readStats_bit f hf
  exact b.within_set_narrow _ (by omega) at_

theorem Block.flag_on_readStat : (b.on f).flag f = true := by
  obtain ⟨-, narrow, one⟩ := readStats_bit f hf
  exact b.flag_put_same true (by omega) one

theorem Block.flag_off_readStat : (b.off f).flag f = false := by
  obtain ⟨-, narrow, one⟩ := readStats_bit f hf
  exact b.flag_put_same false (by omega) one

/-- The other status bits stay. -/
theorem Block.flag_set_readStat_ne (v : Nat) (hg : g ∈ readStats) (ne : f ≠ g) : (b.set f v).flag g = b.flag g := by
  obtain ⟨-, narrow, one⟩ := readStats_bit f hf
  obtain ⟨-, narrow', one'⟩ := readStats_bit g hg
  exact Block.flag_of_get (b.get_set_other _ (by omega) (by omega) (.inr (readStats_apart f hf g hg ne)))
end

/-- The scorepad unit replaced on both sides. -/
theorem Block.Within.withScp {p : Nat → Prop} {b c : Block} (h : b.Within p c) (x : ScpUnit) :
    ({ b with scp := x } : Block).Within p { c with scp := x } := by
  obtain ⟨regs, rest⟩ := h
  refine ⟨?_, rest⟩
  unfold Block.RegsOnly at regs ⊢
  rw [regs]

theorem Block.flag_withScp (b : Block) (x : ScpUnit) (f : Fld) : ({ b with scp := x } : Block).flag f = b.flag f := rfl

/-- A readout under way, as SCP_RD_STAT shows it. -/
def Block.readBusy (b : Block) : Block :=
  (((b.on SCP_RD_STAT_BUSY).off SCP_RD_STAT_VALID).off SCP_RD_STAT_GONE).off SCP_RD_STAT_SEAL_ERR

theorem Block.within_readBusy (b : Block) : b.Within (· = aSCP_RD_STAT) b.readBusy :=
  (b.within_set_readStat (f := SCP_RD_STAT_BUSY) (by decide) 1).trans <|
    (Block.within_set_readStat _ (f := SCP_RD_STAT_VALID) (by decide) 0).trans <|
      (Block.within_set_readStat _ (f := SCP_RD_STAT_GONE) (by decide) 0).trans
        (Block.within_set_readStat _ (f := SCP_RD_STAT_SEAL_ERR) (by decide) 0)

theorem Block.flag_readBusy (b : Block) : b.readBusy.flag SCP_RD_STAT_BUSY = true ∧ b.readBusy.flag SCP_RD_STAT_VALID = false ∧
    b.readBusy.flag SCP_RD_STAT_GONE = false ∧ b.readBusy.flag SCP_RD_STAT_SEAL_ERR = false := by
  have sealErr {f : Fld} (hf : f ∈ readStats) (ne : SCP_RD_STAT_SEAL_ERR ≠ f) :=
    (((b.on SCP_RD_STAT_BUSY).off SCP_RD_STAT_VALID).off SCP_RD_STAT_GONE).flag_set_readStat_ne (f := SCP_RD_STAT_SEAL_ERR)
      (by decide) 0 hf ne
  have gone {f : Fld} (hf : f ∈ readStats) (ne : SCP_RD_STAT_GONE ≠ f) :=
    ((b.on SCP_RD_STAT_BUSY).off SCP_RD_STAT_VALID).flag_set_readStat_ne (f := SCP_RD_STAT_GONE) (by decide) 0 hf ne
  have valid := (b.on SCP_RD_STAT_BUSY).flag_set_readStat_ne (f := SCP_RD_STAT_VALID) (g := SCP_RD_STAT_BUSY) (by decide) 0
    (by decide) (by decide)
  refine ⟨?_, ?_, ?_, Block.flag_off_readStat _ (by decide)⟩
  · exact (sealErr (by decide) (by decide)).trans <| (gone (by decide) (by decide)).trans <| valid.trans
      (b.flag_on_readStat (by decide))
  · exact (sealErr (by decide) (by decide)).trans <| (gone (by decide) (by decide)).trans (Block.flag_off_readStat _ (by decide))
  · exact (sealErr (by decide) (by decide)).trans (Block.flag_off_readStat _ (by decide))

/-- The scorepad unit with a readout of the record in SCP_RD_SEQ asked for. -/
def Block.readAsked (b : Block) : ScpUnit := { b.scp with readSeq := some (b.get SCP_RD_SEQ) }

theorem Block.get_readBusy_seq (b : Block) : b.readBusy.get SCP_RD_SEQ = b.get SCP_RD_SEQ := by
  rw [Block.get_eq, Block.get_eq, b.within_readBusy.get (by decide) (.inr (by decide))]

/-- The block once the readout has begun. -/
def Block.readStarted (b : Block) : Block := { b.readBusy with scp := b.readAsked }

theorem Block.scpRdGo_eq (b : Block) : b.scpRdGo 1 = b.readStarted := by
  have started : b.scpRdGo 1 = { b.readBusy with scp := { b.readBusy.scp with readSeq := some (b.readBusy.get SCP_RD_SEQ) } } :=
    if_pos (by decide)
  rw [started, b.get_readBusy_seq, b.within_readBusy.1.p_scp, Block.readStarted, Block.readAsked]

theorem Block.flag_readStarted (b : Block) (f : Fld) : b.readStarted.flag f = b.readBusy.flag f := Block.flag_withScp ..

theorem scpRdGo_completes {s : State} {m : Fin 39} (h : s.writes m aSCP_RD_CTL 1) : Completes (.scpRdGo m) s fun t =>
    (s.onBlk fun b => { b with scp := s.blk.readAsked }).keepsBut t (· = aSCP_RD_STAT) ∧
      t.blk.flag SCP_RD_STAT_BUSY = true ∧ t.blk.flag SCP_RD_STAT_VALID = false ∧ t.blk.flag SCP_RD_STAT_GONE = false ∧
      t.blk.flag SCP_RD_STAT_SEAL_ERR = false := by
  have within := s.blk.within_readBusy.withScp s.blk.readAsked
  refine ⟨{ s with blk := s.blk.readStarted }, ?_, State.keepsBut_onBlk (g := fun b => { b with scp := s.blk.readAsked }) within, ?_⟩
  · rw [exec_scpRdGo, State.write_scpRdCtl h, State.onBlk_eq (f := (·.scpRdGo 1)) s.blk.scpRdGo_eq]
  · simp only [Block.flag_readStarted]
    exact s.blk.flag_readBusy

theorem scpReadDone_idle {s : State} (h : s.blk.scp.readSeq = none) : Completes .scpReadDone s (· = s) := by
  refine ⟨s, ?_, rfl⟩
  rw [exec_scpReadDone, execScpReadDone, h]

/-- Word `j` of a record read. -/
def recordWord (bs : List Byte) (j : Nat) : Word := BitVec.ofNat 32 (ofBytesBE ((bs.drop (4 * j)).take 4))

section
variable (b : Block) (bs : List Byte)

theorem Block.within_showRecord (n : Nat) : b.Within (fun a => ∃ j < n, a = aSCP_RD_REC j) (b.showRecord bs n) := by
  induction n with
  | zero => exact .refl _ b
  | succ n ih =>
    exact (ih.mono fun _ ⟨j, hj, at_⟩ => ⟨j, hj.trans n.lt_succ_self, at_⟩).trans
      (Block.within_wr _ (p := fun a => ∃ j < n + 1, a = aSCP_RD_REC j) _ ⟨n, n.lt_succ_self, rfl⟩)

theorem Block.rd_showRecord {j n : Nat} (h : j < n) : (b.showRecord bs n).rd (aSCP_RD_REC j) = recordWord bs j := by
  induction n with
  | zero => cases h
  | succ n ih =>
    rw [Block.showRecord, Block.rd_eq, Block.wr_regs]
    rcases Nat.lt_succ_iff_lt_or_eq.1 h with lt | rfl
    · rw [sget_sput_ne _ _ _ (by simp only [aSCP_RD_REC]; omega)]
      exact ih lt
    · exact sget_sput_same ..
end

/-- The block without a readout asked for. -/
def Block.readEnded (b : Block) : Block := { b with scp := { b.scp with readSeq := none } }

/-- The bytes of a record read shown, with the status bit `f`. -/
def Block.readShown (b : Block) (bs : List Byte) (f : Fld) : Block := ((b.readEnded.showRecord bs 16).off SCP_RD_STAT_BUSY).on f

/-- The registers that show a readout. -/
def readoutReg (a : Nat) : Prop := a = aSCP_RD_STAT ∨ ∃ j < 16, a = aSCP_RD_REC j

section
variable (b : Block) (bs : List Byte) {f : Fld} (hf : f ∈ readStats)
include hf

theorem Block.within_readShown : b.readEnded.Within readoutReg (b.readShown bs f) :=
  ((b.readEnded.within_showRecord bs 16).mono fun _ => .inr).trans <|
    ((Block.within_set_readStat _ (f := SCP_RD_STAT_BUSY) (by decide) 0).trans (Block.within_set_readStat _ hf 1)).mono fun _ => .inl

theorem Block.flag_readShown : (b.readShown bs f).flag f = true := Block.flag_on_readStat _ hf

theorem Block.flag_readShown_busy (ne : f ≠ SCP_RD_STAT_BUSY) : (b.readShown bs f).flag SCP_RD_STAT_BUSY = false :=
  (Block.flag_set_readStat_ne _ hf 1 (by decide) ne).trans (Block.flag_off_readStat _ (by decide))

theorem Block.rd_readShown {j : Nat} (h : j < 16) : (b.readShown bs f).rd (aSCP_RD_REC j) = recordWord bs j := by
  have far : aSCP_RD_REC j ≠ aSCP_RD_STAT := by simp only [aSCP_RD_REC, aSCP_RD_STAT]; omega
  exact ((Block.within_set_readStat _ hf 1).rd far).trans <|
    ((Block.within_set_readStat _ (f := SCP_RD_STAT_BUSY) (by decide) 0).rd far).trans (b.readEnded.rd_showRecord bs h)
end

/-- No record `q` is held: not written yet, or overwritten (R556, R566). -/
def State.readGone (s : State) (q : Nat) : Prop := s.nv.nextSeq ≤ q ∨ (2048 ≤ q ∧ q + 14336 < s.nv.nextSeq)

theorem State.readGone_iff (s : State) (q : Nat) :
    (decide (s.nv.nextSeq ≤ q) || decide (2048 ≤ q) && decide (q + 14336 < s.nv.nextSeq)) = true ↔ s.readGone q := by
  simp [State.readGone]

/-- What SCP_RD_STAT shows of a record that is held: whether its slot is valid (R557). -/
def State.sealStat (s : State) (q : Nat) : Fld := if slotValid s.nv.pad (slotOf q) then SCP_RD_STAT_VALID else SCP_RD_STAT_SEAL_ERR

theorem State.sealStat_mem (s : State) (q : Nat) : s.sealStat q ∈ readStats ∧ s.sealStat q ≠ SCP_RD_STAT_BUSY := by
  unfold State.sealStat
  split <;> decide

section
variable {s : State}

/-- Whatever is shown, the readout has ended and nothing else has changed. -/
theorem State.keepsBut_readShown {f : Fld} (bs : List Byte) (hf : f ∈ readStats) :
    (s.onBlk fun b => { b with scp := { s.blk.scp with readSeq := none } }).keepsBut { s with blk := s.blk.readShown bs f } readoutReg :=
  State.keepsBut_onBlk (g := fun b => { b with scp := { s.blk.scp with readSeq := none } }) (s.blk.within_readShown bs hf)

variable {q : Nat} (asked : s.blk.scp.readSeq = some q)
include asked

theorem exec_scpReadDone_gone (gone : s.readGone q) :
    exec .scpReadDone s = .next { s with blk := s.blk.readShown [] SCP_RD_STAT_GONE } := by
  rw [exec_scpReadDone, execScpReadDone, asked]
  dsimp only [State.onBlk]
  rw [(s.readGone_iff q).2 gone]
  simp only [if_true]
  rfl

theorem exec_scpReadDone_held (held : ¬ s.readGone q) : exec .scpReadDone s =
    .next { s with blk := s.blk.readShown (Memory.readBytes s.nv.pad (64 * slotOf q) 64) (s.sealStat q) } := by
  rw [exec_scpReadDone, execScpReadDone, asked, State.sealStat]
  dsimp only [State.onBlk]
  rw [Bool.eq_false_iff.2 (mt (s.readGone_iff q).1 held)]
  cases slotValid s.nv.pad (slotOf q) <;> simp only [Bool.false_eq_true, if_false, if_true] <;> rfl

theorem scpReadDone_completes : Completes .scpReadDone s fun t =>
    (s.onBlk fun b => { b with scp := { s.blk.scp with readSeq := none } }).keepsBut t readoutReg ∧
      t.blk.flag SCP_RD_STAT_BUSY = false ∧
      (s.readGone q → t.blk.flag SCP_RD_STAT_GONE = true ∧ ∀ j < 16, t.blk.rd (aSCP_RD_REC j) = 0) ∧
      (¬ s.readGone q →
        (∀ j < 16, t.blk.rd (aSCP_RD_REC j) = BitVec.ofNat 32 (ofBytesBE (Memory.readBytes s.nv.pad (64 * slotOf q + 4 * j) 4))) ∧
        (slotValid s.nv.pad (slotOf q) = true → t.blk.flag SCP_RD_STAT_VALID = true) ∧
        (slotValid s.nv.pad (slotOf q) = false → t.blk.flag SCP_RD_STAT_SEAL_ERR = true)) := by
  by_cases gone : s.readGone q
  · have shown : SCP_RD_STAT_GONE ∈ readStats := by decide
    have busy := s.blk.flag_readShown_busy [] shown (by decide)
    have status := s.blk.flag_readShown [] shown
    refine ⟨_, exec_scpReadDone_gone asked gone, State.keepsBut_readShown [] shown, busy, fun _ => ⟨status, fun j hj => ?_⟩, ?_⟩
    · rw [s.blk.rd_readShown [] shown hj]
      simp [recordWord, ofBytesBE]
    · exact fun held => absurd gone held
  · obtain ⟨shown, idle⟩ := s.sealStat_mem q
    have busy := s.blk.flag_readShown_busy (Memory.readBytes s.nv.pad (64 * slotOf q) 64) shown idle
    have status := s.blk.flag_readShown (Memory.readBytes s.nv.pad (64 * slotOf q) 64) shown
    refine ⟨_, exec_scpReadDone_held asked gone, State.keepsBut_readShown _ shown, busy, ?_,
      fun _ => ⟨fun j hj => ?_, fun valid => ?_, fun bad => ?_⟩⟩
    · exact fun k => absurd k gone
    · rw [s.blk.rd_readShown _ shown hj, recordWord, Memory.take_drop_readBytes _ _ (by omega)]
    · have is : s.sealStat q = SCP_RD_STAT_VALID := if_pos valid
      rwa [is] at status ⊢
    · have is : s.sealStat q = SCP_RD_STAT_SEAL_ERR := if_neg (ne_true_of_eq_false bad)
      rwa [is] at status ⊢
end

/-- Settles O57: each clause is what its command does, one lemma above per command and case. -/
theorem scorepad : Obligations.Scorepad := by
  unfold Obligations.Scorepad
  intro s m v code level x y q e rest b scp pad down idle at_ padKept stamped logs
  refine ⟨Block.event_first, Block.event_afterWritten, Block.event_afterQueued, recordWrite_idle, fun up dirty written =>
    ⟨recordWrite_repeat up dirty written, recordWrite_repeatLost up dirty written⟩, recordWrite_early, recordWrite_record, opsecTick_idle,
    opsecTick_counts, fun h => ⟨scpHwCmd_refused h, scpHwCmd_taken h⟩, scpRdGo_completes, scpReadDone_idle, scpReadDone_completes⟩

end Sys2Proof.Machine
end

section
/-!
PROOFS. What clocks and resets share (20_clocks_power_reset.md): registers by their words, the registers of a domain dropped, the head of
the scorepad queue, interrupt sources of PD0, and the stopped state (01_dealer_and_helpers.md R39).
-/

namespace Sys2Proof.Machine

/-! ### Registers by their words -/

/-- A field of a register that holds its word holds its value. -/
theorem Block.get_of_rd {b c : Block} {f : Fld} (narrow : f.lo + f.w ≤ 32) (h : c.rd f.addr = b.rd f.addr) :
    Regs.get c.regs f = Regs.get b.regs f := by
  unfold Regs.get
  rw [if_pos narrow, if_pos narrow]
  exact congrArg (fun v : Word => bits v.toNat f.lo f.w) h

/-- A map without the keys that fail `keep` reads there as nothing has written it. -/
theorem sget_filter {α : Type} (d : Nat → α) (m : List (Nat × α)) (keep : Nat → Bool) (k : Nat) :
    sget d (m.filter fun r => keep r.1) k = if keep k then sget d m k else d k := by
  induction m with
  | nil => exact (ite_self _).symm
  | cons x t ih =>
    obtain ⟨j, v⟩ := x
    by_cases e : k = j
    · subst e
      cases h : keep k <;> simp_all [sget]
    · cases h : keep j <;> simp_all [sget]

theorem Block.flag_of_zero {b : Block} {f : Fld} (h : Regs.get b.regs f = 0) : b.flag f = false := by
  rw [Block.flag_eq, h]
  rfl

theorem Block.flag_of_one {b : Block} {f : Fld} (h : Regs.get b.regs f = 1) : b.flag f = true := by
  rw [Block.flag_eq, h]
  rfl

/-- PD0 replaced on both sides. -/
theorem Block.Within.withPd0 {p : Nat → Prop} {b c : Block} (h : b.Within p c) (x : Pd0) :
    ({ b with pd0 := x } : Block).Within p { c with pd0 := x } := by
  obtain ⟨regs, rest⟩ := h
  refine ⟨?_, rest⟩
  unfold Block.RegsOnly at regs ⊢
  rw [regs]

/-! ### The head of the scorepad queue (19_scorepad.md R561, R562) -/

/-- The event first in the queue has this code, level and first argument. -/
def Block.headIs (b : Block) (code level arg0 : Nat) : Prop :=
  ∃ e rest, b.scp.queue = e :: rest ∧ e.code = code ∧ e.level = level ∧ e.arg0 = arg0

section
variable {b : Block} {code level arg0 : Nat}

theorem Block.headIs_event (empty : b.scp.queue = []) (unwritten : b.scp.newest = none) (x y : Nat) :
    (b.event code level x y).headIs code level (x % 2 ^ 32) := by
  refine ⟨b.stampEvent code level x y false false, [], ?_, rfl, rfl, rfl⟩
  rw [Block.event_first empty unwritten]

theorem Block.headIs.of_scp {c : Block} (h : b.headIs code level arg0) (same : c.scp = b.scp) : c.headIs code level arg0 := by
  unfold Block.headIs
  rw [same]
  exact h

/-- A later event leaves the head where it is: at most it repeats it. -/
theorem Block.headIs.enqueue (h : b.headIs code level arg0) (x : ScpEvent) : (b.enqueue x).headIs code level arg0 := by
  obtain ⟨e, rest, queue, hc, hl, ha⟩ := h
  rcases List.eq_nil_or_concat' rest with rfl | ⟨init, last, rfl⟩
  · rw [Block.enqueue_queued (rest := []) queue]
    split
    · exact ⟨e.repeated x.opsec, [], rfl, hc, hl, ha⟩
    · split
      · exact ⟨e, [], by rw [Block.eventLost_scp]; exact queue, hc, hl, ha⟩
      · exact ⟨e, [x], by rw [Block.queued_scp, queue]; rfl, hc, hl, ha⟩
  · rw [Block.enqueue_queued (rest := e :: init) queue]
    split
    · exact ⟨e, init ++ [last.repeated x.opsec], rfl, hc, hl, ha⟩
    · split
      · exact ⟨e, init ++ [last], by rw [Block.eventLost_scp]; exact queue, hc, hl, ha⟩
      · exact ⟨e, init ++ [last] ++ [x], by rw [Block.queued_scp, queue]; rfl, hc, hl, ha⟩
end

/-- What an event makes of the scorepad unit depends on that unit alone. -/
theorem Block.scp_enqueue_congr {b c : Block} (same : c.scp = b.scp) (x : ScpEvent) : (c.enqueue x).scp = (b.enqueue x).scp := by
  rcases List.eq_nil_or_concat' b.scp.queue with empty | ⟨init, last, queue⟩
  · cases written : b.scp.newest with
    | none =>
      rw [Block.enqueue_first empty written, Block.enqueue_first (same ▸ empty) (same ▸ written), Block.queued_scp, Block.queued_scp, same]
    | some w =>
      rw [Block.enqueue_written empty written, Block.enqueue_written (same ▸ empty) (same ▸ written)]
      split
      · rw [same]
      · rw [Block.queued_scp, Block.queued_scp, same]
  · rw [Block.enqueue_queued queue, Block.enqueue_queued (same ▸ queue), same]
    split
    · rfl
    · split
      · rw [Block.eventLost_scp, Block.eventLost_scp, same]
      · rw [Block.queued_scp, Block.queued_scp, same]

/-! ### Interrupt sources of PD0 (R594) -/

/-- PD11 is powered and out of reset: sources of PD0 assert at once. -/
def Block.hostRuns (b : Block) : Prop := b.domainOn 11 = true ∧ b.domainHeld 11 = false

section
variable (b : Block) (n : Nat)

theorem Block.cprIrq_asserts {b : Block} {n : Nat} (h : b.hostRuns) : b.cprIrq n = b.irq n :=
  if_pos ⟨h.1, ne_true_of_eq_false h.2⟩

theorem Block.cprIrq_owes {b : Block} {n : Nat} (h : ¬ b.hostRuns) :
    ∃ owed, b.cprIrq n = { b with pd0 := { b.pd0 with owed } } ∧ n ∈ owed := by
  refine ⟨if b.pd0.owed.contains n then b.pd0.owed else b.pd0.owed ++ [n], if_neg fun k => h ⟨k.1, Bool.eq_false_iff.2 k.2⟩, ?_⟩
  split
  next m => exact List.contains_iff_mem.1 m
  · simp

/-- A source of PD0 writes its own registers and what PD0 owes alone. -/
theorem Block.within_cprIrq :
    ({ b with pd0 := { b.pd0 with owed := (b.cprIrq n).pd0.owed } } : Block).Within (irqReg n) (b.cprIrq n) := by
  by_cases h : b.hostRuns
  · rw [Block.cprIrq_asserts h, Block.irq_pd0]
    exact b.within_irq fun _ => id
  · obtain ⟨owed, e, -⟩ := Block.cprIrq_owes (n := n) h
    rw [e]
    exact .refl _ _

theorem Block.cprIrq_pd0 : (b.cprIrq n).pd0 = { b.pd0 with owed := (b.cprIrq n).pd0.owed } := (b.within_cprIrq n).1.p_pd0

end

/-! ### What stopping changes: registers, the scorepad unit, the SOUT halves -/

/-- From `b` to `c` registers of `p`, the scorepad unit and the SOUT halves of the safety channels may have changed, and nothing else. -/
def Block.StopsWithin (p : Nat → Prop) (b c : Block) : Prop :=
  ∃ (x : ScpUnit) (y z : Nat),
    ({ b with scp := x, safety := { b.safety with a.halves := y, b.halves := z } } : Block).Within p c

section
variable {p q : Nat → Prop} {b c d : Block}

theorem Block.Within.stops (h : b.Within p c) : b.StopsWithin p c := ⟨b.scp, b.safety.a.halves, b.safety.b.halves, h⟩

theorem Block.stopsWithin_enqueue (b : Block) (e : ScpEvent) : b.StopsWithin eventReg (b.enqueue e) :=
  ⟨_, b.safety.a.halves, b.safety.b.halves, b.within_enqueue e⟩

theorem Block.stopsWithin_event (b : Block) (code level x y : Nat) : b.StopsWithin eventReg (b.event code level x y) :=
  b.stopsWithin_enqueue _

theorem Block.StopsWithin.mono (h : b.StopsWithin p c) (i : ∀ a, p a → q a) : b.StopsWithin q c := by
  obtain ⟨x, y, z, h⟩ := h
  exact ⟨x, y, z, h.mono i⟩

theorem Block.StopsWithin.trans (h : b.StopsWithin p c) (g : c.StopsWithin p d) : b.StopsWithin p d := by
  obtain ⟨x, y, z, only, regs⟩ := h
  obtain ⟨x', y', z', only', regs'⟩ := g
  refine ⟨x', y', z', ?_, fun a n => (regs' a n).trans (regs a n)⟩
  unfold Block.RegsOnly at only only' ⊢
  rw [only', only]

/-- A register outside the set holds its word. -/
theorem Block.StopsWithin.rd (h : b.StopsWithin p c) {a : Nat} (n : ¬ p a) : c.rd a = b.rd a := by
  obtain ⟨x, y, z, h⟩ := h
  exact h.rd n

/-- A narrow field outside the set holds its value. -/
theorem Block.StopsWithin.get (h : b.StopsWithin p c) {f : Fld} (n : ¬ p f.addr) (narrow : f.lo + f.w ≤ 32) :
    Regs.get c.regs f = Regs.get b.regs f := Block.get_of_rd narrow (h.rd n)

theorem Block.StopsWithin.eq (h : b.StopsWithin p c) : c = { b with
    regs := c.regs, scp := c.scp
    safety := { b.safety with a.halves := c.safety.a.halves, b.halves := c.safety.b.halves } } := by
  obtain ⟨x, y, z, only, -⟩ := h
  have scp := only.p_scp
  have safety := only.p_safety
  rw [scp, safety]
  exact only

end

/-! ### Fields of one register after another -/

/-- The block with fields set one after another. -/
def Block.setAll (b : Block) (l : List (Fld × Nat)) : Block := l.foldl (fun b x => b.set x.1 x.2) b

theorem Block.within_setAll {p : Nat → Prop} (l : List (Fld × Nat)) (b : Block) (h : ∀ f ∈ l.map Prod.fst, f.lo + f.w ≤ 32 ∧ p f.addr) :
    b.Within p (b.setAll l) := by
  induction l generalizing b with
  | nil => exact .refl p b
  | cons x t ih =>
    obtain ⟨first, rest⟩ := List.forall_mem_cons.1 h
    exact (b.within_set_narrow x.2 first.1 first.2).trans (ih _ rest)

theorem Block.get_setAll_other (l : List (Fld × Nat)) (b : Block) {g : Fld} (hg : g.lo + g.w ≤ 32)
    (h : ∀ f ∈ l.map Prod.fst, f.lo + f.w ≤ 32 ∧ (g.addr ≠ f.addr ∨ g.lo + g.w ≤ f.lo ∨ f.lo + f.w ≤ g.lo)) :
    Regs.get (b.setAll l).regs g = Regs.get b.regs g := by
  induction l generalizing b with
  | nil => rfl
  | cons x t ih =>
    obtain ⟨first, rest⟩ := List.forall_mem_cons.1 h
    exact (ih _ rest).trans (b.get_set_other x.2 first.1 hg first.2)

/-! ### The safety page (15_safety.md R483) -/

/-- The registers of the safety page. -/
def safetyReg (a : Nat) : Prop := 0x160000 ≤ a ∧ a < 0x170000

/-- Lockout as the page shows it: source 145 asserts where it changes, with its record. -/
def Block.showLock (b : Block) (lock : Bool) : Block :=
  if b.flag SAF_STAT_LOCKOUT = lock then b else (b.put SAF_STAT_LOCKOUT lock).safIrq 145

/-- The block with the SOUT halves of both channels, as the page shows them. -/
def Block.showHalves (b : Block) (x y : Nat) : Block :=
  (({ b with safety := { b.safety with a.halves := x, b.halves := y } } : Block).set SAF_SOUT_A x).set SAF_SOUT_B y

/-- The fields of the safety page that follow the channels' inputs, functions and faults. -/
def followFields : List Fld :=
  [SAF_SDI_A, SAF_SDI_B, SAF_SDI_ERR_FAULT, SAF_SDI_ERR_DISC, SAF_FUNC_STOP, SAF_FUNC_LOCK, SAF_STAT_FLOCK, SAF_STAT_A_OK, SAF_STAT_B_OK,
    SAF_STAT_SS1_RUN]

/-- What the safety page shows, and that PHASE follows while the device operates. -/
theorem Block.showSafety_eq (b : Block) : ∃ (l : List (Fld × Nat)) (v w : Nat), l.map Prod.fst = followFields ∧
    let c := (b.showHalves (b.halvesOf b.safety.a (!b.field.linkLost)) (b.halvesOf b.safety.b true)).setAll l
    let d := (c.set SAF_STAT_PERMITTED v).showLock b.safety.lockout
    b.showSafety = if c.get DEV_BOOT_PHASE = 6 || c.get DEV_BOOT_PHASE = 7 then d.setPhase w else d := by
  exact ⟨[(SAF_SDI_A, _), (SAF_SDI_B, _), (SAF_SDI_ERR_FAULT, _), (SAF_SDI_ERR_DISC, _), (SAF_FUNC_STOP, _), (SAF_FUNC_LOCK, _),
    (SAF_STAT_FLOCK, _), (SAF_STAT_A_OK, _), (SAF_STAT_B_OK, _), (SAF_STAT_SS1_RUN, _)], _, _, rfl, rfl⟩

theorem followFields_spec : ∀ f ∈ followFields,
    f.lo + f.w ≤ 32 ∧ safetyReg f.addr ∧ f.addr ≠ aSAF_SOUT ∧ (f.addr = aSAF_STAT → 2 ≤ f.lo) := by
  unfold safetyReg
  decide

/-- Fields of the safety page that follow the channels leave the SOUT halves and lockout alone. -/
theorem Block.get_setAll_follow {l : List (Fld × Nat)} (h : l.map Prod.fst = followFields) (b : Block) {g : Fld}
    (hg : g.lo + g.w ≤ 32) (apart : g.addr = aSAF_SOUT ∨ (g.addr = aSAF_STAT ∧ g.lo + g.w ≤ 2)) :
    Regs.get (b.setAll l).regs g = Regs.get b.regs g := by
  refine Block.get_setAll_other l b hg fun f m => ?_
  obtain ⟨narrow, -, sout, stat⟩ := followFields_spec f (h ▸ m)
  refine ⟨narrow, ?_⟩
  rcases apart with e | ⟨e, low⟩
  · exact .inl fun k => sout (k.symm.trans e)
  · by_cases k : f.addr = aSAF_STAT
    · exact .inr (.inl (low.trans (stat k)))
    · exact .inl fun j => k (j.symm.trans e)

section
variable (b : Block)

theorem Block.within_showHalves (x y : Nat) :
    ({ b with safety := { b.safety with a.halves := x, b.halves := y } } : Block).Within safetyReg (b.showHalves x y) :=
  (Block.within_set_narrow _ (f := SAF_SOUT_A) x (by decide) (by unfold safetyReg; decide)).trans
    (Block.within_set_narrow _ (f := SAF_SOUT_B) y (by decide) (by unfold safetyReg; decide))

theorem Block.get_showHalves (x y : Nat) :
    Regs.get (b.showHalves x y).regs SAF_SOUT_A = x % 2 ^ 8 ∧ Regs.get (b.showHalves x y).regs SAF_SOUT_B = y % 2 ^ 8 := by
  refine ⟨?_, Block.get_set_same _ SAF_SOUT_B y (by decide)⟩
  exact (Block.get_set_other _ (f := SAF_SOUT_B) y (by decide) (by decide) (by decide)).trans
    (Block.get_set_same _ SAF_SOUT_A x (by decide))

/-- Lockout shown writes the status, source 145 and its record alone. -/
theorem Block.stopsWithin_showLock (lock : Bool) :
    b.StopsWithin (fun a => a = aSAF_STAT ∨ irqReg 145 a ∨ eventReg a) (b.showLock lock) := by
  unfold Block.showLock Block.safIrq
  split
  · exact (Block.Within.refl _ b).stops
  · have status : b.Within (fun a => a = aSAF_STAT ∨ irqReg 145 a ∨ eventReg a) (b.put SAF_STAT_LOCKOUT lock) :=
      b.within_set_narrow (f := SAF_STAT_LOCKOUT) _ (by decide) (.inl rfl)
    exact ((status.trans (Block.within_irq _ fun _ h => .inr (.inl h))).stops).trans
      ((Block.stopsWithin_event ..).mono fun _ h => .inr (.inr h))

/-- The head of the queue stays where lockout is shown. -/
theorem Block.headIs.showLock {b : Block} {code level arg0 : Nat} (h : b.headIs code level arg0) (lock : Bool) :
    (b.showLock lock).headIs code level arg0 := by
  unfold Block.showLock Block.safIrq
  split
  · exact h
  · exact Block.headIs.enqueue (h.of_scp (by rw [Block.irq_scp, Block.put_eq, Block.set_scp])) _
end

/-! ### PHASE (01_dealer_and_helpers.md R40) -/

section
variable (b : Block) (p : Nat)

/-- PHASE set with source 1; PHASE 14 and PHASE 6 may move SAFE_N. -/
theorem Block.setPhase_cases : (b.get DEV_BOOT_PHASE = p ∧ b.setPhase p = b) ∨ b.setPhase p = (b.set DEV_BOOT_PHASE p).irq 1 ∨
    (p = 6 ∨ p = 14) ∧ ∃ v, b.setPhase p = ((b.set DEV_BOOT_PHASE p).irq 1).set CPR_STAT_SAFE v := by
  unfold Block.setPhase
  split
  next h => exact .inl ⟨h, rfl⟩
  next =>
    dsimp only
    split
    next h => exact .inr (.inr ⟨.inr h, 1, rfl⟩)
    next =>
      split
      next h => exact .inr (.inr ⟨.inl h.1, 0, rfl⟩)
      next => exact .inr (.inl rfl)

theorem Block.within_phase : b.Within (fun a => a = aDEV_BOOT ∨ irqReg 1 a) ((b.set DEV_BOOT_PHASE p).irq 1) :=
  (b.within_set_narrow (f := DEV_BOOT_PHASE) p (by decide) (.inl rfl)).trans (Block.within_irq _ fun _ => .inr)

theorem Block.within_setPhase : b.Within (fun a => a = aDEV_BOOT ∨ a = aCPR_STAT ∨ irqReg 1 a) (b.setPhase p) := by
  have phase := (b.within_phase p).mono (q := fun a => a = aDEV_BOOT ∨ a = aCPR_STAT ∨ irqReg 1 a) fun a => Or.imp_right .inr
  rcases b.setPhase_cases p with ⟨-, h⟩ | h | ⟨-, v, h⟩ <;> rw [h]
  · exact .refl _ b
  · exact phase
  · exact phase.trans (Block.within_set_narrow _ (f := CPR_STAT_SAFE) v (by decide) (.inr (.inl rfl)))

/-- Any PHASE but 6 and 14 leaves SAFE_N alone. -/
theorem Block.within_setPhase_safe (h6 : p ≠ 6) (h14 : p ≠ 14) : b.Within (fun a => a = aDEV_BOOT ∨ irqReg 1 a) (b.setPhase p) := by
  rcases b.setPhase_cases p with ⟨-, h⟩ | h | ⟨h | h, -⟩
  · rw [h]
    exact .refl _ b
  · rw [h]
    exact b.within_phase p
  · exact absurd h h6
  · exact absurd h h14

theorem Block.get_setPhase {p : Nat} (h : p < 16) : Regs.get (b.setPhase p).regs DEV_BOOT_PHASE = p := by
  have phase : Regs.get ((b.set DEV_BOOT_PHASE p).irq 1).regs DEV_BOOT_PHASE = p :=
    (Block.get_irq_far _ (by unfold irqReg; decide) (by unfold irqReg; decide)).trans <|
      (b.get_set_same DEV_BOOT_PHASE p (by decide)).trans (Nat.mod_eq_of_lt h)
  rcases b.setPhase_cases p with ⟨same, e⟩ | e | ⟨-, v, e⟩ <;> rw [e]
  · exact same
  · exact phase
  · exact (Block.get_set_other _ (f := CPR_STAT_SAFE) v (by decide) (by decide) (by decide)).trans phase

/-- The step that failed stays shown. -/
theorem Block.get_setPhase_failStep : Regs.get (b.setPhase p).regs DEV_BOOT_FAIL_STEP = Regs.get b.regs DEV_BOOT_FAIL_STEP := by
  have phase : Regs.get ((b.set DEV_BOOT_PHASE p).irq 1).regs DEV_BOOT_FAIL_STEP = Regs.get b.regs DEV_BOOT_FAIL_STEP :=
    (Block.get_irq_far _ (by unfold irqReg; decide) (by unfold irqReg; decide)).trans
      (b.get_set_other (f := DEV_BOOT_PHASE) p (by decide) (by decide) (by decide))
  rcases b.setPhase_cases p with ⟨-, e⟩ | e | ⟨-, v, e⟩ <;> rw [e]
  · exact phase
  · exact (Block.get_set_other _ (f := CPR_STAT_SAFE) v (by decide) (by decide) (by decide)).trans phase
end

/-! ### The stopped state (R39) -/

/-- Start-up has stopped, or the device has. -/
def Block.stopped (b : Block) : Prop := Regs.get b.regs DEV_BOOT_PHASE = 14

section
variable {b : Block} (h : b.stopped)
include h

theorem Block.halvesOf_stopped (x : Chan) (ok : Bool) : b.halvesOf x ok = 0 := by
  have phase : b.get DEV_BOOT_PHASE = 14 := h
  have idle : b.safRuns = false := by simp only [Block.safRuns, phase]; rfl
  exact if_pos (.inl (by rw [idle]; decide))

/-- Stopped, both channels show every SOUT off, and PHASE stays. -/
theorem Block.showSafety_stopped : ∃ c : Block,
    ({ b with safety := { b.safety with a.halves := 0, b.halves := 0 } } : Block).Within safetyReg c ∧
      Regs.get c.regs SAF_SOUT_A = 0 ∧ Regs.get c.regs SAF_SOUT_B = 0 ∧ c.flag SAF_STAT_LOCKOUT = b.flag SAF_STAT_LOCKOUT ∧
        b.showSafety = c.showLock b.safety.lockout := by
  obtain ⟨l, v, w, fields, e⟩ := b.showSafety_eq
  rw [Block.halvesOf_stopped h, Block.halvesOf_stopped h] at e
  have page : ∀ f ∈ l.map Prod.fst, f.lo + f.w ≤ 32 ∧ safetyReg f.addr := fun f m => by
    obtain ⟨narrow, reg, -⟩ := followFields_spec f (fields ▸ m)
    exact ⟨narrow, reg⟩
  have shown := (b.within_showHalves 0 0).trans (Block.within_setAll l _ page)
  have phase : ((b.showHalves 0 0).setAll l).get DEV_BOOT_PHASE = 14 :=
    (shown.get (by unfold safetyReg; decide) (.inl (by decide))).trans h
  obtain ⟨a, b'⟩ := b.get_showHalves 0 0
  refine ⟨((b.showHalves 0 0).setAll l).set SAF_STAT_PERMITTED v,
    shown.trans (Block.within_set_narrow _ (f := SAF_STAT_PERMITTED) v (by decide) (by unfold safetyReg; decide)), ?_, ?_, ?_, ?_⟩
  · exact (Block.get_set_other _ (f := SAF_STAT_PERMITTED) v (by decide) (by decide) (by decide)).trans
      ((Block.get_setAll_follow fields _ (by decide) (.inl rfl)).trans a)
  · exact (Block.get_set_other _ (f := SAF_STAT_PERMITTED) v (by decide) (by decide) (by decide)).trans
      ((Block.get_setAll_follow fields _ (by decide) (.inl rfl)).trans b')
  · refine Block.flag_of_get ?_
    refine (Block.get_set_other _ (f := SAF_STAT_PERMITTED) v (by decide) (by decide) (by decide)).trans
      ((Block.get_setAll_follow fields _ (by decide) (.inr ⟨rfl, by decide⟩)).trans ?_)
    refine (Block.get_set_other _ (f := SAF_SOUT_B) 0 (by decide) (by decide) (by decide)).trans ?_
    exact Block.get_set_other _ (f := SAF_SOUT_A) 0 (by decide) (by decide) (by decide)
  · dsimp only at e
    rw [phase] at e
    exact e

/-- Stopped, every field output is held off. -/
theorem Block.heldAll_stopped : b.heldAll = true := by
  have phase : b.get DEV_BOOT_PHASE = 14 := h
  simp only [Block.heldAll, Block.notOperating, phase]
  rfl

/-- Stopped, no switch is on. -/
theorem Block.switchOn_stopped (n : Nat) : b.switchOn n = false := by
  rw [Block.switchOn, Block.heldAll_stopped h]
  simp

/-- Stopped, the field outputs are shown off and held. -/
theorem Block.refreshOutputs_stopped : b.Within (fun a => a = aFLD_DOUT_ST ∨ a = aFLD_STAT ∨ irqReg 159 a) b.refreshOutputs ∧
    Regs.get b.refreshOutputs.regs FLD_DOUT_ST = 0 ∧ b.refreshOutputs.flag FLD_STAT_HELD = true := by
  have off : (List.range 16).foldl (fun a n => setBits a n 1 (b2n (b.switchOn n))) 0 = 0 :=
    List.foldl_fixed' (fun n => by rw [Block.switchOn_stopped h]; simp [setBits, bits, low, b2n]) _
  have state : b.Within (fun a => a = aFLD_DOUT_ST ∨ a = aFLD_STAT ∨ irqReg 159 a) (b.set FLD_DOUT_ST 0) :=
    b.within_set_narrow (f := FLD_DOUT_ST) 0 (by decide) (.inl rfl)
  have zero : Regs.get (b.set FLD_DOUT_ST 0).regs FLD_DOUT_ST = 0 := b.get_set_same FLD_DOUT_ST 0 (by decide)
  unfold Block.refreshOutputs
  rw [off, Block.heldAll_stopped h, Bool.true_or, Bool.true_or]
  dsimp only
  split
  next shown => exact ⟨state, zero, shown⟩
  next =>
    refine ⟨state.trans <| (Block.within_set_narrow _ (f := FLD_STAT_HELD) _ (by decide) (.inr (.inl rfl))).trans
      (Block.within_irq _ fun _ k => .inr (.inr k)), ?_, ?_⟩
    · exact (Block.get_irq_plant (by decide) _ (by decide)).trans
        ((Block.get_set_other _ (f := FLD_STAT_HELD) _ (by decide) (by decide) (by decide)).trans zero)
    · exact (Block.flag_of_get (Block.get_irq_plant (by decide) _ (by decide))).trans
        (Block.flag_put_same _ (f := FLD_STAT_HELD) true (by decide) rfl)
end

/-- Every output shows off. -/
def Block.dark (b : Block) : Prop :=
  b.get FLD_DOUT_ST = 0 ∧ b.get SAF_SOUT_A = 0 ∧ b.get SAF_SOUT_B = 0 ∧ b.flag FLD_STAT_HELD = true

/-- The registers that show the outputs. -/
def outputReg (a : Nat) : Prop := (0x160000 ≤ a ∧ a < 0x170000) ∨ a = aFLD_DOUT_ST ∨ a = aFLD_STAT

/-- The registers that the stopped state writes. -/
def stopReg (a : Nat) : Prop := a = aDEV_BOOT ∨ a = aCPR_STAT ∨ outputReg a ∨ eventReg a ∨ ∃ i ∈ [1, 145, 159], irqReg i a

section
variable {b : Block} (h : b.stopped)
include h

/-- Stopped, the safety page shows every SOUT off. -/
theorem Block.showSafety_spec : b.StopsWithin (fun a => safetyReg a ∨ irqReg 145 a ∨ eventReg a) b.showSafety ∧
    b.showSafety.get SAF_SOUT_A = 0 ∧ b.showSafety.get SAF_SOUT_B = 0 ∧
    (b.flag SAF_STAT_LOCKOUT = b.safety.lockout → b.showSafety.scp = b.scp) ∧
    ∀ code level arg0, b.headIs code level arg0 → b.showSafety.headIs code level arg0 := by
  obtain ⟨c, page, soutA, soutB, locked, shown⟩ := Block.showSafety_stopped h
  have lock := c.stopsWithin_showLock b.safety.lockout
  have sout : ¬ (aSAF_SOUT = aSAF_STAT ∨ irqReg 145 aSAF_SOUT ∨ eventReg aSAF_SOUT) := by unfold eventReg irqReg; decide
  have scp : c.scp = b.scp := page.1.p_scp
  rw [shown]
  refine ⟨.trans ⟨_, 0, 0, page.mono fun _ => .inl⟩ (lock.mono fun a k => k.imp_left fun e => ?_), (lock.get sout (by decide)).trans soutA,
    (lock.get sout (by decide)).trans soutB, fun same => ?_, fun code level arg0 head => (head.of_scp scp).showLock _⟩
  · rw [e]
    unfold safetyReg
    decide
  · rw [Block.showLock, if_pos (locked.trans same), scp]
end

/-- A device that stops: PHASE 14 and every output off, beside registers nothing but the SOUT halves and, where lockout changes, the
scorepad unit. -/
theorem Block.enterStopped_spec (b : Block) : b.StopsWithin stopReg b.enterStopped ∧ b.enterStopped.dark ∧ b.enterStopped.stopped ∧
    b.enterStopped.get DEV_BOOT_FAIL_STEP = b.get DEV_BOOT_FAIL_STEP ∧
    (b.flag SAF_STAT_LOCKOUT = b.safety.lockout → b.enterStopped.scp = b.scp) ∧
    ∀ code level arg0, b.headIs code level arg0 → b.enterStopped.headIs code level arg0 := by
  have stopped : (b.setPhase 14).stopped := b.get_setPhase (by decide)
  have phase := b.within_setPhase 14
  obtain ⟨safety, soutA, soutB, scp, head⟩ := Block.showSafety_spec stopped
  have boot : ¬ (safetyReg aDEV_BOOT ∨ irqReg 145 aDEV_BOOT ∨ eventReg aDEV_BOOT) := by unfold safetyReg eventReg irqReg; decide
  have still : (b.setPhase 14).showSafety.stopped := (safety.get boot (by decide)).trans stopped
  obtain ⟨outputs, dout, held⟩ := Block.refreshOutputs_stopped still
  have far : ∀ a ∈ [aSAF_SOUT, aDEV_BOOT], ¬ (a = aFLD_DOUT_ST ∨ a = aFLD_STAT ∨ irqReg 159 a) := by unfold irqReg; decide
  have sout := far aSAF_SOUT (by decide)
  have last := far aDEV_BOOT (by decide)
  refine ⟨?_, ⟨dout, (outputs.get sout (.inl (by decide))).trans soutA, (outputs.get sout (.inl (by decide))).trans soutB, held⟩,
    (outputs.get last (.inl (by decide))).trans still, ?_, fun same => ?_, fun code level arg0 h => ?_⟩
  · refine .trans (phase.stops.mono fun a => ?_) (.trans (safety.mono fun a => ?_) (outputs.stops.mono fun a => ?_))
    · exact Or.imp_right (Or.imp_right fun k => .inr (.inr ⟨1, by decide, k⟩))
    · rintro (k | k | k)
      · exact .inr (.inr (.inl (.inl k)))
      · exact .inr (.inr (.inr (.inr ⟨145, by decide, k⟩)))
      · exact .inr (.inr (.inr (.inl k)))
    · rintro (k | k | k)
      · exact .inr (.inr (.inl (.inr (.inl k))))
      · exact .inr (.inr (.inl (.inr (.inr k))))
      · exact .inr (.inr (.inr (.inr ⟨159, by decide, k⟩)))
  · exact (outputs.get last (.inl (by decide))).trans ((safety.get boot (by decide)).trans (b.get_setPhase_failStep 14))
  · have lock : (b.setPhase 14).flag SAF_STAT_LOCKOUT = (b.setPhase 14).safety.lockout := by
      rw [Block.setPhase_safety, ← same]
      exact Block.flag_of_get (phase.get (by unfold irqReg; decide) (.inl (by decide)))
    exact outputs.1.p_scp.trans ((scp lock).trans (Block.setPhase_scp ..))
  · exact (head _ _ _ (h.of_scp (Block.setPhase_scp ..))).of_scp outputs.1.p_scp

end Sys2Proof.Machine
end

section
/-!
PROOFS. Clock failures (20_clocks_power_reset.md R572 to R578): the monitor's windows, the RC check, start-up without a source, the
asynchronous reset. Settles O59.
-/

namespace Sys2Proof.Machine

/-! ### The monitor's windows (R572, R574) -/

theorem exec_monitorWindow (ref : Nat) (plls : Vector (Bool × Nat) 5) (s : State) :
    exec (.monitorWindow ref plls) s = execMonitorWindow ref plls s := by rfl

/-- The status bit of a source is the bit of its number. -/
theorem okBit_eq (src : Nat) : okBit src = ⟨aCPR_STAT, src, 1⟩ := by
  unfold okBit
  split
  · subst src; rfl
  · split
    · subst src; rfl
    · rfl

/-- A source fails in a window of count `c`: stopped, or odd twice running (R572). -/
def Block.failsWindow (b : Block) (src c : Nat) : Prop := c < 8 ∨ (oddCount c = true ∧ src ∈ b.pd0.oddWindows)

/-- The block with the sources whose last window was odd. -/
def Block.withOdd (b : Block) (w : List Nat) : Block := { b with pd0 := { b.pd0 with oddWindows := w } }

/-- The sources whose last window was odd, after a window of `src` with count `c`. -/
def oddAfter (w : List Nat) (src c : Nat) : List Nat := if oddCount c then src :: w.filter (· ≠ src) else w.filter (· ≠ src)

theorem mem_oddAfter_self (w : List Nat) (src c : Nat) : src ∈ oddAfter w src c ↔ oddCount c = true := by
  unfold oddAfter
  cases oddCount c <;> simp

theorem mem_oddAfter_other (w : List Nat) {src n : Nat} (c : Nat) (ne : n ≠ src) : n ∈ oddAfter w src c ↔ n ∈ w := by
  unfold oddAfter
  cases oddCount c <;> simp [ne]

section
variable {b : Block} {src c : Nat} (lock : Bool)

/-- What decides over a good source, as the monitor tests it. -/
theorem Block.failsWindow_iff : (c < 8 ∨ (oddCount c && b.pd0.oddWindows.contains src) = true) ↔ b.failsWindow src c := by
  simp [Block.failsWindow]

/-- A good source that does not fail is only noted. -/
theorem Block.judgeWindow_sound (good : b.flag (okBit src) = true) (sound : ¬ b.failsWindow src c) :
    b.judgeWindow src c lock = b.withOdd (oddAfter b.pd0.oddWindows src c) := by
  exact (if_pos good).trans (if_neg (mt Block.failsWindow_iff.1 sound))

/-- A good source that fails is declared failed. -/
theorem Block.judgeWindow_fails (good : b.flag (okBit src) = true) (new : b.pd0.failed = []) (fails : b.failsWindow src c) :
    b.judgeWindow src c lock = (b.withOdd (oddAfter b.pd0.oddWindows src c)).declareFailed src := by
  refine (if_pos good).trans ((if_pos (Block.failsWindow_iff.2 fails)).trans (if_neg ?_))
  simp [new]
end

/-- The windows of PLLs, one after another. -/
def Block.judgePlls (b : Block) (plls : Vector (Bool × Nat) 5) (l : List (Fin 5)) : Block :=
  l.foldl (fun b (k : Fin 5) => b.judgeWindow (k.1 + 2) plls[k].2 plls[k].1) b

/-- PLL `k` is good, and its window does not fail it. -/
def Block.soundPll (b : Block) (plls : Vector (Bool × Nat) 5) (k : Fin 5) : Prop :=
  b.flag (okBit (k + 2)) = true ∧ ¬ b.failsWindow (k + 2) plls[k].2

section
variable {plls : Vector (Bool × Nat) 5}

/-- What is sound stays so where neither its status bit nor its last window changes. -/
theorem Block.soundPll.of_same {b c : Block} {k : Fin 5} (h : b.soundPll plls k)
    (bit : Regs.get c.regs (okBit (k + 2)) = Regs.get b.regs (okBit (k + 2)))
    (odd : k.1 + 2 ∈ c.pd0.oddWindows → k.1 + 2 ∈ b.pd0.oddWindows) : c.soundPll plls k :=
  ⟨(Block.flag_of_get bit).trans h.1, fun f => h.2 (f.imp_right fun g => ⟨g.1, odd g.2⟩)⟩

/-- Sound PLLs are only noted. -/
theorem Block.judgePlls_sound (l : List (Fin 5)) (nodup : l.Nodup) (b : Block) (sound : ∀ k ∈ l, b.soundPll plls k) :
    ∃ w, b.judgePlls plls l = b.withOdd w ∧ (∀ k ∈ l, k.1 + 2 ∈ w ↔ oddCount plls[k].2 = true) ∧
      ∀ n, (∀ k ∈ l, n ≠ k.1 + 2) → (n ∈ w ↔ n ∈ b.pd0.oddWindows) := by
  induction l generalizing b with
  | nil => exact ⟨b.pd0.oddWindows, rfl, by simp, fun n _ => .rfl⟩
  | cons k t ih =>
    obtain ⟨fresh, nodup⟩ := List.nodup_cons.1 nodup
    obtain ⟨first, rest⟩ := List.forall_mem_cons.1 sound
    have other (j : Fin 5) (m : j ∈ t) : j.1 + 2 ≠ k.1 + 2 := fun e => fresh (Fin.ext (Nat.add_right_cancel e) ▸ m)
    obtain ⟨w, e, now, before⟩ := ih nodup (b.withOdd (oddAfter b.pd0.oddWindows (k + 2) plls[k].2)) fun j m =>
      (rest j m).of_same rfl (mem_oddAfter_other _ _ (other j m)).1
    refine ⟨w, ?_, List.forall_mem_cons.2 ⟨?_, now⟩, fun n apart => ?_⟩
    · exact (congrArg (·.judgePlls plls t) (Block.judgeWindow_sound plls[k].1 first.1 first.2)).trans e
    · exact ((before (k + 2)) fun j m => (other j m).symm).trans (mem_oddAfter_self ..)
    · obtain ⟨ne, apart⟩ := List.forall_mem_cons.1 apart
      exact (before n apart).trans (mem_oddAfter_other _ _ ne)
end

/-! ### A source declared failed (R572, R575, R577) -/

/-- The registers that show a failure. -/
def failReg (a : Nat) : Prop := a = aCPR_STAT ∨ a = aCPR_CLK_FAIL ∨ a = aCPR_EVT

/-- No source has failed, and no failure waits for its reset. -/
def Pd0.fresh (x : Pd0) : Prop := x.failed = [] ∧ x.declaredAt = none ∧ x.mux = []

/-- Source `k`, none having failed before, is declared failed between `s` and `t`. -/
def State.declared (s t : State) (k : Nat) : Prop :=
  t = { s with blk := { s.blk with
    regs := t.blk.regs, pd0 := t.blk.pd0, ang := { s.blk.ang with pins := 0, pulses := Vector.replicate 16 none }
    cap := { s.blk.cap with fireUntil := 0 }, boot := { s.blk.boot with dealing := false, staging := false, stage := [] }
    passed := none } } ∧
  t.blk.flag (okBit k) = false ∧ t.blk.flag CPR_EVT_CLK_FAIL = true ∧ t.blk.flag CPR_STAT_FORCED = true ∧
  t.blk.flag CPR_STAT_SAFE = true ∧ t.blk.pd0.failed = [k] ∧ t.blk.pd0.declaredAt = some s.blk.up ∧ t.blk.pd0.mux = fedBy k ∧
  (s.blk.get CPR_CLK_FAIL_ID = 0xFF → t.blk.get CPR_CLK_FAIL_ID = k) ∧ s.regsBut t failReg

/-- The registers of a declaration: CPR_CLK_FAIL holds the first source, the source is not good, the forced safe state holds. -/
def Block.failureShown (b : Block) (src : Nat) : Block :=
  let c := if b.get CPR_CLK_FAIL_ID = 0xFF then b.set CPR_CLK_FAIL_ID src else b
  ((c.off (okBit src)).on CPR_EVT_CLK_FAIL).on CPR_STAT_FORCED

/-- A failure counted in PD0; it ends a deal, the pulses of the event pins and the trigger pulse. -/
def Block.abandoned (b : Block) (src : Nat) : Block := { b with
  pd0 := { b.pd0 with
    failed := b.pd0.failed ++ [src], goodSince := none, declaredAt := some (b.pd0.declaredAt.getD b.up)
    mux := b.pd0.mux ++ (fedBy src).filter fun d => !b.pd0.mux.contains d }
  ang := { b.ang with pins := 0, pulses := Vector.replicate 16 none }, cap := { b.cap with fireUntil := 0 }
  boot := { b.boot with dealing := false, staging := false, stage := [] }, passed := none }

section
variable (b : Block) (src : Nat)

/-- A change of registers before the count is one after it. -/
theorem Block.Within.abandoned {p : Nat → Prop} {b c : Block} (h : b.Within p c) (src : Nat) :
    (b.abandoned src).Within p (c.abandoned src) := by
  obtain ⟨only, regs⟩ := h
  refine ⟨?_, regs⟩
  unfold Block.RegsOnly at only ⊢
  rw [only]
  rfl

theorem Block.declareFailed_new {b : Block} {src : Nat} (new : b.pd0.failed = []) :
    b.declareFailed src = ((b.failureShown src).abandoned src).on CPR_STAT_SAFE := by
  refine if_neg ?_
  simp [new]

theorem okBit_narrow {src : Nat} (h : src < 32) : (okBit src).lo + (okBit src).w ≤ 32 := by
  rw [okBit_eq]
  exact h

/-- The status bits of sources lie below those of the forced safe state. -/
theorem Block.get_set_okBit {src : Nat} (h : src < 8) {f : Fld} (v : Nat) (narrow : f.lo + f.w ≤ 32)
    (apart : f.addr ≠ aCPR_STAT ∨ 8 ≤ f.lo) : Regs.get (b.set f v).regs (okBit src) = Regs.get b.regs (okBit src) := by
  refine b.get_set_other v narrow (okBit_narrow (by omega)) ?_
  rw [okBit_eq]
  rcases apart with k | k
  · exact .inl fun e => k e.symm
  · exact .inr (.inl (show src + 1 ≤ f.lo by omega))

variable (h : src < 8)
include h

theorem Block.within_failureShown : b.Within failReg (b.failureShown src) := by
  have id : b.Within failReg (if b.get CPR_CLK_FAIL_ID = 0xFF then b.set CPR_CLK_FAIL_ID src else b) := by
    split
    · exact b.within_set_narrow (f := CPR_CLK_FAIL_ID) src (by decide) (.inr (.inl rfl))
    · exact .refl _ b
  have at_ : (okBit src).addr = aCPR_STAT := by rw [okBit_eq]
  exact id.trans <| (Block.within_set_narrow _ 0 (okBit_narrow (by omega)) (.inl at_)).trans <|
    (Block.within_set_narrow _ (f := CPR_EVT_CLK_FAIL) 1 (by decide) (.inr (.inr rfl))).trans
      (Block.within_set_narrow _ (f := CPR_STAT_FORCED) 1 (by decide) (.inl rfl))

theorem Block.failureShown_spec : Regs.get (b.failureShown src).regs (okBit src) = 0 ∧
    Regs.get (b.failureShown src).regs CPR_EVT_CLK_FAIL = 1 ∧ Regs.get (b.failureShown src).regs CPR_STAT_FORCED = 1 ∧
    (b.get CPR_CLK_FAIL_ID = 0xFF → Regs.get (b.failureShown src).regs CPR_CLK_FAIL_ID = src) := by
  refine ⟨?_, ?_, Block.get_set_same _ CPR_STAT_FORCED 1 (by decide), fun first => ?_⟩
  · refine (Block.get_set_okBit _ h (f := CPR_STAT_FORCED) 1 (by decide) (.inr (by decide))).trans
      ((Block.get_set_okBit _ h (f := CPR_EVT_CLK_FAIL) 1 (by decide) (.inl (by decide))).trans ?_)
    exact (Block.get_set_same _ (okBit src) 0 (Nat.le_trans (okBit_narrow (by omega)) (by decide))).trans (Nat.zero_mod _)
  · exact (Block.get_set_other _ (f := CPR_STAT_FORCED) 1 (by decide) (by decide) (by decide)).trans
      (Block.get_set_same _ CPR_EVT_CLK_FAIL 1 (by decide))
  · have apart : CPR_CLK_FAIL_ID.addr ≠ (okBit src).addr := by
      rw [okBit_eq]
      show aCPR_CLK_FAIL ≠ aCPR_STAT
      decide
    rw [Block.failureShown, if_pos first]
    refine (Block.get_set_other _ (f := CPR_STAT_FORCED) 1 (by decide) (by decide) (by decide)).trans <|
      (Block.get_set_other _ (f := CPR_EVT_CLK_FAIL) 1 (by decide) (by decide) (by decide)).trans <|
      (Block.get_set_other _ 0 (okBit_narrow (by omega)) (by decide) (.inl apart)).trans <|
      (b.get_set_same CPR_CLK_FAIL_ID src (by decide)).trans (Nat.mod_eq_of_lt (Nat.lt_trans h (by decide)))
end

/-- What the first declaration makes of the block, and what it shows. -/
theorem Block.declareFailed_spec {b : Block} {src : Nat} (h : src < 8) (new : b.pd0.failed = []) :
    (b.abandoned src).Within failReg (b.declareFailed src) ∧ (b.declareFailed src).flag (okBit src) = false ∧
    (b.declareFailed src).flag CPR_EVT_CLK_FAIL = true ∧ (b.declareFailed src).flag CPR_STAT_FORCED = true ∧
    (b.declareFailed src).flag CPR_STAT_SAFE = true ∧
    (b.get CPR_CLK_FAIL_ID = 0xFF → (b.declareFailed src).get CPR_CLK_FAIL_ID = src) := by
  obtain ⟨ok, event, forced, id⟩ := b.failureShown_spec src h
  have safe {f : Fld} (narrow : f.lo + f.w ≤ 32) (apart : f.addr ≠ aCPR_STAT ∨ f.lo + f.w ≤ 9) :
      Regs.get (((b.failureShown src).abandoned src).on CPR_STAT_SAFE).regs f = Regs.get (b.failureShown src).regs f :=
    Block.get_set_other _ (f := CPR_STAT_SAFE) 1 (by decide) narrow (apart.imp_right .inl)
  have status : (okBit src).lo + (okBit src).w ≤ 9 := by
    rw [okBit_eq]
    exact Nat.succ_le_succ h.le
  rw [Block.declareFailed_new new]
  refine ⟨((b.within_failureShown src h).abandoned src).trans (Block.within_set_narrow _ (f := CPR_STAT_SAFE) 1 (by decide) (.inl rfl)),
    Block.flag_of_zero ((safe (okBit_narrow (by omega)) (.inr status)).trans ok),
    Block.flag_of_one ((safe (by decide) (.inl (by decide))).trans event),
    Block.flag_of_one ((safe (by decide) (.inr (by decide))).trans forced),
    Block.flag_of_one (Block.get_set_same _ CPR_STAT_SAFE 1 (by decide)),
    fun first => (safe (by decide) (.inl (by decide))).trans (id first)⟩

/-- The block with PD0 replaced. -/
def Block.withPd0 (b : Block) (x : Pd0) : Block := { b with pd0 := x }

/-- The first declaration. -/
theorem State.declared_of {s : State} {x : Pd0} {k : Nat} (h : k < 8) (fresh : x.fresh) :
    s.declared { s with blk := (s.blk.withPd0 x).declareFailed k } k := by
  obtain ⟨failed, declaredAt, mux⟩ := fresh
  obtain ⟨within, ok, event, forced, safe, id⟩ := Block.declareFailed_spec (b := s.blk.withPd0 x) h failed
  have pd0 : ((s.blk.withPd0 x).declareFailed k).pd0 =
      { x with failed := [k], goodSince := none, declaredAt := some s.blk.up, mux := fedBy k } := by
    rw [within.1.p_pd0]
    simp [Block.abandoned, Block.withPd0, failed, declaredAt, mux]
  have only := within.1
  generalize (s.blk.withPd0 x).declareFailed k = c at *
  refine ⟨State.eq_of rfl rfl ?_, ok, event, forced, safe, ?_, ?_, ?_, id, within.2⟩
  · obtain ⟨r, rfl⟩ : ∃ r, c = { (s.blk.withPd0 x).abandoned k with regs := r } := ⟨c.regs, only⟩
    rfl
  all_goals
    dsimp only
    rw [pd0]

/-- What the monitor notes of other sources does not matter to a declaration. -/
theorem State.declared.noted {s : State} {c : Block} {k : Nat} (h : s.declared { s with blk := c } k) (w : List Nat) :
    s.declared { s with blk := c.withOdd w } k :=
  ⟨State.eq_of rfl rfl (congrArg (fun t : State => t.blk.withOdd w) h.1), h.2⟩

/-- The status bits of two sources are two bits. -/
theorem Block.get_set_okBit_other (b : Block) {src n : Nat} (h : src < 8) (hn : n < 8) (ne : n ≠ src) (v : Nat) :
    Regs.get (b.set (okBit src) v).regs (okBit n) = Regs.get b.regs (okBit n) := by
  refine b.get_set_other v (okBit_narrow (by omega)) (okBit_narrow (by omega)) (.inr ?_)
  rw [okBit_eq, okBit_eq]
  show n + 1 ≤ src ∨ src + 1 ≤ n
  omega

/-- A declaration leaves the status bits of the other sources alone. -/
theorem Block.get_declareFailed_other {b : Block} {src n : Nat} (h : src < 8) (hn : n < 8) (ne : n ≠ src) (new : b.pd0.failed = []) :
    Regs.get (b.declareFailed src).regs (okBit n) = Regs.get b.regs (okBit n) := by
  rw [Block.declareFailed_new new]
  refine (Block.get_set_okBit _ hn (f := CPR_STAT_SAFE) 1 (by decide) (.inr (by decide))).trans <|
    (Block.get_set_okBit _ hn (f := CPR_STAT_FORCED) 1 (by decide) (.inr (by decide))).trans <|
    (Block.get_set_okBit _ hn (f := CPR_EVT_CLK_FAIL) 1 (by decide) (.inl (by decide))).trans <|
    (Block.get_set_okBit_other _ h hn ne 0).trans ?_
  split
  · exact b.get_set_okBit hn (f := CPR_CLK_FAIL_ID) src (by decide) (.inl (by decide))
  · rfl

/-- Of the PLLs, good in the main, one fails. -/
theorem Block.judgePlls_fails {b : Block} {plls : Vector (Bool × Nat) 5} (k : Fin 5) (new : b.pd0.failed = [])
    (good : ∀ j : Fin 5, b.flag (okBit (j + 2)) = true) (fails : b.failsWindow (k + 2) plls[k].2)
    (others : ∀ j : Fin 5, j ≠ k → ¬ b.failsWindow (j + 2) plls[j].2) :
    ∃ w w', b.judgePlls plls (List.finRange 5) = ((b.withOdd w).declareFailed (k + 2)).withOdd w' := by
  obtain ⟨l, r, split⟩ := List.append_of_mem (List.mem_finRange k)
  have nodup := List.nodup_finRange 5
  rw [split, List.nodup_middle, List.nodup_cons] at nodup
  obtain ⟨apart, nodup⟩ := nodup
  have key (i j : Fin 5) (ne : i ≠ j) : i.1 + 2 ≠ j.1 + 2 := fun e => ne (Fin.ext (Nat.add_right_cancel e))
  have ne_of {i : Fin 5} (m : i ∈ l ++ r) : i ≠ k := fun e => apart (e ▸ m)
  obtain ⟨w, before, -, keeps⟩ := b.judgePlls_sound (plls := plls) l (List.Nodup.of_append_left nodup) fun i m =>
    ⟨good i, others i (ne_of (List.mem_append_left _ m))⟩
  have at_ : ((b.withOdd w).judgeWindow (k + 2) plls[k].2 plls[k].1) = (b.withOdd (oddAfter w (k + 2) plls[k].2)).declareFailed (k + 2) := by
    refine Block.judgeWindow_fails (b := b.withOdd w) plls[k].1 (good k) new (fails.imp_right fun f => ⟨f.1, ?_⟩)
    exact (keeps _ fun i m => key k i (ne_of (List.mem_append_left _ m)).symm).2 f.2
  have within := (Block.declareFailed_spec (b := b.withOdd (oddAfter w (k + 2) plls[k].2)) (src := k + 2) (by omega) new).1
  obtain ⟨w', after, -⟩ := Block.judgePlls_sound (plls := plls) r (List.Nodup.of_append_right nodup)
    ((b.withOdd (oddAfter w (k + 2) plls[k].2)).declareFailed (k + 2)) fun j m => by
      have ne := ne_of (List.mem_append_right _ m)
      refine Block.soundPll.of_same ⟨good j, others j ne⟩
        (Block.get_declareFailed_other (by omega) (by omega) (key j k ne) new) fun odd => ?_
      rw [within.1.p_pd0] at odd
      refine (keeps _ fun i mi => key j i fun e => ?_).1 ((mem_oddAfter_other _ _ (key j k ne)).1 odd)
      exact List.disjoint_of_nodup_append nodup (e ▸ mi) m
  refine ⟨oddAfter w (k + 2) plls[k].2, w', ?_⟩
  rw [split, Block.judgePlls, List.foldl_append, List.foldl_cons, ← after, ← at_]
  exact congrArg (fun c : Block => (c.judgeWindow (k + 2) plls[k].2 plls[k].1).judgePlls plls r) before

/-! ### MONITOR_WINDOW while every source is good (R572) -/

/-- The monitor runs: PORST_N is high, and the RC oscillator that clocks it has not failed. -/
def Block.monitorRuns (b : Block) : Prop := b.pd0.porst = false ∧ b.pd0.rcDead = false

/-- The reference and every PLL are good. -/
def Block.allGood (b : Block) : Prop := b.flag (okBit 0) = true ∧ ∀ k : Fin 5, b.flag (okBit (k + 2)) = true

theorem Block.monitorIdle_iff (b : Block) : (b.pd0.porst = true ∨ b.pd0.rcDead = true) ↔ ¬ b.monitorRuns := by
  unfold Block.monitorRuns
  cases b.pd0.porst <;> cases b.pd0.rcDead <;> simp

section
variable {s : State} {ref : Nat} {plls : Vector (Bool × Nat) 5}

theorem monitorWindow_idle (idle : ¬ s.blk.monitorRuns) : Completes (.monitorWindow ref plls) s (· = s) := by
  refine ⟨s, ?_, rfl⟩
  rw [exec_monitorWindow, execMonitorWindow]
  exact congrArg _ (State.onBlk_eq (c := s.blk) (if_pos (s.blk.monitorIdle_iff.2 idle)))

theorem exec_monitorWindow_runs (runs : s.blk.monitorRuns) : exec (.monitorWindow ref plls) s =
    .next { s with blk := (s.blk.judgeWindow 0 ref true).judgePlls plls (List.finRange 5) } := by
  rw [exec_monitorWindow, execMonitorWindow]
  exact congrArg _ (State.onBlk_eq (if_neg fun k => s.blk.monitorIdle_iff.1 k runs))

variable (runs : s.blk.monitorRuns)
include runs

/-- PLLs that are sound beside the reference's window `c`. -/
theorem exec_monitorWindow_plls {c : Block} (judged : s.blk.judgeWindow 0 ref true = c) (sound : ∀ k, c.soundPll plls k) :
    ∃ w, exec (.monitorWindow ref plls) s = .next { s with blk := c.withOdd w } ∧
      (∀ k : Fin 5, k.1 + 2 ∈ w ↔ oddCount plls[k].2 = true) ∧ (0 ∈ w ↔ 0 ∈ c.pd0.oddWindows) := by
  obtain ⟨w, e, now, before⟩ := Block.judgePlls_sound (List.finRange 5) (List.nodup_finRange 5) c fun k _ => sound k
  refine ⟨w, ?_, fun k => now k (List.mem_finRange k), before 0 fun k _ => by omega⟩
  rw [exec_monitorWindow_runs runs, judged, e]

section
variable (good : s.blk.allGood)
include good

theorem monitorWindow_sound (sound : ¬ s.blk.failsWindow 0 ref) (plls_sound : ∀ k : Fin 5, ¬ s.blk.failsWindow (k + 2) plls[k].2) :
    Completes (.monitorWindow ref plls) s fun t =>
      t = { s with blk := { s.blk with pd0 := { s.blk.pd0 with oddWindows := t.blk.pd0.oddWindows } } } ∧
        (0 ∈ t.blk.pd0.oddWindows ↔ oddCount ref = true) ∧
        ∀ k : Fin 5, k.1 + 2 ∈ t.blk.pd0.oddWindows ↔ oddCount plls[k].2 = true := by
  obtain ⟨w, e, now, zero⟩ := exec_monitorWindow_plls runs (Block.judgeWindow_sound true good.1 sound) (plls := plls) fun k =>
    Block.soundPll.of_same ⟨good.2 k, plls_sound k⟩ rfl (mem_oddAfter_other _ ref (by omega)).1
  exact ⟨_, e, rfl, zero.trans (mem_oddAfter_self ..), now⟩

variable (fresh : s.blk.pd0.fresh)
include fresh

/-- The reference fails alone. -/
theorem monitorWindow_refFails (fails : s.blk.failsWindow 0 ref)
    (plls_sound : ∀ k : Fin 5, ¬ s.blk.failsWindow (k + 2) plls[k].2) :
    Completes (.monitorWindow ref plls) s fun t => s.declared t 0 := by
  have new : (s.blk.withOdd (oddAfter s.blk.pd0.oddWindows 0 ref)).pd0.failed = [] := fresh.1
  obtain ⟨within, -⟩ := Block.declareFailed_spec (src := 0) (by decide) new
  have odd := congrArg Pd0.oddWindows within.1.p_pd0
  obtain ⟨w, e, -⟩ := exec_monitorWindow_plls runs (Block.judgeWindow_fails true good.1 fresh.1 fails) (plls := plls) fun k =>
    Block.soundPll.of_same ⟨good.2 k, plls_sound k⟩ (Block.get_declareFailed_other (src := 0) (by decide) (by omega) (by omega) new) fun m =>
      (mem_oddAfter_other _ ref (by omega)).1 (odd ▸ m)
  have declared := State.declared_of (s := s) (x := { s.blk.pd0 with oddWindows := oddAfter s.blk.pd0.oddWindows 0 ref }) (k := 0)
    (by decide) fresh
  exact ⟨_, e, declared.noted w⟩

/-- PLL `k` fails alone. -/
theorem monitorWindow_pllFails (k : Fin 5) (sound : ¬ s.blk.failsWindow 0 ref) (fails : s.blk.failsWindow (k + 2) plls[k].2)
    (others : ∀ j : Fin 5, j ≠ k → ¬ s.blk.failsWindow (j + 2) plls[j].2) :
    Completes (.monitorWindow ref plls) s fun t => s.declared t (k + 2) := by
  have same {j : Fin 5} : (s.blk.withOdd (oddAfter s.blk.pd0.oddWindows 0 ref)).failsWindow (j + 2) plls[j].2 ↔
      s.blk.failsWindow (j + 2) plls[j].2 := or_congr_right (and_congr_right fun _ => mem_oddAfter_other _ ref (by omega))
  obtain ⟨w, w', e⟩ := Block.judgePlls_fails (b := s.blk.withOdd (oddAfter s.blk.pd0.oddWindows 0 ref)) k fresh.1 good.2 (same.2 fails)
    fun j ne => mt same.1 (others j ne)
  refine ⟨_, exec_monitorWindow_runs runs, ?_⟩
  rw [Block.judgeWindow_sound true good.1 sound, e]
  exact (State.declared_of (x := { s.blk.pd0 with oddWindows := w }) (by omega) fresh).noted w'

end
end

/-! ### The reference is judged (R574) -/

/-- A window near the one before it, or the first of a run. -/
def Block.nearWindow (b : Block) (c : Nat) : Bool := b.pd0.stable = 0 || (c ≤ b.pd0.lastCount + 1 && b.pd0.lastCount ≤ c + 1)

/-- Stable windows in a row after one of count `c`. -/
def Block.stableAfter (b : Block) (c : Nat) : Nat := if oddCount c then 0 else if b.nearWindow c then b.pd0.stable + 1 else 1

/-- A window of the reference counted, `n` stable ones now in a row. -/
def Block.refCounted (b : Block) (c n : Nat) : Block :=
  { b with pd0 := { b.pd0 with oddWindows := oddAfter b.pd0.oddWindows 0 c, stable := n, lastCount := c } }

section
variable {b : Block} {c : Nat}

theorem Block.nearWindow_iff : b.nearWindow c = true ↔ b.pd0.stable = 0 ∨ (c ≤ b.pd0.lastCount + 1 ∧ b.pd0.lastCount ≤ c + 1) := by
  simp [Block.nearWindow]

/-- A reference that is not good: after 64 stable windows it is judged good. -/
theorem Block.judgeWindow_ref (bad : b.flag (okBit 0) = false) : b.judgeWindow 0 c true =
    if 64 ≤ b.stableAfter c then (b.refCounted c 0).judgedGood 0 else b.refCounted c (b.stableAfter c) :=
  (if_neg (ne_true_of_eq_false bad)).trans (if_pos rfl)

theorem Block.stableAfter_odd (odd : oddCount c = true) : b.stableAfter c = 0 := if_pos odd

theorem Block.stableAfter_near (even : oddCount c = false) (near : b.pd0.stable = 0 ∨ (c ≤ b.pd0.lastCount + 1 ∧ b.pd0.lastCount ≤ c + 1)) :
    b.stableAfter c = b.pd0.stable + 1 :=
  (if_neg (ne_true_of_eq_false even)).trans (if_pos (Block.nearWindow_iff.2 near))

theorem Block.stableAfter_far (even : oddCount c = false)
    (far : ¬ (b.pd0.stable = 0 ∨ (c ≤ b.pd0.lastCount + 1 ∧ b.pd0.lastCount ≤ c + 1))) : b.stableAfter c = 1 :=
  (if_neg (ne_true_of_eq_false even)).trans (if_neg (mt Block.nearWindow_iff.1 far))
end

/-- The reference shown good, and the PLLs started. -/
def Block.refGood (b : Block) : Block := { b.on CPR_STAT_REF_OK with pd0 := { b.pd0 with pllsAt := some b.up } }

/-- A failed source has come back: source 9 asserts, and with every failed source good the time of a restart runs (R578). -/
def Block.recovered (b : Block) : Block :=
  let c := b.cprIrq 9
  if c.pd0.failed.all fun f => c.flag (okBit f) then { c with pd0 := { c.pd0 with goodSince := some c.up } } else c

section
variable {b : Block}

theorem Block.judgedGood_ref (bad : b.flag (okBit 0) = false) :
    b.judgedGood 0 = if b.pd0.failed.contains 0 then b.refGood.recovered else b.refGood := by
  have was : b.flag CPR_STAT_REF_OK = false := bad
  unfold Block.judgedGood
  simp only [okBit, if_true, was, Bool.false_eq_true, not_false_eq_true, and_self, false_or, ite_not]
  rfl

theorem Block.regs_recovered (b : Block) {a : Nat} (h : ¬ irqReg 9 a) : b.recovered.rd a = b.rd a := by
  have source := (b.within_cprIrq 9).rd h
  unfold Block.recovered
  dsimp only
  split <;> exact source

theorem Block.odd_recovered (b : Block) : b.recovered.pd0.oddWindows = b.pd0.oddWindows := by
  have source : (b.cprIrq 9).pd0.oddWindows = b.pd0.oddWindows := by rw [Block.cprIrq_pd0]
  unfold Block.recovered
  dsimp only
  split <;> exact source

theorem Block.up_cprIrq (b : Block) (n : Nat) : (b.cprIrq n).up = b.up := (b.within_cprIrq n).1.p_up

/-- With the reference the only source that failed, its return starts the time of a restart. -/
theorem Block.goodSince_recovered (one : b.pd0.failed = [0]) (good : b.flag (okBit 0) = true) :
    b.recovered.pd0.goodSince = some b.up := by
  have failed : (b.cprIrq 9).pd0.failed = [0] := by rw [Block.cprIrq_pd0, one]
  have still : (b.cprIrq 9).flag (okBit 0) = true := by
    rw [← good]
    exact Block.flag_of_get (Block.get_of_rd (by decide) ((b.within_cprIrq 9).rd (by unfold irqReg; decide)))
  unfold Block.recovered
  dsimp only
  rw [failed, if_pos (by simp only [List.all_cons, List.all_nil, still]; rfl), Block.up_cprIrq]

/-- A reference judged good: its bit is set, the other sources' bits and the windows noted stay. -/
theorem Block.judgedGood_spec (bad : b.flag (okBit 0) = false) : (b.judgedGood 0).flag (okBit 0) = true ∧
    (∀ n, 0 < n → n < 8 → Regs.get (b.judgedGood 0).regs (okBit n) = Regs.get b.regs (okBit n)) ∧
    (b.judgedGood 0).pd0.oddWindows = b.pd0.oddWindows ∧ (b.pd0.failed = [0] → (b.judgedGood 0).pd0.goodSince = some b.up) := by
  have on : b.refGood.flag (okBit 0) = true := Block.flag_put_same b (f := CPR_STAT_REF_OK) true (by decide) rfl
  have other (n : Nat) (pos : 0 < n) (h : n < 8) : Regs.get b.refGood.regs (okBit n) = Regs.get b.regs (okBit n) :=
    b.get_set_okBit_other (src := 0) (by decide) h (by omega) 1
  have bit {n : Nat} (h : n < 8) : Regs.get b.refGood.recovered.regs (okBit n) = Regs.get b.refGood.regs (okBit n) := by
    refine Block.get_of_rd (okBit_narrow (by omega)) (Block.regs_recovered _ ?_)
    rw [okBit_eq]
    show ¬ irqReg 9 aCPR_STAT
    unfold irqReg
    decide
  rw [Block.judgedGood_ref bad]
  split
  · exact ⟨(Block.flag_of_get (bit (by decide))).trans on, fun n pos h => (bit h).trans (other n pos h), Block.odd_recovered _,
      fun one => Block.goodSince_recovered one on⟩
  next absent => exact ⟨on, other, rfl, fun one => absurd (by simp [one]) absent⟩
end

section
variable {s : State} {ref : Nat} {plls : Vector (Bool × Nat) 5} (runs : s.blk.monitorRuns) (bad : s.blk.flag (okBit 0) = false)
  (good : ∀ k : Fin 5, s.blk.flag (okBit (k + 2)) = true) (sound : ∀ k : Fin 5, ¬ s.blk.failsWindow (k + 2) plls[k].2)
include runs bad good sound

/-- Short of 64 stable windows the reference is not judged good. -/
theorem monitorWindow_counts {n : Nat} (after : s.blk.stableAfter ref = n) (few : n < 64) :
    Completes (.monitorWindow ref plls) s fun t => t.blk.pd0.stable = n ∧ t.blk.flag (okBit 0) = false := by
  have judged := Block.judgeWindow_ref (c := ref) bad
  rw [after, if_neg few.not_ge] at judged
  obtain ⟨w, e, -⟩ := exec_monitorWindow_plls runs judged (plls := plls) fun k =>
    Block.soundPll.of_same ⟨good k, sound k⟩ rfl (mem_oddAfter_other _ ref (by omega)).1
  exact ⟨_, e, rfl, bad⟩

/-- The 64th makes it good. -/
theorem monitorWindow_refGood (after : 64 ≤ s.blk.stableAfter ref) :
    Completes (.monitorWindow ref plls) s fun t =>
      t.blk.flag (okBit 0) = true ∧ (s.blk.pd0.failed = [0] → t.blk.pd0.goodSince = some s.blk.up) := by
  have judged := Block.judgeWindow_ref (c := ref) bad
  rw [if_pos after] at judged
  obtain ⟨on, other, odd, since⟩ := Block.judgedGood_spec (b := s.blk.refCounted ref 0) bad
  obtain ⟨w, e, -⟩ := exec_monitorWindow_plls runs judged (plls := plls) fun k =>
    Block.soundPll.of_same ⟨good k, sound k⟩ (other _ (by omega) (by omega)) fun m => (mem_oddAfter_other _ ref (by omega)).1 (odd ▸ m)
  exact ⟨_, e, on, since⟩
end

/-! ### The RC oscillator (R573) -/

theorem exec_rcCheck (count : Nat) (s : State) : exec (.rcCheck count) s = execRcCheck count s := by rfl

section
variable {s : State} {count : Nat}

theorem rcCheck_idle (idle : ¬ s.blk.monitorRuns) : Completes (.rcCheck count) s (· = s) := by
  refine ⟨s, ?_, rfl⟩
  rw [exec_rcCheck, execRcCheck]
  exact congrArg _ (State.onBlk_eq (c := s.blk) (if_pos (s.blk.monitorIdle_iff.2 idle)))

/-- A count of the RC oscillator outside its range. -/
def rcOddCount (count : Nat) : Bool := decide (count < 108 ∨ 148 < count)

/-- The RC oscillator judged: odd twice running it has failed. -/
def Block.rcJudged (b : Block) (odd : Bool) : Block :=
  if odd ∧ b.pd0.rcOdd then (b.withPd0 { b.pd0 with rcDead := true }).declareFailed 1
  else
    let c := b.withPd0 { b.pd0 with rcOdd := odd }
    if odd then c else c.on CPR_STAT_RC_OK

variable (runs : s.blk.monitorRuns)
include runs

theorem exec_rcCheck_runs : exec (.rcCheck count) s = .next { s with blk := s.blk.rcJudged (rcOddCount count) } := by
  rw [exec_rcCheck, execRcCheck]
  exact congrArg _ (State.onBlk_eq (if_neg fun k => s.blk.monitorIdle_iff.1 k runs))

theorem rcCheck_sound (even : rcOddCount count = false) : Completes (.rcCheck count) s fun t =>
    (s.onBlk fun b => { b with pd0 := { s.blk.pd0 with rcOdd := false } }).keepsBut t (· = aCPR_STAT) ∧ t.blk.flag (okBit 1) = true := by
  have judged : s.blk.rcJudged false = (s.blk.withPd0 { s.blk.pd0 with rcOdd := false }).on CPR_STAT_RC_OK :=
    (if_neg fun k => Bool.false_ne_true k.1).trans (if_neg Bool.false_ne_true)
  refine ⟨_, exec_rcCheck_runs runs, ?_⟩
  rw [even, judged]
  have within : (s.blk.withPd0 { s.blk.pd0 with rcOdd := false }).Within (· = aCPR_STAT)
      ((s.blk.withPd0 { s.blk.pd0 with rcOdd := false }).on CPR_STAT_RC_OK) :=
    Block.within_set_narrow _ (f := CPR_STAT_RC_OK) 1 (by decide) rfl
  have shown : ((s.blk.withPd0 { s.blk.pd0 with rcOdd := false }).on CPR_STAT_RC_OK).flag (okBit 1) = true :=
    Block.flag_put_same _ (f := CPR_STAT_RC_OK) true (by decide) rfl
  exact ⟨State.keepsBut_onBlk within, shown⟩

theorem rcCheck_odd (odd : rcOddCount count = true) (first : s.blk.pd0.rcOdd = false) :
    Completes (.rcCheck count) s fun t => t = s.onBlk fun b => { b with pd0 := { s.blk.pd0 with rcOdd := true } } := by
  have judged : s.blk.rcJudged true = s.blk.withPd0 { s.blk.pd0 with rcOdd := true } :=
    (if_neg fun k => ne_true_of_eq_false first k.2).trans (if_pos rfl)
  refine ⟨_, exec_rcCheck_runs runs, ?_⟩
  rw [odd, judged]
  rfl

theorem rcCheck_fails (odd : rcOddCount count = true) (again : s.blk.pd0.rcOdd = true) (fresh : s.blk.pd0.fresh) :
    Completes (.rcCheck count) s fun t => s.declared t 1 ∧ t.blk.pd0.rcDead = true := by
  have judged : s.blk.rcJudged true = (s.blk.withPd0 { s.blk.pd0 with rcDead := true }).declareFailed 1 := if_pos ⟨rfl, again⟩
  have within := (Block.declareFailed_spec (b := s.blk.withPd0 { s.blk.pd0 with rcDead := true }) (src := 1) (by decide) fresh.1).1
  refine ⟨_, exec_rcCheck_runs runs, ?_⟩
  rw [odd, judged]
  have dead : ((s.blk.withPd0 { s.blk.pd0 with rcDead := true }).declareFailed 1).pd0.rcDead = true := by
    rw [within.1.p_pd0]
    rfl
  refine ⟨?_, dead⟩
  exact State.declared_of (x := { s.blk.pd0 with rcDead := true }) (k := 1) (by decide) fresh
end

/-! ### Start-up without a source (R574) -/

theorem exec_referenceTimeout (s : State) : exec .referenceTimeout s = execReferenceTimeout s := by rfl

/-- The sources that start-up waits for, in their order. -/
def startSources : List Nat := [0, 2, 3, 4, 5, 6]

/-- Start-up waits for source `k`. -/
def Block.waitsFor (b : Block) (k : Nat) : Prop := k ∈ startSources ∧ b.flag (okBit k) = false

/-- In a rising list, the first of a kind is the least. -/
theorem find?_eq_some_of_least {p : Nat → Bool} {l : List Nat} (rising : l.Pairwise (· < ·)) {k : Nat} (mem : k ∈ l) (is : p k = true)
    (least : ∀ j ∈ l, p j = true → k ≤ j) : l.find? p = some k := by
  induction l with
  | nil => cases mem
  | cons x t ih =>
    obtain ⟨above, rising⟩ := List.pairwise_cons.1 rising
    by_cases first : p x = true
    · have le := least x List.mem_cons_self first
      have eq : k = x := (List.mem_cons.1 mem).resolve_right fun m => (above k m).not_ge le
      rw [List.find?_cons_of_pos first, eq]
    · have ne : k ≠ x := fun e => first (e ▸ is)
      rw [List.find?_cons_of_neg first]
      exact ih rising ((List.mem_cons.1 mem).resolve_left ne) fun j m => least j (List.mem_cons_of_mem x m)

section
variable {b : Block} {src : Nat}

theorem Block.notGood_least (waits : b.waitsFor src) (least : ∀ k, b.waitsFor k → src ≤ k) : b.notGood = some src := by
  have falls (k : Nat) : (!b.flag (okBit k)) = true ↔ b.flag (okBit k) = false := by rw [Bool.not_eq_true']
  exact find?_eq_some_of_least (by decide) waits.1 ((falls src).2 waits.2) fun j m f => least j ⟨m, (falls j).1 f⟩

theorem Block.waitsFor_of_notGood (h : b.notGood = some src) : b.waitsFor src :=
  ⟨List.mem_of_find?_eq_some h, by simpa using List.find?_some h⟩
end

section
variable {s : State}

theorem referenceTimeout_idle (idle : (∀ k, ¬ s.blk.waitsFor k) ∨ s.blk.boot.released = false ∨ s.blk.boot.step1 = true ∨
    s.blk.pd0.failed ≠ [] ∨ ∀ k, s.blk.waitsFor k → s.blk.sourceLate k = false) : Completes .referenceTimeout s (· = s) := by
  refine ⟨s, ?_, rfl⟩
  rw [exec_referenceTimeout, execReferenceTimeout]
  refine congrArg _ (State.onBlk_eq (c := s.blk) ?_)
  split
  · rfl
  next src found =>
    have waits := Block.waitsFor_of_notGood found
    refine if_pos ?_
    rw [Bool.not_eq_true, Bool.not_eq_true]
    rcases idle with none | released | step | failed | early
    · exact absurd waits (none src)
    · exact .inl released
    · exact .inr (.inl step)
    · exact .inr (.inr (.inl failed))
    · exact .inr (.inr (.inr (early src waits)))

/-- The Dealer runs on the RC oscillator, and records the source that start-up waited for. -/
def Block.startFailed (b : Block) (src : Nat) : Block :=
  ((b.withPd0 { b.pd0 with dealerRc := true }).event 0xB 2 src 0).set DEV_BOOT_FAIL_STEP 1

/-- PD0 does not matter to an event. -/
theorem Block.scp_event_withPd0 (b : Block) (x : Pd0) (code level arg0 arg1 : Nat) :
    ((b.withPd0 x).event code level arg0 arg1).scp = (b.event code level arg0 arg1).scp := by
  have stamp : (b.withPd0 x).stampEvent code level arg0 arg1 false false = b.stampEvent code level arg0 arg1 false false := rfl
  rw [Block.event, Block.event, stamp, Block.scp_enqueue_congr (b := b) (c := b.withPd0 x) rfl]

theorem Block.stopsWithin_startFailed (b : Block) (src : Nat) :
    (b.withPd0 { b.pd0 with dealerRc := true }).StopsWithin (fun a => a = aDEV_BOOT ∨ eventReg a) (b.startFailed src) :=
  ((Block.stopsWithin_event ..).mono fun _ => .inr).trans
    (Block.within_set_narrow _ (f := DEV_BOOT_FAIL_STEP) 1 (by decide) (.inl rfl)).stops

theorem exec_referenceTimeout_stops {src : Nat} (waits : s.blk.waitsFor src) (least : ∀ k, s.blk.waitsFor k → src ≤ k)
    (released : s.blk.boot.released = true) (step : s.blk.boot.step1 = false) (failed : s.blk.pd0.failed = [])
    (late : s.blk.sourceLate src = true) :
    exec .referenceTimeout s = .next { s with blk := (s.blk.startFailed src).enterStopped } := by
  rw [exec_referenceTimeout, execReferenceTimeout]
  refine congrArg _ (State.onBlk_eq ?_)
  rw [Block.notGood_least waits least]
  refine if_neg ?_
  simp [released, step, failed, late]

/-- The registers of the stopped state, as a start-up or a failure writes them. -/
theorem stopReg_of {a : Nat} (h : a = aDEV_BOOT ∨ eventReg a) : stopReg a := h.imp_right fun k => .inr (.inr (.inl k))

theorem referenceTimeout_stops {src : Nat} (waits : s.blk.waitsFor src) (least : ∀ k, s.blk.waitsFor k → src ≤ k)
    (released : s.blk.boot.released = true) (step : s.blk.boot.step1 = false) (failed : s.blk.pd0.failed = [])
    (late : s.blk.sourceLate src = true) : Completes .referenceTimeout s fun t =>
      s.becomes t { s.blk with
          scp := t.blk.scp, pd0 := { s.blk.pd0 with dealerRc := true }
          safety := { s.blk.safety with a.halves := t.blk.safety.a.halves, b.halves := t.blk.safety.b.halves } } stopReg ∧ t.blk.dark ∧
      t.blk.get DEV_BOOT_PHASE = 14 ∧ t.blk.get DEV_BOOT_FAIL_STEP = 1 ∧
      (s.blk.flag SAF_STAT_LOCKOUT = s.blk.safety.lockout → s.logged t 0xB 2 src 0) := by
  obtain ⟨within, dark, stopped, failStep, scp, -⟩ := (s.blk.startFailed src).enterStopped_spec
  have first := s.blk.stopsWithin_startFailed src
  have all := (first.mono fun _ => stopReg_of).trans within
  have safety : (s.blk.startFailed src).safety = s.blk.safety := by
    rw [Block.startFailed, Block.set_safety, Block.event_safety]
    rfl
  refine ⟨_, exec_referenceTimeout_stops waits least released step failed late,
    ⟨State.eq_of rfl rfl all.eq, fun a => all.rd⟩, dark, stopped, failStep.trans ?_, fun same => (scp ?_).trans ?_⟩
  · exact Block.get_set_same _ DEV_BOOT_FAIL_STEP 1 (by decide)
  · rw [safety, ← same]
    exact Block.flag_of_get (first.get (by unfold eventReg irqReg; decide) (by decide))
  · rw [Block.startFailed, Block.set_scp]
    exact s.blk.scp_event_withPd0 ..
end

/-! ### Domains reset and held (R577, R584) -/

/-- The bit of CPR_PD_STAT that shows domain `n` in reset. -/
def heldBit (n : Nat) : Fld := ⟨aCPR_PD_STAT, 16 + n, 1⟩

theorem heldBit_narrow {n : Nat} (h : n < 12) : (heldBit n).lo + (heldBit n).w ≤ 32 := by
  show 16 + n + 1 ≤ 32
  omega

theorem bits_one_ne_zero (x i : Nat) : decide (bits x i 1 ≠ 0) = x.testBit i := by
  rw [Nat.testBit_eq_decide_div_mod_eq]
  unfold bits
  exact decide_eq_decide.2 (by omega)

theorem Block.domainHeld_eq (b : Block) {n : Nat} (h : n < 12) : b.domainHeld n = b.flag (heldBit n) := by
  have narrow := heldBit_narrow h
  rw [Block.domainHeld, Block.flag_eq, Block.get_eq, Regs.get, Regs.get, if_pos narrow, if_pos (by decide)]
  show (bits _ 16 12).testBit n = decide (bits _ (16 + n) 1 ≠ 0)
  rw [testBit_bits, bits_one_ne_zero, decide_eq_true h, Bool.true_and]
  rfl

/-- A domain reset: its registers are gone, the scorepad unit is that of PD1, and of PD0, memories, the field die and the deck nothing
changes. -/
theorem Block.resetDomain_spec (b : Block) (n : Nat) :
    (b.resetDomain n).regs = b.regs.filter (fun r => domainOf r.1 ≠ n) ∧ (b.resetDomain n).pd0 = b.pd0 ∧
    (b.resetDomain n).mem = b.mem ∧ (b.resetDomain n).field = b.field ∧ (b.resetDomain n).dealt = b.dealt ∧
    (b.resetDomain n).scp = if n = 1 then Reset.scp else b.scp := by
  unfold Block.resetDomain
  dsimp only
  split
  case h_8 => split <;> exact ⟨rfl, rfl, rfl, rfl, rfl, rfl⟩
  all_goals exact ⟨rfl, rfl, rfl, rfl, rfl, rfl⟩

theorem Block.rd_resetDomain (b : Block) (n a : Nat) : (b.resetDomain n).rd a = if domainOf a = n then resetReg a else b.rd a := by
  rw [Block.rd_eq, (b.resetDomain_spec n).1, sget_filter resetReg b.regs (fun a => decide (domainOf a ≠ n))]
  by_cases h : domainOf a = n <;> simp [h]

/-- Domain `n` is reset, and held. -/
def Block.holdDomain (b : Block) (n : Nat) : Block := (b.resetDomain n).put (heldBit n) true

/-- Domains are reset and held, one after another. -/
def Block.holdDomains (b : Block) (l : List Nat) : Block := l.foldl Block.holdDomain b

/-- The parts that no reset of a switched domain touches. -/
def Block.sameParts (b c : Block) : Prop := c.pd0 = b.pd0 ∧ c.mem = b.mem ∧ c.field = b.field ∧ c.dealt = b.dealt

theorem Block.holdDomains_parts (l : List Nat) (b : Block) :
    b.sameParts (b.holdDomains l) ∧ (b.holdDomains l).scp = if 1 ∈ l then Reset.scp else b.scp := by
  induction l generalizing b with
  | nil => exact ⟨⟨rfl, rfl, rfl, rfl⟩, rfl⟩
  | cons n t ih =>
    obtain ⟨⟨pd0, mem, field, dealt⟩, scp⟩ := ih (b.holdDomain n)
    obtain ⟨-, pd0', mem', field', dealt', scp'⟩ := b.resetDomain_spec n
    refine ⟨⟨?_, ?_, ?_, ?_⟩, scp.trans ?_⟩
    · exact pd0.trans ((Block.set_pd0 ..).trans pd0')
    · exact mem.trans ((Block.set_mem ..).trans mem')
    · exact field.trans ((Block.set_field ..).trans field')
    · exact dealt.trans ((Block.set_dealt ..).trans dealt')
    · rw [show (b.holdDomain n).scp = if n = 1 then Reset.scp else b.scp from (Block.set_scp ..).trans scp']
      by_cases m : 1 ∈ t <;> by_cases e : n = 1 <;> simp [m, e, eq_comm]

theorem Block.rd_holdDomains (l : List Nat) (b : Block) (narrow : ∀ n ∈ l, n < 12) {a : Nat} (ne : a ≠ aCPR_PD_STAT) :
    (b.holdDomains l).rd a = if domainOf a ∈ l then resetReg a else b.rd a := by
  induction l generalizing b with
  | nil => rfl
  | cons n t ih =>
    obtain ⟨first, rest⟩ := List.forall_mem_cons.1 narrow
    have here : (b.holdDomain n).rd a = if domainOf a = n then resetReg a else b.rd a := by
      rw [← b.rd_resetDomain n a]
      exact ((b.resetDomain n).within_set_narrow (p := (· = aCPR_PD_STAT)) _ (heldBit_narrow first) rfl).rd ne
    have later : (b.holdDomains (n :: t)).rd a = _ := ih (b.holdDomain n) rest
    rw [later, here]
    by_cases m : domainOf a ∈ t <;> by_cases e : domainOf a = n <;> simp [m, e]

theorem Block.flag_holdDomains (l : List Nat) (b : Block) (switched : ∀ n ∈ l, 1 ≤ n ∧ n < 12) {k : Nat} (hk : k < 12) :
    (b.holdDomains l).flag (heldBit k) = (decide (k ∈ l) || b.flag (heldBit k)) := by
  induction l generalizing b with
  | nil => rfl
  | cons n t ih =>
    obtain ⟨⟨pos, lt⟩, rest⟩ := List.forall_mem_cons.1 switched
    have kept : (b.resetDomain n).flag (heldBit k) = b.flag (heldBit k) := by
      refine Block.flag_of_get (Block.get_of_rd (heldBit_narrow hk) ((b.rd_resetDomain n _).trans (if_neg ?_)))
      show domainOf aCPR_PD_STAT ≠ n
      rw [show domainOf aCPR_PD_STAT = 0 from rfl]
      omega
    have here : (b.holdDomain n).flag (heldBit k) = (decide (k = n) || b.flag (heldBit k)) := by
      by_cases e : k = n
      · subst e
        rw [decide_eq_true rfl, Bool.true_or]
        exact Block.flag_put_same _ true ((heldBit_narrow hk).trans (by decide)) rfl
      · rw [decide_eq_false e, Bool.false_or, ← kept]
        refine Block.flag_of_get (Block.get_set_other _ _ (heldBit_narrow lt) (heldBit_narrow hk) (.inr ?_))
        show 16 + k + 1 ≤ 16 + n ∨ 16 + n + 1 ≤ 16 + k
        omega
    have later : (b.holdDomains (n :: t)).flag (heldBit k) = _ := ih (b.holdDomain n) rest
    rw [later, here]
    by_cases m : k ∈ t <;> by_cases e : k = n <;> simp [m, e]

/-! ### The asynchronous reset (R577, R578) -/

theorem exec_asynchronousReset (s : State) : exec .asynchronousReset s = execAsynchronousReset s := by rfl

theorem domainOf_lt (a : Nat) : domainOf a < 12 := by
  unfold domainOf
  repeat' apply iteInduction (motive := (· < 12)) <;> intro
  all_goals omega

/-- The domains that a failure takes with it. -/
def asyncHits (dead : Bool) (fed : List Nat) : List Nat :=
  (List.range 12).filter fun n => 1 ≤ n && ((dead || fed.contains 1) || fed.contains n)

theorem mem_asyncHits {dead : Bool} {fed : List Nat} {n : Nat} :
    n ∈ asyncHits dead fed ↔ (1 ≤ n ∧ n < 12) ∧ (dead = true ∨ 1 ∈ fed ∨ n ∈ fed) := by
  rw [asyncHits, List.mem_filter, List.mem_range]
  simp only [Bool.and_eq_true, Bool.or_eq_true, decide_eq_true_eq, List.contains_iff_mem, or_assoc]
  rw [and_left_comm, and_assoc]

/-- The Dealer, where its domain was reset, runs again, on the RC oscillator. -/
def Block.dealerBack (b : Block) (all : Bool) : Block :=
  if all then (b.withPd0 { b.pd0 with dealerRc := true }).put (heldBit 1) false else b

/-- The Dealer records the failure and stops the device. -/
def Block.asyncStopped (b : Block) (src : Nat) : Block := ((b.event 0xB 2 src 0).enterStopped).cprIrq 9

/-- No failure waits for its reset. -/
def Pd0.settled (x : Pd0) : Pd0 := { x with declaredAt := none, mux := [] }

/-- What follows the reset of the domains. -/
def Block.afterHold (b : Block) (all : Bool) : Block :=
  let b := b.withPd0 b.pd0.settled
  if b.pd0.rcDead then { b with boot := Reset.boot } else (b.dealerBack all).asyncStopped ((b.dealerBack all).pd0.failed.headD 0)

section
variable {b : Block} {src : Nat} {all : Bool}

theorem Block.dealerBack_failed (b : Block) (all : Bool) : (b.dealerBack all).pd0.failed = b.pd0.failed := by
  unfold Block.dealerBack
  split
  · rw [Block.put_eq, Block.set_pd0]
    rfl
  · rfl

theorem Block.afterHold_dead (dead : b.pd0.rcDead = true) : b.afterHold all = { b.withPd0 b.pd0.settled with boot := Reset.boot } :=
  if_pos dead

theorem Block.afterHold_alive (alive : b.pd0.rcDead = false) (one : b.pd0.failed = [src]) :
    b.afterHold all = ((b.withPd0 b.pd0.settled).dealerBack all).asyncStopped src := by
  refine (if_neg (ne_true_of_eq_false alive)).trans ?_
  have first : ((b.withPd0 b.pd0.settled).dealerBack all).pd0.failed = [src] := (Block.dealerBack_failed _ all).trans one
  generalize (b.withPd0 b.pd0.settled).dealerBack all = c at *
  rw [first]
  rfl

/-- The domains that the failure of `src` takes with it, reset and held. -/
def Block.asyncHeld (b : Block) (src : Nat) : Block := b.holdDomains (asyncHits b.pd0.rcDead (fedBy src))

theorem Block.asyncHeld_pd0 (b : Block) (src : Nat) : (b.asyncHeld src).pd0 = b.pd0 := (Block.holdDomains_parts _ b).1.1

theorem Block.asyncReset_eq (due : b.asyncDue = true) (one : b.pd0.failed = [src]) :
    b.asyncReset = (b.asyncHeld src).afterHold (b.pd0.rcDead || (fedBy src).contains 1) := by
  have fed : b.pd0.failed.flatMap fedBy = fedBy src := by
    rw [one]
    exact List.append_nil _
  rw [Block.asyncHeld, ← fed]
  exact if_neg (not_not_intro due)
end

/-- OTP as the registers show it. -/
def Block.otpShown (b : Block) (o : Otp) : Block :=
  ((b.put TRU_STAT_PROVISIONED o.provisioned).put TRU_STAT_KILL o.kill).set DCK_SECVER o.secver

theorem State.showOtp_eq (s : State) : s.showOtp = { s with blk := s.blk.otpShown s.nv.otp } := by rfl

/-- The registers that show OTP. -/
def otpReg (a : Nat) : Prop := a = aTRU_STAT ∨ a = aDCK_SECVER

theorem Block.within_otpShown (b : Block) (o : Otp) : b.Within otpReg (b.otpShown o) :=
  (b.within_set_narrow (f := TRU_STAT_PROVISIONED) _ (by decide) (.inl rfl)).trans <|
    (Block.within_set_narrow _ (f := TRU_STAT_KILL) _ (by decide) (.inl rfl)).trans
      (Block.within_set_narrow _ (f := DCK_SECVER) _ (by decide) (.inr rfl))

theorem Block.StopsWithin.withPd0 {p : Nat → Prop} {b c : Block} (h : b.StopsWithin p c) (x : Pd0) :
    (b.withPd0 x).StopsWithin p (c.withPd0 x) := by
  obtain ⟨unit, y, z, h⟩ := h
  exact ⟨unit, y, z, h.withPd0 x⟩

/-- The block where source `src` is owed or not, as PD0 holds it. -/
def Pd0.owing (x : Pd0) (owed : List Nat) : Pd0 := { x with owed }

section
variable (b : Block)

/-- A Dealer that records the failure and stops the device writes the registers of the stopped state and of source 9, and what PD0
owes. -/
theorem Block.asyncStopped_spec (src : Nat) :
    (∃ owed, (b.withPd0 (b.pd0.owing owed)).StopsWithin (fun a => stopReg a ∨ irqReg 9 a) (b.asyncStopped src)) ∧
    (b.asyncStopped src).dark ∧ (b.asyncStopped src).stopped ∧
    (b.scp.queue = [] → b.scp.newest = none → (b.asyncStopped src).headIs 0xB 2 (src % 2 ^ 32)) := by
  obtain ⟨within, dark, stopped, -, -, head⟩ := (b.event 0xB 2 src 0).enterStopped_spec
  have before := ((b.stopsWithin_event 0xB 2 src 0).mono fun _ k => stopReg_of (.inr k)).trans within
  have pd0 : (b.event 0xB 2 src 0).enterStopped.pd0 = b.pd0 := by rw [before.eq]
  have source := (b.event 0xB 2 src 0).enterStopped.within_cprIrq 9
  have far : ∀ a ∈ [aFLD_DOUT_ST, aSAF_SOUT, aFLD_STAT, aDEV_BOOT], ¬ irqReg 9 a := by unfold irqReg; decide
  obtain ⟨dout, soutA, soutB, held⟩ := dark
  have all : (b.withPd0 (b.pd0.owing (b.asyncStopped src).pd0.owed)).StopsWithin (fun a => stopReg a ∨ irqReg 9 a) (b.asyncStopped src) := by
    rw [Block.asyncStopped]
    generalize (b.event 0xB 2 src 0).enterStopped = c at *
    refine ((before.mono fun _ => .inl).withPd0 _).trans ?_
    rw [← pd0]
    exact (source.mono fun _ => .inr).stops
  refine ⟨⟨_, all⟩, ⟨?_, ?_, ?_, ?_⟩, ?_, fun empty unwritten => ?_⟩
  · exact (source.get (g := FLD_DOUT_ST) (far _ (by decide)) (.inl (by decide))).trans dout
  · exact (source.get (g := SAF_SOUT_A) (far _ (by decide)) (.inl (by decide))).trans soutA
  · exact (source.get (g := SAF_SOUT_B) (far _ (by decide)) (.inl (by decide))).trans soutB
  · exact (Block.flag_of_get (source.get (g := FLD_STAT_HELD) (far _ (by decide)) (.inl (by decide)))).trans held
  · exact (source.get (g := DEV_BOOT_PHASE) (far _ (by decide)) (.inl (by decide))).trans stopped
  · exact (head _ _ _ (Block.headIs_event empty unwritten src 0)).of_scp source.1.p_scp

theorem Block.domainHeld_of_flag {c : Block} {n : Nat} (h : n < 12) (same : c.flag (heldBit n) = b.flag (heldBit n)) :
    c.domainHeld n = b.domainHeld n := by
  rw [Block.domainHeld_eq _ h, Block.domainHeld_eq _ h, same]

theorem Block.flag_heldBit_of_rd {c : Block} {n : Nat} (h : n < 12) (same : c.rd aCPR_PD_STAT = b.rd aCPR_PD_STAT) :
    c.flag (heldBit n) = b.flag (heldBit n) := Block.flag_of_get (Block.get_of_rd (heldBit_narrow h) same)

/-- Where the Dealer runs again its domain is out of reset, the others stay. -/
theorem Block.domainHeld_dealerBack (all : Bool) {n : Nat} (h : n < 12) :
    (b.dealerBack all).domainHeld n = (b.domainHeld n && !(all && decide (n = 1))) := by
  cases all with
  | false => simp [Block.dealerBack]
  | true =>
    rw [Block.domainHeld_eq _ h, Block.domainHeld_eq _ h, Block.dealerBack, if_pos rfl, Bool.true_and]
    by_cases e : n = 1
    · subst e
      rw [decide_eq_true rfl, Bool.not_true, Bool.and_false]
      exact Block.flag_put_same _ false (by decide) rfl
    · rw [decide_eq_false e, Bool.not_false, Bool.and_true]
      refine Block.flag_of_get (Block.get_set_other _ _ (by decide) (heldBit_narrow h) (.inr ?_))
      show 16 + n + 1 ≤ 17 ∨ 17 + 1 ≤ 16 + n
      omega

/-- PD0 where the Dealer runs again. -/
def Pd0.back (x : Pd0) (all : Bool) : Pd0 := if all then { x with dealerRc := true } else x

theorem Pd0.back_declaredAt (x : Pd0) (all : Bool) : (x.back all).declaredAt = x.declaredAt := by cases all <;> rfl

theorem Pd0.back_mux (x : Pd0) (all : Bool) : (x.back all).mux = x.mux := by cases all <;> rfl

theorem Block.within_dealerBack (all : Bool) : (b.withPd0 (b.pd0.back all)).Within (· = aCPR_PD_STAT) (b.dealerBack all) := by
  cases all with
  | false => exact .refl _ b
  | true => exact Block.within_set_narrow _ (f := heldBit 1) 0 (by decide) rfl
end

/-- What a failure leaves beside the Dealer's own domain: from `b`, domains reset, to `c`, the device stopped. -/
structure Block.AsyncKeeps (b c : Block) : Prop where
  rd : ∀ a, 2 ≤ domainOf a → ¬ outputReg a → ¬ (∃ i ∈ [1, 9, 145, 159, 177], irqReg i a) → c.rd a = b.rd a
  held : ∀ n, n < 12 → n ≠ 1 → c.domainHeld n = b.domainHeld n
  declaredAt : c.pd0.declaredAt = none
  mux : c.pd0.mux = []
  mem : c.mem = b.mem
  field : c.field = b.field
  dealt : c.dealt = b.dealt

/-- The registers of PD1 that the Dealer writes, beside the outputs and interrupt sources. -/
theorem far_of_domain {a : Nat} (switched : 2 ≤ domainOf a) (output : ¬ outputReg a)
    (source : ¬ ∃ i ∈ [1, 9, 145, 159, 177], irqReg i a) : ¬ (stopReg a ∨ irqReg 9 a ∨ otpReg a) := by
  have low {x : Nat} (h : domainOf x < 2) : a ≠ x := fun e => by
    rw [e] at switched
    exact switched.not_gt h
  have apart {i : Nat} (m : i ∈ [1, 9, 145, 159, 177]) : ¬ irqReg i a := fun k => source ⟨i, m, k⟩
  rintro ((boot | stat | out | (queue | lost | event) | ⟨i, m, irq⟩) | clk | stat | secver)
  · exact low (by decide) boot
  · exact low (by decide) stat
  · exact output out
  · exact low (by decide) queue
  · exact low (by decide) lost
  · exact apart (by decide) event
  · exact apart ((by decide : ∀ i ∈ [1, 145, 159], i ∈ [1, 9, 145, 159, 177]) i m) irq
  · exact apart (by decide) clk
  · exact low (by decide) stat
  · exact low (by decide) secver

section
variable {s : State} {src : Nat}

theorem Block.asyncDue_iff (b : Block) : b.asyncDue = true ↔
    (∃ t, b.pd0.declaredAt = some t ∧ t + 20000 ≤ b.up) ∧ b.pd0.porst = false ∧ b.pd0.resetN = false := by
  unfold Block.asyncDue
  simp [Option.any_eq_true, and_assoc]

theorem asynchronousReset_idle (idle : s.blk.asyncDue = false) : Completes .asynchronousReset s (· = s) := by
  refine ⟨s, ?_, rfl⟩
  have same : s.onBlk Block.asyncReset = s := State.onBlk_eq (c := s.blk) (if_pos (ne_true_of_eq_false idle))
  rw [exec_asynchronousReset, execAsynchronousReset, idle, same]
  rfl

variable (due : s.blk.asyncDue = true) (one : s.blk.pd0.failed = [src])
include due one

/-- With the RC oscillator dead every domain is held, and nothing recorded. -/
theorem asynchronousReset_dead (dead : s.blk.pd0.rcDead = true) : Completes .asynchronousReset s fun t =>
    (s.blk.asyncHeld src).AsyncKeeps t.blk ∧ t.nv = s.nv ∧ t.blk.boot = Reset.boot ∧
      t.blk.domainHeld 1 = (s.blk.asyncHeld src).domainHeld 1 := by
  have pd0 := s.blk.asyncHeld_pd0 src
  have e : exec .asynchronousReset s =
      .next { s with blk := { (s.blk.asyncHeld src).withPd0 (s.blk.asyncHeld src).pd0.settled with boot := Reset.boot } } := by
    rw [exec_asynchronousReset, execAsynchronousReset, dead, Bool.not_true, Bool.and_false]
    refine congrArg _ (State.onBlk_eq ?_)
    rw [Block.asyncReset_eq due one]
    exact Block.afterHold_dead (pd0 ▸ dead)
  exact ⟨_, e, ⟨fun _ _ _ _ => rfl, fun _ _ _ => rfl, rfl, rfl, rfl, rfl, rfl⟩, rfl, rfl, rfl⟩

/-- What the Dealer makes of the domains held: it may run again, records the failure and stops the device. -/
def Block.asyncLast (b : Block) (src : Nat) : Block :=
  ((b.withPd0 b.pd0.settled).dealerBack ((fedBy src).contains 1)).asyncStopped src

theorem exec_asynchronousReset_alive (alive : s.blk.pd0.rcDead = false) : ∃ c, exec .asynchronousReset s = .next { s with blk := c } ∧
    ((s.blk.asyncHeld src).asyncLast src).Within otpReg c := by
  have pd0 := s.blk.asyncHeld_pd0 src
  have last : s.blk.asyncReset = (s.blk.asyncHeld src).asyncLast src := by
    rw [Block.asyncReset_eq due one, alive, Bool.false_or]
    exact Block.afterHold_alive (pd0 ▸ alive) (pd0 ▸ one)
  rw [exec_asynchronousReset, execAsynchronousReset]
  dsimp only
  rw [State.onBlk_eq last]
  split
  · exact ⟨_, congrArg _ (State.showOtp_eq _), Block.within_otpShown ..⟩
  · exact ⟨_, rfl, .refl _ _⟩
end

/-- Otherwise the device stops with the failure recorded, the Dealer on the RC oscillator where its domain was reset. -/
theorem Block.asyncLast_spec (b : Block) (src : Nat) {c : Block} (otp : (b.asyncLast src).Within otpReg c) :
    b.AsyncKeeps c ∧ c.stopped ∧ c.dark ∧ c.domainHeld 1 = (b.domainHeld 1 && !(fedBy src).contains 1) ∧
      ((fedBy src).contains 1 = true → c.pd0.dealerRc = true ∧
        (b.scp.queue = [] → b.scp.newest = none → c.headIs 0xB 2 (src % 2 ^ 32))) := by
  obtain ⟨⟨owed, stop⟩, ⟨dout, soutA, soutB, held⟩, stopped, head⟩ :=
    ((b.withPd0 b.pd0.settled).dealerBack ((fedBy src).contains 1)).asyncStopped_spec src
  have back := (b.withPd0 b.pd0.settled).within_dealerBack ((fedBy src).contains 1)
  have runs {n : Nat} (h : n < 12) := (b.withPd0 b.pd0.settled).domainHeld_dealerBack ((fedBy src).contains 1) h
  have scp : ((b.withPd0 b.pd0.settled).dealerBack ((fedBy src).contains 1)).scp = b.scp := back.1.p_scp
  have pd0 := back.1.p_pd0
  rw [Block.asyncLast] at otp
  generalize (b.withPd0 b.pd0.settled).dealerBack ((fedBy src).contains 1) = d at *
  have all : (d.withPd0 (d.pd0.owing owed)).StopsWithin (fun a => stopReg a ∨ irqReg 9 a ∨ otpReg a) c :=
    (stop.mono fun _ => Or.imp_right .inl).trans (otp.stops.mono fun _ k => .inr (.inr k))
  have far : ∀ a ∈ [aFLD_DOUT_ST, aSAF_SOUT, aFLD_STAT, aDEV_BOOT], ¬ otpReg a := by unfold otpReg; decide
  have domains : c.rd aCPR_PD_STAT = d.rd aCPR_PD_STAT :=
    all.rd (by unfold stopReg irqReg otpReg outputReg eventReg irqReg; decide)
  have same {n : Nat} (h : n < 12) : c.domainHeld n = (b.domainHeld n && !((fedBy src).contains 1 && decide (n = 1))) :=
    (d.domainHeld_of_flag h (d.flag_heldBit_of_rd h domains)).trans (runs h)
  have cpd0 : c.pd0 = d.pd0.owing owed := by rw [all.eq]; rfl
  refine ⟨⟨fun a switched out source => ?_, fun n h ne => ?_, ?_, ?_, ?_, ?_, ?_⟩, ?_, ⟨?_, ?_, ?_, ?_⟩, ?_,
    fun mem => ⟨?_, fun empty unwritten => ?_⟩⟩
  · refine (all.rd (far_of_domain switched out source)).trans (back.rd fun e => ?_)
    rw [e] at switched
    exact absurd switched (by decide)
  · rw [same h, decide_eq_false ne, Bool.and_false]
    exact Bool.and_true _
  · rw [cpd0, pd0]
    exact Pd0.back_declaredAt ..
  · rw [cpd0, pd0]
    exact Pd0.back_mux ..
  · exact (congrArg Block.mem all.eq).trans back.1.p_mem
  · exact (congrArg Block.field all.eq).trans back.1.p_field
  · exact (congrArg Block.dealt all.eq).trans back.1.p_dealt
  · exact (otp.get (far _ (by decide)) (.inl (by decide))).trans stopped
  · exact (otp.get (far _ (by decide)) (.inl (by decide))).trans dout
  · exact (otp.get (far _ (by decide)) (.inl (by decide))).trans soutA
  · exact (otp.get (far _ (by decide)) (.inl (by decide))).trans soutB
  · exact (Block.flag_of_get (otp.get (far _ (by decide)) (.inl (by decide)))).trans held
  · rw [same (by decide), decide_eq_true rfl, Bool.and_true]
  · rw [cpd0, pd0, mem]
    rfl
  · exact (head (scp ▸ empty) (scp ▸ unwritten)).of_scp otp.1.p_scp

/-- The failure of `src` takes domain `n` with it (R577). -/
def Block.takes (b : Block) (src n : Nat) : Prop := b.pd0.rcDead = true ∨ 1 ∈ fedBy src ∨ n ∈ fedBy src

section
variable {b : Block} {src n : Nat}

theorem Block.mem_taken : n ∈ asyncHits b.pd0.rcDead (fedBy src) ↔ (1 ≤ n ∧ n < 12) ∧ b.takes src n := mem_asyncHits

theorem Block.asyncHeld_held (h : n < 12) : (b.asyncHeld src).domainHeld n =
    (decide (n ∈ asyncHits b.pd0.rcDead (fedBy src)) || b.domainHeld n) := by
  rw [Block.domainHeld_eq _ h, Block.domainHeld_eq _ h]
  exact Block.flag_holdDomains _ b (fun k m => (mem_asyncHits.1 m).1) h

/-- A domain taken is held. -/
theorem Block.asyncHeld_takes (pos : 1 ≤ n) (h : n < 12) (takes : b.takes src n) : (b.asyncHeld src).domainHeld n = true := by
  rw [Block.asyncHeld_held h, decide_eq_true (Block.mem_taken.2 ⟨⟨pos, h⟩, takes⟩), Bool.true_or]

/-- Any other stays as it is. -/
theorem Block.asyncHeld_spares (h : n < 12) (spares : ¬ b.takes src n) : (b.asyncHeld src).domainHeld n = b.domainHeld n := by
  rw [Block.asyncHeld_held h, decide_eq_false fun m => spares (Block.mem_taken.1 m).2, Bool.false_or]

/-- The registers of a domain taken are at reset. -/
theorem Block.rd_asyncHeld {a : Nat} (pos : 1 ≤ domainOf a) (takes : b.takes src (domainOf a)) : (b.asyncHeld src).rd a = resetReg a := by
  refine (Block.rd_holdDomains _ b (fun k m => (mem_asyncHits.1 m).1.2) fun e => ?_).trans
    (if_pos (Block.mem_taken.2 ⟨⟨pos, domainOf_lt a⟩, takes⟩))
  rw [e] at pos
  exact absurd pos (by decide)

theorem Block.scp_asyncHeld (dealer : b.takes src 1) : (b.asyncHeld src).scp = Reset.scp :=
  (Block.holdDomains_parts _ b).2.trans (if_pos (Block.mem_taken.2 ⟨by decide, dealer⟩))
end

/-- 20 µs after the declaration. -/
theorem asynchronousReset_due {s : State} {src : Nat} (due : s.blk.asyncDue = true) (one : s.blk.pd0.failed = [src]) :
    Completes .asynchronousReset s fun t => (s.blk.asyncHeld src).AsyncKeeps t.blk ∧ t.nv = s.nv ∧
      (s.blk.pd0.rcDead = true → t.blk.boot = Reset.boot ∧ t.blk.domainHeld 1 = true) ∧
      (s.blk.pd0.rcDead = false → t.blk.stopped ∧ t.blk.dark ∧ t.blk.domainHeld 1 = (s.blk.domainHeld 1 && !decide (1 ∈ fedBy src)) ∧
        (1 ∈ fedBy src → t.blk.pd0.dealerRc = true ∧ t.blk.headIs 0xB 2 (src % 2 ^ 32))) := by
  cases dead : s.blk.pd0.rcDead with
  | true =>
    obtain ⟨t, e, keeps, nv, boot, held⟩ := asynchronousReset_dead due one dead
    exact ⟨t, e, keeps, nv, fun _ => ⟨boot, held.trans (Block.asyncHeld_takes (by decide) (by decide) (.inl dead))⟩, fun k => nomatch k⟩
  | false =>
    obtain ⟨c, e, otp⟩ := exec_asynchronousReset_alive due one dead
    obtain ⟨keeps, stopped, dark, held, back⟩ := Block.asyncLast_spec _ src otp
    refine ⟨_, e, keeps, rfl, (nomatch ·), fun _ => ⟨stopped, dark, held.trans ?_, fun mem => ?_⟩⟩
    · by_cases mem : 1 ∈ fedBy src
      · simp [mem]
      · have spares : ¬ s.blk.takes src 1 := by simp [Block.takes, dead, mem]
        rw [Block.asyncHeld_spares (by decide) spares, decide_eq_false mem, Bool.eq_false_iff.2 (mt List.contains_iff_mem.1 mem)]
    · have scp := s.blk.scp_asyncHeld (src := src) (.inr (.inl mem))
      obtain ⟨rc, head⟩ := back (List.contains_iff_mem.2 mem)
      exact ⟨rc, head (by rw [scp]; rfl) (by rw [scp]; rfl)⟩

/-- Settles O59: the monitor's windows, the RC check, the start-up that waits for a source and the asynchronous reset, one by one. -/
theorem clockFailures : Obligations.ClockFailures := by
  unfold Obligations.ClockFailures
  intro s ref count src plls b p runs good odd shown outputReg' dark feeds declared fresh allGood fails
  have rcOdd : (count < 108 ∨ 148 < count) ↔ rcOddCount count = true := decide_eq_true_iff.symm
  refine ⟨fun idle => ⟨monitorWindow_idle idle, rcCheck_idle idle⟩,
    fun runs good sound plls_sound => monitorWindow_sound runs good sound plls_sound,
    fun runs fresh good fails sound => monitorWindow_refFails runs good fresh fails sound,
    fun k runs fresh good sound fails others => monitorWindow_pllFails runs good fresh k sound fails others,
    fun runs bad good sound => ?_, ⟨?_, ?_⟩, fun runs => ?_, ?_, ?_⟩
  · intro near
    refine ⟨fun odd => ?_, fun even near few => ?_, fun even far => ?_, fun even near many => ?_⟩
    · exact monitorWindow_counts runs bad good sound (Block.stableAfter_odd odd) (by decide)
    · exact monitorWindow_counts runs bad good sound (Block.stableAfter_near even near) (Nat.succ_lt_succ few)
    · exact monitorWindow_counts runs bad good sound (Block.stableAfter_far even far) (by decide)
    · refine monitorWindow_refGood runs bad good sound ?_
      rw [Block.stableAfter_near even near]
      exact Nat.succ_le_succ many
  · exact referenceTimeout_idle
  · exact fun waits least released step failed late => referenceTimeout_stops waits least released step failed late
  · intro odd
    refine ⟨fun even => ?_, fun odd first => ?_, fun odd again fresh => ?_⟩
    · exact rcCheck_sound runs (Bool.eq_false_iff.2 (mt rcOdd.2 even))
    · exact rcCheck_odd runs (rcOdd.1 odd) first
    · exact rcCheck_fails runs (rcOdd.1 odd) again fresh
  · intro early
    refine asynchronousReset_idle (Bool.eq_false_iff.2 fun due => ?_)
    obtain ⟨⟨t, at_, late⟩, porst, resetN⟩ := s.blk.asyncDue_iff.1 due
    rcases early with early | low | low
    · exact (early t at_).not_ge late
    · exact absurd (porst.symm.trans low) (by decide)
    · exact absurd (resetN.symm.trans low) (by decide)
  · intro late porst resetN one
    obtain ⟨t, e, keeps, nv, dead, alive⟩ := asynchronousReset_due (s.blk.asyncDue_iff.2 ⟨late, porst, resetN⟩) one
    refine ⟨t, e, fun n pos h hit ne => ?_, fun n pos h spares => ?_, fun a hit two out source => ?_, keeps.declaredAt, keeps.mux, nv, ?_⟩
    · exact (keeps.held n h ne).trans (Block.asyncHeld_takes pos h hit)
    · by_cases dealer : n = 1
      · subst dealer
        obtain ⟨-, -, held, -⟩ := alive (Bool.eq_false_iff.2 fun k => spares (.inl k))
        have apart : 1 ∉ fedBy src := fun m => spares (.inr (.inl m))
        rw [held, decide_eq_false apart, Bool.not_false, Bool.and_true]
      · exact (keeps.held n h dealer).trans (Block.asyncHeld_spares h spares)
    · exact (keeps.rd a two out source).trans (Block.rd_asyncHeld (Nat.le_of_succ_le two) hit)
    · obtain ⟨⟨-, mem, field, dealt⟩, -⟩ := Block.holdDomains_parts (asyncHits p.rcDead (fedBy src)) b
      exact ⟨keeps.mem.trans mem, keeps.field.trans field, keeps.dealt.trans dealt, dead, alive⟩

end Sys2Proof.Machine
end

section
/-!
PROOFS. Resets (20_clocks_power_reset.md R586 to R591): what a reset leaves, what a release starts, the cause shown. Settles O58.
-/

namespace Sys2Proof.Machine

/-! ### From one block to another beside the parts of PD0 that a source is owed in -/

/-- From `b` to `c` registers of `p`, the scorepad unit and the SOUT halves may have changed, and PD0 owes more. -/
def Block.Owes (p : Nat → Prop) (b c : Block) : Prop :=
  (b.withPd0 (b.pd0.owing c.pd0.owed)).StopsWithin p c ∧ b.pd0.owed ⊆ c.pd0.owed

section
variable {p q : Nat → Prop} {b c d : Block}

theorem Block.StopsWithin.owes (h : b.StopsWithin p c) : b.Owes p c := by
  have pd0 : c.pd0 = b.pd0 := by rw [h.eq]
  refine ⟨?_, pd0 ▸ List.Subset.refl _⟩
  rw [pd0]
  exact h

theorem Block.Within.owes (h : b.Within p c) : b.Owes p c := h.stops.owes

theorem Block.Owes.mono (h : b.Owes p c) (i : ∀ a, p a → q a) : b.Owes q c := ⟨h.1.mono i, h.2⟩

theorem Block.Owes.pd0 (h : b.Owes p c) : c.pd0 = b.pd0.owing c.pd0.owed := congrArg Block.pd0 h.1.eq

theorem Block.Owes.trans (h : b.Owes p c) (g : c.Owes p d) : b.Owes p d := by
  have before : (b.withPd0 (b.pd0.owing d.pd0.owed)).StopsWithin p (c.withPd0 (c.pd0.owing d.pd0.owed)) := by
    rw [h.pd0]
    exact h.1.withPd0 (b.pd0.owing d.pd0.owed)
  exact ⟨before.trans g.1, List.Subset.trans h.2 g.2⟩

theorem Block.Owes.rd (h : b.Owes p c) {a : Nat} (n : ¬ p a) : c.rd a = b.rd a := h.1.rd n

theorem Block.Owes.get (h : b.Owes p c) {f : Fld} (n : ¬ p f.addr) (narrow : f.lo + f.w ≤ 32) :
    Regs.get c.regs f = Regs.get b.regs f := Block.get_of_rd narrow (h.rd n)
end

/-- What PD0 owes stays owed where another of its sources asserts. -/
theorem Block.owed_cprIrq (b : Block) (n : Nat) : b.pd0.owed ⊆ (b.cprIrq n).pd0.owed := by
  by_cases h : b.hostRuns
  · rw [Block.cprIrq_asserts h, Block.irq_pd0]
    exact List.Subset.refl _
  · refine fun i m => ?_
    rw [Block.cprIrq, if_neg fun k => h ⟨k.1, Bool.eq_false_iff.2 k.2⟩]
    dsimp only
    split
    · exact m
    · exact List.mem_append_left _ m

theorem Block.owes_cprIrq (b : Block) (n : Nat) : b.Owes (irqReg n) (b.cprIrq n) := ⟨(b.within_cprIrq n).stops, b.owed_cprIrq n⟩

/-! ### A release, part by part (R35, R589) -/

/-- The cause shown, and the hold of RESET_N. -/
def Block.causeShown (b : Block) (cause : Nat) (held : Option Nat) : Block :=
  let c := (b.set CPR_RST_CAUSE_PREV (b.get CPR_RST_CAUSE_LAST)).set CPR_RST_CAUSE_LAST cause
  match held with
  | some t => c.set CPR_RST_HELD (min t (2 ^ 32 - 1))
  | none => c

/-- PD0 where start-up begins. -/
def Pd0.launched (x : Pd0) : Pd0 := { x with
  porst := false, resetN := false, resetLow := none, switching := [(1, true), (2, true), (7, true), (11, true)] }

/-- Start-up begins: the domains of R585 to switch, the salt of line-angle messages drawn. -/
def Block.launched (b : Block) : Block := { b with
  pd0 := b.pd0.launched, boot := { Reset.boot with released := true, since := b.up }, free := b.free + 1
  plant := { b.plant with laSalt := (Config.random b.free).toNat % 2 ^ 32 } }

/-- Step 1 as the registers show it, its PHASE and source 10 aside. -/
def Block.stepShown (b : Block) : Block :=
  let c := (b.wr aCPR_PD_STAT (BitVec.ofNat 32 (1 + 0xFFE * 2 ^ 16))).on CPR_STAT_SAFE
  c.put HST_MODE_PORT (bit (c.get CPR_STRAP) 0)

/-- A release up to the scorepad's recovery. -/
def Block.started (b : Block) (cause : Nat) (held : Option Nat) : Block :=
  (((b.causeShown cause held).launched.stepShown).setPhase 1).cprIrq 10

/-- A hold of RESET_N longer than 10 s is recorded (R589). -/
def Block.holdTold (b : Block) (held : Option Nat) : Block :=
  match held with
  | some t => if 10000 < t then ((b.eventDelayed 2 1 (min t (2 ^ 32 - 1)) 0).on CPR_EVT_RST_HELD).cprIrq 10 else b
  | none => b

/-- How long RESET_N has been low, in ms. -/
def Block.holdMs (b : Block) : Option Nat := b.pd0.resetLow.map fun t => (b.up - t) / 1000000

theorem State.release_eq (s : State) : s.release =
    ((s.onBlk (·.started s.blk.pd0.pendCause s.blk.holdMs)).showOtp.recoverScp s.blk.pd0.pendCause s.blk.pd0.porst).onBlk
      (·.holdTold s.blk.holdMs) := by rfl

/-- What the recovery records: the cause, and a torn or full scorepad. -/
def Block.recoveryTold (b : Block) (cause : Nat) (torn : Option (Nat × Nat)) : Block :=
  let c := b.event 1 0 cause Config.romVersion.toNat
  match torn with
  | some (x, y) => (c.raise SCP_STAT_RECOVERED_TORN 179).event 3 1 x y
  | none => c

theorem State.recoverScp_eq (s : State) (cause : Nat) (porst : Bool) : ∃ (next : Nat) (torn : Option (Nat × Nat)),
    let nv := s.nv.writeCtr next (if porst then satInc 32 s.nv.pcyc else s.nv.pcyc)
    s.recoverScp cause porst =
      { s with nv, blk := (s.blk.systemShown nv.nextSeq nv.opsecNow nv.pcyc).recoveryTold cause torn } := by
  unfold State.recoverScp
  extract_lets full n held sealOk whole torn next
  refine ⟨next, if full = true then some (next % 2 ^ 32, 0xFFFFFFFF) else if torn then some (next % 2 ^ 32, 0) else none, ?_⟩
  by_cases all : full = true
  · rw [if_pos all]
    simp only [if_pos all]
    rfl
  · rw [if_neg all]
    simp only [if_neg all]
    by_cases one : torn
    · rw [if_pos one]
      simp only [if_pos one]
      rfl
    · rw [if_neg one]
      simp only [if_neg one]
      rfl

section
variable (b : Block)

/-- The registers of the cause and of the hold. -/
def causeReg (a : Nat) : Prop := a = aCPR_RST_CAUSE ∨ a = aCPR_RST_HELD

theorem Block.within_causeShown (cause : Nat) (held : Option Nat) : b.Within causeReg (b.causeShown cause held) := by
  have shown : b.Within causeReg ((b.set CPR_RST_CAUSE_PREV (b.get CPR_RST_CAUSE_LAST)).set CPR_RST_CAUSE_LAST cause) :=
    (b.within_set_narrow (f := CPR_RST_CAUSE_PREV) _ (by decide) (.inl rfl)).trans
      (Block.within_set_narrow _ (f := CPR_RST_CAUSE_LAST) _ (by decide) (.inl rfl))
  cases held with
  | none => exact shown
  | some t => exact shown.trans (Block.within_set_narrow _ (f := CPR_RST_HELD) _ (by decide) (.inr rfl))

/-- The last cause becomes the one before. -/
theorem Block.causeShown_spec (cause : Nat) (held : Option Nat) :
    Regs.get (b.causeShown cause held).regs CPR_RST_CAUSE_LAST = cause % 2 ^ 8 ∧
    Regs.get (b.causeShown cause held).regs CPR_RST_CAUSE_PREV = b.get CPR_RST_CAUSE_LAST ∧
    ∀ t, held = some t → Regs.get (b.causeShown cause held).regs CPR_RST_HELD = min t (2 ^ 32 - 1) := by
  have last := Block.get_set_same (b.set CPR_RST_CAUSE_PREV (b.get CPR_RST_CAUSE_LAST)) CPR_RST_CAUSE_LAST cause (by decide)
  have prev : Regs.get ((b.set CPR_RST_CAUSE_PREV (b.get CPR_RST_CAUSE_LAST)).set CPR_RST_CAUSE_LAST cause).regs CPR_RST_CAUSE_PREV =
      b.get CPR_RST_CAUSE_LAST := by
    refine (Block.get_set_other _ (f := CPR_RST_CAUSE_LAST) cause (by decide) (by decide) (by decide)).trans
      ((b.get_set_same CPR_RST_CAUSE_PREV _ (by decide)).trans (Nat.mod_eq_of_lt ?_))
    rw [Block.get_eq, Regs.get, if_pos (by decide)]
    exact bits_lt ..
  cases held with
  | none => exact ⟨last, prev, fun t h => nomatch h⟩
  | some t =>
    refine ⟨?_, ?_, fun u h => ?_⟩
    · exact (Block.get_set_other _ (f := CPR_RST_HELD) _ (by decide) (by decide) (by decide)).trans last
    · exact (Block.get_set_other _ (f := CPR_RST_HELD) _ (by decide) (by decide) (by decide)).trans prev
    · cases h
      exact (Block.get_set_same _ CPR_RST_HELD _ (by decide)).trans (Nat.mod_eq_of_lt (by show _ < 2 ^ 32; omega))

theorem Block.rd_wr_same (a : Nat) (v : Word) : (b.wr a v).rd a = v := sget_sput_same ..

/-- The registers of step 1 besides its PHASE. -/
def stepReg (a : Nat) : Prop := a = aCPR_PD_STAT ∨ a = aCPR_STAT ∨ a = aHST_MODE

theorem Block.within_stepShown : b.Within stepReg b.stepShown :=
  (b.within_wr _ (.inl rfl)).trans <| (Block.within_set_narrow _ (f := CPR_STAT_SAFE) _ (by decide) (.inr (.inl rfl))).trans
    (Block.within_set_narrow _ (f := HST_MODE_PORT) _ (by decide) (.inr (.inr rfl)))

/-- Every domain but PD0 is off and in reset, SAFE_N low. -/
theorem Block.stepShown_spec : b.stepShown.rd aCPR_PD_STAT = 0x0FFE0001 ∧ b.stepShown.flag CPR_STAT_SAFE = true := by
  have mode (c : Block) (v : Bool) : c.Within (· = aHST_MODE) (c.put HST_MODE_PORT v) :=
    c.within_set_narrow (f := HST_MODE_PORT) _ (by decide) rfl
  refine ⟨?_, ?_⟩
  · refine ((mode _ _).rd (by decide)).trans ?_
    refine (((Block.within_set_narrow _ (f := CPR_STAT_SAFE) (p := (· = aCPR_STAT)) 1 (by decide) rfl)).rd (by decide)).trans ?_
    exact Block.rd_wr_same ..
  · exact Block.flag_of_one (((mode _ _).get (by decide) (.inl (by decide))).trans (Block.get_set_same _ CPR_STAT_SAFE 1 (by decide)))

/-- A narrow field of a register whose word is known. -/
theorem Block.get_of_word {b : Block} {f : Fld} {v : Word} (narrow : f.lo + f.w ≤ 32) (h : b.rd f.addr = v) :
    b.get f = bits v.toNat f.lo f.w := by
  rw [Block.get, if_pos narrow, h]

theorem Block.hostRuns_of_off {b : Block} (off : b.rd aCPR_PD_STAT = 0x0FFE0001) : ¬ b.hostRuns := by
  rintro ⟨on, -⟩
  have none : b.get CPR_PD_STAT_ON = 1 := Block.get_of_word (f := CPR_PD_STAT_ON) (by decide) off
  rw [Block.domainOn, none] at on
  exact absurd on (by decide)

/-- The registers of step 1. -/
def startReg (a : Nat) : Prop := stepReg a ∨ a = aDEV_BOOT ∨ irqReg 1 a ∨ irqReg 10 a

/-- Step 1: every domain but PD0 is off, PHASE 1, source 10 owed. -/
theorem Block.started_spec (cause : Nat) (held : Option Nat) :
    (b.causeShown cause held).launched.Owes startReg (b.started cause held) ∧
    Regs.get (b.started cause held).regs DEV_BOOT_PHASE = 1 ∧ 10 ∈ (b.started cause held).pd0.owed ∧
    (b.started cause held).rd aCPR_PD_STAT = 0x0FFE0001 ∧ (b.started cause held).flag CPR_STAT_SAFE = true := by
  obtain ⟨off, safe⟩ := (b.causeShown cause held).launched.stepShown_spec
  have step := (b.causeShown cause held).launched.within_stepShown
  unfold Block.started
  generalize (b.causeShown cause held).launched.stepShown = c at *
  have phase := c.within_setPhase_safe 1 (by decide) (by decide)
  have one : Regs.get (c.setPhase 1).regs DEV_BOOT_PHASE = 1 := c.get_setPhase (by decide)
  have far : ∀ a ∈ [aCPR_PD_STAT, aCPR_STAT], ¬ (a = aDEV_BOOT ∨ irqReg 1 a) := by unfold irqReg; decide
  have apart : ∀ a ∈ [aCPR_PD_STAT, aCPR_STAT, aDEV_BOOT], ¬ irqReg 10 a := by unfold irqReg; decide
  have source := (c.setPhase 1).owes_cprIrq 10
  have still : (c.setPhase 1).rd aCPR_PD_STAT = 0x0FFE0001 := (phase.rd (far _ (by decide))).trans off
  obtain ⟨owed, e, mem⟩ := Block.cprIrq_owes (n := 10) (Block.hostRuns_of_off still)
  refine ⟨?_, ?_, ?_, ?_, ?_⟩
  · exact (step.owes.mono fun _ => .inl).trans <| (phase.owes.mono fun _ k => k.elim (.inr ∘ .inl) (.inr ∘ .inr ∘ .inl)).trans
      (source.mono fun _ k => .inr (.inr (.inr k)))
  · exact (source.get (apart _ (by decide)) (by decide)).trans one
  · rw [e]
    exact mem
  · exact (source.rd (apart _ (by decide))).trans still
  · refine (Block.flag_of_get ((source.get (apart _ (by decide)) (by decide)).trans ?_)).trans safe
    exact phase.get (far _ (by decide)) (.inl (by decide))

/-- The registers that the recovery and a long hold write. -/
def recoveryReg (a : Nat) : Prop := otpReg a ∨ systemReg a ∨ eventReg a ∨ irqReg 179 a ∨ irqReg 10 a ∨ a = aCPR_EVT

theorem Block.within_raise {p : Nat → Prop} (f : Fld) (n : Nat) (narrow : f.lo + f.w ≤ 32) (at_ : p f.addr)
    (source : ∀ a, irqReg n a → p a) :
    b.Within p (b.raise f n) := by
  unfold Block.raise
  split
  · exact .refl _ b
  · exact (b.within_set_narrow 1 narrow at_).trans (Block.within_irq _ source)

theorem Block.stopsWithin_recoveryTold (cause : Nat) (torn : Option (Nat × Nat)) : b.StopsWithin recoveryReg (b.recoveryTold cause torn) := by
  have event (c : Block) (code level x y : Nat) : c.StopsWithin recoveryReg (c.event code level x y) :=
    (c.stopsWithin_event code level x y).mono fun _ k => .inr (.inr (.inl k))
  cases torn with
  | none => exact event ..
  | some t =>
    have raised := Block.within_raise (p := recoveryReg) (b.event 1 0 cause Config.romVersion.toNat) SCP_STAT_RECOVERED_TORN 179 (by decide)
      (.inr (.inl (.inr (.inl rfl)))) fun _ k => .inr (.inr (.inr (.inl k)))
    exact (event b 1 0 cause Config.romVersion.toNat).trans (raised.stops.trans (event _ 3 1 t.1 t.2))

theorem Block.headIs_recoveryTold (empty : b.scp.queue = []) (unwritten : b.scp.newest = none) (cause : Nat) (torn : Option (Nat × Nat)) :
    (b.recoveryTold cause torn).headIs 1 0 (cause % 2 ^ 32) := by
  have first := Block.headIs_event (code := 1) (level := 0) empty unwritten cause Config.romVersion.toNat
  cases torn with
  | none => exact first
  | some t => exact Block.headIs.enqueue (first.of_scp (Block.raise_scp ..)) _

theorem Block.holdTold_short {held : Option Nat} (h : ∀ t, held = some t → ¬ 10000 < t) : b.holdTold held = b := by
  cases held with
  | none => rfl
  | some t => exact if_neg (h t rfl)

/-- A long hold: an event, the flag and source 10; the head of the queue stays. -/
theorem Block.holdTold_long {t : Nat} (h : 10000 < t) : b.Owes recoveryReg (b.holdTold (some t)) ∧
    (b.holdTold (some t)).flag CPR_EVT_RST_HELD = true ∧
    ∀ code level arg0, b.headIs code level arg0 → (b.holdTold (some t)).headIs code level arg0 := by
  have told : b.holdTold (some t) = ((b.eventDelayed 2 1 (min t (2 ^ 32 - 1)) 0).on CPR_EVT_RST_HELD).cprIrq 10 := if_pos h
  have event : b.StopsWithin eventReg (b.eventDelayed 2 1 (min t (2 ^ 32 - 1)) 0) := b.stopsWithin_enqueue _
  have head {code level arg0 : Nat} (k : b.headIs code level arg0) :
      (b.eventDelayed 2 1 (min t (2 ^ 32 - 1)) 0).headIs code level arg0 := k.enqueue _
  rw [told]
  generalize b.eventDelayed 2 1 (min t (2 ^ 32 - 1)) 0 = c at *
  have flag : c.Within (· = aCPR_EVT) (c.on CPR_EVT_RST_HELD) := c.within_set_narrow (f := CPR_EVT_RST_HELD) 1 (by decide) rfl
  have source := (c.on CPR_EVT_RST_HELD).owes_cprIrq 10
  refine ⟨?_, ?_, fun code level arg0 k => ?_⟩
  · exact (event.owes.mono fun _ k => .inr (.inr (.inl k))).trans <|
      (flag.owes.mono fun _ k => .inr (.inr (.inr (.inr (.inr k))))).trans (source.mono fun _ k => .inr (.inr (.inr (.inr (.inl k)))))
  · refine Block.flag_of_one ((source.get (by unfold irqReg; decide) (by decide)).trans ?_)
    exact Block.get_set_same c CPR_EVT_RST_HELD 1 (by decide)
  · exact ((head k).of_scp (Block.set_scp ..)).of_scp ((c.on CPR_EVT_RST_HELD).within_cprIrq 10).1.p_scp

/-- The registers a release writes besides those of the cause. -/
def releaseReg (a : Nat) : Prop := startReg a ∨ recoveryReg a
end

/-! ### A release as a whole -/

/-- The recovery and a hold told, of the block that step 1 has. -/
def Block.recoveredFrom (b : Block) (o : Otp) (next opsec pcyc cause : Nat) (torn : Option (Nat × Nat)) (held : Option Nat) : Block :=
  (((b.otpShown o).systemShown next opsec pcyc).recoveryTold cause torn).holdTold held

section
variable (b : Block) (o : Otp) (next opsec pcyc cause : Nat) (torn : Option (Nat × Nat)) (held : Option Nat)

theorem Block.recoveredFrom_spec : b.Owes recoveryReg (b.recoveredFrom o next opsec pcyc cause torn held) ∧
    (b.scp.queue = [] → b.scp.newest = none → (b.recoveredFrom o next opsec pcyc cause torn held).headIs 1 0 (cause % 2 ^ 32)) ∧
    ∀ t, held = some t → 10000 < t → (b.recoveredFrom o next opsec pcyc cause torn held).flag CPR_EVT_RST_HELD = true := by
  have shown : b.Within recoveryReg ((b.otpShown o).systemShown next opsec pcyc) :=
    ((b.within_otpShown o).mono fun _ => .inl).trans ((Block.within_systemShown _ ..).mono fun _ k => .inr (.inl k))
  have scp := shown.1.p_scp
  unfold Block.recoveredFrom
  generalize (b.otpShown o).systemShown next opsec pcyc = c at *
  have told := shown.owes.trans (c.stopsWithin_recoveryTold cause torn).owes
  have head (empty : b.scp.queue = []) (unwritten : b.scp.newest = none) :=
    c.headIs_recoveryTold (scp ▸ empty) (scp ▸ unwritten) cause torn
  generalize c.recoveryTold cause torn = d at *
  by_cases long : ∃ t, held = some t ∧ 10000 < t
  · obtain ⟨t, rfl, h⟩ := long
    obtain ⟨owes, flag, keeps⟩ := d.holdTold_long h
    exact ⟨told.trans owes, fun e u => keeps _ _ _ (head e u), fun _ _ _ => flag⟩
  · rw [d.holdTold_short fun t e h => long ⟨t, e, h⟩]
    exact ⟨told, head, fun t e h => absurd ⟨t, e, h⟩ long⟩
end

/-- A release leads from `b` to `c`. -/
structure Block.Released (b c : Block) : Prop where
  owes : (b.causeShown b.pd0.pendCause b.holdMs).launched.Owes releaseReg c
  phase : Regs.get c.regs DEV_BOOT_PHASE = 1
  owed : 10 ∈ c.pd0.owed
  off : c.rd aCPR_PD_STAT = 0x0FFE0001
  safe : c.flag CPR_STAT_SAFE = true
  head : b.scp = Reset.scp → c.headIs 1 0 (b.pd0.pendCause % 2 ^ 32)
  long : ∀ t, b.holdMs = some t → 10000 < t → c.flag CPR_EVT_RST_HELD = true

theorem recoveryReg_far : ∀ a ∈ [aCPR_PD_STAT, aCPR_STAT, aDEV_BOOT], ¬ recoveryReg a := by
  unfold recoveryReg otpReg systemReg countReg eventReg irqReg
  decide

theorem Block.scp_started (b : Block) (cause : Nat) (held : Option Nat) : (b.started cause held).scp = b.scp :=
  (Block.within_cprIrq _ 10).1.p_scp.trans <| (Block.setPhase_scp ..).trans <|
    (Block.within_stepShown _).1.p_scp.trans (b.within_causeShown cause held).1.p_scp

theorem Block.released_started (b : Block) (o : Otp) (next opsec pcyc : Nat) (torn : Option (Nat × Nat)) :
    b.Released ((b.started b.pd0.pendCause b.holdMs).recoveredFrom o next opsec pcyc b.pd0.pendCause torn b.holdMs) := by
  obtain ⟨step, phase, owed, off, safe⟩ := b.started_spec b.pd0.pendCause b.holdMs
  have scp : (b.started b.pd0.pendCause b.holdMs).scp = b.scp := b.scp_started ..
  generalize b.started b.pd0.pendCause b.holdMs = c at *
  obtain ⟨owes, head, long⟩ := c.recoveredFrom_spec o next opsec pcyc b.pd0.pendCause torn b.holdMs
  refine ⟨(step.mono fun _ => .inl).trans (owes.mono fun _ => .inr), ?_, owes.2 owed, ?_, ?_, fun fresh => ?_, long⟩
  · exact (owes.get (recoveryReg_far _ (by decide)) (by decide)).trans phase
  · exact (owes.rd (recoveryReg_far _ (by decide))).trans off
  · exact (Block.flag_of_get (owes.get (recoveryReg_far _ (by decide)) (by decide))).trans safe
  · exact head (by rw [scp, fresh]; rfl) (by rw [scp, fresh]; rfl)

theorem State.release_spec (s : State) : ∃ nv c, s.release = { s with nv, blk := c } ∧ nv = { s.nv with ctr := nv.ctr } ∧
    nv.pcyc = (if s.blk.pd0.porst then satInc 32 s.nv.pcyc else s.nv.pcyc) ∧ s.blk.Released c := by
  obtain ⟨next, torn, e⟩ :=
    State.recoverScp_eq (s.onBlk (·.started s.blk.pd0.pendCause s.blk.holdMs)).showOtp s.blk.pd0.pendCause s.blk.pd0.porst
  have narrow : (if s.blk.pd0.porst then satInc 32 s.nv.pcyc else s.nv.pcyc) < 2 ^ 32 := by
    have := s.nv.pcyc_lt
    unfold satInc
    split_ifs <;> omega
  rw [State.release_eq]
  refine ⟨s.nv.writeCtr next (if s.blk.pd0.porst then satInc 32 s.nv.pcyc else s.nv.pcyc), _, congrArg (State.onBlk · _) e,
    NonVol.writeCtr_eq .., (NonVol.pcyc_writeCtr ..).trans (Nat.mod_eq_of_lt narrow), ?_⟩
  exact s.blk.released_started ..

section
variable {b c : Block} (h : b.Released c)
include h

/-- A register of PD0 that neither the cause nor the start writes holds its word. -/
theorem Block.Released.rd {a : Nat} (n : ¬ releaseReg a) (m : ¬ causeReg a) : c.rd a = b.rd a :=
  (h.owes.rd n).trans ((b.within_causeShown b.pd0.pendCause b.holdMs).rd m)

/-- What the cause shows the start leaves alone. -/
theorem Block.Released.get_cause {f : Fld} (at_ : causeReg f.addr) (narrow : f.lo + f.w ≤ 32) :
    Regs.get c.regs f = Regs.get (b.causeShown b.pd0.pendCause b.holdMs).regs f := by
  refine h.owes.get ?_ narrow
  rcases at_ with k | k <;> rw [k] <;> unfold releaseReg startReg stepReg recoveryReg otpReg systemReg countReg eventReg irqReg <;> decide

theorem Block.Released.parts : c.boot = { Reset.boot with released := true, since := b.up } ∧ c.mem = b.mem ∧ c.ecc = b.ecc ∧ c.up = b.up ∧
    c.pd0 = b.pd0.launched.owing c.pd0.owed ∧ c.dealt = b.dealt ∧ c.field = b.field ∧ c.segs = b.segs ∧ c.axes = b.axes := by
  have eq := h.owes.1.eq
  have only := (b.within_causeShown b.pd0.pendCause b.holdMs).1
  have pd0 := h.owes.pd0
  generalize b.causeShown b.pd0.pendCause b.holdMs = d at *
  obtain ⟨r, rfl⟩ : ∃ r, d = { b with regs := r } := ⟨d.regs, only⟩
  refine ⟨?_, ?_, ?_, ?_, pd0, ?_, ?_, ?_, ?_⟩
  all_goals
    rw [eq]
    rfl
end

/-! ### What a reset leaves (R586 to R589) -/

/-- What no reset of the core die touches: memories, the field die but for its link, time since power-up; and PD0 as given. -/
def Block.core (b : Block) (pd0 : Pd0) : Block := { Reset.block with
  mem := b.mem, ecc := b.ecc, up := b.up, free := b.free, pd0, field := { b.field with linkLost := true, mask := 0 }
  safety := { Reset.safety with
    raw := b.safety.raw, changed := b.safety.changed, a := { Reset.chan with sdi := b.safety.a.sdi, fault := b.safety.a.fault } } }

/-- PD0 as a reset of PD1 to PD11 leaves it. -/
def Pd0.entered (p : Pd0) (cause : Nat) : Pd0 := { p with
  pendCause := cause, devResetAt := none, gatePend := [], switching := [], oddWindows := [], mux := []
  failed := if p.rcDead then p.failed else [], declaredAt := none, goodSince := none, dealerRc := false }

/-- The registers that show a reset of PD1 to PD11. -/
def clockReg (a : Nat) : Prop := a ∈ [aCPR_PD_STAT, aCPR_PD_DECK, aCPR_GATE_LO, aCPR_GATE_HI, aCPR_STAT, aSCP_STAT]

/-- From `b` a reset of PD1 to PD11 leads to `c`, with PD0 at `x`: what the page shows, and the registers of PD0 kept. -/
structure Block.HeldAs (b : Block) (x : Pd0) (c : Block) : Prop where
  core : c = { b.core x with regs := c.regs }
  off : c.rd aCPR_PD_STAT = 0x0FFE0001
  safe : c.flag CPR_STAT_SAFE = true
  unforced : c.flag CPR_STAT_FORCED = false
  rd : ∀ a, ¬ clockReg a → c.rd a = if domainOf a = 0 then b.rd a else resetReg a

section
variable (b : Block) (cause : Nat)

/-- The registers of a reset: the domains off, the gates open, no forced state. -/
def Block.offShown (b : Block) : Block :=
  ((((b.wr aCPR_PD_STAT 0x0FFE0001).wr aCPR_PD_DECK 0).wr aCPR_GATE_LO 0).wr aCPR_GATE_HI 0).off CPR_STAT_FORCED

theorem Block.within_offShown : b.Within clockReg b.offShown :=
  (b.within_wr _ (by unfold clockReg; decide)).trans <| (Block.within_wr _ _ (by unfold clockReg; decide)).trans <|
    (Block.within_wr _ _ (by unfold clockReg; decide)).trans <| (Block.within_wr _ _ (by unfold clockReg; decide)).trans
      (Block.within_set_narrow _ (f := CPR_STAT_FORCED) _ (by decide) (by unfold clockReg; decide))

theorem Block.offShown_spec : b.offShown.rd aCPR_PD_STAT = 0x0FFE0001 ∧ Regs.get b.offShown.regs CPR_STAT_FORCED = 0 := by
  have other {c : Block} {a : Nat} (v : Word) (ne : aCPR_PD_STAT ≠ a) : (c.wr a v).rd aCPR_PD_STAT = c.rd aCPR_PD_STAT :=
    sget_sput_ne _ _ v ne
  refine ⟨?_, Block.get_set_same _ CPR_STAT_FORCED 0 (by decide)⟩
  refine ((Block.within_set_narrow _ (f := CPR_STAT_FORCED) (p := (· = aCPR_STAT)) 0 (by decide) rfl).rd (by decide)).trans ?_
  rw [other _ (by decide), other _ (by decide), other _ (by decide)]
  exact Block.rd_wr_same ..

/-- SAFE_N low, and no transfer of the field die yet. -/
def Block.safeShown (b : Block) : Block := (b.on CPR_STAT_SAFE).on SCP_STAT_FD_DOWN

theorem Block.within_safeShown : b.Within (fun a => a = aCPR_STAT ∨ a = aSCP_STAT) b.safeShown :=
  (b.within_set_narrow (f := CPR_STAT_SAFE) _ (by decide) (.inl rfl)).trans
    (Block.within_set_narrow _ (f := SCP_STAT_FD_DOWN) _ (by decide) (.inr rfl))

theorem Block.safeShown_spec : b.safeShown.flag CPR_STAT_SAFE = true ∧ b.safeShown.flag CPR_STAT_FORCED = b.flag CPR_STAT_FORCED := by
  have down {f : Fld} (c : Block) (narrow : f.lo + f.w ≤ 32) (ne : f.addr ≠ aSCP_STAT) :
      Regs.get (c.on SCP_STAT_FD_DOWN).regs f = Regs.get c.regs f := c.get_set_other (f := SCP_STAT_FD_DOWN) _ (by decide) narrow (.inl ne)
  refine ⟨Block.flag_of_one ((down _ (by decide) (by decide)).trans (b.get_set_same CPR_STAT_SAFE 1 (by decide))), Block.flag_of_get ?_⟩
  exact (down _ (by decide) (by decide)).trans (b.get_set_other (f := CPR_STAT_SAFE) _ (by decide) (by decide) (by decide))

/-- PD0 with no clock failure. -/
def Pd0.cleared (p : Pd0) : Pd0 := { p with
  failed := if p.rcDead then p.failed else [], declaredAt := none, goodSince := none, dealerRc := false }

theorem Block.enterReset_eq : b.enterReset cause = ((b.resetCore cause).offShown.withPd0 (b.pd0.entered cause)).safeShown := by
  have parts : b.enterReset cause = ((b.resetCore cause).offShown.withPd0 (b.resetCore cause).offShown.pd0.cleared).safeShown := by rfl
  rw [parts, (b.resetCore cause).within_offShown.1.p_pd0]
  rfl

/-- A register of PD0 keeps its word, any other is at reset. -/
theorem Block.rd_resetCore (a : Nat) : (b.resetCore cause).rd a = if domainOf a = 0 then b.rd a else resetReg a := by
  refine (sget_filter resetReg b.regs (fun a => decide (domainOf a = 0)) a).trans ?_
  by_cases h : domainOf a = 0 <;> simp [h]

/-- A reset of PD1 to PD11. -/
theorem Block.enterReset_held : b.HeldAs (b.pd0.entered cause) (b.enterReset cause) := by
  have core : b.resetCore cause = { b.core (b.resetCore cause).pd0 with regs := (b.resetCore cause).regs } := by rfl
  have regs := b.rd_resetCore cause
  have first := (b.resetCore cause).within_offShown
  obtain ⟨off, unforced⟩ := (b.resetCore cause).offShown_spec
  rw [Block.enterReset_eq]
  generalize b.resetCore cause = d at *
  generalize d.offShown = e at *
  have last := (e.withPd0 (b.pd0.entered cause)).within_safeShown
  obtain ⟨safe, same⟩ := (e.withPd0 (b.pd0.entered cause)).safeShown_spec
  refine ⟨?_, (last.rd (by decide)).trans off, safe, same.trans (Block.flag_of_zero unforced), fun a n => ?_⟩
  · have only := last.1
    generalize (e.withPd0 (b.pd0.entered cause)).safeShown = c at *
    rw [core] at first
    obtain ⟨r, rfl⟩ : ∃ r, e = { b.core d.pd0 with regs := r } := ⟨e.regs, first.1⟩
    exact only
  · refine (last.rd fun k => n ?_).trans ((first.rd n).trans (regs a))
    rcases k with rfl | rfl <;> unfold clockReg <;> decide

/-- What a reset of everything on the core die leaves, no register shown yet. -/
def Block.unpowered (b : Block) (cause : Nat) : Block :=
  { b.core { Reset.pd0 with pendCause := cause, resetN := b.pd0.resetN, resetLow := none } with regs := [] }

/-- A power-on reset, or one of PORST_N: every register is at reset. -/
theorem Block.enterPowerReset_spec :
    (b.enterPowerReset cause) =
      { b.core { Reset.pd0 with pendCause := cause, resetN := b.pd0.resetN, resetLow := none } with regs := (b.enterPowerReset cause).regs } ∧
    (b.enterPowerReset cause).flag SCP_STAT_FD_DOWN = true ∧ ∀ a, a ≠ aSCP_STAT → (b.enterPowerReset cause).rd a = resetReg a := by
  have parts : b.enterPowerReset cause = (b.unpowered cause).on SCP_STAT_FD_DOWN := by rfl
  have within : (b.unpowered cause).Within (· = aSCP_STAT) ((b.unpowered cause).on SCP_STAT_FD_DOWN) :=
    Block.within_set_narrow _ (f := SCP_STAT_FD_DOWN) 1 (by decide) rfl
  rw [parts]
  exact ⟨within.1, Block.flag_of_one (Block.get_set_same _ SCP_STAT_FD_DOWN 1 (by decide)), fun a n => within.rd n⟩
end

/-! ### Resets of the state (R578, R587 to R590) -/

/-- Between `s` and `t` a reset has ended and step 1 begun, with the cause shown and PD0 as it was at the end of the reset. -/
def State.startedUp (s t : State) (cause : Nat) (pd0 : Pd0) : Prop :=
  t.pending = s.pending ∧ t.nv = { s.nv with ctr := t.nv.ctr } ∧ t.blk.boot = { Reset.boot with released := true, since := s.blk.up } ∧
  t.blk.mem = s.blk.mem ∧ t.blk.ecc = s.blk.ecc ∧ t.blk.up = s.blk.up ∧ t.blk.pd0 = pd0.launched.owing t.blk.pd0.owed ∧
  10 ∈ t.blk.pd0.owed ∧ t.blk.get CPR_RST_CAUSE_LAST = cause % 2 ^ 8 ∧ t.blk.get DEV_BOOT_PHASE = 1 ∧ t.blk.get CPR_PD_STAT_ON = 1 ∧
  t.blk.get CPR_PD_STAT_RST = 0xFFE ∧ t.blk.flag CPR_STAT_SAFE = true

/-- Between `s` and `t` PD1 to PD11 have entered reset, PD0 at `x`. -/
def State.heldAs (s t : State) (x : Pd0) : Prop :=
  t = { s with blk := { s.blk.core x with regs := t.blk.regs } } ∧ t.blk.rd aCPR_PD_STAT = 0x0FFE0001 ∧
  t.blk.flag CPR_STAT_SAFE = true ∧ t.blk.flag CPR_STAT_FORCED = false ∧
  ∀ a, ¬ clockReg a → t.blk.rd a = if domainOf a = 0 then s.blk.rd a else resetReg a

theorem Block.HeldAs.heldAs {s : State} {x : Pd0} {c : Block} (h : s.blk.HeldAs x c) : s.heldAs { s with blk := c } x :=
  ⟨State.eq_of rfl rfl h.core, h.off, h.safe, h.unforced, h.rd⟩

/-- The registers that show the reset's own facts lie outside those a start writes. -/
theorem cprReg_far : ∀ a ∈ [aCPR_STRAP, aCPR_CLK_FAIL], ¬ releaseReg a ∧ ¬ causeReg a := by
  unfold releaseReg startReg stepReg recoveryReg otpReg systemReg countReg eventReg irqReg causeReg
  decide

section
variable {s : State} {c : Block}

/-- The release of `c`, whose parts that no reset touches are those of `s`. -/
theorem State.release_startedUp (mem : c.mem = s.blk.mem) (ecc : c.ecc = s.blk.ecc) (up : c.up = s.blk.up) :
    s.startedUp { s with blk := c }.release c.pd0.pendCause c.pd0 ∧ c.Released { s with blk := c }.release.blk ∧
    { s with blk := c }.release.nv.pcyc = (if c.pd0.porst then satInc 32 s.nv.pcyc else s.nv.pcyc) := by
  obtain ⟨nv, d, e, ctr, pcyc, released⟩ := State.release_spec { s with blk := c }
  obtain ⟨boot, mem', ecc', up', pd0, -⟩ := released.parts
  obtain ⟨last, -⟩ := c.causeShown_spec c.pd0.pendCause c.holdMs
  rw [e]
  refine ⟨⟨rfl, ctr, ?_, mem'.trans mem, ecc'.trans ecc, up'.trans up, pd0, released.owed, ?_, released.phase, ?_, ?_, released.safe⟩,
    released, pcyc⟩
  · rw [← up]
    exact boot
  · exact (released.get_cause (f := CPR_RST_CAUSE_LAST) (.inl rfl) (by decide)).trans last
  · exact Block.get_of_word (f := CPR_PD_STAT_ON) (by decide) released.off
  · exact Block.get_of_word (f := CPR_PD_STAT_RST) (by decide) released.off

/-- The cause before, where the registers of PD0 were kept. -/
theorem Block.Released.prev {d : Block} (h : c.Released d) : d.get CPR_RST_CAUSE_PREV = c.get CPR_RST_CAUSE_LAST := by
  obtain ⟨-, shown, -⟩ := c.causeShown_spec c.pd0.pendCause c.holdMs
  exact (h.get_cause (f := CPR_RST_CAUSE_PREV) (.inl rfl) (by decide)).trans shown

/-- The hold shown, and told where it was long (R589). -/
theorem Block.Released.hold {d : Block} (h : c.Released d) {t0 : Nat} (low : c.pd0.resetLow = some t0) :
    d.get CPR_RST_HELD = min ((c.up - t0) / 1000000) (2 ^ 32 - 1) ∧
      (10000 < (c.up - t0) / 1000000 → d.flag CPR_EVT_RST_HELD = true) := by
  have held : c.holdMs = some ((c.up - t0) / 1000000) := by rw [Block.holdMs, low]; rfl
  obtain ⟨-, -, shown⟩ := c.causeShown_spec c.pd0.pendCause c.holdMs
  exact ⟨(h.get_cause (f := CPR_RST_HELD) (.inr rfl) (by decide)).trans (shown _ held), h.long _ held⟩

/-- What a reset of PD1 to PD11 leaves clear at step 1, and the first event of the scorepad. -/
def State.startsClear (s t : State) (cause : Nat) : Prop :=
  t.blk.dealt = none ∧ t.blk.field = { s.blk.field with linkLost := true, mask := 0 } ∧ t.blk.segs = [] ∧ t.blk.axes = [] ∧
  ∃ e rest, t.blk.scp.queue = e :: rest ∧ e.code = 1 ∧ e.arg0 = cause

/-- A reset of PD1 to PD11 that ends at once. -/
theorem Block.HeldAs.release {x : Pd0} (h : s.blk.HeldAs x c) (porst : x.porst = false) :
    s.startedUp { s with blk := c }.release x.pendCause x ∧
    (x.pendCause < 2 ^ 32 → s.startsClear { s with blk := c }.release x.pendCause) ∧
    { s with blk := c }.release.nv.pcyc = s.nv.pcyc ∧
    { s with blk := c }.release.blk.get CPR_RST_CAUSE_PREV = s.blk.get CPR_RST_CAUSE_LAST ∧
    ∀ f, f.addr ∈ [aCPR_STRAP, aCPR_CLK_FAIL] → f.lo + f.w ≤ 32 → { s with blk := c }.release.blk.get f = s.blk.get f := by
  have kept {a : Nat} (n : ¬ clockReg a) (own : domainOf a = 0) : c.rd a = s.blk.rd a := (h.rd a n).trans (if_pos own)
  have last : c.get CPR_RST_CAUSE_LAST = s.blk.get CPR_RST_CAUSE_LAST :=
    Block.get_of_rd (f := CPR_RST_CAUSE_LAST) (by decide) (kept (by unfold clockReg; decide) (by decide))
  have page : ∀ a ∈ [aCPR_STRAP, aCPR_CLK_FAIL], ¬ clockReg a ∧ domainOf a = 0 := by unfold clockReg; decide
  have core := h.core
  obtain ⟨r, rfl⟩ : ∃ r, c = { s.blk.core x with regs := r } := ⟨c.regs, core⟩
  obtain ⟨started, released, pcyc⟩ := State.release_startedUp (s := s) (c := { s.blk.core x with regs := r }) rfl rfl rfl
  obtain ⟨-, -, -, -, -, dealt, field, segs, axes⟩ := released.parts
  refine ⟨started, fun small => ⟨dealt, field, segs, axes, ?_⟩, ?_, released.prev.trans last, fun f m narrow => ?_⟩
  · obtain ⟨e, rest, queue, code, -, arg⟩ := released.head rfl
    exact ⟨e, rest, queue, code, arg.trans (Nat.mod_eq_of_lt small)⟩
  · exact pcyc.trans (if_neg (ne_true_of_eq_false porst))
  · obtain ⟨out, apart⟩ := cprReg_far _ m
    obtain ⟨shown, own⟩ := page _ m
    exact Block.get_of_rd narrow ((released.rd out apart).trans (kept shown own))
end

/-! ### The sources of a reset (Table 20.7) -/

theorem exec_porstN (s : State) : exec .porstN s = execPorstN s := by rfl
theorem exec_supplyRise (s : State) : exec .supplyRise s = execSupplyRise s := by rfl
theorem exec_vddAoFall (s : State) : exec .vddAoFall s = execVddAoFall s := by rfl
theorem exec_trstN (s : State) : exec .trstN s = execTrstN s := by rfl
theorem exec_lockstepMismatch (s : State) : exec .lockstepMismatch s = execLockstepMismatch s := by rfl
theorem exec_dealerWatchdog (s : State) : exec .dealerWatchdog s = execDealerWatchdog s := by rfl
theorem exec_resetN (low : Nat) (s : State) : exec (.resetN low) s = execResetN low s := by rfl
theorem exec_resetRelease (mode : BitVec 3) (s : State) : exec (.resetRelease mode) s = execResetRelease mode s := by rfl
theorem exec_devreset (m : Fin 39) (s : State) : exec (.devreset m) s = execDevreset m s := by rfl
theorem exec_hostDeviceReset (s : State) : exec .hostDeviceReset s = execHostDeviceReset s := by rfl
theorem exec_clockRestart (s : State) : exec .clockRestart s = execClockRestart s := by rfl

section
variable {s : State}

/-! #### From inside (R577, R590) -/

section
variable (s) (cause : Nat)

/-- A pin or a dead RC oscillator holds PD1 to PD11 in the reset. -/
theorem State.internalReset_held (pin : s.blk.pd0.porst = true ∨ s.blk.pd0.resetN = true ∨ s.blk.pd0.rcDead = true) :
    s.heldAs (s.internalReset cause) (s.blk.pd0.entered cause) := by
  have held := s.blk.enterReset_held cause
  have pd0 : (s.blk.enterReset cause).pd0 = s.blk.pd0.entered cause := congrArg Block.pd0 held.core
  unfold State.internalReset
  rw [State.onBlk_eq rfl]
  dsimp only
  rw [pd0]
  exact (if_pos pin) ▸ held.heldAs

/-- Otherwise it ends at once. -/
theorem State.internalReset_ends (porst : s.blk.pd0.porst = false) (resetN : s.blk.pd0.resetN = false) (rc : s.blk.pd0.rcDead = false) :
    s.internalReset cause = State.release { s with blk := s.blk.enterReset cause } := by
  have pd0 : (s.blk.enterReset cause).pd0 = s.blk.pd0.entered cause := congrArg Block.pd0 (s.blk.enterReset_held cause).core
  unfold State.internalReset
  rw [State.onBlk_eq rfl]
  dsimp only
  rw [pd0]
  refine if_neg ?_
  simp [Pd0.entered, porst, resetN, rc]

/-- A reset from inside by `cause`. -/
def ResetsInside (c : Instr) : Prop :=
  (s.blk.pd0.porst = true ∨ s.blk.pd0.resetN = true ∨ s.blk.pd0.rcDead = true →
    Completes c s fun t => s.heldAs t (s.blk.pd0.entered cause)) ∧
  (s.blk.pd0.porst = false → s.blk.pd0.resetN = false → s.blk.pd0.rcDead = false → Completes c s fun t =>
    s.startedUp t cause (s.blk.pd0.entered cause) ∧ s.startsClear t cause ∧ t.nv.pcyc = s.nv.pcyc ∧
    t.blk.get CPR_RST_CAUSE_PREV = s.blk.get CPR_RST_CAUSE_LAST ∧ t.blk.get CPR_STRAP = s.blk.get CPR_STRAP)

theorem resetsInside_of {c : Instr} (e : exec c s = .next (s.internalReset cause)) (small : cause < 2 ^ 32) : ResetsInside s cause c := by
  refine ⟨fun pin => ⟨_, e, s.internalReset_held cause pin⟩, fun porst resetN rc => ⟨_, e, ?_⟩⟩
  rw [s.internalReset_ends cause porst resetN rc]
  obtain ⟨started, clear, pcyc, prev, page⟩ := (s.blk.enterReset_held cause).release porst
  exact ⟨started, clear small, pcyc, prev, page CPR_STRAP (by decide) (by decide)⟩
end

/-! #### RESET_N (R587, R589) -/

/-- The draw that RESET_N takes. -/
def Block.drawn (b : Block) : Block := { b with free := b.free + 1 }

/-- RESET_N taken: a reset of PD1 to PD11 that lasts while the pin is low. -/
def Block.pinTaken (b : Block) (low : Nat) : Block :=
  let c := b.drawn.enterReset 3
  c.withPd0 { c.pd0 with resetN := true, resetLow := some (c.up - low) }

/-- RESET_N ignored, but for the draw that decides between 1 µs and 10 µs. -/
def State.pinIgnored (s : State) : State := s.onBlk fun b => { b with free := s.blk.free + 1 }

theorem resetN_ignored {low : Nat} (h : low < 1000 ∨ (low < 10000 ∧ Config.freeBool s.blk.free = true) ∨ s.blk.pd0.resetN = true) :
    exec (.resetN low) s = .next s.pinIgnored := by
  rw [exec_resetN, execResetN]
  exact congrArg _ (State.onBlk_congr (if_pos h))

section
variable {low : Nat} (h : ¬ (low < 1000 ∨ (low < 10000 ∧ Config.freeBool s.blk.free = true) ∨ s.blk.pd0.resetN = true))
include h

/-- PORST_N overrides RESET_N: the pin is only noted. -/
theorem resetN_noted (porst : s.blk.pd0.porst = true) : exec (.resetN low) s = .next (s.onBlk fun b => { b with
    free := s.blk.free + 1, pd0 := { s.blk.pd0 with resetN := true, resetLow := some s.blk.up } }) := by
  rw [exec_resetN, execResetN]
  exact congrArg _ (State.onBlk_congr ((if_neg h).trans (if_pos porst)))

theorem resetN_taken (porst : s.blk.pd0.porst = false) : exec (.resetN low) s = .next { s with blk := s.blk.pinTaken low } := by
  rw [exec_resetN, execResetN]
  exact congrArg _ (State.onBlk_eq ((if_neg h).trans (if_neg (ne_true_of_eq_false porst))))
end

/-- Between 1 µs and 10 µs the draw decides (R587). -/
theorem resetN_cases {low : Nat} (long : 1000 ≤ low) (porst : s.blk.pd0.porst = false) (high : s.blk.pd0.resetN = false) :
    (low < 10000 ∧ exec (.resetN low) s = .next s.pinIgnored) ∨ exec (.resetN low) s = .next { s with blk := s.blk.pinTaken low } := by
  by_cases h : low < 10000 ∧ Config.freeBool s.blk.free = true
  · exact .inl ⟨h.1, resetN_ignored (.inr (.inl h))⟩
  · refine .inr (resetN_taken ?_ porst)
    rintro (k | k | k)
    · exact long.not_gt k
    · exact h k
    · exact absurd (high.symm.trans k) (by decide)

/-- A reset by RESET_N, but for the draw. -/
theorem pinTaken_held (low : Nat) : (s.blk.pinTaken low).free = s.blk.free + 1 ∧
    s.heldAs (({ s with blk := s.blk.pinTaken low } : State).onBlk fun b => { b with free := s.blk.free })
      { s.blk.pd0.entered 3 with resetN := true, resetLow := some (s.blk.up - low) } := by
  obtain ⟨core, off, safe, unforced, rd⟩ := s.blk.drawn.enterReset_held 3
  unfold Block.pinTaken
  generalize s.blk.drawn.enterReset 3 = c at *
  obtain ⟨r, rfl⟩ : ∃ r, c = { s.blk.drawn.core (s.blk.pd0.entered 3) with regs := r } := ⟨c.regs, core⟩
  exact ⟨rfl, rfl, off, safe, unforced, rd⟩
end

section
variable {s : State} {mode : BitVec 3}

/-! #### A pin rises (R35, R587, R591) -/

theorem resetRelease_idle (porst : s.blk.pd0.porst = false) (resetN : s.blk.pd0.resetN = false) :
    exec (.resetRelease mode) s = .next s := by
  rw [exec_resetRelease, execResetRelease]
  refine congrArg _ (if_pos ?_)
  simp [porst, resetN]

/-- With the RC oscillator dead the domains stay in reset. -/
theorem resetRelease_dead (resetN : s.blk.pd0.resetN = true) (dead : s.blk.pd0.rcDead = true) :
    exec (.resetRelease mode) s = .next { s with blk := s.blk.releaseHeld } := by
  rw [exec_resetRelease, execResetRelease]
  exact congrArg _ ((if_neg (not_not_intro (.inr resetN))).trans ((if_pos dead).trans (State.onBlk_eq rfl)))

/-- The hold of RESET_N shown, where the pin was low. -/
def Block.holdShown (b : Block) : Block :=
  match b.pd0.resetLow with
  | some t => b.set CPR_RST_HELD (min ((b.up - t) / 1000000) (2 ^ 32 - 1))
  | none => b

theorem Block.within_holdShown (b : Block) : b.Within (· = aCPR_RST_HELD) b.holdShown := by
  unfold Block.holdShown
  split
  · exact b.within_set_narrow (f := CPR_RST_HELD) _ (by decide) rfl
  · exact .refl _ b

/-- PD0 with RESET_N high. -/
def Pd0.risen (x : Pd0) : Pd0 := { x with resetN := false, resetLow := none }

theorem Block.within_releaseHeld (b : Block) : (b.withPd0 b.pd0.risen).Within (· = aCPR_RST_HELD) b.releaseHeld := by
  have parts : b.releaseHeld = b.holdShown.withPd0 b.holdShown.pd0.risen := by rfl
  rw [parts, b.within_holdShown.1.p_pd0]
  exact b.within_holdShown.withPd0 _

/-- The straps latched at a release of PORST_N. -/
def Block.strapped (b : Block) (mode : BitVec 3) : Block :=
  if b.pd0.porst then (b.set CPR_STRAP mode.toNat).put CPR_STAT_REF_SEL (bit mode.toNat 1) else b

theorem resetRelease_ends (pin : s.blk.pd0.porst = true ∨ s.blk.pd0.resetN = true) (alive : s.blk.pd0.rcDead = false) :
    exec (.resetRelease mode) s = .next (State.release { s with blk := s.blk.strapped mode }) := by
  rw [exec_resetRelease, execResetRelease]
  refine congrArg _ ((if_neg (not_not_intro pin)).trans ((if_neg (ne_true_of_eq_false alive)).trans ?_))
  exact congrArg State.release (State.onBlk_eq rfl)

theorem Block.strapped_spec (b : Block) (mode : BitVec 3) : b.Within (fun a => a = aCPR_STRAP ∨ a = aCPR_STAT) (b.strapped mode) ∧
    (b.strapped mode).get CPR_STRAP = if b.pd0.porst then mode.toNat else b.get CPR_STRAP := by
  unfold Block.strapped
  cases b.pd0.porst with
  | false =>
    rw [if_neg Bool.false_ne_true, if_neg Bool.false_ne_true]
    exact ⟨.refl _ b, rfl⟩
  | true =>
    rw [if_pos rfl, if_pos rfl]
    refine ⟨(b.within_set_narrow (f := CPR_STRAP) _ (by decide) (.inl rfl)).trans
      (Block.within_set_narrow _ (f := CPR_STAT_REF_SEL) _ (by decide) (.inr rfl)), ?_⟩
    refine (Block.get_set_other _ (f := CPR_STAT_REF_SEL) _ (by decide) (by decide) (by decide)).trans ?_
    exact (b.get_set_same CPR_STRAP _ (by decide)).trans (Nat.mod_eq_of_lt mode.isLt)

theorem resetRelease_starts (pin : s.blk.pd0.porst = true ∨ s.blk.pd0.resetN = true) (alive : s.blk.pd0.rcDead = false) :
    Completes (.resetRelease mode) s fun t => s.startedUp t s.blk.pd0.pendCause s.blk.pd0 ∧
      t.blk.get CPR_RST_CAUSE_PREV = s.blk.get CPR_RST_CAUSE_LAST ∧
      t.nv.pcyc = (if s.blk.pd0.porst then satInc 32 s.nv.pcyc else s.nv.pcyc) ∧
      t.blk.get CPR_STRAP = (if s.blk.pd0.porst then mode.toNat else s.blk.get CPR_STRAP) ∧
      ∀ t0, s.blk.pd0.resetLow = some t0 → t.blk.get CPR_RST_HELD = min ((s.blk.up - t0) / 1000000) (2 ^ 32 - 1) ∧
        (10000 < (s.blk.up - t0) / 1000000 → t.blk.flag CPR_EVT_RST_HELD = true) := by
  refine ⟨_, resetRelease_ends pin alive, ?_⟩
  obtain ⟨within, strap⟩ := s.blk.strapped_spec mode
  have pd0 := within.1.p_pd0
  have up := within.1.p_up
  have mem := within.1.p_mem
  have ecc := within.1.p_ecc
  generalize s.blk.strapped mode = c at *
  obtain ⟨started, released, pcyc⟩ := State.release_startedUp (s := s) mem ecc up
  obtain ⟨out, apart⟩ := cprReg_far aCPR_STRAP (by decide)
  rw [pd0] at started pcyc
  refine ⟨started, released.prev.trans (within.get (by decide) (.inl (by decide))), pcyc, ?_, fun t0 low => ?_⟩
  · exact (Block.get_of_rd (f := CPR_STRAP) (by decide) (released.rd out apart)).trans strap
  · rw [← up]
    exact released.hold (pd0 ▸ low)

/-! #### A reset by the host (R588) -/

/-- The register CPR_CTL as the map finds it: write-only fields (Table 20.9). -/
theorem findReg_cprCtl : ∃ r, findReg (homeOf aCPR_CTL) = some r ∧ r.base = aCPR_CTL ∧ r.desc.wide = false ∧
    ∀ f ∈ r.desc.fields, f.basic = .wo ∧ f.expert = .wo := by
  refine ⟨_, rfl, rfl, rfl, ?_⟩
  decide

theorem State.writeN_devReset {m : Fin 39} (h : s.writes m aCPR_CTL 1) : s.writeN m aCPR_CTL 1 = s.onBlk Block.devReset := by
  obtain ⟨r, hf, hb, hn, hw⟩ := findReg_cprCtl
  have e := State.write_reg h rfl (by decide) (by unfold Layout.isRaw; rfl) rfl rfl (by decide) hf hn
  unfold State.writeN
  rw [show BitVec.ofNat 32 1 = (1 : Word) from rfl, e]
  apply State.onBlk_congr
  rw [Block.writeReg_writeOnly _ m _ _ _ (by rw [hb]; decide) hw, hb]
  rfl

end

/-- A device reset is refused in PHASE 7 and while a deck is read, dealt, decided or stored. -/
def Block.refusesReset (b : Block) : Prop :=
  b.get DEV_BOOT_PHASE = 7 ∨ b.get DCK_STAT_STATE = 1 ∨ b.get DCK_STAT_STATE = 2 ∨ b.get DCK_STAT_STATE = 3 ∨ b.get DCK_STAT_STATE = 7

section
variable {s : State} {m : Fin 39} (reaches : s.writes m aCPR_CTL 1)
include reaches

theorem devreset_scheduled (h : ¬ s.blk.refusesReset) : Completes (.devreset m) s fun t =>
    t = s.onBlk fun b => { b with pd0 := { s.blk.pd0 with devResetAt := some (s.blk.pd0.devResetAt.getD (s.blk.up + 1000000)) } } := by
  refine ⟨_, exec_devreset m s, ?_⟩
  rw [State.writeN_devReset reaches]
  exact State.onBlk_congr (if_neg h)

theorem devreset_refused (h : s.blk.refusesReset) : Completes (.devreset m) s fun t =>
    t.blk.flag CPR_EVT_RESET_REF = true ∧ t.blk.pd0 = s.blk.pd0.owing t.blk.pd0.owed ∧
    (s.blk.hostRuns → s.keepsBut t (fun a => a = aCPR_EVT ∨ irqReg 10 a) ∧ s.asserted t 10) ∧
    (¬ s.blk.hostRuns → 10 ∈ t.blk.pd0.owed) := by
  refine ⟨{ s with blk := (s.blk.on CPR_EVT_RESET_REF).cprIrq 10 }, ?_, ?_⟩
  · rw [exec_devreset, execDevreset, State.writeN_devReset reaches]
    exact congrArg _ (State.onBlk_eq (if_pos h))
  have flag : s.blk.Within (· = aCPR_EVT) (s.blk.on CPR_EVT_RESET_REF) :=
    s.blk.within_set_narrow (f := CPR_EVT_RESET_REF) 1 (by decide) rfl
  have one : Regs.get (s.blk.on CPR_EVT_RESET_REF).regs CPR_EVT_RESET_REF = 1 := s.blk.get_set_same CPR_EVT_RESET_REF 1 (by decide)
  have quiet : s.blk.Quiet 10 (s.blk.on CPR_EVT_RESET_REF) :=
    s.blk.quiet_set (by decide) (f := CPR_EVT_RESET_REF) 1 (by decide) (by decide)
  have runs : (s.blk.on CPR_EVT_RESET_REF).hostRuns ↔ s.blk.hostRuns := by
    unfold Block.hostRuns Block.domainOn Block.domainHeld
    have domains (f : Fld) (narrow : f.lo + f.w ≤ 32) (at_ : f.addr = aCPR_PD_STAT) :
        (s.blk.on CPR_EVT_RESET_REF).get f = s.blk.get f := flag.get (by rw [at_]; decide) (.inl narrow)
    rw [domains CPR_PD_STAT_ON (by decide) rfl, domains CPR_PD_STAT_RST (by decide) rfl]
  generalize s.blk.on CPR_EVT_RESET_REF = c at *
  have source := c.owes_cprIrq 10
  refine ⟨?_, ?_, fun host => ⟨?_, ?_⟩, fun off => ?_⟩
  · exact Block.flag_of_one ((source.get (by unfold irqReg; decide) (by decide)).trans one)
  · exact source.pd0.trans (congrArg (Pd0.owing · _) flag.1.p_pd0)
  · rw [Block.cprIrq_asserts (runs.2 host)]
    exact State.keepsBut_of (f := fun _ => c.irq 10) ((flag.mono fun _ => .inl).trans (Block.within_irq _ fun _ => .inr))
  · rw [Block.cprIrq_asserts (runs.2 host)]
    exact quiet.asserted (c.asserted_irq 10)
  · obtain ⟨owed, e, mem⟩ := Block.cprIrq_owes (n := 10) (mt runs.1 off)
    rw [e]
    exact mem
end

section
variable {s : State}

theorem hostDeviceReset_idle (early : ∀ t, s.blk.pd0.devResetAt = some t → s.blk.up < t) : exec .hostDeviceReset s = .next s := by
  rw [exec_hostDeviceReset, execHostDeviceReset]
  refine congrArg _ (if_neg fun due => ?_)
  obtain ⟨t, at_, le⟩ := (Option.any_eq_true _ _).1 due
  exact (early t at_).not_ge (of_decide_eq_true le)

theorem hostDeviceReset_due {t0 : Nat} (at_ : s.blk.pd0.devResetAt = some t0) (due : t0 ≤ s.blk.up) :
    exec .hostDeviceReset s = .next (s.internalReset 7) := by
  rw [exec_hostDeviceReset, execHostDeviceReset]
  exact congrArg _ (if_pos ((Option.any_eq_true _ _).2 ⟨t0, at_, decide_eq_true due⟩))

/-! #### A restart after a clock failure (R578) -/

/-- The restarts of the last 60 minutes. -/
def Block.recentRestarts (b : Block) : List Nat := b.pd0.restarts.filter fun t => b.up < t + 3600000000000

theorem clockRestart_idle (h : (∀ t, s.blk.pd0.goodSince = some t → s.blk.up < t + 100000000) ∨ s.blk.pd0.rcDead = true ∨
    3 ≤ s.blk.recentRestarts.length) : exec .clockRestart s = .next s := by
  rw [exec_clockRestart, execClockRestart]
  refine congrArg _ (if_pos (h.imp_left fun early due => ?_))
  obtain ⟨t, at_, le⟩ := (Option.any_eq_true _ _).1 due
  exact (early t at_).not_ge (of_decide_eq_true le)

/-- PD0 with the restarts of the last 60 minutes. -/
def Pd0.restarted (x : Pd0) (l : List Nat) : Pd0 := { x with restarts := l }

/-- A restart counted. -/
def Block.restartCounted (b : Block) : Block :=
  (b.withPd0 (b.pd0.restarted (b.recentRestarts ++ [b.up]))).set CPR_CLK_FAIL_RESTARTS (b.recentRestarts.length + 1)

theorem clockRestart_due {t0 : Nat} (at_ : s.blk.pd0.goodSince = some t0) (due : t0 + 100000000 ≤ s.blk.up) (rc : s.blk.pd0.rcDead = false)
    (few : s.blk.recentRestarts.length < 3) :
    exec .clockRestart s = .next (State.internalReset { s with blk := s.blk.restartCounted } 4) := by
  rw [exec_clockRestart, execClockRestart]
  refine congrArg _ ((if_neg ?_).trans (congrArg (State.internalReset · 4) (State.onBlk_eq rfl)))
  rintro (early | dead | many)
  · exact early ((Option.any_eq_true _ _).2 ⟨t0, at_, decide_eq_true due⟩)
  · exact absurd (rc.symm.trans dead) (by decide)
  · exact few.not_ge many

theorem Block.within_restartCounted (b : Block) :
    (b.withPd0 (b.pd0.restarted (b.recentRestarts ++ [b.up]))).Within (· = aCPR_CLK_FAIL) b.restartCounted :=
  Block.within_set_narrow _ (f := CPR_CLK_FAIL_RESTARTS) _ (by decide) rfl

/-- What a start-up takes over it takes from parts other than PD0 and the registers. -/
theorem State.startedUp_of {c : Block} {t : State} {cause : Nat} (rest : c = { s.blk with regs := c.regs, pd0 := c.pd0 }) {x : Pd0}
    (h : State.startedUp { s with blk := c } t cause x) : s.startedUp t cause x := by
  generalize c.regs = r at rest
  generalize c.pd0 = y at rest
  subst rest
  exact h

theorem State.startsClear_of {c : Block} {t : State} {cause : Nat} (field : c.field = s.blk.field)
    (h : State.startsClear { s with blk := c } t cause) : s.startsClear t cause := by
  obtain ⟨dealt, shown, others⟩ := h
  exact ⟨dealt, field ▸ shown, others⟩

theorem clockRestart_restarts {t0 : Nat} (at_ : s.blk.pd0.goodSince = some t0) (due : t0 + 100000000 ≤ s.blk.up)
    (rc : s.blk.pd0.rcDead = false) (few : s.blk.recentRestarts.length < 3) (porst : s.blk.pd0.porst = false)
    (resetN : s.blk.pd0.resetN = false) : Completes .clockRestart s fun t =>
      s.startedUp t 4 ((s.blk.pd0.entered 4).restarted (s.blk.recentRestarts ++ [s.blk.up])) ∧ s.startsClear t 4 ∧
      t.nv.pcyc = s.nv.pcyc ∧ t.blk.get CPR_CLK_FAIL_RESTARTS = s.blk.recentRestarts.length + 1 ∧
      t.blk.get CPR_RST_CAUSE_PREV = s.blk.get CPR_RST_CAUSE_LAST := by
  refine ⟨_, clockRestart_due at_ due rc few, ?_⟩
  have counted : s.blk.restartCounted.get CPR_CLK_FAIL_RESTARTS = s.blk.recentRestarts.length + 1 :=
    (Block.get_set_same _ CPR_CLK_FAIL_RESTARTS _ (by decide)).trans
      (Nat.mod_eq_of_lt (show _ < 256 by omega))
  have within := s.blk.within_restartCounted
  have cause : s.blk.restartCounted.get CPR_RST_CAUSE_LAST = s.blk.get CPR_RST_CAUSE_LAST := within.get (by decide) (.inl (by decide))
  have pd0 : s.blk.restartCounted.pd0 = s.blk.pd0.restarted (s.blk.recentRestarts ++ [s.blk.up]) := within.1.p_pd0
  have rest : s.blk.restartCounted = { s.blk with regs := s.blk.restartCounted.regs, pd0 := s.blk.restartCounted.pd0 } := by
    rw [pd0]
    exact within.1
  generalize s.blk.restartCounted = c at *
  obtain ⟨porst, resetN, rc⟩ : c.pd0.porst = false ∧ c.pd0.resetN = false ∧ c.pd0.rcDead = false := by
    rw [pd0]
    exact ⟨porst, resetN, rc⟩
  have entered : c.pd0.entered 4 = (s.blk.pd0.entered 4).restarted (s.blk.recentRestarts ++ [s.blk.up]) := by
    rw [pd0]
    rfl
  have small : 4 < 2 ^ 32 := by decide
  obtain ⟨started, clear, pcyc, prev, page⟩ := (Block.enterReset_held c 4).release (s := { s with blk := c }) porst
  rw [State.internalReset_ends { s with blk := c } 4 porst resetN rc, ← entered]
  exact ⟨State.startedUp_of rest started, State.startsClear_of within.1.p_field (clear small), pcyc,
    (page CPR_CLK_FAIL_RESTARTS (by decide) (by decide)).trans counted, prev.trans cause⟩
end

/-- Settles O58: every source of a reset by what it enters, holds and releases. -/
theorem resets : Obligations.Resets := by
  unfold Obligations.Resets
  intro s m low t0 mode b p core off power entered clocks held released cleared inside
  have powered (cause : Nat) (c : Instr) (e : exec c s = .next (s.onBlk (·.enterPowerReset cause))) : power cause c := by
    obtain ⟨core, down, rd⟩ := s.blk.enterPowerReset_spec cause
    exact ⟨_, e, State.eq_of rfl rfl core, down, rd⟩
  refine ⟨powered 2 _ (exec_porstN s), powered 1 _ (exec_supplyRise s), powered 1 _ (exec_vddAoFall s),
    resetsInside_of s 5 (exec_lockstepMismatch s) (by decide), resetsInside_of s 6 (exec_dealerWatchdog s) (by decide),
    ⟨_, exec_trstN s, rfl⟩, fun h => ⟨_, resetN_ignored (h.imp_right .inr), rfl⟩, fun long high => ⟨fun porst => ?_, fun porst => ?_⟩,
    fun short long porst high => ?_, fun porst high => ⟨_, resetRelease_idle porst high, rfl⟩, fun low dead => ?_, fun pin alive => ?_,
    fun reaches => ⟨fun refused => ?_, fun phase s1 s2 s3 s7 => ?_⟩, fun early => ⟨_, hostDeviceReset_idle early, rfl⟩,
    fun at_ due => resetsInside_of s 7 (hostDeviceReset_due at_ due) (by decide), fun idle => ⟨_, clockRestart_idle idle, rfl⟩,
    fun at_ due rc few porst resetN => clockRestart_restarts at_ due rc few porst resetN⟩
  · refine ⟨_, resetN_noted ?_ porst, rfl⟩
    rintro (k | k | k)
    · exact absurd (Nat.lt_trans k (by decide)) long.not_gt
    · exact long.not_gt k.1
    · exact absurd (high.symm.trans k) (by decide)
  · rcases resetN_cases (Nat.le_trans (by decide) long) porst high with ⟨short, -⟩ | e
    · exact absurd short long.not_gt
    · exact ⟨_, e, pinTaken_held low⟩
  · rcases resetN_cases short porst high with ⟨-, e⟩ | e
    · exact ⟨_, e, .inl rfl⟩
    · exact ⟨_, e, .inr (pinTaken_held low).2⟩
  · exact ⟨_, resetRelease_dead low dead, State.keepsBut_onBlk (g := fun b => b.withPd0 p.risen) s.blk.within_releaseHeld⟩
  · obtain ⟨t, e, started, prev, pcyc, strap, hold⟩ := resetRelease_starts pin alive
    exact ⟨t, e, started, prev, pcyc, strap, hold t0⟩
  · obtain ⟨t, e, flag, pd0, host, off⟩ := devreset_refused reaches refused
    refine ⟨t, e, flag, pd0, host, fun down => off ?_⟩
    rintro ⟨on, held⟩
    rcases down with down | down
    · exact absurd (on.symm.trans down) (by decide)
    · exact absurd (held.symm.trans down) (by decide)
  · refine devreset_scheduled reaches ?_
    rintro (k | k | k | k | k)
    exacts [phase k, s1 k, s2 k, s3 k, s7 k]

end Sys2Proof.Machine
end
